-- ==== Sys2Proof/Word.lean ====
section
/-!
DEFINITION. The machine's words (what the manual treats as bits) and the plain conversions between them and numbers.
-/

namespace Sys2Proof

/-- One byte. -/
abbrev Byte := BitVec 8
/-- One 32-bit register or frame word. -/
abbrev Word := BitVec 32
/-- One 64-bit general register, state register or memory word. -/
abbrev DWord := BitVec 64

/-- The bit of a truth value. -/
def bit (b : Bool) : Nat := if b then 1 else 0

/-- A number seen as a word of `w` bits in two's complement. -/
def toSigned (w x : Nat) : Int := if x % 2 ^ w < 2 ^ (w - 1) then (x % 2 ^ w : Nat) else (x % 2 ^ w : Nat) - (2 ^ w : Nat)

/-- A value held inside limits, where the manual says that one outside acts as the nearer limit. -/
def clampNat (lo hi x : Nat) : Nat := if x < lo then lo else if hi < x then hi else x

end Sys2Proof
end

