-- ==== Sys2Proof/Syntax.lean ====
section
/-!
DEFINITION. The commands the part takes, as syntax: their operands and the one inductive type of them.

Operands that are field values of an instruction word or of a register are bit vectors. Operands that name a part of
the module (a core, a lane, a ring) are finite numbers. Operands that stand for what the world outside shows the module
(a received frame, a measured value, the result of a check the manual names without giving its inputs) are plain data.
-/

namespace Sys2Proof

/-! ### Operands of the Helin instructions -/

/-- What the L1 parity check finds at an access (R13). -/
inductive Parity where
  | ok
  /-- One error: the line is invalidated and refetched. -/
  | once
  /-- The line fails again on the refetch. -/
  | twice
  deriving DecidableEq, Repr

/-- What the codes below the L1 caches find at an access (R112). -/
inductive Ecc where
  | clean
  /-- A correctable error of the memory the address lies in. -/
  | corrected
  /-- An uncorrectable error of that memory. -/
  | uncorrectable
  /-- A correctable error in L2. -/
  | l2Corrected
  /-- An uncorrectable error in a clean L2 line: refetched, no trap. -/
  | l2Clean
  /-- An uncorrectable error in a dirty L2 line: machine check, line lost. -/
  | l2Dirty
  /-- The write of an atomic meets an uncorrectable fault (R80). -/
  | writeFault
  deriving DecidableEq, Repr

/-- Where and under what findings of the memory checks an instruction executes: the core, and what the checks of its
fetch and of its data access find. -/
structure Site where
  core : Fin 12
  fetchL1 : Parity := .ok
  fetchEcc : Ecc := .clean
  dataL1 : Parity := .ok
  dataEcc : Ecc := .clean
  /-- The word that the fetch delivers, where it spells no instruction (R85). -/
  word : Option Word := none
  /-- Hardware updates the register that a store writes in the same cycle (R42). -/
  lost : Bool := false
  deriving DecidableEq, Repr

/-- Sizes of the integer loads and stores (R76). -/
inductive Size where
  | byte
  | half
  | word
  | dword
  deriving DecidableEq, Repr

/-- Conditions of the branches (R75). -/
inductive Cond where
  | eq
  | ne
  | lt
  | ge
  deriving DecidableEq, Repr

/-! ### Operands of the local inputs and outputs -/

/-- What one sampling instant of the safety inputs and outputs finds (R359, R366). -/
structure DioSample where
  /-- Converter readings of DI0 to DI15 in nA. -/
  adc : List Int
  /-- Read-back of each output, outputs whose on-state current is above 0.8 A, and outputs whose command has not changed
  for 250 µs. -/
  back : BitVec 8
  excess : BitVec 8
  settled : BitVec 8
  /-- Time since the start of the test run in progress, in µs. -/
  since : Nat
  deriving DecidableEq, Repr

/-- Why a test run starts (R353, R355). -/
inductive RunCause where
  | startup
  | periodic
  | recovery
  /-- Started by a guard-opening test. -/
  | guardTest
  deriving DecidableEq, Repr

/-- What one measurement of a current-loop channel finds (R377). -/
structure LoopMeasure where
  /-- Loop current in nA. -/
  current : Nat
  /-- Voltage across the terminals in mV. -/
  volts : Int
  /-- Voltage of the adaptive supply in mV. -/
  supply : Nat
  /-- The channel delivers the largest current it can, for one of the reasons of R378. -/
  limited : Bool
  /-- No change of drive in the last 500 µs. -/
  settled : Bool
  deriving DecidableEq, Repr

/-! ### Who performs a register access (R33, R426) -/

/-- The initiator of a register access, as its port's identity names it. -/
inductive Initiator where
  /-- K-level code on a core: the runtime, or a routine of a free placement. -/
  | core (c : Fin 12)
  /-- The bridge, for a request of a LAP channel. -/
  | lap (n : Fin 16)
  | bellows
  /-- A DMA channel. -/
  | dma (n : Fin 16)
  deriving DecidableEq, Repr

/-- A register write as it reaches a block: its initiator, and whether hardware updates the register in the same cycle (R42). -/
structure Writer where
  who : Initiator
  lost : Bool := false
  deriving DecidableEq, Repr

/-- What a DMA element meets: what the codes find, and whether hardware updates the register that it writes in the same cycle. -/
structure ElementFinding where
  ecc : Ecc
  lost : Bool := false
  deriving DecidableEq, Repr


/-- Which state copy starts or ends (R174, R176, R188). -/
inductive CopyJob where
  /-- The next triad of a rejoining lane. -/
  | rejoin (lane : Fin 3)
  /-- The lane that joins a triad at a mode change or at a re-forming. -/
  | join (triad : Fin 4)
  /-- A task that changes its placement. -/
  | place (task : Fin 64)
  deriving DecidableEq, Repr


/-! ### PTP messages (R294) -/

/-- A PTP message's standing data set: what BMCA compares of a master (R294). -/
structure PtpMaster where
  identity : Nat
  priority1 : Nat
  clockClass : Nat
  accuracy : Nat
  variance : Nat
  priority2 : Nat
  stepsRemoved : Nat
  /-- clockIdentity and port number of the sender of the Announce. -/
  sender : Nat
  senderPort : Nat
  utcOffset : Int
  deriving DecidableEq, Repr

/-- A received PTP message other than Sync. Times are in units of 2^-16 ns; raw times are stamps at the MAC side (R289). -/
inductive PtpMsg where
  | announce (m : PtpMaster)
  /-- A Delay_Req that asks this port, and the raw time of its arrival. -/
  | delayReq (requester requesterPort seq : Nat) (raw : Int)
  /-- The answer to this port's Delay_Req, and its receive time at the master. -/
  | delayResp (t4 : Int)
  /-- A Pdelay_Req, the raw time of its arrival, and the raw time at which its answer leaves. -/
  | pdelayReq (requester requesterPort seq : Nat) (raw sent : Int)
  /-- The answer to this port's Pdelay_Req: arrival and departure at the peer, and the raw time of arrival here. -/
  | pdelayResp (t2 t3 raw : Int)
  deriving DecidableEq, Repr

/-- Messages a port sends of its own accord (R294). -/
inductive PtpKind where
  /-- A Sync with its Follow_Up. -/
  | sync
  | announce
  | delayReq
  | pdelayReq
  deriving DecidableEq, Repr

/-! ### Queue blocks (13_queues.md) -/

/-- An instance of the queue block (R325). -/
inductive QueueId where
  /-- Ring port nE, or nW. -/
  | ring (n : Fin 6) (west : Bool)
  | bridge (n : Fin 16)
  | coupler (l : Fin 4)
  deriving DecidableEq, Repr

/-- How a packet ends in a queue bank (R328, R334). -/
inductive PacketEnd where
  | good
  /-- The frame check failed. -/
  | badCheck
  /-- The packet was cut (R247). -/
  | cut
  | linkLost
  /-- An uncorrectable error was found in the bank. -/
  | ecc
  deriving DecidableEq, Repr

namespace Machine

/-! ### Programs and change packages, which CHGLOAD brings (05_memory_dma.md, 06_tasks_frame.md,
08_restart_change_modes.md) -/

/-- One entry of a task's slice table (R120). -/
structure Slice where
  start : Nat
  count : Nat
  /-- KIND: analog. -/
  analog : Bool
  /-- DIR: output area. -/
  output : Bool
  /-- AREA: byte offset of the first cell in the lane region. -/
  area : Nat
  deriving DecidableEq, Repr

/-- Where the leaf of a mapping lies: at an offset of the program bank that is active, at an address of lane A's regions whose
counterpart each lane maps (R135), or at an address that is the same in every lane. -/
inductive MapSpace where
  | bank
  | lane
  | fixed
  deriving DecidableEq, Repr

/-- A mapping of a task (R131, R136): virtual address, level of its leaf, where it lies, and the rights of the leaf. -/
structure Mapping where
  va : Nat
  level : Nat
  space : MapSpace
  base : Nat
  r : Bool
  w : Bool
  x : Bool
  t : Bool
  deriving DecidableEq, Repr

/-- What the loaded program says of one task. -/
structure TaskProg where
  slices : List Slice
  /-- What names the task's code: two programs with equal numbers have the same code. -/
  code : Nat
  /-- Physical address of the slice table (sr.ISLICE). -/
  isliceAddr : Nat
  entry : DWord
  /-- Physical address of the level-1 table in lanes A, B and C (R135). -/
  ptbase : List Nat
  /-- Physical address of the task's voted copy in the Anvil work area (R157). -/
  votedCopy : Nat
  /-- Lane data the task maps writable: offset and length in the DRAM lane region (R188). -/
  laneData : List (Nat × Nat)
  /-- Retained variables: offset and length in the MRAM lane region (R188). -/
  retained : List (Nat × Nat)
  /-- Initial values: whether retained, offset in the lane region, byte. -/
  init : List (Bool × Nat × Byte)
  /-- Layout identifier of the retained area (R205) and its offset in the MRAM lane region, 4 bytes. -/
  layoutId : Nat
  layoutAt : Nat
  /-- Offsets in the program bank of the code and constant pages the task maps (R129). -/
  pages : List Nat
  /-- The task has routines that run at K (R58). -/
  kCode : Bool
  /-- What the task maps (R131, R136). -/
  maps : List Mapping
  /-- The task group as the program defines it: FRM_TDEF, FRM_TCFG and FRM_TDL. -/
  group : Word × Word × Word
  deriving DecidableEq, Repr

/-- A program image. -/
structure Program where
  tasks : List (Nat × TaskProg)
  /-- Mode and odd lane the program names for each triad (R204). -/
  modes : List (Nat × Nat)
  /-- Declared host cells: analog, first index, count (R305, R417). -/
  hostCells : List (Bool × Nat × Nat)
  /-- Code and constants: offset in the program bank, byte. -/
  image : List (Nat × Byte)
  deriving DecidableEq, Repr

/-- One entry of a migration table (R221). -/
structure Migration where
  op : Nat
  task : Nat
  space : Nat
  src : Nat
  dst : Nat
  len : Nat
  deriving DecidableEq, Repr

/-- A change package in the inactive banks (R221, R222). -/
structure Package where
  program : Program
  forward : List Migration
  reverse : List Migration
  /-- Bits [31:0] of the SM3 digest of the package (R218). -/
  digest : Word
  /-- The package affects a SAFE task (R223). -/
  safe : Bool
  /-- VERSION of the program image (R475). -/
  version : Word
  deriving DecidableEq, Repr

/-- What a configuration image holds (R473): register values, words of the Signal Map Table by 4 × entry + word, and bytes of
image memory by physical address. -/
structure ConfigData where
  regs : List (Nat × Word)
  smap : List (Nat × Word)
  bytes : List (Nat × Byte)
  deriving DecidableEq, Repr

/-- One entry of the force table (R215). -/
structure Force where
  analog : Bool
  index : Nat
  output : Bool
  value : Word
  deriving DecidableEq, Repr

end Machine


/-! ### LAP (12_bridge_lap.md) -/

/-- A LAP request as it reaches the bridge (R297), without its OP, which the command names. -/
structure LapRequest where
  /-- Backbone port 0 to 3, or M0 (4). -/
  via : Fin 5
  /-- Source address and port, as one number. -/
  peer : Nat
  sid : Word
  dcnt : DWord
  reqid : Word
  seq : Word
  ver : Byte
  flags : BitVec 16
  /-- RCPT, FCNT and STATUS of the header, which no request uses. -/
  rcpt : Word
  fcnt : Word
  status : BitVec 16
  plen : BitVec 16
  /-- The bytes between the header and the last 12, and those. -/
  payload : List Byte
  mac : List Byte
  deriving DecidableEq, Repr

/-- Why a backbone packet goes to no consumer (R296, R511). -/
inductive Discard where
  /-- Not addressed to the port or to broadcast, a PTP address on a port that is none, or another EtherType. -/
  | noConsumer
  /-- IPv4 traffic that the bridge does not accept. -/
  | malformed
  | badFcs
  deriving DecidableEq, Repr

/-! ### Bellows (20_bellows.md, 22_update_identity.md) -/

/-- What a step of the staged start finds (R443, R479). -/
structure StageFinding where
  /-- The parts of the step that pass: bit 0 for a unit of its own, else one bit for each ring, port or link. -/
  good : BitVec 6
  /-- At step 0: banks whose header and digest verify, bit 2 × component + bank. -/
  verified : BitVec 10
  /-- The image of a PENDING package: its signature verifies, and its copy in the bank reads back equal. -/
  sigOk : Bool
  copyOk : Bool
  /-- What that image holds, if it is a program or a configuration. -/
  program : Machine.Program
  config : Machine.ConfigData
  /-- At step 0: the CRCs of the stored calibrations check: of the time stamps, of the inputs, of the current loops (R290, R372,
  R374). -/
  calib : BitVec 3 := 7
  deriving DecidableEq, Repr

/-- One image of a recovery package, as its check finds it (R485). -/
structure RecoveryImage where
  sigOk : Bool
  copyOk : Bool
  program : Machine.Program
  config : Machine.ConfigData
  deriving DecidableEq, Repr

namespace Machine

/-! ### What the coupler carries (17_redundant_pair.md); R388 names the items, and the manual gives no coding for them -/

/-- A far-side failure (R317, R318). -/
structure Failure where
  ring : Nat
  station : Nat
  code : Nat
  fseq : Nat
  discards : Nat
  lastDisc : Nat
  deriving DecidableEq, Repr

/-- An outstanding fetch as a record carries it: its address, the words it asks for, and the MGMT SEQ of its command (R315). -/
structure PairRead where
  ring : Nat
  station : Nat
  addr : Nat
  count : Nat
  seq : Nat
  sideEffect : Bool
  deriving DecidableEq, Repr

/-- A value of the orphan-read buffer (R314). -/
structure Orphan where
  channel : Nat
  ring : Nat
  station : Nat
  addr : Nat
  value : Word
  /-- The first READ has returned the value. -/
  taken : Bool
  deriving DecidableEq, Repr

/-- Task state of a record (R388). -/
structure PairTask where
  /-- sr.FRELEASE of the last release, and its network time in ns. -/
  release : Nat
  netTime : Nat
  /-- SAFE_STOP, whether the last cycle overran, and FRM_TSTAT.OVR. -/
  stopped : Bool
  overran : Bool
  flagged : Bool
  opened : Nat
  closed : Nat
  place : Nat
  placed : Bool
  deriving DecidableEq, Repr

/-- An item of a record or of a full copy (R388). -/
inductive PairItem where
  /-- A cell of the published output image, as stored. -/
  | cell (analog : Bool) (index value : Nat)
  /-- Bytes of the published output image, from an offset. -/
  | image (offset : Nat) (data : List Byte)
  /-- Bytes of a task's voted copy, from an offset. -/
  | voted (task offset : Nat) (data : List Byte)
  /-- A line of lane data, or of retained variables, by its offset in the lane region. -/
  | line (retained : Bool) (offset : Nat) (data : List Byte)
  | task (n : Nat) (t : PairTask)
  /-- A host cell, as stored. -/
  | host (analog : Bool) (index value : Nat)
  /-- The lines of one journal entry. -/
  | journal (line : Nat) (data : List Byte)
  | purge
  /-- Failure list and fences of a channel: its failures, whether every stream is fenced, the stations fenced, and the fetches that
  are outstanding (R315). -/
  | bridge (channel : Nat) (failures : List Failure) (full : Bool) (fenced : List (Nat × Nat)) (reads : List PairRead)
  | orphans (l : List Orphan)
  /-- Mailbox storage of a channel: BIND, HDR, STAT, HSEQ, ACK and the data words. -/
  | mailbox (channel : Nat) (words : List Word)
  | register (addr : Nat) (value : Word)
  | forces (l : List Force)
  /-- A change package that the active module has loaded (R324). -/
  | package (p : Package)
  /-- States of stations, SCHEDID and break state of a ring. -/
  | ring (n : Nat) (states : List (Nat × Nat)) (schedid : Word) (brk : Word)
  /-- An online change switches at a tick (R408). -/
  | switchAt (tick : Nat)
  /-- An item that has been applied already: what a standby keeps of a packet that it needs no more than the number of. -/
  | applied
  deriving DecidableEq, Repr

end Machine

/-- The header of a coupler packet as it arrives (R387), without its TYPE, which the command names. -/
structure PairHead where
  link : Fin 4
  /-- The CRC is right, TYPE is not reserved and the items are well formed. -/
  ok : Bool
  pepoch : BitVec 16
  fcnt : Word
  pseq : Nat
  deriving DecidableEq, Repr

/-- A capability word as it arrives (R454): the digests of the active program bank and of the configuration as bytes. -/
structure CapWord where
  compat : Word
  alternate : Bool
  dhrings : BitVec 6
  version : Word
  lowest : Word
  highest : Word
  program : List Byte
  config : List Byte
  formats : List Nat
  deriving DecidableEq, Repr

/-- What a HEALTH packet reports (R400). -/
structure PairHealth where
  pstate : BitVec 2
  available : BitVec 3
  safefail : Bool
  cmpfault : Bool
  strike : Bool
  temper : Bool
  offset : Int
  applied : Word
  soak : Nat
  health : Word
  deriving DecidableEq, Repr

/-- Kinds of a REQUEST for a switch (R405, R407). -/
inductive SwitchKind where
  | takeover
  | handBack
  /-- CPL_COMMAND.SWITCH of an active module. -/
  | planned
  deriving DecidableEq, Repr


/-- The commands of the part, one constructor per row of spec/opcode_table.json (the rule each follows stands beside it). -/
inductive Instr where
  /-- TICK, R156: At each grid instant the frame scheduler switches the live input bank, advances the frame count, marks due tasks, raises TICK and starts the snapshot copier. -/
  | tick
  /-- SNAPSHOT_COPY_COMPLETE, R156: The snapshot and output-area copy of one task completes, and its cores may start the cycle. -/
  | snapshotCopyComplete (ns : BitVec 24)
  /-- DEADLINE, R162: A task deadline passes without publication, so the task overruns, DEADLINE is raised and the cycle is closed or carried. -/
  | deadline (task : Fin 64)
  /-- CLOSE_PHASE, R151: The close phase begins, the skew windows close and the coupler closes the frame record. -/
  | closePhase (upset okX okY : Bool)
  /-- CHECKPOINT_RECORD, R181: A checkpoint record arrives at the Anvils and is sorted by epoch and voted. -/
  | checkpointRecord (core : Fin 12) (crcX crcY : Bool)
  /-- TASK_FAULT_REPORT, R165: A fault report of a lane arrives at the Anvils in place of a checkpoint. -/
  | taskFaultReport (core : Fin 12) (crcX crcY : Bool)
  /-- SKEW_WINDOW_CLOSE, R179: The skew window of a cycle closes and missing lanes are judged. -/
  | skewWindowClose (task : Fin 64) (agree : Bool)
  /-- QUENCH_TEST_START, R185: The quench test of a fenced lane starts once all its cores have stopped. -/
  | quenchTestStart (lane : Fin 3)
  /-- QUENCH_TEST_END, R186: The quench test ends with PASS or FAIL and the lane goes to REJOIN, AVAILABLE or OUT. -/
  | quenchTestEnd (lane : Fin 3) (pass : Bool)
  /-- REJOIN_COPY_START, R188: The state copy of the next triad into a rejoining lane starts when its conditions hold. -/
  | rejoinCopyStart (job : CopyJob)
  /-- REJOIN_COPY_END, R188: A triad copy completes or is abandoned, and the triad rejoins at the next tick. -/
  | rejoinCopyEnd (job : CopyJob)
  /-- INTERRUPT, R72: A pending interrupt is taken at an instruction boundary and enters the runtime at K. -/
  | interrupt (c : Fin 12) (line : Fin 12)
  /-- ADDI, R65: Adds a sign-extended immediate to a register. -/
  | addi (x : Site) (rd ra : BitVec 5) (imm : BitVec 17)
  /-- ANDI, R65: ANDs a zero-extended immediate with a register. -/
  | andi (x : Site) (rd ra : BitVec 5) (imm : BitVec 17)
  /-- ORI, R65: ORs a zero-extended immediate with a register. -/
  | ori (x : Site) (rd ra : BitVec 5) (imm : BitVec 17)
  /-- LUI, R65: Places an immediate at bits [31:15] and sign-extends it. -/
  | lui (x : Site) (rd ra : BitVec 5) (imm : BitVec 17)
  /-- OP, R73: Performs an integer register operation selected by func. -/
  | op (x : Site) (func : BitVec 12) (rd ra rb : BitVec 5)
  /-- LOAD, R76: LB, LH, LW or LD loads a sign-extended value from memory. -/
  | load (x : Site) (size : Size) (rd ra : BitVec 5) (off : BitVec 17)
  /-- STORE, R76: SB, SH, SW or SD stores the low bytes of a register. -/
  | store (x : Site) (size : Size) (rs ra : BitVec 5) (off : BitVec 17)
  /-- FLOAD, R76: FLW or FLD loads a floating-point register from memory. -/
  | fload (x : Site) (dbl : Bool) (rd ra : BitVec 5) (off : BitVec 17)
  /-- FSTORE, R76: FSW or FSD stores a floating-point register to memory. -/
  | fstore (x : Site) (dbl : Bool) (rs ra : BitVec 5) (off : BitVec 17)
  /-- BRANCH, R75: BEQ, BNE, BLT or BGE branches on a register comparison. -/
  | branch (x : Site) (cond : Cond) (ra rb : BitVec 5) (off : BitVec 17)
  /-- JAL, R75: Jumps relative to pc and writes the return address to h1. -/
  | jal (x : Site) (off : BitVec 27)
  /-- JALR, R75: Jumps to a register plus offset and writes the return address. -/
  | jalr (x : Site) (rd ra : BitVec 5) (imm : BitVec 17)
  /-- FP, R81: Performs a floating-point operation selected by func. -/
  | fp (x : Site) (func : BitVec 12) (rd ra rb : BitVec 5)
  /-- ATOM, R79: Performs an indivisible read-modify-write on an aligned memory word. -/
  | atom (x : Site) (func : BitVec 12) (rd ra rb : BitVec 5)
  /-- TRET, R70: Returns from a trap by loading sr.STATUS from sr.TSTATUS and continuing at sr.TPC. -/
  | tret (x : Site) (r : BitVec 5) (sr : BitVec 10)
  /-- WAIT, R84: Gates the core's clocks until an interrupt is pending. -/
  | wait (x : Site) (r : BitVec 5) (sr : BitVec 10)
  /-- BRK, R84: Raises the breakpoint trap. -/
  | brk (x : Site) (r : BitVec 5) (sr : BitVec 10)
  /-- FENCE, R84: Performs every earlier load and store before any later one. -/
  | fence (x : Site) (r : BitVec 5) (sr : BitVec 10)
  /-- IFENCE, R84: Discards the instruction L1 and the fetch buffer. -/
  | ifence (x : Site) (r : BitVec 5) (sr : BitVec 10)
  /-- MFSR, R61: Reads a state register into a general register. -/
  | mfsr (x : Site) (rd : BitVec 5) (sr : BitVec 10)
  /-- MTSR, R61: Writes the RW fields of a state register. -/
  | mtsr (x : Site) (ra : BitVec 5) (sr : BitVec 10)
  /-- PLD, R93: Loads a digital point's value and tag from the task's slices. -/
  | pld (x : Site) (rd rq : BitVec 5) (idx : BitVec 17)
  /-- PST, R93: Stores a digital point's value and tag into the lane output image. -/
  | pst (x : Site) (rd rq : BitVec 5) (idx : BitVec 17)
  /-- ALD, R94: Loads an analog word sign-extended, with its tag. -/
  | ald (x : Site) (rd rq : BitVec 5) (idx : BitVec 14)
  /-- ALDU, R94: Loads an analog word zero-extended, with its tag. -/
  | aldu (x : Site) (rd rq : BitVec 5) (idx : BitVec 14)
  /-- AST, R94: Stores an analog word and its tag. -/
  | ast (x : Site) (rd rq : BitVec 5) (idx : BitVec 14)
  /-- ALDF, R94: Loads an analog word into a floating-point register, with its tag. -/
  | aldf (x : Site) (rd rq : BitVec 5) (idx : BitVec 14)
  /-- ASTF, R94: Stores a floating-point register as an analog word with a tag. -/
  | astf (x : Site) (rd rq : BitVec 5) (idx : BitVec 14)
  /-- PLDX, R96: Loads the packed form of a digital point named by a register. -/
  | pldx (x : Site) (rd ra rb : BitVec 5)
  /-- PSTX, R96: Stores a packed digital point named by a register. -/
  | pstx (x : Site) (rd ra rb : BitVec 5)
  /-- ALDX, R96: Loads the packed form of an analog word named by a register. -/
  | aldx (x : Site) (rd ra rb : BitVec 5)
  /-- ASTX, R96: Stores a packed analog word named by a register. -/
  | astx (x : Site) (rd ra rb : BitVec 5)
  /-- PLDB, R96: Loads the values of up to 64 digital points as a bit field. -/
  | pldb (x : Site) (rd ra rb : BitVec 5)
  /-- PTGB, R96: Returns a bit per point whose tag is not V. -/
  | ptgb (x : Site) (rd ra rb : BitVec 5)
  /-- PTOR, R96: Returns the OR of the tags of a range of points. -/
  | ptor (x : Site) (rd ra rb : BitVec 5)
  /-- PSTB, R96: Stores a bit field into up to 64 digital points with one tag. -/
  | pstb (x : Site) (rd ra rb : BitVec 5)
  /-- PCPY, R97: Copies a range of digital points with their tags. -/
  | pcpy (x : Site) (rd ra rb : BitVec 5)
  /-- ACPY, R97: Copies a range of analog words with their tags. -/
  | acpy (x : Site) (rd ra rb : BitVec 5)
  /-- TON, R104: Evaluates an on-delay timer record. -/
  | ton (x : Site) (rd ra rb : BitVec 5)
  /-- TOF, R104: Evaluates an off-delay timer record. -/
  | tof (x : Site) (rd ra rb : BitVec 5)
  /-- TP, R104: Evaluates a pulse timer record. -/
  | tp (x : Site) (rd ra rb : BitVec 5)
  /-- EDGR, R105: Reports a rising edge of a tagged input. -/
  | edgr (x : Site) (rd ra rb : BitVec 5)
  /-- EDGF, R105: Reports a falling edge of a tagged input. -/
  | edgf (x : Site) (rd ra rb : BitVec 5)
  /-- EDGB, R105: Reports either edge of a tagged input. -/
  | edgb (x : Site) (rd ra rb : BitVec 5)
  /-- CKPT, R107: Seals the cycle signature, sends the checkpoint to both Anvils, closes the cycle and enters K. -/
  | ckpt (x : Site) (ra : BitVec 5) (sr : BitVec 10)
  /-- TCALL_TFAULT, R109: Ends the cycle without a checkpoint and records an event with the program fault code. -/
  | tcallTfault (x : Site) (r : BitVec 5) (number : BitVec 10)
  /-- TCALL_TEVENT, R109: Queues one program event for the cycle, or refuses it when eight are queued. -/
  | tcallTevent (x : Site) (r : BitVec 5)
  /-- REGISTER_WRITE, R38: A write to a register without behaviour of its own acts at the field's next use. -/
  | registerWrite (writer : Writer) (address : BitVec 24) (value : Word)
  /-- FRM_START, R148: A change of FRM_CTRL.RUN from 0 to 1 copies period and phase to FRM_ACTIVE and starts the tick generator. -/
  | frmStart
  /-- FRM_STOP, R150: A change of FRM_CTRL.RUN from 1 to 0 stops ticks at once. -/
  | frmStop
  /-- TASK_RESTART, R166: FRM_TSTATn.RESTART ends the SAFE_STOP state at the next due tick. -/
  | taskRestart (task : Fin 64)
  /-- MODE_REQUEST, R173: LANE_MODEt.GO requests a triad mode change, which is refused at once or started. -/
  | modeRequest (triad : Fin 4) (mode odd : BitVec 2)
  /-- COMMANDED_QUENCH, R191: LANE_QUENCH.GO fences an AVAILABLE lane on which no vote relies and quench-tests it. -/
  | commandedQuench (lane : BitVec 2)
  /-- EPOCH_RESET, R193: ANV_EPRST.GO requests the reset of one task's epochs at the next tick. -/
  | epochReset (task : Fin 64)
  /-- IOMMU_INVALIDATE, R138: MMU_IOINV.INV invalidates cached IOMMU translations of one or all contexts. -/
  | iommuInvalidate (all : Bool) (ctx : Fin 32)
  /-- DMA_START, R141: DMA_CHn_CMD.START reads the descriptor and starts the channel. -/
  | dmaStart (n : Fin 16)
  /-- DMA_STOP, R144: DMA_CHn_CMD.STOP ends the channel after the element in progress and writes the descriptor back. -/
  | dmaStop (n : Fin 16)
  /-- DMA_ELEMENT, R142: A channel translates, checks and moves one element, or stops on a fault. -/
  | dmaElement (n : Fin 16) (found : ElementFinding)
  /-- DMA_DESCRIPTOR_COMPLETE, R144: COUNT reaches 0, the descriptor is written back, DONE is set and the chain continues. -/
  | dmaDescriptorComplete (n : Fin 16)
  /-- SCRUB_STEP, R128: Background scrubbing reads a word, corrects correctable errors and reports uncorrectable ones. -/
  | scrubStep (pa : BitVec 40) (ecc : Ecc)
  /-- CODE_DIGEST_CHECK, R129: The scrubber recomputes a code page digest, and a mismatch faults the tasks that map the page. -/
  | codeDigestCheck (page : BitVec 28) (good : Bool)
  /-- CODE_PAGE_RELOAD, R129: A failed code page is reloaded from flash and verified, and the failed tasks may be released again. -/
  | codePageReload (page : BitVec 28) (data : List Byte) (good : Bool)
  /-- KEY_POSITION_STABLE, R209: A key contact code stable for 20 ms becomes SYS_KEY.POS. -/
  | keyPositionStable (code : BitVec 2)
  /-- MODECFG_WRITE, R212: A write to SYS_MODECFG acts only with the key at PROG and is stored in MRAM. -/
  | modecfgWrite (who : Initiator) (value : Word)
  /-- PROGRAM_RESTART, R204: A warm, cold or purge restart runs from tick r0 through to the first release. -/
  | programRestart
  /-- CONFIRM_TIMEOUT, R218: A waiting command not confirmed within 60 s is cancelled with an event. -/
  | confirmTimeout (channel : Fin 17)
  /-- CHANGE_SWITCH_CHECK, R224: At D_max + 5 µs a PENDING online change checks its conditions and starts the migration copy or defers. -/
  | changeSwitchCheck (partnerLoaded : Bool)
  /-- ROLLBACK_WINDOW_CLOSE, R226: After 1,000 frames the state moves from SWITCHED to CLOSED. -/
  | rollbackWindowClose
  /-- RING_ENABLE, R251: SOPn_CTRL.EN set to 1 makes the ring enter LISTEN. -/
  | ringEnable (ring : Fin 6)
  /-- RING_DISABLE, R333: SOPn_CTRL.EN set to 0 stops both ports, empties the ring queues and enters OFF. -/
  | ringDisable (ring : Fin 6)
  /-- LISTEN_TIMEOUT, R251: A node that heard no SYNC or CSTART for its timeout starts cold start. -/
  | listenTimeout (ring : Fin 6)
  /-- COLDSTART_ROUND, R253: A cold-start round of 1 ms starts with a CSTART on both ports and ends judged clean or as a collision. -/
  | coldstartRound (ring : Fin 6) (raw : Int)
  /-- RING_SLOT_START, R240: A slot entry is read and checked at its guard interval and its frame is sent or received. -/
  | ringSlotStart (ring : Fin 6) (slot : Fin 1024) (skew brake : Int)
  /-- RING_FRAME_RECEIVED, R247: A frame arrives at a module ring port and its header and window are policed. -/
  | ringFrameReceived (ring : Fin 6) (west : Bool) (raw : Int) (frame : List Byte)
  /-- SYNC_RETURN, R231: The module's own SYNC copy returns, and C is measured from the two copies. -/
  | syncReturn (ring : Fin 6)
  /-- IN_FRAME, R250: An accepted IN frame writes its input blocks into the filling bank once. -/
  | inFrame (ring : Fin 6) (west : Bool)
  /-- IDENT_RESPONSE, R260: An identity record in an MRSP is checked, and the station is loaded or rejected. -/
  | identResponse (ring : Fin 6) (west : Bool)
  /-- SCHED_ACK, R260: A station's acknowledgement of SCHED is received and judged. -/
  | schedAck (ring : Fin 6) (west : Bool)
  /-- POSN_ACK, R260: A station's acknowledgement of POSN is received and judged. -/
  | posnAck (ring : Fin 6) (west : Bool)
  /-- CSCFG_RESPONSE, R252: A station's answer to CSCFG is received. -/
  | cscfgResponse (ring : Fin 6) (west : Bool)
  /-- PWRITE_RESPONSE, R317: A station's answer to PWRITE completes the write or records a far-side failure. -/
  | pwriteResponse (ring : Fin 6) (west : Bool)
  /-- PREAD_RESPONSE, R313: A station's answer to PREAD completes a fetch or fills the prefetch cache. -/
  | preadResponse (ring : Fin 6) (west : Bool)
  /-- EVTGET_RESPONSE, R319: Station event records are received and sent in one NOTIFY to subscribed sessions. -/
  | evtgetResponse (ring : Fin 6) (west : Bool)
  /-- CLAIM, R272: A CLAIM frame from a late station is checked and the station enters IDENT. -/
  | claim (ring : Fin 6) (west : Bool)
  /-- BREAK_DECLARE, R263: Missing SYNC copies in two consecutive frames declare a break. -/
  | breakDeclare (ring : Fin 6)
  /-- BREAK_HEAL, R269: Both SYNC copies unwrapped for 16 frames clear the break and C is measured again. -/
  | breakHeal (ring : Fin 6)
  /-- ONECOPY_PATTERN, R264: One-copy slots in 16 consecutive frames with intact SYNC record one event. -/
  | onecopyPattern (ring : Fin 6)
  /-- STATION_DROP, R274: An ACTIVE station without input for FRAMES frames is declared DROPPED. -/
  | stationDrop (ring : Fin 6) (station : BitVec 8)
  /-- FAR_SIDE_TIMEOUT, R311: A bridge command without an answer for BRG_FARTO frames fails. -/
  | farSideTimeout (channel : Fin 17) (ring : Fin 6) (station : BitVec 8)
  /-- TDR_MEASURE, R281: Bellows measures both module hops of a ring by TDR and reports them. -/
  | tdrMeasure (ring : Fin 6) (eStat : BitVec 2) (eLen : BitVec 6) (wStat : BitVec 2) (wLen : BitVec 6)
  /-- QUEUE_PACKET_END, R328: A packet ends in a queue bank and its end mark becomes GOOD or BAD. -/
  | queuePacketEnd (q : QueueId) (size : Nat) (how : PacketEnd)
  /-- QUEUE_TAIL_TIMEOUT, R327: TAILTO after the first complete packet hands the bank over. -/
  | queueTailTimeout (q : QueueId)
  /-- QUEUE_BANK_DRAINED, R326: The reader has consumed a closed bank and the bank becomes EMPTY. -/
  | queueBankDrained (q : QueueId)
  /-- PTP_SYNC, R284: A PTP Sync updates the offset and the servo, possibly changing state or stepping. -/
  | ptpSync (port : Fin 4) (domain sender senderPort : Nat) (origin raw : Int)
  /-- PTP_MESSAGE, R294: Another PTP message is time-stamped and processed under the supported profile. -/
  | ptpMessage (port : Fin 4) (domain : Nat) (m : PtpMsg)
  /-- PTP_SOURCE_LOSS, R284: No Sync for 4 intervals or an announce timeout moves the time base to HOLDOVER or FREE. -/
  | ptpSourceLoss
  /-- STEP_COMMAND, R287: TIME_STEPCMD.GO issues a step for the third tick, or it is refused. -/
  | stepCommand
  /-- STEP_ACT, R287: At tick F the announced step is added to the clock. -/
  | stepAct
  /-- CLOCK_CAPTURE, R282: TIME_CAPT.GO latches the clock into the capture registers. -/
  | clockCapture
  /-- HELLO, R301: A HELLO opens a half-open session and is answered with a signed response. -/
  | hello (r : LapRequest)
  /-- KEYX, R301: A KEYX with a valid signature opens the session. -/
  | keyx (r : LapRequest) (sigOk : Bool)
  /-- LAP_CLOSE, R300: CLOSE ends the session. -/
  | lapClose (r : LapRequest)
  /-- KEEPALIVE, R299: KEEPALIVE is answered with the receipt. -/
  | keepalive (r : LapRequest)
  /-- LAP_READ, R308: READ returns signal values through the Signal Map Table. -/
  | lapRead (r : LapRequest) (ue : List Nat)
  /-- LAP_WRITE, R316: WRITE applies PLAIN items or journals COMMITTED items. -/
  | lapWrite (r : LapRequest) (ue : List Nat)
  /-- FAILGET, R318: FAILGET returns the channel's failure list. -/
  | failget (r : LapRequest)
  /-- FAILACK, R318: FAILACK removes a matching failure and lifts its stream's fence. -/
  | failack (r : LapRequest)
  /-- JOB, R416: JOB submits jobs into a job queue as covered work. -/
  | job (r : LapRequest)
  /-- MBXPOST_POST, R435: A host POST is journalled for posting into a mailbox channel. -/
  | mbxpostPost (r : LapRequest)
  /-- MBXPOST_STATUS, R435: A host STATUS reports a mailbox channel's state. -/
  | mbxpostStatus (r : LapRequest)
  /-- MBXPOST_DONE, R435: A host DONE issues CMD.DONE on its channel. -/
  | mbxpostDone (r : LapRequest)
  /-- MBXPOST_WITHDRAW, R435: A host WITHDRAW issues CMD.WITHDRAW on its channel. -/
  | mbxpostWithdraw (r : LapRequest)
  /-- SUBSCRIBE, R319: SUBSCRIBE sets the stations whose events the session receives. -/
  | subscribe (r : LapRequest)
  /-- NOTIFYACK, R320: NOTIFYACK acknowledges a NOTIFY. -/
  | notifyack (r : LapRequest)
  /-- NOTIFY_RETRY, R320: An unacknowledged NOTIFY is repeated each BRG_RETRYWIN, up to 16 times, then dropped. -/
  | notifyRetry (channel : Fin 16) (reqid : Nat)
  /-- UNKNOWN_SESSION, R302: A datagram naming no session is answered at most once per second with UNKNOWN_SESSION. -/
  | unknownSession (op : BitVec 8) (r : LapRequest)
  /-- ARP_REQUEST, R296: The module answers ARP for its addresses. -/
  | arpRequest (via : Fin 5) (peer : Nat) (address : Word)
  /-- ICMP_ECHO, R296: The module answers an ICMP echo request. -/
  | icmpEcho (via : Fin 5) (peer : Nat) (address : Word) (data : List Byte)
  /-- SESSION_TIMEOUT, R300: No valid datagram for BRG_SESSTO ends the session. -/
  | sessionTimeout (channel : Fin 16)
  /-- HALF_OPEN_TIMEOUT, R301: A half-open session without KEYX within 1 s ends silently. -/
  | halfOpenTimeout (channel : Fin 16)
  /-- FETCH_ABANDON, R313: A fetch without a retry within the retry window is abandoned. -/
  | fetchAbandon (channel : Fin 16) (ring : Fin 6) (station : BitVec 8) (address : BitVec 16)
  /-- ORPHAN_EXPIRE, R314: An orphan-read entry is dropped after 100 ms. -/
  | orphanExpire (channel : Fin 16) (ring : Fin 6) (station : BitVec 8) (address : BitVec 16)
  /-- PREFETCH_EXPIRE, R312: A prefetched word is dropped after BRG_PFAGE. -/
  | prefetchExpire (ring : Fin 6) (station : BitVec 8) (address : BitVec 16)
  /-- COMMAND_MODE, R211: COMMAND MODE writes SYS_MODE.REMOTE. -/
  | commandMode (r : LapRequest)
  /-- COMMAND_WARMRST, R202: COMMAND WARMRST starts a warm restart. -/
  | commandWarmrst (r : LapRequest)
  /-- COMMAND_COLDRST, R202: COMMAND COLDRST starts a cold restart. -/
  | commandColdrst (r : LapRequest)
  /-- COMMAND_PURGE, R208: COMMAND PURGE is answered with a challenge for a cold restart with purge. -/
  | commandPurge (r : LapRequest)
  /-- COMMAND_FORCESET, R215: COMMAND FORCESET sets forces, with a challenge for SAFE points. -/
  | commandForceset (r : LapRequest)
  /-- COMMAND_FORCEREL, R215: COMMAND FORCEREL releases forces, with a challenge for SAFE points. -/
  | commandForcerel (r : LapRequest)
  /-- COMMAND_FORCESTART, R220: COMMAND FORCESTART leaves the hold of a module reset with forces active. -/
  | commandForcestart (r : LapRequest)
  /-- COMMAND_CHGLOAD, R222: COMMAND CHGLOAD loads and checks a change package into the inactive banks. -/
  | commandChgload (r : LapRequest) (package : Machine.Package) (check : Nat)
  /-- COMMAND_CHGSWITCH, R223: COMMAND CHGSWITCH moves the change to PENDING or ARMED. -/
  | commandChgswitch (r : LapRequest)
  /-- COMMAND_CHGDISCARD, R223: COMMAND CHGDISCARD discards the loaded package. -/
  | commandChgdiscard (r : LapRequest)
  /-- COMMAND_CHGCOMMIT, R226: COMMAND CHGCOMMIT makes the active program the flash-active bank. -/
  | commandChgcommit (r : LapRequest)
  /-- COMMAND_CHGROLLBACK, R226: COMMAND CHGROLLBACK starts a switch back with the reverse migration table. -/
  | commandChgrollback (r : LapRequest)
  /-- COMMAND_TASKRESTART, R166: COMMAND TASKRESTART issues FRM_TSTATn.RESTART. -/
  | commandTaskrestart (r : LapRequest)
  /-- COMMAND_CONFIRM, R218: COMMAND CONFIRM completes the waiting command of the channel if the challenge matches. -/
  | commandConfirm (r : LapRequest)
  /-- COMMAND_STATE, R322: COMMAND STATE reports mode, key, change state and hold. -/
  | commandState (r : LapRequest)
  /-- PKGDATA, R324: PKGDATA writes one block of a change package into the staging area. -/
  | pkgdata (r : LapRequest)
  /-- SAFETY_DATAGRAM, R350: A backbone safety datagram is checked and its words are written into the filling bank. -/
  | safetyDatagram (port : Fin 4) (source : Word) (payload : List Byte)
  /-- SAFETY_DATAGRAM_SEND, R349: At SENDOFF a backbone safety channel sends its published cells. -/
  | safetyDatagramSend (channel : Fin 32)
  /-- MBX_POST, R428: HDR.POST by the sender posts a message on an EMPTY channel. -/
  | mbxPost (who : Initiator) (c : Fin 32) (len : BitVec 4) (mtype : BitVec 16)
  /-- MBX_TAKE, R428: CMD.TAKE by the receiver moves a POSTED message to TAKEN. -/
  | mbxTake (who : Initiator) (c : Fin 32)
  /-- MBX_ACK, R428: CMD.ACK by the receiver stores RCODE and moves the channel to ACKED. -/
  | mbxAck (who : Initiator) (c : Fin 32) (rcode : BitVec 16)
  /-- MBX_DONE, R428: CMD.DONE by the sender returns an ACKED channel to EMPTY. -/
  | mbxDone (who : Initiator) (c : Fin 32)
  /-- MBX_WITHDRAW, R428: CMD.WITHDRAW by the sender returns a POSTED channel to EMPTY. -/
  | mbxWithdraw (who : Initiator) (c : Fin 32)
  /-- MBX_BIND_WRITE, R427: A write to MBX_BINDc changes the binding only while EMPTY, or EN at any time. -/
  | mbxBindWrite (who : Initiator) (c : Fin 32) (v : Word)
  /-- MBX_EPRST, R430: MBX_EPRST.GO performs an endpoint reset of the selected cores. -/
  | mbxEprst (who : Initiator) (cores : BitVec 12)
  /-- COUPLER_LINK_UP, R386: A coupler link comes up and the capability words are exchanged. -/
  | couplerLinkUp (link : Fin 4)
  /-- CAP_PACKET, R386: A capability word is checked and the pairing is accepted or refused. -/
  | capPacket (p : PairHead) (cap : CapWord)
  /-- HEARTBEAT, R387: A heartbeat control word arrives on a coupler link. -/
  | heartbeat (link : Fin 4) (fcnt : Word) (pstate : BitVec 2) (offset : Int)
  /-- COUPLER_LINK_DOWN, R387: A link without a heartbeat for 75 µs goes down and its packets are resent on the others. -/
  | couplerLinkDown (link : Fin 4)
  /-- PAUSE_WORD, R387: A pause word stops the sending of packets on a link. -/
  | pauseWord (link : Fin 4)
  /-- RESUME_WORD, R387: A resume word restarts the sending of packets on a link. -/
  | resumeWord (link : Fin 4)
  /-- DATA_PACKET, R392: A DATA packet of a record or full copy is checked and staged or applied. -/
  | dataPacket (p : PairHead) (items : List Machine.PairItem)
  /-- MARKER, R389: A MARKER is answered with an ACK listing missing packets. -/
  | marker (p : PairHead) (count : Nat) (fullDone : Bool)
  /-- COUPLER_ACK, R389: An ACK makes the engine resend missing packets or completes the record. -/
  | couplerAck (p : PairHead) (missing : List Nat) (ready : Bool)
  /-- RECORD_APPLY, R392: A READY standby applies a complete record in frame order. -/
  | recordApply
  /-- RECORD_LATE, R390: A record not complete by tick k+2 is late and the standby returns to SYNCING. -/
  | recordLate
  /-- HEALTH_PACKET, R400: A partner HEALTH packet updates CPL_STATE.PARTNER. -/
  | healthPacket (p : PairHead) (h : PairHealth)
  /-- TAKEOVER_REQUEST, R405: A takeover REQUEST is answered with a RESPONSE naming tick j, or refused. -/
  | takeoverRequest (p : PairHead) (kind : SwitchKind)
  /-- TAKEOVER_RESPONSE, R405: A RESPONSE to a takeover or update REQUEST is received. -/
  | takeoverResponse (p : PairHead) (granted : Bool) (tick : Word)
  /-- UPDATE_REQUEST, R484: A coupler REQUEST of kind UPDATE is granted or refused. -/
  | updateRequest (p : PairHead)
  /-- PAIRING_TIMEOUT, R385: Without coupler contact for 100 ms or 2,000 ms an ISOLATED module becomes ACTIVE. -/
  | pairingTimeout
  /-- PARTNER_LOST, R402: No heartbeat for 100 µs declares the active module lost. -/
  | partnerLost
  /-- TAKEOVER, R403: At tick j the standby becomes ACTIVE, advances epochs, sends SYNC and replays the journal. -/
  | takeover
  /-- PLANNED_SWITCH, R405: CPL_COMMAND.SWITCH starts a planned switch to a READY partner. -/
  | plannedSwitch
  /-- SOAK_COMPLETE, R407: A READY PREFERRED reaching CPL_SOAK requests hand-back. -/
  | soakComplete
  /-- HAND_BACK, R407: At tick j after a quiet frame the PREFERRED becomes ACTIVE. -/
  | handBack
  /-- STEP_DOWN, R409: An ACTIVE ALTERNATE that hears a foreign SYNC in two frames becomes ISOLATED. -/
  | stepDown
  /-- TEMPER_SCAN, R399: A temper scan step of one lane completes with pass or fail. -/
  | temperScan (lane : Fin 3) (pass : Bool)
  /-- WAY_PURGE, R423: WAY_CMD.PURGE requests a purge at the next tick. -/
  | wayPurge
  /-- DI_SAMPLE, R359: Each enabled input is sampled every 10 µs, classified and filtered, and faults latch after 3 samples. -/
  | diSample (x : DioSample)
  /-- TEST_RUN_START, R353: A start-up, periodic or recovery test run starts. -/
  | testRunStart (cause : RunCause)
  /-- TEST_TEST_ISSUE, R353: SAF_TPCTRL.TEST starts a test run or queues one further run. -/
  | testTestIssue
  /-- TEST_RUN_END, R352: A test run ends and each test-pulse input is judged PASS, FAIL or UNTESTED. -/
  | testRunEnd
  /-- FAULT_ABSENT_TIMEOUT, R354: A latched fault absent for 100 ms makes the input ready for its recovery run. -/
  | faultAbsentTimeout (input : Fin 16)
  /-- TP_OVERLOAD, R363: A source in current limit for 1 ms switches off and latches its inputs. -/
  | tpOverload (src : Fin 4) (mA : Nat)
  /-- TP_RETRY, R363: A source switched off on overload retries after 1 s. -/
  | tpRetry (src : Fin 4)
  /-- DO_LOAD_MEASURE, R368: Bellows measures the load of an off channel every 100 ms. -/
  | doLoadMeasure (c : Fin 8) (load : Fin 4)
  /-- DO_CLEAR, R366: DIO_DOCLR.GO clears the selected DO fault latches whose fault is absent. -/
  | doClear (mask : BitVec 8)
  /-- FG1_LOSS, R371: FG1 below 16 V for 1 ms switches every DO and source off and latches test-pulse inputs. -/
  | fg1Loss
  /-- FG1_RETURN, R371: FG1 returns and outputs follow their points from the next tick. -/
  | fg1Return
  /-- LOOP_SAMPLE, R377: Each channel measures current and voltage every 100 µs and judges compliance, open loop, miswiring and read-back. -/
  | loopSample (c : Fin 4) (m : LoopMeasure)
  /-- COMPLIANCE_TIMEOUT, R379: Non-compliance longer than LOOP_CTIME latches a channel fault with cause 1. -/
  | complianceTimeout (c : Fin 4)
  /-- LOOP_THERMAL, R382: A stage at 140 °C enters the thermal limit, and below 115 °C leaves it. -/
  | loopThermal (c : Fin 4) (hot : Bool)
  /-- LOOP_MODE_SETTLED, R376: 500 µs after a MODE change the channel drives under R375 again. -/
  | loopModeSettled (c : Fin 4)
  /-- LOOP_LOAD_COMPUTE, R377: Bellows computes the load resistance every 100 ms. -/
  | loopLoadCompute (c : Fin 4)
  /-- LOOP_CLEAR, R383: LOOP_CLR.GO clears the selected latches whose condition is absent. -/
  | loopClear (mask : BitVec 4)
  /-- FG2_LOSS, R382: FG2 below 16 V for 1 ms switches all loop channels to 0 mA. -/
  | fg2Loss
  /-- FG2_RETURN, R382: FG2 returns and channels follow R375 from the next tick. -/
  | fg2Return
  /-- POWER_UP, R441: The logic input is applied to an unpowered module and a module reset with cause 1 follows. -/
  | powerUp
  /-- MODULE_RESET, R442: A module reset holds every unit in reset, sets outputs safe and starts the staged start. -/
  | moduleReset (cause : BitVec 3)
  /-- STAGED_START_STEP, R443: One step of the staged start powers and tests its unit. -/
  | stagedStartStep (f : StageFinding)
  /-- LANE_RELEASE, R446: Lanes that passed self-test are released into boot ROM and the runtime. -/
  | laneRelease (pass : BitVec 3)
  /-- STAGED_START_ABORT, R444: The logic input below 19.2 V during the staged start powers down and restarts after 1 s. -/
  | stagedStartAbort
  /-- POWER_FAIL_WARNING, R450: The logic input below 18.0 V for 1 ms starts the power-fail warning and the flush. -/
  | powerFailWarning (joules : Nat)
  /-- POWER_FAIL_END, R450: The input back above 19.2 V for 10 ms ends the warning. -/
  | powerFailEnd (milliseconds : Nat)
  /-- HOLDUP_EXHAUSTED, R450: The hold-up bus reaches 18.0 V in power-fail and the module resets with cause 2. -/
  | holdupExhausted
  /-- RAIL_FAULT, R448: A rail out of its window for 3 samples resets the module or fences a lane. -/
  | railFault (rail : Fin 12) (mv : BitVec 16)
  /-- TEMP_SAMPLE, R452: Bellows reads the sensors every 10 ms and acts at WARN, CAP and CRIT. -/
  | tempSample (temps : Vector (BitVec 12) 8)
  /-- RUNTIME_WATCHDOG_KEY, R440: A write to BLW_WDOG.KEY restarts the runtime watchdog or, if wrong, resets the module. -/
  | runtimeWatchdogKey (key : BitVec 8)
  /-- RUNTIME_WATCHDOG_ENABLE, R440: Setting BLW_WDTIME.EN starts the runtime watchdog. -/
  | runtimeWatchdogEnable
  /-- RUNTIME_WATCHDOG_EXPIRY, R440: No expected key within TIME resets the module with cause 5. -/
  | runtimeWatchdogExpiry
  /-- BELLOWS_WATCHDOG_EXPIRY, R439: Bellows not servicing its watchdog for 100 ms restarts Bellows without a module reset. -/
  | bellowsWatchdogExpiry
  /-- BLW_RESET_COMMAND, R441: BLW_CMD.RESET requests a module reset with cause 6. -/
  | blwResetCommand
  /-- HOLDTEST, R453: BLW_CMD.HOLDTEST or the 24 h timer measures the hold-up capacity. -/
  | holdtest (result : BitVec 16)
  /-- HEALTH_FORM, R459: Bellows forms the health word every 10 ms. -/
  | healthForm (clocksDiffer : Bool)
  /-- ENERGY_TOTAL_SAVE, R456: Every 60 s Bellows adds the input energy to BLW_ETOT in MRAM. -/
  | energyTotalSave (joules : Nat)
  /-- CONSOLE_HEALTH, R460: The console HEALTH request returns the health word, rails and temperatures. -/
  | consoleHealth (crc : BitVec 16)
  /-- CONSOLE_IDENT, R460: The console IDENT request returns the capability word, serial and reset cause. -/
  | consoleIdent (crc : BitVec 16)
  /-- CONSOLE_EVENTS, R460: The console EVENTS request returns event records. -/
  | consoleEvents (crc : BitVec 16) (start count : Nat)
  /-- CONSOLE_RESET, R460: The console RESET request resets the module with cause 6 when the key permits. -/
  | consoleReset (crc : BitVec 16)
  /-- EVENT_RAISE, R465: An event reaches Bellows, is rate-limited, stamped and stored in the buffer. -/
  | eventRaise (source : BitVec 8) (code : BitVec 16) (severity : BitVec 2) (safety : Bool) (params : List Word)
  /-- TOKEN_CREDIT, R465: Every 1 ms each token bucket is credited. -/
  | tokenCredit
  /-- FLUSH_COMPLETE, R467: A flush has written every buffered record to flash. -/
  | flushComplete (failed : Nat)
  /-- LOG_BLOCK_ERASE, R468: The oldest log block is erased in the background, or retired on failure. -/
  | logBlockErase (block : Fin 269) (ok : Bool)
  /-- EVR_READ, R470: EVR_CMD.READ copies a record into EVR_RDATA. -/
  | evrRead (crcOk : Bool)
  /-- EVR_FLUSH, R467: EVR_CMD.FLUSH starts a flush. -/
  | evrFlush
  /-- EVR_CLEAR, R471: EVR_CMD.CLEAR raises EVR_FIRST to EVR_NEXT and stores a record 0x0101. -/
  | evrClear
  /-- SIDING_WRITE, R477: UPD_CMD.WRITE copies data from DRAM into the siding. -/
  | sidingWrite
  /-- SIDING_WRITE_DONE, R477: A siding copy completes with WDONE or WERR. -/
  | sidingWriteDone (ok : Bool)
  /-- APPLY, R478: UPD_CMD.APPLY arms the package with a challenge or confirms it to PENDING. -/
  | apply (now granted : Bool)
  /-- UPD_CONFIRM, R481: UPD_CMD.CONFIRM confirms every TRIAL component. -/
  | updConfirm
  /-- UPD_DISCARD, R477: UPD_CMD.DISCARD sets the siding state to EMPTY. -/
  | updDiscard
  /-- UPD_RECOVER, R485: UPD_CMD.RECOVER, confirmed, enters recovery mode. -/
  | updRecover
  /-- TRIAL_CONFIRM, R481: 600 s without a fault confirms a TRIAL bank. -/
  | trialConfirm
  /-- RECOVERY_ANNOUNCE, R486: In recovery mode the module broadcasts ANNOUNCE every 1 s. -/
  | recoveryAnnounce
  /-- RECOVERY_BLOCK, R486: A recovery BLOCK writes data into the siding and is answered with BLOCKACK. -/
  | recoveryBlock (offset : Nat) (data : List Byte) (ok : Bool)
  /-- RECOVERY_END, R485: A recovery END checks and installs the package and reports RESULT. -/
  | recoveryEnd (length : Nat) (images : List RecoveryImage)
  /-- ATTEST, R490: SEC_CMD.ATTEST starts a signed attestation report. -/
  | attest
  /-- ATTEST_COMPLETE, R490: The attestation report is complete in SEC_RPT and RPTDONE is set. -/
  | attestComplete
  /-- ENROLL, R489: SEC_CMD.ENROLL writes a project key into an empty OTP slot. -/
  | enroll (slot : Fin 4)
  /-- REVOKE, R489: SEC_CMD.REVOKE revokes an enrolled project key slot. -/
  | revoke (slot : Fin 4)
  /-- BACKBONE_PORT_ENABLE, R511: A change of BKBn_CTRL.EN powers the port up or down and ends its sessions. -/
  | backbonePortEnable (port : Fin 4) (en : Bool)
  /-- BRIDGE_DISABLE, R333: BRG_CTRL.EN set to 0 discards datagrams, ends sessions and empties bridge queues. -/
  | bridgeDisable
  /-- BACKBONE_LINK_CHANGE, R511: The 1000BASE-T link of a backbone port comes up or is lost, updating BKBn_STATUS.LINK and setting LOSS. -/
  | backboneLinkChange (port : Fin 4) (up : Bool)
  /-- BACKBONE_PACKET_DISCARD, R511: A received backbone packet that goes to no consumer is discarded and counted in BKBn_RXDISC or BRG_MALF, including failed FCS. -/
  | backbonePacketDiscard (port : Fin 5) (why : Discard)
  /-- LAP_RESERVED_OP, R299: A LAP request with a reserved OP is answered with datagram STATUS 3 and not performed. -/
  | lapReservedOp (op : BitVec 8) (r : LapRequest)
  /-- HEARTBEAT_SEND, R387: The module inserts a heartbeat control word on every coupler link at least once every 25 µs. -/
  | heartbeatSend
  /-- PTP_MESSAGE_SEND, R294: As master or boundary clock, or for delay requests, the time base sends Sync, Follow_Up, Announce or Delay_Req at its configured intervals. -/
  | ptpMessageSend (port : Fin 4) (kind : PtpKind) (raw : Int)
  /-- BELLOWS_RESTART_END, R439: A Bellows restart completes within 50 ms, firmware actions resume, BRESTART is set, BLW_BRSTCNT counts and an event is recorded. -/
  | bellowsRestartEnd
  /-- COPY_PACKETS_SENT, R389: The copy engine has sent every packet of a closed record or of a full copy and sends the MARKER with the packet count. -/
  | copyPacketsSent (full : Bool)
  deriving DecidableEq, Repr

end Sys2Proof
end

