-- ==== Sys2Proof/Decode.lean ====
section
/-!
DEFINITION. The instruction that a Helin word spells (R63 to R66), and the command a table word spells.
-/

namespace Sys2Proof

/-- A word of major CTL, by its func (R96, R104, R105). -/
def decodeCtl (x : Site) (rd ra rb : BitVec 5) : Nat → Option Instr
  | 0x000 => some (.pldx x rd ra rb)
  | 0x001 => some (.pstx x rd ra rb)
  | 0x002 => some (.aldx x rd ra rb)
  | 0x003 => some (.astx x rd ra rb)
  | 0x010 => some (.pldb x rd ra rb)
  | 0x011 => some (.ptgb x rd ra rb)
  | 0x012 => some (.ptor x rd ra rb)
  | 0x013 => some (.pstb x rd ra rb)
  | 0x018 => some (.pcpy x rd ra rb)
  | 0x019 => some (.acpy x rd ra rb)
  | 0x020 => some (.ton x rd ra rb)
  | 0x021 => some (.tof x rd ra rb)
  | 0x022 => some (.tp x rd ra rb)
  | 0x028 => some (.edgr x rd ra rb)
  | 0x029 => some (.edgf x rd ra rb)
  | 0x02A => some (.edgb x rd ra rb)
  | _ => none

/-- A word of major SYS, by its func (R84, R107, R109). -/
def decodeSys (x : Site) (r : BitVec 5) (sr : BitVec 10) : Nat → Option Instr
  | 0x000 => some (.tret x r sr)
  | 0x001 => some (.wait x r sr)
  | 0x002 => some (.brk x r sr)
  | 0x003 => some (.fence x r sr)
  | 0x004 => some (.ifence x r sr)
  | 0x010 => some (.mfsr x r sr)
  | 0x011 => some (.mtsr x r sr)
  | 0x100 => some (.ckpt x r sr)
  | 0x101 => some (if sr = 1 then .tcallTevent x r else .tcallTfault x r sr)
  | _ => none

/-- A word of major PAN, by its operation (R94). -/
def decodePan (x : Site) (rd rq : BitVec 5) (idx : BitVec 14) : Nat → Option Instr
  | 0 => some (.ald x rd rq idx)
  | 1 => some (.aldu x rd rq idx)
  | 2 => some (.ast x rd rq idx)
  | 3 => some (.aldf x rd rq idx)
  | 4 => some (.astf x rd rq idx)
  | _ => none

/-- The instruction that a word spells at a site, by its major opcode and format (R63, R66). Majors 0b00000 and 0b11111 and the
reserved functions of CTL, PAN and SYS spell none; a reserved func of OP, FP and ATOM is refused by the meaning (R85). -/
def decodeHelin (x : Site) (w : BitVec 32) : Option Instr :=
  let r1 := w.extractLsb' 22 5
  let r2 := w.extractLsb' 17 5
  let r3 := w.extractLsb' 12 5
  let low := w.extractLsb' 0 17
  let func := w.extractLsb' 0 12
  match (w.extractLsb' 27 5).toNat with
  | 1 => some (.op x func r1 r2 r3)
  | 2 => some (.addi x r1 r2 low)
  | 3 => some (.andi x r1 r2 low)
  | 4 => some (.ori x r1 r2 low)
  | 5 => some (.lui x r1 r2 low)
  | 6 => some (.load x .byte r1 r2 low)
  | 7 => some (.load x .half r1 r2 low)
  | 8 => some (.load x .word r1 r2 low)
  | 9 => some (.load x .dword r1 r2 low)
  | 10 => some (.store x .byte r1 r2 low)
  | 11 => some (.store x .half r1 r2 low)
  | 12 => some (.store x .word r1 r2 low)
  | 13 => some (.store x .dword r1 r2 low)
  | 14 => some (.fload x false r1 r2 low)
  | 15 => some (.fload x true r1 r2 low)
  | 16 => some (.fstore x false r1 r2 low)
  | 17 => some (.fstore x true r1 r2 low)
  | 18 => some (.branch x .eq r1 r2 low)
  | 19 => some (.branch x .ne r1 r2 low)
  | 20 => some (.branch x .lt r1 r2 low)
  | 21 => some (.branch x .ge r1 r2 low)
  | 22 => some (.jal x (w.extractLsb' 0 27))
  | 23 => some (.jalr x r1 r2 low)
  | 24 => some (.fp x func r1 r2 r3)
  | 25 => some (.atom x func r1 r2 r3)
  | 26 => some (.pld x r1 r2 low)
  | 27 => some (.pst x r1 r2 low)
  | 28 => decodePan x r1 r2 (w.extractLsb' 0 14) (w.extractLsb' 14 3).toNat
  | 29 => decodeCtl x r1 r2 r3 func.toNat
  | 30 => decodeSys x r1 (w.extractLsb' 12 10) func.toNat
  | _ => none

/-- The command that a word spells by the bits of the table. No row of the table has bits (every row is a step of the
module, given by its operands), so no word spells a command. -/
def decodeTableWord (_nbits _w : Nat) : Option Instr := none

end Sys2Proof
end

