-- ==== Sys2Proof/Machine/Regs.lean ====
section
/-!
DEFINITION. The register map: where every register of every block lies, what each of its fields is, which bits a
write can change, and the value it holds at reset.

Addresses are offsets in the register space, physical address less 0x40000000 (R507, Register map). Field positions,
access codes and reset values are those of the register tables of the chapter named beside each block. Reset values
that the manual gives only as "OTP", "From flash", "MRAM" or "Set by Bellows" are 0 here unless a line below says
otherwise (log entry 5). The index of a register in a row wraps at the number of registers of the row; no meaning passes a
larger one.
-/

namespace Sys2Proof.Machine

/-- A field of a register: its lowest bit and its width. -/
structure Field where
  lo : Nat
  len : Nat
  deriving DecidableEq, Repr

/-- One register, or a row of registers `stride` apart: the offset of the first inside its block, the bits of each
access code of R7, and the reset value. -/
structure RegRow where
  off : Nat
  stride : Nat := 0
  count : Nat := 1
  rw : Nat := 0
  w1c : Nat := 0
  go : Nat := 0
  wo : Nat := 0
  reset : Nat := 0
  deriving DecidableEq, Repr

/-- A register block (R507): its window number, its decode mask (R52) and its registers. -/
structure Block where
  window : Nat
  mask : Nat
  rows : List RegRow
  deriving DecidableEq, Repr

/-- The row of a counter under R45: COUNT in [30:0], LOST in [31]. -/
def cntRow (off : Nat) (stride : Nat := 0) (count : Nat := 1) : RegRow :=
  { off := off, stride := stride, count := count, rw := 0x7FFFFFFF, w1c := 0x80000000 }

/-! ### Block SYS (24_register_map.md) -/

/-- R509. -/
def SYS_ID : Nat := 0x000000
def SYS_ID_DEVICE : Field := ⟨16, 16⟩
def SYS_ID_HWREV : Field := ⟨8, 8⟩
/-- R1. -/
def SYS_COMPAT : Nat := 0x000004
def SYS_COMPAT_COMPAT : Field := ⟨0, 16⟩
/-- R510. -/
def SYS_STATUS : Nat := 0x000008
def SYS_STATUS_TRIAL : Field := ⟨5, 1⟩
def SYS_STATUS_STANDBY : Field := ⟨4, 1⟩
def SYS_STATUS_CMPFAULT : Field := ⟨3, 1⟩
def SYS_STATUS_SAFEFAIL : Field := ⟨2, 1⟩
def SYS_STATUS_FORCED : Field := ⟨1, 1⟩
def SYS_STATUS_CFG_SKEW : Field := ⟨0, 1⟩
/-- R509. -/
def SYS_RSTCAUSE : Nat := 0x00000C
def SYS_RSTCAUSE_PREV : Field := ⟨8, 4⟩
def SYS_RSTCAUSE_CAUSE : Field := ⟨0, 4⟩
/-- R510. -/
def SYS_FORCES : Nat := 0x000010
def SYS_FORCES_NFORCE : Field := ⟨0, 11⟩
/-- R209. -/
def SYS_KEY : Nat := 0x000100
def SYS_KEY_INVALID : Field := ⟨4, 1⟩
def SYS_KEY_POS : Field := ⟨2, 2⟩
def SYS_KEY_KC2 : Field := ⟨1, 1⟩
def SYS_KEY_KC1 : Field := ⟨0, 1⟩
/-- R211. -/
def SYS_MODE : Nat := 0x000104
def SYS_MODE_HOLD : Field := ⟨12, 2⟩
def SYS_MODE_REMOTE : Field := ⟨8, 2⟩
def SYS_MODE_EFF : Field := ⟨0, 2⟩
/-- R212. -/
def SYS_MODECFG : Nat := 0x000108
def SYS_MODECFG_AFTERRESET : Field := ⟨4, 1⟩
def SYS_MODECFG_FORCE_BOOT : Field := ⟨3, 1⟩
def SYS_MODECFG_AUTH : Field := ⟨0, 2⟩
/-- R223. -/
def SYS_CHG : Nat := 0x00010C
def SYS_CHG_AGE : Field := ⟨16, 16⟩
def SYS_CHG_SAFECHG : Field := ⟨5, 1⟩
def SYS_CHG_BANK : Field := ⟨4, 1⟩
def SYS_CHG_STATE : Field := ⟨0, 3⟩
/-- R224. -/
def SYS_CHGDEF : Nat := 0x000110
/-! ### Block FRM (06_tasks_frame.md) -/

/-- R167. -/
def FRM_STATUS : Nat := 0x010000
def FRM_STATUS_PPEND : Field := ⟨4, 1⟩
def FRM_STATUS_FAULT : Field := ⟨3, 1⟩
def FRM_STATUS_OVR : Field := ⟨2, 1⟩
def FRM_STATUS_TICKSKIP : Field := ⟨1, 1⟩
def FRM_STATUS_CFG_SKEW : Field := ⟨0, 1⟩
/-- R148. -/
def FRM_CTRL : Nat := 0x010004
def FRM_CTRL_RUN : Field := ⟨0, 1⟩
/-- R148. -/
def FRM_PERIOD : Nat := 0x010008
def FRM_PERIOD_PERIOD : Field := ⟨0, 14⟩
/-- R148. -/
def FRM_PHASE : Nat := 0x01000C
def FRM_PHASE_PHASE : Field := ⟨0, 14⟩
/-- R151. -/
def FRM_CLOSE : Nat := 0x010010
def FRM_CLOSE_CLOSE : Field := ⟨0, 11⟩
/-- R148. -/
def FRM_ACTIVE : Nat := 0x010014
def FRM_ACTIVE_ACTPHASE : Field := ⟨16, 14⟩
def FRM_ACTIVE_ACTPERIOD : Field := ⟨0, 14⟩
/-- R156. -/
def FRM_FCOUNTL : Nat := 0x010018
def FRM_FCOUNTL_FCOUNTL : Field := ⟨0, 32⟩
/-- R156. -/
def FRM_FCOUNTH : Nat := 0x01001C
def FRM_FCOUNTH_FCOUNTH : Field := ⟨0, 32⟩
/-- R45. -/
def FRM_TICKSKIP : Nat := 0x010020
/-- R45. -/
def FRM_OVRCNT : Nat := 0x010024
/-- R45. -/
def FRM_FLTCNT : Nat := 0x010028
/-- R156. -/
def FRM_SNAPEND : Nat := 0x01002C
def FRM_SNAPEND_SNAPEND : Field := ⟨0, 24⟩
/-- R168. -/
def FRM_IRQEN (i : Nat) : Nat := 0x010040 + 0x4 * (i % 12)
def FRM_IRQEN_EN : Field := ⟨2, 10⟩
def FRM_IRQEN_FIXED : Field := ⟨0, 2⟩
/-- R169. -/
def FRM_TDEF (i : Nat) : Nat := 0x010100 + 0x10 * (i % 64)
def FRM_TDEF_GEN : Field := ⟨28, 4⟩
def FRM_TDEF_PHASE : Field := ⟨16, 10⟩
def FRM_TDEF_PERIOD : Field := ⟨0, 11⟩
/-- R169. -/
def FRM_TCFG (i : Nat) : Nat := 0x010104 + 0x10 * (i % 64)
def FRM_TCFG_GEN : Field := ⟨28, 4⟩
def FRM_TCFG_EN : Field := ⟨27, 1⟩
def FRM_TCFG_POLICY : Field := ⟨25, 2⟩
def FRM_TCFG_CLASS : Field := ⟨24, 1⟩
def FRM_TCFG_PLACE : Field := ⟨16, 5⟩
def FRM_TCFG_PRIO : Field := ⟨0, 6⟩
/-- R169. -/
def FRM_TDL (i : Nat) : Nat := 0x010108 + 0x10 * (i % 64)
def FRM_TDL_GEN : Field := ⟨28, 4⟩
def FRM_TDL_DEADLINE : Field := ⟨0, 14⟩
/-- R166. -/
def FRM_TSTAT (i : Nat) : Nat := 0x01010C + 0x10 * (i % 64)
def FRM_TSTAT_RESTART : Field := ⟨31, 1⟩
def FRM_TSTAT_STOPPED : Field := ⟨7, 1⟩
def FRM_TSTAT_PMOVE : Field := ⟨6, 1⟩
def FRM_TSTAT_CARRY : Field := ⟨5, 1⟩
def FRM_TSTAT_OPEN : Field := ⟨4, 1⟩
def FRM_TSTAT_OVR : Field := ⟨3, 1⟩
def FRM_TSTAT_FAULT : Field := ⟨2, 1⟩
def FRM_TSTAT_SKEW : Field := ⟨1, 1⟩
/-! ### Block ANX (07_lanes_anvil.md) -/

/-- R199. -/
def ANX_STATUS : Nat := 0x020000
def ANX_STATUS_EPREF : Field := ⟨8, 1⟩
def ANX_STATUS_CMPFAULT : Field := ⟨7, 1⟩
def ANX_STATUS_XYDIS : Field := ⟨6, 1⟩
def ANX_STATUS_STRIKEFAIL : Field := ⟨5, 1⟩
def ANX_STATUS_TIMEFAIL : Field := ⟨4, 1⟩
def ANX_STATUS_NOMAJ : Field := ⟨3, 1⟩
def ANX_STATUS_MISMATCH : Field := ⟨2, 1⟩
def ANX_STATUS_STALE : Field := ⟨1, 1⟩
def ANX_STATUS_CFG_SKEW : Field := ⟨0, 1⟩
/-- R195. -/
def ANX_SKEW : Nat := 0x020004
def ANX_SKEW_SKEW : Field := ⟨0, 8⟩
/-- R200. -/
def ANX_CFG : Nat := 0x020008
def ANX_CFG_STDCONT : Field := ⟨0, 1⟩
/-- R196. -/
def ANX_TCTL : Nat := 0x02000C
def ANX_TCTL_TEN : Field := ⟨0, 1⟩
/-- R197. -/
def ANX_TCRC : Nat := 0x020010
def ANX_TCRC_TCRC : Field := ⟨0, 32⟩
/-- R45. -/
def ANX_MISCNT : Nat := 0x020014
/-- R194. -/
def ANX_STALE_CNT : Nat := 0x020018
/-- R182. -/
def ANX_LASTMIS : Nat := 0x02001C
def ANX_LASTMIS_POS : Field := ⟨16, 16⟩
def ANX_LASTMIS_KIND : Field := ⟨10, 3⟩
def ANX_LASTMIS_LANE : Field := ⟨8, 2⟩
def ANX_LASTMIS_TASK : Field := ⟨0, 6⟩
/-- R198. -/
def ANX_STRIKE : Nat := 0x020020
def ANX_STRIKE_PASS : Field := ⟨31, 1⟩
def ANX_STRIKE_LANE : Field := ⟨10, 2⟩
def ANX_STRIKE_POS : Field := ⟨0, 10⟩
/-- R193. -/
def ANX_EPRST : Nat := 0x020024
def ANX_EPRST_GO : Field := ⟨31, 1⟩
def ANX_EPRST_TASK : Field := ⟨0, 6⟩
/-- R192. -/
def ANX_EPOCH (i : Nat) : Nat := 0x020100 + 0x4 * (i % 64)
def ANX_EPOCH_CLOSED : Field := ⟨16, 16⟩
def ANX_EPOCH_OPEN : Field := ⟨0, 16⟩
/-! ### Block ANY (07_lanes_anvil.md) -/

/-- R199. -/
def ANY_STATUS : Nat := 0x030000
def ANY_STATUS_EPREF : Field := ⟨8, 1⟩
def ANY_STATUS_CMPFAULT : Field := ⟨7, 1⟩
def ANY_STATUS_XYDIS : Field := ⟨6, 1⟩
def ANY_STATUS_STRIKEFAIL : Field := ⟨5, 1⟩
def ANY_STATUS_TIMEFAIL : Field := ⟨4, 1⟩
def ANY_STATUS_NOMAJ : Field := ⟨3, 1⟩
def ANY_STATUS_MISMATCH : Field := ⟨2, 1⟩
def ANY_STATUS_STALE : Field := ⟨1, 1⟩
def ANY_STATUS_CFG_SKEW : Field := ⟨0, 1⟩
/-- R195. -/
def ANY_SKEW : Nat := 0x030004
def ANY_SKEW_SKEW : Field := ⟨0, 8⟩
/-- R200. -/
def ANY_CFG : Nat := 0x030008
def ANY_CFG_STDCONT : Field := ⟨0, 1⟩
/-- R196. -/
def ANY_TCTL : Nat := 0x03000C
def ANY_TCTL_TEN : Field := ⟨0, 1⟩
/-- R197. -/
def ANY_TCRC : Nat := 0x030010
def ANY_TCRC_TCRC : Field := ⟨0, 32⟩
/-- R45. -/
def ANY_MISCNT : Nat := 0x030014
/-- R194. -/
def ANY_STALE_CNT : Nat := 0x030018
/-- R182. -/
def ANY_LASTMIS : Nat := 0x03001C
def ANY_LASTMIS_POS : Field := ⟨16, 16⟩
def ANY_LASTMIS_KIND : Field := ⟨10, 3⟩
def ANY_LASTMIS_LANE : Field := ⟨8, 2⟩
def ANY_LASTMIS_TASK : Field := ⟨0, 6⟩
/-- R198. -/
def ANY_STRIKE : Nat := 0x030020
def ANY_STRIKE_PASS : Field := ⟨31, 1⟩
def ANY_STRIKE_LANE : Field := ⟨10, 2⟩
def ANY_STRIKE_POS : Field := ⟨0, 10⟩
/-- R193. -/
def ANY_EPRST : Nat := 0x030024
def ANY_EPRST_GO : Field := ⟨31, 1⟩
def ANY_EPRST_TASK : Field := ⟨0, 6⟩
/-- R192. -/
def ANY_EPOCH (i : Nat) : Nat := 0x030100 + 0x4 * (i % 64)
def ANY_EPOCH_CLOSED : Field := ⟨16, 16⟩
def ANY_EPOCH_OPEN : Field := ⟨0, 16⟩
/-! ### Block LANE (07_lanes_anvil.md) -/

/-- R184. -/
def LANE_STATUS : Nat := 0x040000
def LANE_STATUS_SAFEFAIL : Field := ⟨4, 1⟩
def LANE_STATUS_QDONE : Field := ⟨3, 1⟩
def LANE_STATUS_FENCE : Field := ⟨2, 1⟩
def LANE_STATUS_MODEDONE : Field := ⟨1, 1⟩
def LANE_STATUS_CFG_SKEW : Field := ⟨0, 1⟩
/-- R186. -/
def LANE_CFG : Nat := 0x040004
def LANE_CFG_QWIN : Field := ⟨8, 8⟩
def LANE_CFG_QLIMIT : Field := ⟨0, 4⟩
/-- R173. -/
def LANE_MODE (i : Nat) : Nat := 0x040010 + 0x4 * (i % 4)
def LANE_MODE_GO : Field := ⟨31, 1⟩
def LANE_MODE_REFUSED : Field := ⟨28, 3⟩
def LANE_MODE_ODD : Field := ⟨4, 2⟩
def LANE_MODE_MODE : Field := ⟨0, 2⟩
/-- R174. -/
def LANE_TRIAD (i : Nat) : Nat := 0x040020 + 0x4 * (i % 4)
def LANE_TRIAD_STATE : Field := ⟨5, 2⟩
def LANE_TRIAD_ODDFENCED : Field := ⟨4, 1⟩
def LANE_TRIAD_ODD : Field := ⟨2, 2⟩
def LANE_TRIAD_MODE : Field := ⟨0, 2⟩
/-- R171. -/
def LANE_LSTATE (i : Nat) : Nat := 0x040030 + 0x4 * (i % 3)
def LANE_LSTATE_CAUSE : Field := ⟨8, 3⟩
def LANE_LSTATE_QRES : Field := ⟨4, 2⟩
def LANE_LSTATE_STATE : Field := ⟨0, 3⟩
/-- R186. -/
def LANE_TRANS (i : Nat) : Nat := 0x040040 + 0x4 * (i % 3)
/-- R191. -/
def LANE_QUENCH : Nat := 0x040050
def LANE_QUENCH_GO : Field := ⟨31, 1⟩
def LANE_QUENCH_LANE : Field := ⟨0, 2⟩
/-- R13. -/
def LANE_L1ERR (i : Nat) : Nat := 0x040060 + 0x4 * (i % 12)
/-- R71. -/
def LANE_CFAULT : Nat := 0x040090
def LANE_CFAULT_FAULT : Field := ⟨0, 12⟩
/-! ### Block MMU (05_memory_dma.md) -/

/-- R112. -/
def MMU_STATUS : Nat := 0x050000
def MMU_STATUS_DIGEST : Field := ⟨5, 1⟩
def MMU_STATUS_FLASH_UE : Field := ⟨4, 1⟩
def MMU_STATUS_MRAM_UE : Field := ⟨3, 1⟩
def MMU_STATUS_DRAM_UE : Field := ⟨2, 1⟩
def MMU_STATUS_L2_UE : Field := ⟨1, 1⟩
def MMU_STATUS_CFG_SKEW : Field := ⟨0, 1⟩
/-- R112. -/
def MMU_UEADDR : Nat := 0x050004
def MMU_UEADDR_UEADDR : Field := ⟨0, 32⟩
/-- R128. -/
def MMU_SCRUB : Nat := 0x050008
def MMU_SCRUB_CODE : Field := ⟨16, 16⟩
def MMU_SCRUB_DRAM : Field := ⟨0, 11⟩
/-- R138. -/
def MMU_IOINV : Nat := 0x05000C
def MMU_IOINV_INV : Field := ⟨31, 1⟩
def MMU_IOINV_ALL : Field := ⟨8, 1⟩
def MMU_IOINV_CTX : Field := ⟨0, 5⟩
/-- R137. -/
def MMU_CTX_BASE (i : Nat) : Nat := 0x050040 + 0x4 * (i % 18)
def MMU_CTX_BASE_EN : Field := ⟨31, 1⟩
def MMU_CTX_BASE_PPN : Field := ⟨0, 28⟩
/-- R112. -/
def MMU_L2_CE : Nat := 0x050100
/-- R112. -/
def MMU_L2_UE : Nat := 0x050104
/-- R112. -/
def MMU_DRAM_CE : Nat := 0x050108
/-- R112. -/
def MMU_DRAM_UE : Nat := 0x05010C
/-- R112. -/
def MMU_MRAM_CE : Nat := 0x050110
/-- R112. -/
def MMU_MRAM_UE : Nat := 0x050114
/-- R112. -/
def MMU_FLASH_CE : Nat := 0x050118
/-- R112. -/
def MMU_FLASH_UE : Nat := 0x05011C
/-- R112. -/
def MMU_DIGEST_FAIL : Nat := 0x050120
/-! ### Block DMA (05_memory_dma.md) -/

/-- R144. -/
def DMA_STATUS : Nat := 0x060000
def DMA_STATUS_CFG_SKEW : Field := ⟨16, 1⟩
def DMA_STATUS_DONE : Field := ⟨0, 16⟩
/-- R143. -/
def DMA_FAULT : Nat := 0x060004
def DMA_FAULT_FAULT : Field := ⟨0, 16⟩
/-- R141. -/
def DMA_CH_DESC (i : Nat) : Nat := 0x060100 + 0x10 * (i % 16)
def DMA_CH_DESC_ADDR : Field := ⟨5, 27⟩
/-- R141. -/
def DMA_CH_DESCH (i : Nat) : Nat := 0x060104 + 0x10 * (i % 16)
def DMA_CH_DESCH_ADDRH : Field := ⟨0, 7⟩
/-- R141. -/
def DMA_CH_CMD (i : Nat) : Nat := 0x060108 + 0x10 * (i % 16)
def DMA_CH_CMD_STOP : Field := ⟨1, 1⟩
def DMA_CH_CMD_START : Field := ⟨0, 1⟩
/-- R143. -/
def DMA_CH_STATE (i : Nat) : Nat := 0x06010C + 0x10 * (i % 16)
def DMA_CH_STATE_LAST : Field := ⟨4, 4⟩
def DMA_CH_STATE_STATE : Field := ⟨0, 2⟩
/-! ### Block IMG (05_memory_dma.md) -/

/-- R21. -/
def IMG_STATUS : Nat := 0x070000
def IMG_STATUS_UE : Field := ⟨2, 1⟩
def IMG_STATUS_BANK : Field := ⟨1, 1⟩
def IMG_STATUS_CFG_SKEW : Field := ⟨0, 1⟩
/-- R112. -/
def IMG_CE : Nat := 0x070004
/-- R112. -/
def IMG_UE : Nat := 0x070008
/-- R112. -/
def IMG_UEADDR : Nat := 0x07000C
def IMG_UEADDR_UEADDR : Field := ⟨3, 19⟩
/-- R128. -/
def IMG_SCRUB : Nat := 0x070010
def IMG_SCRUB_PERIOD : Field := ⟨0, 14⟩
/-- R122. -/
def IMG_IDTBAD : Nat := 0x070014
/-- R122. -/
def IMG_IDTLAST : Nat := 0x070018
def IMG_IDTLAST_IDTLAST : Field := ⟨0, 15⟩
/-! ### Block SOP (09_sopin_ring.md) -/

/-- R261. -/
def SOP_STATUS (n : Nat) : Nat := 0x100000 + 0x10000 * (n % 6)
def SOP_STATUS_LOOPCHG : Field := ⟨8, 1⟩
def SOP_STATUS_REJ : Field := ⟨7, 1⟩
def SOP_STATUS_BRK : Field := ⟨6, 1⟩
def SOP_STATUS_COLL : Field := ⟨5, 1⟩
def SOP_STATUS_FCOLD : Field := ⟨4, 1⟩
def SOP_STATUS_BABBLE : Field := ⟨3, 1⟩
def SOP_STATUS_STRANGER : Field := ⟨2, 1⟩
def SOP_STATUS_VIOL : Field := ⟨1, 1⟩
def SOP_STATUS_CFG_SKEW : Field := ⟨0, 1⟩
/-- R251. -/
def SOP_CTRL (n : Nat) : Nat := 0x100004 + 0x10000 * (n % 6)
def SOP_CTRL_LISTENONLY : Field := ⟨1, 1⟩
def SOP_CTRL_EN : Field := ⟨0, 1⟩
/-- R244. -/
def SOP_GUARD (n : Nat) : Nat := 0x100008 + 0x10000 * (n % 6)
def SOP_GUARD_GUARD : Field := ⟨0, 10⟩
/-- R240. -/
def SOP_NSLOT (n : Nat) : Nat := 0x10000C + 0x10000 * (n % 6)
def SOP_NSLOT_NSLOT : Field := ⟨0, 11⟩
/-- R245. -/
def SOP_SCHEDID (n : Nat) : Nat := 0x100010 + 0x10000 * (n % 6)
def SOP_SCHEDID_SCHEDID : Field := ⟨0, 32⟩
/-- R249. -/
def SOP_STATE (n : Nat) : Nat := 0x100014 + 0x10000 * (n % 6)
def SOP_STATE_HEARD : Field := ⟨16, 8⟩
def SOP_STATE_CLEAN : Field := ⟨8, 2⟩
def SOP_STATE_RSTATE : Field := ⟨0, 3⟩
/-- R231. -/
def SOP_LOOP (n : Nat) : Nat := 0x100018 + 0x10000 * (n % 6)
def SOP_LOOP_VALID : Field := ⟨31, 1⟩
def SOP_LOOP_C : Field := ⟨0, 15⟩
/-- R263. -/
def SOP_BREAK (n : Nat) : Nat := 0x10001C + 0x10000 * (n % 6)
def SOP_BREAK_VALID : Field := ⟨31, 1⟩
def SOP_BREAK_WRAPY : Field := ⟨25, 1⟩
def SOP_BREAK_WRAPX : Field := ⟨24, 1⟩
def SOP_BREAK_YID : Field := ⟨8, 8⟩
def SOP_BREAK_XID : Field := ⟨0, 8⟩
/-- R274. -/
def SOP_DROPCFG (n : Nat) : Nat := 0x100020 + 0x10000 * (n % 6)
def SOP_DROPCFG_ETEN : Field := ⟨15, 1⟩
def SOP_DROPCFG_ETASK : Field := ⟨8, 6⟩
def SOP_DROPCFG_FRAMES : Field := ⟨0, 4⟩
/-- R279. -/
def SOP_CNOM (n : Nat) : Nat := 0x100024 + 0x10000 * (n % 6)
def SOP_CNOM_CNOM : Field := ⟨0, 15⟩
/-- R281. -/
def SOP_TDR (n : Nat) : Nat := 0x100028 + 0x10000 * (n % 6)
def SOP_TDR_VALID : Field := ⟨31, 1⟩
def SOP_TDR_WSTAT : Field := ⟨22, 2⟩
def SOP_TDR_WLEN : Field := ⟨16, 6⟩
def SOP_TDR_ESTAT : Field := ⟨12, 2⟩
def SOP_TDR_ELEN : Field := ⟨0, 6⟩
/-- R247. -/
def SOP_OUTWIN (n : Nat) : Nat := 0x100040 + 0x10000 * (n % 6)
/-- R247. -/
def SOP_STRCNT (n : Nat) : Nat := 0x100044 + 0x10000 * (n % 6)
/-- R247. -/
def SOP_HDRERR (n : Nat) : Nat := 0x100048 + 0x10000 * (n % 6)
/-- R247. -/
def SOP_FCSERR (n : Nat) : Nat := 0x10004C + 0x10000 * (n % 6)
/-- R247. -/
def SOP_LONG (n : Nat) : Nat := 0x100050 + 0x10000 * (n % 6)
/-- R247. -/
def SOP_BRKCNT (n : Nat) : Nat := 0x100054 + 0x10000 * (n % 6)
/-- R247. -/
def SOP_FCOLDCNT (n : Nat) : Nat := 0x100058 + 0x10000 * (n % 6)
/-- R247. -/
def SOP_COLLCNT (n : Nat) : Nat := 0x10005C + 0x10000 * (n % 6)
/-- R247. -/
def SOP_ONECOPY (n : Nat) : Nat := 0x100060 + 0x10000 * (n % 6)
/-- R247. -/
def SOP_SLOTSKEW (n : Nat) : Nat := 0x100064 + 0x10000 * (n % 6)
/-- R274. -/
def SOP_DROPCNT (n : Nat) : Nat := 0x100068 + 0x10000 * (n % 6)
/-- R274. -/
def SOP_OUTDISC (n : Nat) : Nat := 0x10006C + 0x10000 * (n % 6)
/-- R274. -/
def SOP_BREAKCNT (n : Nat) : Nat := 0x100070 + 0x10000 * (n % 6)
/-- R247. -/
def SOP_LASTSTR (n : Nat) : Nat := 0x100080 + 0x10000 * (n % 6)
def SOP_LASTSTR_ID : Field := ⟨24, 8⟩
def SOP_LASTSTR_PORT : Field := ⟨23, 1⟩
def SOP_LASTSTR_TYPE : Field := ⟨19, 4⟩
/-- R247. -/
def SOP_LASTVIOL (n : Nat) : Nat := 0x100084 + 0x10000 * (n % 6)
def SOP_LASTVIOL_SRC : Field := ⟨24, 8⟩
def SOP_LASTVIOL_PORT : Field := ⟨23, 1⟩
def SOP_LASTVIOL_SLOT : Field := ⟨0, 10⟩
/-- R335. -/
def SOP_QE_CFG (n : Nat) : Nat := 0x1000C0 + 0x10000 * (n % 6)
def SOP_QE_CFG_TAILTO : Field := ⟨16, 10⟩
def SOP_QE_CFG_THRESH : Field := ⟨0, 7⟩
/-- R335. -/
def SOP_QE_STATUS (n : Nat) : Nat := 0x1000C4 + 0x10000 * (n % 6)
def SOP_QE_STATUS_BANKB : Field := ⟨10, 2⟩
def SOP_QE_STATUS_BANKA : Field := ⟨8, 2⟩
def SOP_QE_STATUS_ECC : Field := ⟨3, 1⟩
def SOP_QE_STATUS_STALL : Field := ⟨2, 1⟩
def SOP_QE_STATUS_OVF : Field := ⟨1, 1⟩
def SOP_QE_STATUS_BAD : Field := ⟨0, 1⟩
/-- R335. -/
def SOP_QE_DROP (n : Nat) : Nat := 0x1000C8 + 0x10000 * (n % 6)
/-- R335. -/
def SOP_QE_TOUT (n : Nat) : Nat := 0x1000CC + 0x10000 * (n % 6)
/-- R335. -/
def SOP_QW_CFG (n : Nat) : Nat := 0x1000D0 + 0x10000 * (n % 6)
def SOP_QW_CFG_TAILTO : Field := ⟨16, 10⟩
def SOP_QW_CFG_THRESH : Field := ⟨0, 7⟩
/-- R335. -/
def SOP_QW_STATUS (n : Nat) : Nat := 0x1000D4 + 0x10000 * (n % 6)
def SOP_QW_STATUS_BANKB : Field := ⟨10, 2⟩
def SOP_QW_STATUS_BANKA : Field := ⟨8, 2⟩
def SOP_QW_STATUS_ECC : Field := ⟨3, 1⟩
def SOP_QW_STATUS_STALL : Field := ⟨2, 1⟩
def SOP_QW_STATUS_OVF : Field := ⟨1, 1⟩
def SOP_QW_STATUS_BAD : Field := ⟨0, 1⟩
/-- R335. -/
def SOP_QW_DROP (n : Nat) : Nat := 0x1000D8 + 0x10000 * (n % 6)
/-- R335. -/
def SOP_QW_TOUT (n : Nat) : Nat := 0x1000DC + 0x10000 * (n % 6)
/-- R247. -/
def SOP_SLOTVIOL (n i : Nat) : Nat := 0x100400 + 0x10000 * (n % 6) + 0x4 * (i % 256)
/-- R260. -/
def SOP_STA (n i : Nat) : Nat := 0x100800 + 0x10000 * (n % 6) + 0x4 * (i % 256)
def SOP_STA_POSVALID : Field := ⟨31, 1⟩
def SOP_STA_POS : Field := ⟨16, 15⟩
def SOP_STA_REASON : Field := ⟨8, 4⟩
def SOP_STA_STATE : Field := ⟨0, 3⟩
/-- R259. -/
def SOP_CON_W0 (n i : Nat) : Nat := 0x101000 + 0x10000 * (n % 6) + 0x10 * (i % 256)
def SOP_CON_W0_GEN : Field := ⟨28, 4⟩
def SOP_CON_W0_EN : Field := ⟨27, 1⟩
def SOP_CON_W0_CSIDX : Field := ⟨25, 2⟩
def SOP_CON_W0_SERCHK : Field := ⟨24, 1⟩
def SOP_CON_W0_REVMIN : Field := ⟨16, 8⟩
def SOP_CON_W0_TYPE : Field := ⟨0, 16⟩
/-- R259. -/
def SOP_CON_W1 (n i : Nat) : Nat := 0x101004 + 0x10000 * (n % 6) + 0x10 * (i % 256)
def SOP_CON_W1_GEN : Field := ⟨28, 4⟩
def SOP_CON_W1_SERIAL : Field := ⟨0, 24⟩
/-- R259. -/
def SOP_CON_W2 (n i : Nat) : Nat := 0x101008 + 0x10000 * (n % 6) + 0x10 * (i % 256)
def SOP_CON_W2_GEN : Field := ⟨28, 4⟩
def SOP_CON_W2_CAPREQ : Field := ⟨0, 16⟩
/-- R259. -/
def SOP_CON_W3 (n i : Nat) : Nat := 0x10100C + 0x10000 * (n % 6) + 0x10 * (i % 256)
def SOP_CON_W3_GEN : Field := ⟨28, 4⟩
def SOP_CON_W3_WDMAX : Field := ⟨16, 12⟩
def SOP_CON_W3_SETUPMAX : Field := ⟨0, 16⟩
/-- R279. -/
def SOP_PNOM (n i : Nat) : Nat := 0x102000 + 0x10000 * (n % 6) + 0x4 * (i % 256)
def SOP_PNOM_VALID : Field := ⟨31, 1⟩
def SOP_PNOM_PNOM : Field := ⟨0, 15⟩
/-- R240. -/
def SOP_SLOT_W0 (n i : Nat) : Nat := 0x104000 + 0x10000 * (n % 6) + 0x10 * (i % 1024)
def SOP_SLOT_W0_GEN : Field := ⟨28, 4⟩
def SOP_SLOT_W0_EN : Field := ⟨27, 1⟩
def SOP_SLOT_W0_TYPE : Field := ⟨24, 3⟩
def SOP_SLOT_W0_START : Field := ⟨0, 21⟩
/-- R240. -/
def SOP_SLOT_W1 (n i : Nat) : Nat := 0x104004 + 0x10000 * (n % 6) + 0x10 * (i % 1024)
def SOP_SLOT_W1_GEN : Field := ⟨28, 4⟩
def SOP_SLOT_W1_OWNER : Field := ⟨16, 8⟩
def SOP_SLOT_W1_LEN : Field := ⟨0, 14⟩
/-- R240. -/
def SOP_SLOT_W2 (n i : Nat) : Nat := 0x104008 + 0x10000 * (n % 6) + 0x10 * (i % 1024)
def SOP_SLOT_W2_GEN : Field := ⟨28, 4⟩
def SOP_SLOT_W2_IDTNUM : Field := ⟨15, 8⟩
def SOP_SLOT_W2_IDTFIRST : Field := ⟨0, 15⟩
/-- R240. -/
def SOP_SLOT_W3 (n i : Nat) : Nat := 0x10400C + 0x10000 * (n % 6) + 0x10 * (i % 1024)
def SOP_SLOT_W3_GEN : Field := ⟨28, 4⟩
def SOP_SLOT_W3_DST : Field := ⟨0, 8⟩
/-! ### Block TIME (11_time.md) -/

/-- R284. -/
def TIME_STATUS : Nat := 0x180000
def TIME_STATUS_STEPPEND : Field := ⟨10, 1⟩
def TIME_STATUS_STATE : Field := ⟨8, 2⟩
def TIME_STATUS_ULATBAD : Field := ⟨5, 1⟩
def TIME_STATUS_STEPREF : Field := ⟨4, 1⟩
def TIME_STATUS_STEPDONE : Field := ⟨3, 1⟩
def TIME_STATUS_BIGOFF : Field := ⟨2, 1⟩
def TIME_STATUS_LOCKLOSS : Field := ⟨1, 1⟩
def TIME_STATUS_CFG_SKEW : Field := ⟨0, 1⟩
/-- R286. -/
def TIME_CTRL : Nat := 0x180004
def TIME_CTRL_AUTOSTEP : Field := ⟨1, 1⟩
def TIME_CTRL_SRC : Field := ⟨0, 1⟩
/-- R286. -/
def TIME_STEPTH : Nat := 0x180008
def TIME_STEPTH_STEPTH : Field := ⟨0, 16⟩
/-- R285. -/
def TIME_SLEW : Nat := 0x18000C
def TIME_SLEW_SLEW : Field := ⟨0, 10⟩
/-- R287. -/
def TIME_STEPV : Nat := 0x180010
def TIME_STEPV_STEPV : Field := ⟨0, 32⟩
/-- R287. -/
def TIME_STEPCMD : Nat := 0x180014
def TIME_STEPCMD_GO : Field := ⟨31, 1⟩
/-- R282. -/
def TIME_CAPT : Nat := 0x180018
def TIME_CAPT_GO : Field := ⟨31, 1⟩
/-- R282. -/
def TIME_CSECL : Nat := 0x18001C
def TIME_CSECL_CSECL : Field := ⟨0, 32⟩
/-- R282. -/
def TIME_CSECH : Nat := 0x180020
def TIME_CSECH_CSECH : Field := ⟨0, 16⟩
/-- R282. -/
def TIME_CNS : Nat := 0x180024
def TIME_CNS_CNS : Field := ⟨0, 30⟩
/-- R282. -/
def TIME_CFRAC : Nat := 0x180028
def TIME_CFRAC_CFRAC : Field := ⟨0, 16⟩
/-- R283. -/
def TIME_RATE : Nat := 0x18002C
def TIME_RATE_RATE : Field := ⟨0, 32⟩
/-- R283. -/
def TIME_OFFS : Nat := 0x180030
def TIME_OFFS_OFFS : Field := ⟨0, 32⟩
/-- R283. -/
def TIME_CTICKL : Nat := 0x180034
def TIME_CTICKL_CTICKL : Field := ⟨0, 32⟩
/-- R283. -/
def TIME_CTICKH : Nat := 0x180038
def TIME_CTICKH_CTICKH : Field := ⟨0, 32⟩
/-- R283. -/
def TIME_CTICKF : Nat := 0x18003C
def TIME_CTICKF_CTICKF : Field := ⟨0, 32⟩
/-- R294. -/
def TIME_PTPCFG : Nat := 0x180040
def TIME_PTPCFG_DOMAIN : Field := ⟨16, 8⟩
def TIME_PTPCFG_UDP : Field := ⟨10, 4⟩
def TIME_PTPCFG_P2P : Field := ⟨6, 4⟩
def TIME_PTPCFG_PORTEN : Field := ⟨2, 4⟩
def TIME_PTPCFG_MODE : Field := ⟨0, 2⟩
/-- R294. -/
def TIME_PTPPRI : Nat := 0x180044
def TIME_PTPPRI_PRIORITY1 : Field := ⟨0, 8⟩
def TIME_PTPPRI_PRIORITY2 : Field := ⟨8, 8⟩
def TIME_PTPPRI_CLOCKCLASS : Field := ⟨16, 8⟩
/-- R294. -/
def TIME_PTPINT : Nat := 0x180048
def TIME_PTPINT_LOGSYNC : Field := ⟨0, 4⟩
def TIME_PTPINT_LOGANN : Field := ⟨4, 4⟩
def TIME_PTPINT_LOGMINDELAY : Field := ⟨8, 4⟩
def TIME_PTPINT_ANNTO : Field := ⟨12, 8⟩
/-- R284. -/
def TIME_GMIDL : Nat := 0x18004C
def TIME_GMIDL_GMIDL : Field := ⟨0, 32⟩
/-- R284. -/
def TIME_GMIDH : Nat := 0x180050
def TIME_GMIDH_GMIDH : Field := ⟨0, 32⟩
/-- R284. -/
def TIME_UTC : Nat := 0x180054
def TIME_UTC_UTC : Field := ⟨0, 16⟩
/-- R45. -/
def TIME_STEPCNT : Nat := 0x180058
/-- R45. -/
def TIME_LOSSCNT : Nat := 0x18005C
/-- R289. -/
def TIME_FLAT (i : Nat) : Nat := 0x180080 + 0x4 * (i % 16)
def TIME_FLAT_FOUT : Field := ⟨16, 16⟩
def TIME_FLAT_FIN : Field := ⟨0, 16⟩
/-- R290. -/
def TIME_ULAT (i : Nat) : Nat := 0x1800C0 + 0x4 * (i % 16)
def TIME_ULAT_UOUT : Field := ⟨16, 16⟩
def TIME_ULAT_UIN : Field := ⟨0, 16⟩
/-! ### Block BKB (24_register_map.md) -/

/-- R511. -/
def BKB_STATUS (n : Nat) : Nat := 0x190000 + 0x10000 * (n % 4)
def BKB_STATUS_LINK : Field := ⟨3, 1⟩
def BKB_STATUS_FCS : Field := ⟨2, 1⟩
def BKB_STATUS_LOSS : Field := ⟨1, 1⟩
def BKB_STATUS_CFG_SKEW : Field := ⟨0, 1⟩
/-- R511. -/
def BKB_CTRL (n : Nat) : Nat := 0x190004 + 0x10000 * (n % 4)
def BKB_CTRL_EN : Field := ⟨0, 1⟩
/-- R511. -/
def BKB_MACL (n : Nat) : Nat := 0x190008 + 0x10000 * (n % 4)
def BKB_MACL_MACL : Field := ⟨0, 32⟩
/-- R511. -/
def BKB_MACH (n : Nat) : Nat := 0x19000C + 0x10000 * (n % 4)
def BKB_MACH_MACH : Field := ⟨0, 16⟩
/-- R511. -/
def BKB_RXPKT (n : Nat) : Nat := 0x190040 + 0x10000 * (n % 4)
/-- R511. -/
def BKB_TXPKT (n : Nat) : Nat := 0x190044 + 0x10000 * (n % 4)
/-- R511. -/
def BKB_FCSERR (n : Nat) : Nat := 0x190048 + 0x10000 * (n % 4)
/-- R511. -/
def BKB_RXDISC (n : Nat) : Nat := 0x19004C + 0x10000 * (n % 4)
/-! ### Block BRG (12_bridge_lap.md) -/

/-- R302. -/
def BRG_STATUS : Nat := 0x200000
def BRG_STATUS_ORPH : Field := ⟨3, 1⟩
def BRG_STATUS_MAC : Field := ⟨2, 1⟩
def BRG_STATUS_FAIL : Field := ⟨1, 1⟩
def BRG_STATUS_CFG_SKEW : Field := ⟨0, 1⟩
/-- R296. -/
def BRG_CTRL : Nat := 0x200004
def BRG_CTRL_M0EN : Field := ⟨5, 1⟩
def BRG_CTRL_PORTEN : Field := ⟨1, 4⟩
def BRG_CTRL_EN : Field := ⟨0, 1⟩
/-- R313. -/
def BRG_RETRYWIN : Nat := 0x200008
def BRG_RETRYWIN_RETRYWIN : Field := ⟨0, 10⟩
/-- R311. -/
def BRG_FARTO : Nat := 0x20000C
def BRG_FARTO_FARTO : Field := ⟨0, 8⟩
/-- R300. -/
def BRG_SESSTO : Nat := 0x200010
def BRG_SESSTO_SESSTO : Field := ⟨0, 16⟩
/-- R312. -/
def BRG_PFAGE : Nat := 0x200014
def BRG_PFAGE_PFAGE : Field := ⟨0, 10⟩
/-- R323. -/
def BRG_CMDEN : Nat := 0x200018
def BRG_CMDEN_CMD : Field := ⟨0, 16⟩
/-- R296. -/
def BRG_IPADDR (i : Nat) : Nat := 0x200020 + 0x4 * (i % 4)
def BRG_IPADDR_IPADDR : Field := ⟨0, 32⟩
/-- R296. -/
def BRG_IPMASK (i : Nat) : Nat := 0x200030 + 0x4 * (i % 4)
def BRG_IPMASK_IPMASK : Field := ⟨0, 32⟩
/-- R302. -/
def BRG_MACERR : Nat := 0x200040
/-- R302. -/
def BRG_REPLAY : Nat := 0x200044
/-- R302. -/
def BRG_MALF : Nat := 0x200048
/-- R302. -/
def BRG_ORPHDROP : Nat := 0x20004C
/-- R302. -/
def BRG_FENCEDISC : Nat := 0x200050
/-- R302. -/
def BRG_NOTIFYDROP : Nat := 0x200054
/-- R300. -/
def BRG_CH_STATE (i : Nat) : Nat := 0x200100 + 0x10 * (i % 16)
def BRG_CH_STATE_FENCED : Field := ⟨31, 1⟩
def BRG_CH_STATE_NFAIL : Field := ⟨24, 5⟩
def BRG_CH_STATE_SSTATE : Field := ⟨22, 2⟩
/-- R317. -/
def BRG_CH_FSEQ (i : Nat) : Nat := 0x200104 + 0x10 * (i % 16)
def BRG_CH_FSEQ_FSEQ : Field := ⟨0, 32⟩
/-- R317. -/
def BRG_CH_FINFO (i : Nat) : Nat := 0x200108 + 0x10 * (i % 16)
def BRG_CH_FINFO_STATION : Field := ⟨24, 8⟩
def BRG_CH_FINFO_RING : Field := ⟨21, 3⟩
def BRG_CH_FINFO_DISC : Field := ⟨8, 8⟩
def BRG_CH_FINFO_CODE : Field := ⟨0, 8⟩
/-- R317. -/
def BRG_CH_FDISC (i : Nat) : Nat := 0x20010C + 0x10 * (i % 16)
/-- R335. -/
def BRG_Q_CFG (i : Nat) : Nat := 0x200200 + 0x10 * (i % 16)
def BRG_Q_CFG_TAILTO : Field := ⟨16, 10⟩
def BRG_Q_CFG_THRESH : Field := ⟨0, 7⟩
/-- R335. -/
def BRG_Q_STATUS (i : Nat) : Nat := 0x200204 + 0x10 * (i % 16)
def BRG_Q_STATUS_BANKB : Field := ⟨10, 2⟩
def BRG_Q_STATUS_BANKA : Field := ⟨8, 2⟩
def BRG_Q_STATUS_ECC : Field := ⟨3, 1⟩
def BRG_Q_STATUS_STALL : Field := ⟨2, 1⟩
def BRG_Q_STATUS_OVF : Field := ⟨1, 1⟩
def BRG_Q_STATUS_BAD : Field := ⟨0, 1⟩
/-- R335. -/
def BRG_Q_DROP (i : Nat) : Nat := 0x200208 + 0x10 * (i % 16)
/-- R335. -/
def BRG_Q_TOUT (i : Nat) : Nat := 0x20020C + 0x10 * (i % 16)
/-! ### Block SMAP (12_bridge_lap.md) -/

/-- R303. -/
def SMAP_PAGE : Nat := 0x210000
def SMAP_PAGE_PAGE : Field := ⟨0, 6⟩
/-- R304. -/
def SMAP_STATUS : Nat := 0x210004
def SMAP_STATUS_UE : Field := ⟨1, 1⟩
def SMAP_STATUS_CFG_SKEW : Field := ⟨0, 1⟩
/-- R304. -/
def SMAP_BAD : Nat := 0x210008
/-- R304. -/
def SMAP_LAST : Nat := 0x21000C
def SMAP_LAST_LAST : Field := ⟨0, 14⟩
/-- R303. -/
def SMAP_E_W0 (i : Nat) : Nat := 0x211000 + 0x10 * (i % 256)
def SMAP_E_W0_GEN : Field := ⟨28, 4⟩
def SMAP_E_W0_EN : Field := ⟨27, 1⟩
def SMAP_E_W0_KIND : Field := ⟨25, 2⟩
def SMAP_E_W0_DIR : Field := ⟨23, 2⟩
def SMAP_E_W0_SE : Field := ⟨22, 1⟩
def SMAP_E_W0_CMT : Field := ⟨21, 1⟩
def SMAP_E_W0_RND : Field := ⟨17, 3⟩
def SMAP_E_W0_INDEX : Field := ⟨0, 17⟩
/-- R303. -/
def SMAP_E_W1 (i : Nat) : Nat := 0x211004 + 0x10 * (i % 256)
def SMAP_E_W1_GEN : Field := ⟨28, 4⟩
def SMAP_E_W1_STATION : Field := ⟨20, 8⟩
def SMAP_E_W1_RING : Field := ⟨17, 3⟩
def SMAP_E_W1_SGN : Field := ⟨16, 1⟩
def SMAP_E_W1_HFMT : Field := ⟨13, 3⟩
def SMAP_E_W1_LSB : Field := ⟨8, 5⟩
def SMAP_E_W1_SRC : Field := ⟨6, 1⟩
def SMAP_E_W1_WIDTH : Field := ⟨0, 6⟩
/-- R303. -/
def SMAP_E_W2 (i : Nat) : Nat := 0x211008 + 0x10 * (i % 256)
def SMAP_E_W2_GEN : Field := ⟨28, 4⟩
def SMAP_E_W2_MUL : Field := ⟨0, 28⟩
/-- R303. -/
def SMAP_E_W3 (i : Nat) : Nat := 0x21100C + 0x10 * (i % 256)
def SMAP_E_W3_GEN : Field := ⟨28, 4⟩
def SMAP_E_W3_SHIFT : Field := ⟨23, 5⟩
def SMAP_E_W3_OFF : Field := ⟨0, 23⟩
/-! ### Block WAY (18_accepted_work.md) -/

/-- R412. -/
def WAY_STATUS : Nat := 0x220000
def WAY_STATUS_PURGED : Field := ⟨4, 1⟩
def WAY_STATUS_REPLAY : Field := ⟨3, 1⟩
def WAY_STATUS_BADENT : Field := ⟨2, 1⟩
def WAY_STATUS_FULL : Field := ⟨1, 1⟩
def WAY_STATUS_CFG_SKEW : Field := ⟨0, 1⟩
/-- R411. -/
def WAY_FREE : Nat := 0x220004
def WAY_FREE_FREE : Field := ⟨0, 14⟩
/-- R423. -/
def WAY_CMD : Nat := 0x220008
def WAY_CMD_PURGE : Field := ⟨31, 1⟩
/-- R423. -/
def WAY_PURGES : Nat := 0x22000C
def WAY_PURGES_PURGES : Field := ⟨0, 32⟩
/-- R412. -/
def WAY_ACCCNT : Nat := 0x220010
/-- R412. -/
def WAY_DUPCNT : Nat := 0x220014
/-- R412. -/
def WAY_BUSYCNT : Nat := 0x220018
/-- R412. -/
def WAY_BADENT : Nat := 0x22001C
/-- R412. -/
def WAY_NEXT (i : Nat) : Nat := 0x220100 + 0x4 * (i % 48)
def WAY_NEXT_NEXT : Field := ⟨0, 32⟩
/-- R413. -/
def WAY_RCPT (i : Nat) : Nat := 0x220200 + 0x4 * (i % 48)
def WAY_RCPT_RCPT : Field := ⟨0, 32⟩
/-- R417. -/
def WAY_JQ_W0 (i : Nat) : Nat := 0x220300 + 0x10 * (i % 16)
def WAY_JQ_W0_GEN : Field := ⟨28, 4⟩
def WAY_JQ_W0_EN : Field := ⟨27, 1⟩
def WAY_JQ_W0_SW : Field := ⟨21, 6⟩
def WAY_JQ_W0_NSLOT : Field := ⟨16, 5⟩
def WAY_JQ_W0_WIN : Field := ⟨0, 14⟩
/-- R417. -/
def WAY_JQ_W1 (i : Nat) : Nat := 0x220304 + 0x10 * (i % 16)
def WAY_JQ_W1_GEN : Field := ⟨28, 4⟩
def WAY_JQ_W1_CONS : Field := ⟨0, 14⟩
/-- R415. -/
def WAY_JQ_QNEXT (i : Nat) : Nat := 0x220308 + 0x10 * (i % 16)
def WAY_JQ_QNEXT_QNEXT : Field := ⟨0, 32⟩
/-! ### Block MBX (19_mailboxes.md) -/

/-- R426. -/
def MBX_STATUS : Nat := 0x230000
def MBX_STATUS_DENY : Field := ⟨1, 1⟩
def MBX_STATUS_CFG_SKEW : Field := ⟨0, 1⟩
/-- R426. -/
def MBX_DENY : Nat := 0x230004
/-- R430. -/
def MBX_EPRST : Nat := 0x230008
def MBX_EPRST_GO : Field := ⟨31, 1⟩
def MBX_EPRST_CORES : Field := ⟨0, 12⟩
/-- R432. -/
def MBX_RXPEND : Nat := 0x230010
def MBX_RXPEND_RXPEND : Field := ⟨0, 32⟩
/-- R432. -/
def MBX_ACKPEND : Nat := 0x230014
def MBX_ACKPEND_ACKPEND : Field := ⟨0, 32⟩
/-- R427. -/
def MBX_BIND (i : Nat) : Nat := 0x230080 + 0x4 * (i % 32)
def MBX_BIND_EN : Field := ⟨31, 1⟩
def MBX_BIND_RECEIVER : Field := ⟨8, 8⟩
def MBX_BIND_SENDER : Field := ⟨0, 8⟩
/-- R428. -/
def MBX_CH_HDR (i : Nat) : Nat := 0x230100 + 0x40 * (i % 32)
def MBX_CH_HDR_POST : Field := ⟨31, 1⟩
def MBX_CH_HDR_REDELIVERED : Field := ⟨30, 1⟩
def MBX_CH_HDR_LEN : Field := ⟨16, 4⟩
def MBX_CH_HDR_MTYPE : Field := ⟨0, 16⟩
/-- R428. -/
def MBX_CH_D0 (i : Nat) : Nat := 0x230104 + 0x40 * (i % 32)
def MBX_CH_D0_DATA : Field := ⟨0, 32⟩
/-- R428. -/
def MBX_CH_D1 (i : Nat) : Nat := 0x230108 + 0x40 * (i % 32)
def MBX_CH_D1_DATA : Field := ⟨0, 32⟩
/-- R428. -/
def MBX_CH_D2 (i : Nat) : Nat := 0x23010C + 0x40 * (i % 32)
def MBX_CH_D2_DATA : Field := ⟨0, 32⟩
/-- R428. -/
def MBX_CH_D3 (i : Nat) : Nat := 0x230110 + 0x40 * (i % 32)
def MBX_CH_D3_DATA : Field := ⟨0, 32⟩
/-- R428. -/
def MBX_CH_D4 (i : Nat) : Nat := 0x230114 + 0x40 * (i % 32)
def MBX_CH_D4_DATA : Field := ⟨0, 32⟩
/-- R428. -/
def MBX_CH_D5 (i : Nat) : Nat := 0x230118 + 0x40 * (i % 32)
def MBX_CH_D5_DATA : Field := ⟨0, 32⟩
/-- R428. -/
def MBX_CH_D6 (i : Nat) : Nat := 0x23011C + 0x40 * (i % 32)
def MBX_CH_D6_DATA : Field := ⟨0, 32⟩
/-- R428. -/
def MBX_CH_D7 (i : Nat) : Nat := 0x230120 + 0x40 * (i % 32)
def MBX_CH_D7_DATA : Field := ⟨0, 32⟩
/-- R428. -/
def MBX_CH_D8 (i : Nat) : Nat := 0x230124 + 0x40 * (i % 32)
def MBX_CH_D8_DATA : Field := ⟨0, 32⟩
/-- R428. -/
def MBX_CH_D9 (i : Nat) : Nat := 0x230128 + 0x40 * (i % 32)
def MBX_CH_D9_DATA : Field := ⟨0, 32⟩
/-- R428. -/
def MBX_CH_D10 (i : Nat) : Nat := 0x23012C + 0x40 * (i % 32)
def MBX_CH_D10_DATA : Field := ⟨0, 32⟩
/-- R428. -/
def MBX_CH_D11 (i : Nat) : Nat := 0x230130 + 0x40 * (i % 32)
def MBX_CH_D11_DATA : Field := ⟨0, 32⟩
/-- R428. -/
def MBX_CH_CMD (i : Nat) : Nat := 0x230134 + 0x40 * (i % 32)
def MBX_CH_CMD_TAKE : Field := ⟨31, 1⟩
def MBX_CH_CMD_ACK : Field := ⟨30, 1⟩
def MBX_CH_CMD_DONE : Field := ⟨29, 1⟩
def MBX_CH_CMD_WITHDRAW : Field := ⟨28, 1⟩
def MBX_CH_CMD_RCODE : Field := ⟨0, 16⟩
/-- R428. -/
def MBX_CH_STAT (i : Nat) : Nat := 0x230138 + 0x40 * (i % 32)
def MBX_CH_STAT_SENDER_RESTARTED : Field := ⟨31, 1⟩
def MBX_CH_STAT_LASTERR : Field := ⟨8, 3⟩
def MBX_CH_STAT_STATE : Field := ⟨0, 2⟩
/-- R428. -/
def MBX_CH_ACK (i : Nat) : Nat := 0x23013C + 0x40 * (i % 32)
def MBX_CH_ACK_RCODE : Field := ⟨0, 16⟩
/-- R436. -/
def MBX_HSEQ (i : Nat) : Nat := 0x230900 + 0x4 * (i % 32)
def MBX_HSEQ_HSEQ : Field := ⟨0, 32⟩
/-! ### Block CPL (17_redundant_pair.md) -/

/-- R402. -/
def CPL_STATUS : Nat := 0x240000
def CPL_STATUS_STEPDOWN : Field := ⟨7, 1⟩
def CPL_STATUS_STALE : Field := ⟨6, 1⟩
def CPL_STATUS_REFUSED : Field := ⟨5, 1⟩
def CPL_STATUS_LINKDOWN : Field := ⟨4, 1⟩
def CPL_STATUS_COPYLATE : Field := ⟨3, 1⟩
def CPL_STATUS_HANDBACK : Field := ⟨2, 1⟩
def CPL_STATUS_TAKEOVER : Field := ⟨1, 1⟩
def CPL_STATUS_CFG_SKEW : Field := ⟨0, 1⟩
/-- R384. -/
def CPL_CFG : Nat := 0x240004
def CPL_CFG_EN : Field := ⟨31, 1⟩
def CPL_CFG_ROLE : Field := ⟨30, 1⟩
def CPL_CFG_DHRINGS : Field := ⟨8, 6⟩
/-- R407. -/
def CPL_SOAK : Nat := 0x240008
def CPL_SOAK_SOAK : Field := ⟨0, 12⟩
/-- R384. -/
def CPL_STATE : Nat := 0x24000C
def CPL_STATE_PEPOCH : Field := ⟨16, 16⟩
def CPL_STATE_LINKS : Field := ⟨12, 4⟩
def CPL_STATE_REFUSE : Field := ⟨8, 4⟩
def CPL_STATE_PARTNER : Field := ⟨2, 2⟩
def CPL_STATE_PSTATE : Field := ⟨0, 2⟩
/-- R405. -/
def CPL_COMMAND : Nat := 0x240010
def CPL_COMMAND_SWITCH : Field := ⟨31, 1⟩
/-- R388. -/
def CPL_COPYLAST : Nat := 0x240014
def CPL_COPYLAST_COPYLAST : Field := ⟨0, 32⟩
/-- R388. -/
def CPL_COPYMAX : Nat := 0x240018
def CPL_COPYMAX_COPYMAX : Field := ⟨0, 32⟩
/-- R388. -/
def CPL_APPLIED : Nat := 0x24001C
def CPL_APPLIED_APPLIED : Field := ⟨0, 32⟩
/-- R398. -/
def CPL_HOP (i : Nat) : Nat := 0x240040 + 0x4 * (i % 6)
def CPL_HOP_VALID : Field := ⟨31, 1⟩
def CPL_HOP_HMEAS : Field := ⟨16, 10⟩
def CPL_HOP_HNOM : Field := ⟨0, 10⟩
/-- R45. -/
def CPL_STALE_CNT : Nat := 0x240060
/-- R45. -/
def CPL_HBLOSS : Nat := 0x240064
/-- R45. -/
def CPL_COPYLATE : Nat := 0x240068
/-- R45. -/
def CPL_PKTERR : Nat := 0x24006C
/-- R45. -/
def CPL_TAKEOVER : Nat := 0x240070
/-- R45. -/
def CPL_HANDBACK : Nat := 0x240074
/-- R335. -/
def CPL_Q_CFG (i : Nat) : Nat := 0x240100 + 0x10 * (i % 4)
def CPL_Q_CFG_TAILTO : Field := ⟨16, 10⟩
def CPL_Q_CFG_THRESH : Field := ⟨0, 7⟩
/-- R335. -/
def CPL_Q_STATUS (i : Nat) : Nat := 0x240104 + 0x10 * (i % 4)
def CPL_Q_STATUS_BANKB : Field := ⟨10, 2⟩
def CPL_Q_STATUS_BANKA : Field := ⟨8, 2⟩
def CPL_Q_STATUS_ECC : Field := ⟨3, 1⟩
def CPL_Q_STATUS_STALL : Field := ⟨2, 1⟩
def CPL_Q_STATUS_OVF : Field := ⟨1, 1⟩
def CPL_Q_STATUS_BAD : Field := ⟨0, 1⟩
/-- R335. -/
def CPL_Q_DROP (i : Nat) : Nat := 0x240108 + 0x10 * (i % 4)
/-- R335. -/
def CPL_Q_TOUT (i : Nat) : Nat := 0x24010C + 0x10 * (i % 4)
/-! ### Block DIO (15_digital_io.md) -/

/-- R359. -/
def DIO_STATUS : Nat := 0x280000
def DIO_STATUS_FG1OFF : Field := ⟨7, 1⟩
def DIO_STATUS_UCALBAD : Field := ⟨6, 1⟩
def DIO_STATUS_TPOVL : Field := ⟨5, 1⟩
def DIO_STATUS_LOADW : Field := ⟨4, 1⟩
def DIO_STATUS_DOFLT : Field := ⟨3, 1⟩
def DIO_STATUS_WIN : Field := ⟨2, 1⟩
def DIO_STATUS_WB : Field := ⟨1, 1⟩
def DIO_STATUS_CFG_SKEW : Field := ⟨0, 1⟩
/-- R360. -/
def DIO_DIRAW : Nat := 0x280004
def DIO_DIRAW_FILTERED : Field := ⟨16, 16⟩
def DIO_DIRAW_RAW : Field := ⟨0, 16⟩
/-- R354. -/
def DIO_DILATCH : Nat := 0x280008
def DIO_DILATCH_LATCH : Field := ⟨0, 16⟩
/-- R369. -/
def DIO_DOEN : Nat := 0x28000C
def DIO_DOEN_PAIREN : Field := ⟨0, 4⟩
/-- R364. -/
def DIO_DOSTATE : Nat := 0x280010
def DIO_DOSTATE_FAULT : Field := ⟨16, 8⟩
def DIO_DOSTATE_RB : Field := ⟨8, 8⟩
def DIO_DOSTATE_CMD : Field := ⟨0, 8⟩
/-- R368. -/
def DIO_DOLOAD : Nat := 0x280014
def DIO_DOLOAD_LOAD0 : Field := ⟨0, 2⟩
def DIO_DOLOAD_LOAD1 : Field := ⟨2, 2⟩
def DIO_DOLOAD_LOAD2 : Field := ⟨4, 2⟩
def DIO_DOLOAD_LOAD3 : Field := ⟨6, 2⟩
def DIO_DOLOAD_LOAD4 : Field := ⟨8, 2⟩
def DIO_DOLOAD_LOAD5 : Field := ⟨10, 2⟩
def DIO_DOLOAD_LOAD6 : Field := ⟨12, 2⟩
def DIO_DOLOAD_LOAD7 : Field := ⟨14, 2⟩
/-- R366. -/
def DIO_DOCLR : Nat := 0x280018
def DIO_DOCLR_GO : Field := ⟨31, 1⟩
def DIO_DOCLR_MASK : Field := ⟨0, 8⟩
/-- R359. -/
def DIO_WBCNT : Nat := 0x280020
/-- R359. -/
def DIO_WINCNT : Nat := 0x280024
/-- R359. -/
def DIO_DOFLTCNT : Nat := 0x280028
/-- R359. -/
def DIO_DICFG (i : Nat) : Nat := 0x280040 + 0x4 * (i % 16)
def DIO_DICFG_EN : Field := ⟨31, 1⟩
def DIO_DICFG_DIAG : Field := ⟨30, 1⟩
def DIO_DICFG_SRC : Field := ⟨28, 2⟩
def DIO_DICFG_FILT : Field := ⟨17, 8⟩
def DIO_DICFG_POINT : Field := ⟨0, 17⟩
/-- R372. -/
def DIO_DIUCAL (i : Nat) : Nat := 0x280080 + 0x4 * (i % 16)
def DIO_DIUCAL_UGAIN : Field := ⟨16, 16⟩
def DIO_DIUCAL_UOFFS : Field := ⟨0, 16⟩
/-- R372. -/
def DIO_DIFCAL (i : Nat) : Nat := 0x2800C0 + 0x4 * (i % 16)
def DIO_DIFCAL_FGAIN : Field := ⟨16, 16⟩
def DIO_DIFCAL_FOFFS : Field := ⟨0, 16⟩
/-- R364. -/
def DIO_DOCFG (i : Nat) : Nat := 0x280100 + 0x4 * (i % 8)
def DIO_DOCFG_PAIR : Field := ⟨31, 1⟩
def DIO_DOCFG_POINT : Field := ⟨0, 17⟩
/-- R367. -/
def DIO_DOFB (i : Nat) : Nat := 0x280120 + 0x4 * (i % 8)
def DIO_DOFB_EN : Field := ⟨31, 1⟩
def DIO_DOFB_FBPOINT : Field := ⟨0, 17⟩
/-! ### Block LOOP (16_current_loops.md) -/

/-- R383. -/
def LOOP_STATUS : Nat := 0x290000
def LOOP_STATUS_FG2OFF : Field := ⟨7, 1⟩
def LOOP_STATUS_UCALBAD : Field := ⟨6, 1⟩
def LOOP_STATUS_THERM : Field := ⟨5, 1⟩
def LOOP_STATUS_MISWIRE : Field := ⟨4, 1⟩
def LOOP_STATUS_OPEN : Field := ⟨3, 1⟩
def LOOP_STATUS_CHFLT : Field := ⟨1, 1⟩
def LOOP_STATUS_CFG_SKEW : Field := ⟨0, 1⟩
/-- R379. -/
def LOOP_CTIME : Nat := 0x290004
def LOOP_CTIME_CTIME : Field := ⟨0, 14⟩
/-- R379. -/
def LOOP_COMPLIANCE : Nat := 0x290008
def LOOP_COMPLIANCE_STICKY : Field := ⟨8, 4⟩
def LOOP_COMPLIANCE_NOW : Field := ⟨0, 4⟩
/-- R383. -/
def LOOP_FAULT : Nat := 0x29000C
def LOOP_FAULT_CAUSE0 : Field := ⟨0, 4⟩
def LOOP_FAULT_CAUSE1 : Field := ⟨4, 4⟩
def LOOP_FAULT_CAUSE2 : Field := ⟨8, 4⟩
def LOOP_FAULT_CAUSE3 : Field := ⟨12, 4⟩
/-- R383. -/
def LOOP_CLR : Nat := 0x290010
def LOOP_CLR_GO : Field := ⟨31, 1⟩
def LOOP_CLR_MASK : Field := ⟨0, 4⟩
/-- R383. -/
def LOOP_FLTCNT : Nat := 0x290014
/-- R373. -/
def LOOP_CFG (i : Nat) : Nat := 0x290040 + 0x4 * (i % 4)
def LOOP_CFG_EN : Field := ⟨31, 1⟩
def LOOP_CFG_MODE : Field := ⟨30, 1⟩
def LOOP_CFG_FRESP : Field := ⟨28, 2⟩
def LOOP_CFG_SFAULT : Field := ⟨27, 1⟩
def LOOP_CFG_NE43 : Field := ⟨26, 1⟩
def LOOP_CFG_VEXT : Field := ⟨21, 5⟩
def LOOP_CFG_POINT : Field := ⟨0, 14⟩
/-- R377. -/
def LOOP_MEAS (i : Nat) : Nat := 0x290050 + 0x4 * (i % 4)
def LOOP_MEAS_IRB : Field := ⟨16, 16⟩
def LOOP_MEAS_VTERM : Field := ⟨0, 16⟩
/-- R377. -/
def LOOP_LOAD (i : Nat) : Nat := 0x290060 + 0x4 * (i % 4)
def LOOP_LOAD_VALID : Field := ⟨31, 1⟩
def LOOP_LOAD_RLOAD : Field := ⟨0, 16⟩
/-- R374. -/
def LOOP_UCAL (i : Nat) : Nat := 0x290070 + 0x4 * (i % 4)
def LOOP_UCAL_UGAIN : Field := ⟨16, 16⟩
def LOOP_UCAL_UOFFS : Field := ⟨0, 16⟩
/-- R374. -/
def LOOP_FCAL (i : Nat) : Nat := 0x290080 + 0x4 * (i % 4)
def LOOP_FCAL_FGAIN : Field := ⟨16, 16⟩
def LOOP_FCAL_FOFFS : Field := ⟨0, 16⟩
/-! ### Block SAF (14_safety.md) -/

/-- R354. -/
def SAF_STATUS : Nat := 0x2A0000
def SAF_STATUS_BBDROP : Field := ⟨4, 1⟩
def SAF_STATUS_TPFAIL : Field := ⟨3, 1⟩
def SAF_STATUS_RUNNING : Field := ⟨2, 1⟩
def SAF_STATUS_GPEND : Field := ⟨1, 1⟩
def SAF_STATUS_CFG_SKEW : Field := ⟨0, 1⟩
/-- R353. -/
def SAF_TPCTRL : Nat := 0x2A0004
def SAF_TPCTRL_TEST : Field := ⟨31, 1⟩
def SAF_TPCTRL_AUTOREC : Field := ⟨16, 1⟩
def SAF_TPCTRL_INTERVAL : Field := ⟨0, 12⟩
/-- R352. -/
def SAF_TPRES : Nat := 0x2A0008
def SAF_TPRES_RES0 : Field := ⟨0, 2⟩
def SAF_TPRES_RES1 : Field := ⟨2, 2⟩
def SAF_TPRES_RES2 : Field := ⟨4, 2⟩
def SAF_TPRES_RES3 : Field := ⟨6, 2⟩
def SAF_TPRES_RES4 : Field := ⟨8, 2⟩
def SAF_TPRES_RES5 : Field := ⟨10, 2⟩
def SAF_TPRES_RES6 : Field := ⟨12, 2⟩
def SAF_TPRES_RES7 : Field := ⟨14, 2⟩
def SAF_TPRES_RES8 : Field := ⟨16, 2⟩
def SAF_TPRES_RES9 : Field := ⟨18, 2⟩
def SAF_TPRES_RES10 : Field := ⟨20, 2⟩
def SAF_TPRES_RES11 : Field := ⟨22, 2⟩
def SAF_TPRES_RES12 : Field := ⟨24, 2⟩
def SAF_TPRES_RES13 : Field := ⟨26, 2⟩
def SAF_TPRES_RES14 : Field := ⟨28, 2⟩
def SAF_TPRES_RES15 : Field := ⟨30, 2⟩
/-- R354. -/
def SAF_TPFAIL : Nat := 0x2A000C
/-- R354. -/
def SAF_BBDROP : Nat := 0x2A0010
/-- R355. -/
def SAF_GSTATE : Nat := 0x2A0014
def SAF_GSTATE_G0 : Field := ⟨0, 2⟩
def SAF_GSTATE_G1 : Field := ⟨2, 2⟩
def SAF_GSTATE_G2 : Field := ⟨4, 2⟩
def SAF_GSTATE_G3 : Field := ⟨6, 2⟩
def SAF_GSTATE_G4 : Field := ⟨8, 2⟩
def SAF_GSTATE_G5 : Field := ⟨10, 2⟩
def SAF_GSTATE_G6 : Field := ⟨12, 2⟩
def SAF_GSTATE_G7 : Field := ⟨14, 2⟩
/-- R355. -/
def SAF_GTEST (i : Nat) : Nat := 0x2A0020 + 0x4 * (i % 8)
def SAF_GTEST_EN : Field := ⟨31, 1⟩
def SAF_GTEST_EVERY : Field := ⟨30, 1⟩
def SAF_GTEST_MASK : Field := ⟨0, 16⟩
/-- R351. -/
def SAF_BCH_W0 (i : Nat) : Nat := 0x2A0100 + 0x10 * (i % 32)
def SAF_BCH_W0_GEN : Field := ⟨28, 4⟩
def SAF_BCH_W0_EN : Field := ⟨27, 1⟩
def SAF_BCH_W0_PORT : Field := ⟨25, 2⟩
def SAF_BCH_W0_RCH : Field := ⟨20, 5⟩
def SAF_BCH_W0_INCOUNT : Field := ⟨0, 7⟩
/-- R351. -/
def SAF_BCH_W1 (i : Nat) : Nat := 0x2A0104 + 0x10 * (i % 32)
def SAF_BCH_W1_GEN : Field := ⟨28, 4⟩
def SAF_BCH_W1_OUTCOUNT : Field := ⟨21, 7⟩
def SAF_BCH_W1_INSTART : Field := ⟨0, 14⟩
/-- R351. -/
def SAF_BCH_W2 (i : Nat) : Nat := 0x2A0108 + 0x10 * (i % 32)
def SAF_BCH_W2_GEN : Field := ⟨28, 4⟩
def SAF_BCH_W2_SENDOFF : Field := ⟨14, 14⟩
def SAF_BCH_W2_OUTSTART : Field := ⟨0, 14⟩
/-- R351. -/
def SAF_BCH_PEER (i : Nat) : Nat := 0x2A010C + 0x10 * (i % 32)
def SAF_BCH_PEER_PEER : Field := ⟨0, 32⟩
/-! ### Block BLW (20_bellows.md) -/

/-- R439. -/
def BLW_STATUS : Nat := 0x300000
def BLW_STATUS_INVCHG : Field := ⟨8, 1⟩
def BLW_STATUS_CLKDIFF : Field := ⟨7, 1⟩
def BLW_STATUS_BRESTART : Field := ⟨6, 1⟩
def BLW_STATUS_HOLDLOW : Field := ⟨5, 1⟩
def BLW_STATUS_TWARN : Field := ⟨4, 1⟩
def BLW_STATUS_RAILF : Field := ⟨3, 1⟩
def BLW_STATUS_PFEVT : Field := ⟨2, 1⟩
def BLW_STATUS_PFAIL : Field := ⟨1, 1⟩
def BLW_STATUS_CFG_SKEW : Field := ⟨0, 1⟩
/-- R441. -/
def BLW_CMD : Nat := 0x300004
def BLW_CMD_RESET : Field := ⟨31, 1⟩
def BLW_CMD_HOLDTEST : Field := ⟨30, 1⟩
/-- R440. -/
def BLW_WDOG : Nat := 0x300008
def BLW_WDOG_KEY : Field := ⟨0, 8⟩
/-- R440. -/
def BLW_WDTIME : Nat := 0x30000C
def BLW_WDTIME_EN : Field := ⟨31, 1⟩
def BLW_WDTIME_TIME : Field := ⟨0, 16⟩
/-- R459. -/
def BLW_HEALTH : Nat := 0x300010
def BLW_HEALTH_HEALTH : Field := ⟨0, 32⟩
/-- R458. -/
def BLW_OPCAP : Nat := 0x300014
def BLW_OPCAP_EFF : Field := ⟨8, 2⟩
def BLW_OPCAP_THERM : Field := ⟨4, 2⟩
def BLW_OPCAP_USER : Field := ⟨0, 2⟩
/-- R453. -/
def BLW_HOLDUP : Nat := 0x300018
def BLW_HOLDUP_VALID : Field := ⟨31, 1⟩
def BLW_HOLDUP_HTIME : Field := ⟨0, 16⟩
/-- R443. -/
def BLW_STAGE : Nat := 0x30001C
def BLW_STAGE_FG2ON : Field := ⟨24, 1⟩
def BLW_STAGE_FG1ON : Field := ⟨23, 1⟩
def BLW_STAGE_DRAMFAIL : Field := ⟨22, 1⟩
def BLW_STAGE_CPLOK : Field := ⟨18, 4⟩
def BLW_STAGE_BKBOK : Field := ⟨14, 4⟩
def BLW_STAGE_RINGOK : Field := ⟨8, 6⟩
def BLW_STAGE_ROMFAIL : Field := ⟨7, 1⟩
def BLW_STAGE_LANEPASS : Field := ⟨4, 3⟩
def BLW_STAGE_STAGE : Field := ⟨0, 4⟩
/-- R454. -/
def BLW_OPTIMEL : Nat := 0x300020
def BLW_OPTIMEL_OPTIMEL : Field := ⟨0, 32⟩
/-- R454. -/
def BLW_OPTIMEH : Nat := 0x300024
def BLW_OPTIMEH_OPTIMEH : Field := ⟨0, 8⟩
/-- R454. -/
def BLW_PWRCYC : Nat := 0x300028
def BLW_PWRCYC_PWRCYC : Field := ⟨0, 32⟩
/-- R456. -/
def BLW_EFCOUNT : Nat := 0x30002C
def BLW_EFCOUNT_EFCOUNT : Field := ⟨0, 32⟩
/-- R456. -/
def BLW_EFRAME : Nat := 0x300030
def BLW_EFRAME_EFRAME : Field := ⟨0, 24⟩
/-- R456. -/
def BLW_EFAB : Nat := 0x300034
def BLW_EFAB_EFAB : Field := ⟨0, 24⟩
/-- R456. -/
def BLW_ELANE (i : Nat) : Nat := 0x300038 + 0x8 * (i % 3)
def BLW_ELANE_ELANE : Field := ⟨0, 24⟩
/-- R456. -/
def BLW_EACT (i : Nat) : Nat := 0x30003C + 0x8 * (i % 3)
def BLW_EACT_EACT : Field := ⟨0, 24⟩
/-- R456. -/
def BLW_ETOTL : Nat := 0x300050
def BLW_ETOTL_ETOTL : Field := ⟨0, 32⟩
/-- R456. -/
def BLW_ETOTH : Nat := 0x300054
def BLW_ETOTH_ETOTH : Field := ⟨0, 32⟩
/-- R450. -/
def BLW_PFCNT : Nat := 0x300060
/-- R450. -/
def BLW_RAILCNT : Nat := 0x300064
/-- R450. -/
def BLW_THERMCNT : Nat := 0x300068
/-- R450. -/
def BLW_BRSTCNT : Nat := 0x30006C
/-- R448. -/
def BLW_RAIL (i : Nat) : Nat := 0x300080 + 0x4 * (i % 12)
def BLW_RAIL_OUT : Field := ⟨31, 1⟩
def BLW_RAIL_MV : Field := ⟨0, 16⟩
/-- R452. -/
def BLW_TEMP (i : Nat) : Nat := 0x3000C0 + 0x4 * (i % 8)
def BLW_TEMP_LEVEL : Field := ⟨30, 2⟩
def BLW_TEMP_TEMP : Field := ⟨0, 12⟩
/-- R457. -/
def BLW_OPTAB (i : Nat) : Nat := 0x3000E0 + 0x4 * (i % 3)
def BLW_OPTAB_FREQ : Field := ⟨22, 10⟩
def BLW_OPTAB_PACT : Field := ⟨11, 11⟩
def BLW_OPTAB_PGATE : Field := ⟨0, 11⟩
/-- R456. -/
def BLW_LINKP (i : Nat) : Nat := 0x300100 + 0x4 * (i % 24)
def BLW_LINKP_MW : Field := ⟨0, 16⟩
/-! ### Block EVR (21_event_recorder.md) -/

/-- R466. -/
def EVR_STATUS : Nat := 0x310000
def EVR_STATUS_WEARW : Field := ⟨3, 1⟩
def EVR_STATUS_FLUSHING : Field := ⟨2, 1⟩
def EVR_STATUS_LOST : Field := ⟨1, 1⟩
def EVR_STATUS_CFG_SKEW : Field := ⟨0, 1⟩
/-- R467. -/
def EVR_CMD : Nat := 0x310004
def EVR_CMD_READ : Field := ⟨31, 1⟩
def EVR_CMD_FLUSH : Field := ⟨30, 1⟩
def EVR_CMD_CLEAR : Field := ⟨29, 1⟩
/-- R466. -/
def EVR_BUFCNT : Nat := 0x310008
def EVR_BUFCNT_BUFCNT : Field := ⟨0, 13⟩
/-- R469. -/
def EVR_WEAR : Nat := 0x31000C
def EVR_WEAR_WEAR : Field := ⟨0, 17⟩
/-- R466. -/
def EVR_FIRSTL : Nat := 0x310010
def EVR_FIRSTL_FIRSTL : Field := ⟨0, 32⟩
/-- R466. -/
def EVR_FIRSTH : Nat := 0x310014
def EVR_FIRSTH_FIRSTH : Field := ⟨0, 16⟩
/-- R466. -/
def EVR_NEXTL : Nat := 0x310018
def EVR_NEXTL_NEXTL : Field := ⟨0, 32⟩
/-- R466. -/
def EVR_NEXTH : Nat := 0x31001C
def EVR_NEXTH_NEXTH : Field := ⟨0, 16⟩
/-- R470. -/
def EVR_RDSEQL : Nat := 0x310020
def EVR_RDSEQL_RDSEQL : Field := ⟨0, 32⟩
/-- R470. -/
def EVR_RDSEQH : Nat := 0x310024
def EVR_RDSEQH_RDSEQH : Field := ⟨0, 16⟩
/-- R470. -/
def EVR_RDSTAT : Nat := 0x310028
def EVR_RDSTAT_RES : Field := ⟨0, 2⟩
/-- R470. -/
def EVR_RDATA (i : Nat) : Nat := 0x310030 + 0x4 * (i % 12)
def EVR_RDATA_DATA : Field := ⟨0, 32⟩
/-- R465. -/
def EVR_SUPPTOT : Nat := 0x310060
/-- R465. -/
def EVR_BUFLOST : Nat := 0x310064
/-- R465. -/
def EVR_BADBLK : Nat := 0x310068
/-- R465. -/
def EVR_RLIM_W0 (i : Nat) : Nat := 0x310080 + 0x8 * (i % 16)
def EVR_RLIM_W0_GEN : Field := ⟨28, 4⟩
def EVR_RLIM_W0_EN : Field := ⟨27, 1⟩
def EVR_RLIM_W0_SOURCE : Field := ⟨16, 8⟩
def EVR_RLIM_W0_CODE : Field := ⟨0, 16⟩
/-- R465. -/
def EVR_RLIM_W1 (i : Nat) : Nat := 0x310084 + 0x8 * (i % 16)
def EVR_RLIM_W1_GEN : Field := ⟨28, 4⟩
def EVR_RLIM_W1_BURST : Field := ⟨8, 8⟩
def EVR_RLIM_W1_RATE : Field := ⟨0, 8⟩
/-! ### Block UPD (22_update_identity.md) -/

/-- R477. -/
def UPD_STATUS : Nat := 0x320000
def UPD_STATUS_RECOVERED : Field := ⟨7, 1⟩
def UPD_STATUS_TRIAL : Field := ⟨6, 1⟩
def UPD_STATUS_CONFIRMED : Field := ⟨5, 1⟩
def UPD_STATUS_FALLBACK : Field := ⟨4, 1⟩
def UPD_STATUS_REJECT : Field := ⟨3, 1⟩
def UPD_STATUS_WERR : Field := ⟨2, 1⟩
def UPD_STATUS_WDONE : Field := ⟨1, 1⟩
def UPD_STATUS_CFG_SKEW : Field := ⟨0, 1⟩
/-- R477. -/
def UPD_CMD : Nat := 0x320004
def UPD_CMD_WRITE : Field := ⟨31, 1⟩
def UPD_CMD_APPLY : Field := ⟨30, 1⟩
def UPD_CMD_CONFIRM : Field := ⟨29, 1⟩
def UPD_CMD_DISCARD : Field := ⟨28, 1⟩
def UPD_CMD_RECOVER : Field := ⟨27, 1⟩
def UPD_CMD_NOW : Field := ⟨26, 1⟩
/-- R477. -/
def UPD_SRC : Nat := 0x320008
def UPD_SRC_SRC : Field := ⟨0, 32⟩
/-- R477. -/
def UPD_OFF : Nat := 0x32000C
def UPD_OFF_OFF : Field := ⟨8, 18⟩
/-- R477. -/
def UPD_LEN : Nat := 0x320010
def UPD_LEN_LEN : Field := ⟨8, 19⟩
/-- R477. -/
def UPD_SIDING : Nat := 0x320014
def UPD_SIDING_STATE : Field := ⟨28, 4⟩
def UPD_SIDING_COUNT : Field := ⟨24, 4⟩
def UPD_SIDING_NEXT : Field := ⟨20, 4⟩
def UPD_SIDING_RESULT : Field := ⟨8, 8⟩
/-- R481. -/
def UPD_TRIAL : Nat := 0x320018
def UPD_TRIAL_SECONDS : Field := ⟨0, 16⟩
/-- R478. -/
def UPD_CHAL : Nat := 0x32001C
def UPD_CHAL_CHAL : Field := ⟨0, 32⟩
/-- R478. -/
def UPD_RESP : Nat := 0x320020
def UPD_RESP_RESP : Field := ⟨0, 32⟩
/-- R474. -/
def UPD_COMP_STATE (i : Nat) : Nat := 0x320040 + 0x8 * (i % 5)
def UPD_COMP_STATE_SECMIN : Field := ⟨16, 16⟩
def UPD_COMP_STATE_B1 : Field := ⟨5, 3⟩
def UPD_COMP_STATE_B0 : Field := ⟨2, 3⟩
def UPD_COMP_STATE_ACTIVE : Field := ⟨0, 1⟩
/-- R474. -/
def UPD_COMP_VER (i : Nat) : Nat := 0x320044 + 0x8 * (i % 5)
def UPD_COMP_VER_VERSION : Field := ⟨0, 32⟩
/-! ### Block SEC (22_update_identity.md) -/

/-- R489. -/
def SEC_STATUS : Nat := 0x330000
def SEC_STATUS_REFUSED : Field := ⟨2, 1⟩
def SEC_STATUS_RPTDONE : Field := ⟨1, 1⟩
def SEC_STATUS_CFG_SKEW : Field := ⟨0, 1⟩
/-- R490. -/
def SEC_CMD : Nat := 0x330004
def SEC_CMD_ATTEST : Field := ⟨31, 1⟩
def SEC_CMD_ENROLL : Field := ⟨30, 1⟩
def SEC_CMD_REVOKE : Field := ⟨29, 1⟩
def SEC_CMD_SLOT : Field := ⟨0, 2⟩
/-- R488. -/
def SEC_SERIALL : Nat := 0x330008
def SEC_SERIALL_SERIALL : Field := ⟨0, 32⟩
/-- R488. -/
def SEC_SERIALH : Nat := 0x33000C
def SEC_SERIALH_SERIALH : Field := ⟨0, 32⟩
/-- R488. -/
def SEC_CERTSEL : Nat := 0x330010
def SEC_CERTSEL_SEL : Field := ⟨0, 2⟩
/-- R488. -/
def SEC_CERTLEN : Nat := 0x330014
def SEC_CERTLEN_LEN : Field := ⟨0, 11⟩
/-- R490. -/
def SEC_NONCE (i : Nat) : Nat := 0x330020 + 0x4 * (i % 8)
def SEC_NONCE_NONCE : Field := ⟨0, 32⟩
/-- R489. -/
def SEC_PKEY (i : Nat) : Nat := 0x330040 + 0x4 * (i % 4)
def SEC_PKEY_SLOT : Field := ⟨0, 2⟩
def SEC_PKEY_DIGEST : Field := ⟨16, 16⟩
/-- R489. -/
def SEC_KEY (i : Nat) : Nat := 0x330080 + 0x4 * (i % 16)
def SEC_KEY_KEY : Field := ⟨0, 32⟩
/-- R490. -/
def SEC_RPT (i : Nat) : Nat := 0x330100 + 0x4 * (i % 82)
def SEC_RPT_RPT : Field := ⟨0, 32⟩
/-- R488. -/
def SEC_CERT (i : Nat) : Nat := 0x330400 + 0x4 * (i % 256)
def SEC_CERT_CERT : Field := ⟨0, 32⟩
/-- The field COUNT of a counter (R45). -/
def CNT_COUNT : Field := ⟨0, 31⟩
/-- The field LOST of a counter (R45). -/
def CNT_LOST : Field := ⟨31, 1⟩

/-! ### What each block implements (R507, R53) -/

/-- The registers of block SYS. -/
def rowsSYS : List RegRow :=
  [ { off := 0x0, reset := 0x9600000 },
    { off := 0x4, reset := 0x1 },
    { off := 0x8, w1c := 0x1 },
    { off := 0xC, reset := 0x1 },
    { off := 0x10, rw := 0x7FF },
    { off := 0x100, w1c := 0x10, reset := 0x8 },
    { off := 0x104, rw := 0x300, reset := 0x202 },
    { off := 0x108, rw := 0x1B },
    { off := 0x10C, rw := 0xFFFF0037 },
    cntRow 0x110 ]

/-- The registers of block FRM. -/
def rowsFRM : List RegRow :=
  [ { off := 0x0, w1c := 0xF },
    { off := 0x4, rw := 0x1 },
    { off := 0x8, rw := 0x3FFF, reset := 0x3E8 },
    { off := 0xC, rw := 0x3FFF },
    { off := 0x10, rw := 0x7FF, reset := 0x64 },
    { off := 0x14 },
    { off := 0x18 },
    { off := 0x1C },
    cntRow 0x20,
    cntRow 0x24,
    cntRow 0x28,
    { off := 0x2C },
    { off := 0x40, stride := 0x4, count := 12, rw := 0xFFC, reset := 0x3 },
    { off := 0x100, stride := 0x10, count := 64, rw := 0xF3FF07FF, reset := 0x1 },
    { off := 0x104, stride := 0x10, count := 64, rw := 0xFF1F003F, reset := 0x200003F },
    { off := 0x108, stride := 0x10, count := 64, rw := 0xF0003FFF },
    { off := 0x10C, stride := 0x10, count := 64, w1c := 0xC, go := 0x80000000 } ]

/-- The registers of block ANX. -/
def rowsANX : List RegRow :=
  [ { off := 0x0, w1c := 0x17F },
    { off := 0x4, rw := 0xFF, reset := 0x32 },
    { off := 0x8, rw := 0x1 },
    { off := 0xC, rw := 0x1 },
    { off := 0x10, rw := 0xFFFFFFFF },
    cntRow 0x14,
    cntRow 0x18,
    { off := 0x1C },
    { off := 0x20 },
    { off := 0x24, rw := 0x3F, go := 0x80000000 },
    { off := 0x100, stride := 0x4, count := 64 } ]

/-- The registers of block ANY. -/
def rowsANY : List RegRow :=
  [ { off := 0x0, w1c := 0x17F },
    { off := 0x4, rw := 0xFF, reset := 0x32 },
    { off := 0x8, rw := 0x1 },
    { off := 0xC, rw := 0x1 },
    { off := 0x10, rw := 0xFFFFFFFF },
    cntRow 0x14,
    cntRow 0x18,
    { off := 0x1C },
    { off := 0x20 },
    { off := 0x24, rw := 0x3F, go := 0x80000000 },
    { off := 0x100, stride := 0x4, count := 64 } ]

/-- The registers of block LANE. -/
def rowsLANE : List RegRow :=
  [ { off := 0x0, w1c := 0xF },
    { off := 0x4, rw := 0xFF0F, reset := 0x1803 },
    { off := 0x10, stride := 0x4, count := 4, rw := 0x33, go := 0x80000000 },
    { off := 0x20, stride := 0x4, count := 4 },
    { off := 0x30, stride := 0x4, count := 3 },
    cntRow 0x40 0x4 3,
    { off := 0x50, rw := 0x3, go := 0x80000000 },
    cntRow 0x60 0x4 12,
    { off := 0x90, w1c := 0xFFF } ]

/-- The registers of block MMU. -/
def rowsMMU : List RegRow :=
  [ { off := 0x0, w1c := 0x3F },
    { off := 0x4 },
    { off := 0x8, rw := 0xFFFF07FF, reset := 0x400003C },
    { off := 0xC, rw := 0x11F, go := 0x80000000 },
    { off := 0x40, stride := 0x4, count := 18, rw := 0x8FFFFFFF },
    cntRow 0x100,
    cntRow 0x104,
    cntRow 0x108,
    cntRow 0x10C,
    cntRow 0x110,
    cntRow 0x114,
    cntRow 0x118,
    cntRow 0x11C,
    cntRow 0x120 ]

/-- The registers of block DMA. -/
def rowsDMA : List RegRow :=
  [ { off := 0x0, w1c := 0x1FFFF },
    { off := 0x4, w1c := 0xFFFF },
    { off := 0x100, stride := 0x10, count := 16, rw := 0xFFFFFFE0 },
    { off := 0x104, stride := 0x10, count := 16, rw := 0x7F },
    { off := 0x108, stride := 0x10, count := 16, go := 0x3 },
    { off := 0x10C, stride := 0x10, count := 16 } ]

/-- The registers of block IMG. -/
def rowsIMG : List RegRow :=
  [ { off := 0x0, w1c := 0x5 },
    cntRow 0x4,
    cntRow 0x8,
    { off := 0xC },
    { off := 0x10, rw := 0x3FFF, reset := 0x3E8 },
    cntRow 0x14,
    { off := 0x18 } ]

/-- The registers of block SOP. -/
def rowsSOP : List RegRow :=
  [ { off := 0x0, w1c := 0x1FF },
    { off := 0x4, rw := 0x3 },
    { off := 0x8, rw := 0x3FF, reset := 0x7D },
    { off := 0xC, rw := 0x7FF, reset := 0x1 },
    { off := 0x10, rw := 0xFFFFFFFF },
    { off := 0x14 },
    { off := 0x18 },
    { off := 0x1C },
    { off := 0x20, rw := 0xBF0F, reset := 0x2 },
    { off := 0x24, rw := 0x7FFF },
    { off := 0x28 },
    cntRow 0x40,
    cntRow 0x44,
    cntRow 0x48,
    cntRow 0x4C,
    cntRow 0x50,
    cntRow 0x54,
    cntRow 0x58,
    cntRow 0x5C,
    cntRow 0x60,
    cntRow 0x64,
    cntRow 0x68,
    cntRow 0x6C,
    cntRow 0x70,
    { off := 0x80 },
    { off := 0x84 },
    { off := 0xC0, rw := 0x3FF007F, reset := 0x20004 },
    { off := 0xC4, w1c := 0xF },
    cntRow 0xC8,
    cntRow 0xCC,
    { off := 0xD0, rw := 0x3FF007F, reset := 0x20004 },
    { off := 0xD4, w1c := 0xF },
    cntRow 0xD8,
    cntRow 0xDC,
    cntRow 0x400 0x4 256,
    { off := 0x800, stride := 0x4, count := 256 },
    { off := 0x1000, stride := 0x10, count := 256, rw := 0xFFFFFFFF },
    { off := 0x1004, stride := 0x10, count := 256, rw := 0xF0FFFFFF },
    { off := 0x1008, stride := 0x10, count := 256, rw := 0xF000FFFF },
    { off := 0x100C, stride := 0x10, count := 256, rw := 0xFFFFFFFF },
    { off := 0x2000, stride := 0x4, count := 256, rw := 0x80007FFF },
    { off := 0x4000, stride := 0x10, count := 1024, rw := 0xFF1FFFFF },
    { off := 0x4004, stride := 0x10, count := 1024, rw := 0xF0FF3FFF },
    { off := 0x4008, stride := 0x10, count := 1024, rw := 0xF07FFFFF },
    { off := 0x400C, stride := 0x10, count := 1024, rw := 0xF00000FF } ]

/-- The registers of block TIME. -/
def rowsTIME : List RegRow :=
  [ { off := 0x0, w1c := 0x3F },
    { off := 0x4, rw := 0x3, reset := 0x2 },
    { off := 0x8, rw := 0xFFFF, reset := 0x3E8 },
    { off := 0xC, rw := 0x3FF, reset := 0x32 },
    { off := 0x10, rw := 0xFFFFFFFF },
    { off := 0x14, go := 0x80000000 },
    { off := 0x18, go := 0x80000000 },
    { off := 0x1C },
    { off := 0x20 },
    { off := 0x24 },
    { off := 0x28 },
    { off := 0x2C },
    { off := 0x30 },
    { off := 0x34 },
    { off := 0x38 },
    { off := 0x3C },
    { off := 0x40, rw := 0xFF3FFF },
    { off := 0x44, rw := 0xFFFFFF, reset := 0xF88080 },
    { off := 0x48, rw := 0xFFFFF, reset := 0x3010 },
    { off := 0x4C },
    { off := 0x50 },
    { off := 0x54 },
    cntRow 0x58,
    cntRow 0x5C,
    { off := 0x80, stride := 0x4, count := 16 },
    { off := 0xC0, stride := 0x4, count := 16, rw := 0xFFFFFFFF } ]

/-- The registers of block BKB. -/
def rowsBKB : List RegRow :=
  [ { off := 0x0, w1c := 0x7 },
    { off := 0x4, rw := 0x1 },
    { off := 0x8 },
    { off := 0xC },
    cntRow 0x40,
    cntRow 0x44,
    cntRow 0x48,
    cntRow 0x4C ]

/-- The registers of block BRG. -/
def rowsBRG : List RegRow :=
  [ { off := 0x0, w1c := 0xF },
    { off := 0x4, rw := 0x3F },
    { off := 0x8, rw := 0x3FF, reset := 0x14 },
    { off := 0xC, rw := 0xFF, reset := 0x8 },
    { off := 0x10, rw := 0xFFFF, reset := 0xA },
    { off := 0x14, rw := 0x3FF, reset := 0xA },
    { off := 0x18, rw := 0xFFFF },
    { off := 0x20, stride := 0x4, count := 4, rw := 0xFFFFFFFF },
    { off := 0x30, stride := 0x4, count := 4, rw := 0xFFFFFFFF },
    cntRow 0x40,
    cntRow 0x44,
    cntRow 0x48,
    cntRow 0x4C,
    cntRow 0x50,
    cntRow 0x54,
    { off := 0x100, stride := 0x10, count := 16 },
    { off := 0x104, stride := 0x10, count := 16 },
    { off := 0x108, stride := 0x10, count := 16 },
    cntRow 0x10C 0x10 16,
    { off := 0x200, stride := 0x10, count := 16, rw := 0x3FF007F, reset := 0x320000 },
    { off := 0x204, stride := 0x10, count := 16, w1c := 0xF },
    cntRow 0x208 0x10 16,
    cntRow 0x20C 0x10 16 ]

/-- The registers of block SMAP. -/
def rowsSMAP : List RegRow :=
  [ { off := 0x0, rw := 0x3F },
    { off := 0x4, w1c := 0x3 },
    cntRow 0x8,
    { off := 0xC },
    { off := 0x1000, stride := 0x10, count := 256, rw := 0xFFEFFFFF },
    { off := 0x1004, stride := 0x10, count := 256, rw := 0xFFFFFF7F },
    { off := 0x1008, stride := 0x10, count := 256, rw := 0xFFFFFFFF },
    { off := 0x100C, stride := 0x10, count := 256, rw := 0xFFFFFFFF } ]

/-- The registers of block WAY. -/
def rowsWAY : List RegRow :=
  [ { off := 0x0, w1c := 0x17 },
    { off := 0x4 },
    { off := 0x8, go := 0x80000000 },
    { off := 0xC },
    cntRow 0x10,
    cntRow 0x14,
    cntRow 0x18,
    cntRow 0x1C,
    { off := 0x100, stride := 0x4, count := 48 },
    { off := 0x200, stride := 0x4, count := 48 },
    { off := 0x300, stride := 0x10, count := 16, rw := 0xFFFF3FFF },
    { off := 0x304, stride := 0x10, count := 16, rw := 0xF0003FFF },
    { off := 0x308, stride := 0x10, count := 16 } ]

/-- The registers of block MBX. -/
def rowsMBX : List RegRow :=
  [ { off := 0x0, w1c := 0x3 },
    cntRow 0x4,
    { off := 0x8, rw := 0xFFF, go := 0x80000000 },
    { off := 0x10 },
    { off := 0x14 },
    { off := 0x80, stride := 0x4, count := 32, rw := 0x8000FFFF, reset := 0xFFFF },
    { off := 0x100, stride := 0x40, count := 32, rw := 0xFFFFF, go := 0x80000000 },
    { off := 0x104, stride := 0x40, count := 32, rw := 0xFFFFFFFF },
    { off := 0x108, stride := 0x40, count := 32, rw := 0xFFFFFFFF },
    { off := 0x10C, stride := 0x40, count := 32, rw := 0xFFFFFFFF },
    { off := 0x110, stride := 0x40, count := 32, rw := 0xFFFFFFFF },
    { off := 0x114, stride := 0x40, count := 32, rw := 0xFFFFFFFF },
    { off := 0x118, stride := 0x40, count := 32, rw := 0xFFFFFFFF },
    { off := 0x11C, stride := 0x40, count := 32, rw := 0xFFFFFFFF },
    { off := 0x120, stride := 0x40, count := 32, rw := 0xFFFFFFFF },
    { off := 0x124, stride := 0x40, count := 32, rw := 0xFFFFFFFF },
    { off := 0x128, stride := 0x40, count := 32, rw := 0xFFFFFFFF },
    { off := 0x12C, stride := 0x40, count := 32, rw := 0xFFFFFFFF },
    { off := 0x130, stride := 0x40, count := 32, rw := 0xFFFFFFFF },
    { off := 0x134, stride := 0x40, count := 32, go := 0xF0000000, wo := 0xFFFF },
    { off := 0x138, stride := 0x40, count := 32, w1c := 0x80000000 },
    { off := 0x13C, stride := 0x40, count := 32 },
    { off := 0x900, stride := 0x4, count := 32 } ]

/-- The registers of block CPL. -/
def rowsCPL : List RegRow :=
  [ { off := 0x0, w1c := 0xFF },
    { off := 0x4, rw := 0xC0003F00 },
    { off := 0x8, rw := 0xFFF, reset := 0x3C },
    { off := 0xC, reset := 0xF },
    { off := 0x10, go := 0x80000000 },
    { off := 0x14 },
    { off := 0x18 },
    { off := 0x1C },
    { off := 0x40, stride := 0x4, count := 6, rw := 0x3FF },
    cntRow 0x60,
    cntRow 0x64,
    cntRow 0x68,
    cntRow 0x6C,
    cntRow 0x70,
    cntRow 0x74,
    { off := 0x100, stride := 0x10, count := 4, rw := 0x3FF007F, reset := 0xA0000 },
    { off := 0x104, stride := 0x10, count := 4, w1c := 0xF },
    cntRow 0x108 0x10 4,
    cntRow 0x10C 0x10 4 ]

/-- The registers of block DIO. -/
def rowsDIO : List RegRow :=
  [ { off := 0x0, w1c := 0x7F },
    { off := 0x4 },
    { off := 0x8 },
    { off := 0xC, rw := 0xF },
    { off := 0x10 },
    { off := 0x14 },
    { off := 0x18, rw := 0xFF, go := 0x80000000 },
    cntRow 0x20,
    cntRow 0x24,
    cntRow 0x28,
    { off := 0x40, stride := 0x4, count := 16, rw := 0xF1FFFFFF, reset := 0x20000 },
    { off := 0x80, stride := 0x4, count := 16, rw := 0xFFFFFFFF },
    { off := 0xC0, stride := 0x4, count := 16 },
    { off := 0x100, stride := 0x4, count := 8, rw := 0x8001FFFF },
    { off := 0x120, stride := 0x4, count := 8, rw := 0x8001FFFF } ]

/-- The registers of block LOOP. -/
def rowsLOOP : List RegRow :=
  [ { off := 0x0, w1c := 0x7B },
    { off := 0x4, rw := 0x3FFF, reset := 0x32 },
    { off := 0x8, w1c := 0xF00 },
    { off := 0xC },
    { off := 0x10, rw := 0xF, go := 0x80000000 },
    cntRow 0x14,
    { off := 0x40, stride := 0x4, count := 4, rw := 0xFFE03FFF, reset := 0x3000000 },
    { off := 0x50, stride := 0x4, count := 4 },
    { off := 0x60, stride := 0x4, count := 4 },
    { off := 0x70, stride := 0x4, count := 4, rw := 0xFFFFFFFF },
    { off := 0x80, stride := 0x4, count := 4 } ]

/-- The registers of block SAF. -/
def rowsSAF : List RegRow :=
  [ { off := 0x0, w1c := 0x19 },
    { off := 0x4, rw := 0x10FFF, go := 0x80000000, reset := 0x1003C },
    { off := 0x8 },
    cntRow 0xC,
    cntRow 0x10,
    { off := 0x14 },
    { off := 0x20, stride := 0x4, count := 8, rw := 0xC000FFFF },
    { off := 0x100, stride := 0x10, count := 32, rw := 0xFFF0007F },
    { off := 0x104, stride := 0x10, count := 32, rw := 0xFFE03FFF },
    { off := 0x108, stride := 0x10, count := 32, rw := 0xFFFFFFFF },
    { off := 0x10C, stride := 0x10, count := 32, rw := 0xFFFFFFFF } ]

/-- The registers of block BLW. -/
def rowsBLW : List RegRow :=
  [ { off := 0x0, w1c := 0x1FD },
    { off := 0x4, go := 0xC0000000 },
    { off := 0x8, wo := 0xFF },
    { off := 0xC, rw := 0x8000FFFF, reset := 0x32 },
    { off := 0x10 },
    { off := 0x14, rw := 0x3, reset := 0x222 },
    { off := 0x18 },
    { off := 0x1C },
    { off := 0x20 },
    { off := 0x24 },
    { off := 0x28 },
    { off := 0x2C },
    { off := 0x30 },
    { off := 0x34 },
    { off := 0x38, stride := 0x8, count := 3 },
    { off := 0x3C, stride := 0x8, count := 3 },
    { off := 0x50 },
    { off := 0x54 },
    cntRow 0x60,
    cntRow 0x64,
    cntRow 0x68,
    cntRow 0x6C,
    { off := 0x80, stride := 0x4, count := 12 },
    { off := 0xC0, stride := 0x4, count := 8 },
    { off := 0xE0, stride := 0x4, count := 3 },
    { off := 0x100, stride := 0x4, count := 24 } ]

/-- The registers of block EVR. -/
def rowsEVR : List RegRow :=
  [ { off := 0x0, w1c := 0xB },
    { off := 0x4, go := 0xE0000000 },
    { off := 0x8 },
    { off := 0xC },
    { off := 0x10 },
    { off := 0x14 },
    { off := 0x18 },
    { off := 0x1C },
    { off := 0x20, rw := 0xFFFFFFFF },
    { off := 0x24, rw := 0xFFFF },
    { off := 0x28 },
    { off := 0x30, stride := 0x4, count := 12 },
    cntRow 0x60,
    cntRow 0x64,
    cntRow 0x68,
    { off := 0x80, stride := 0x8, count := 16, rw := 0xF8FFFFFF },
    { off := 0x84, stride := 0x8, count := 16, rw := 0xF000FFFF, reset := 0x804 } ]

/-- The registers of block UPD. -/
def rowsUPD : List RegRow :=
  [ { off := 0x0, w1c := 0xBF },
    { off := 0x4, rw := 0x4000000, go := 0xF8000000 },
    { off := 0x8, rw := 0xFFFFFFFF },
    { off := 0xC, rw := 0x3FFFF00 },
    { off := 0x10, rw := 0x7FFFF00 },
    { off := 0x14 },
    { off := 0x18 },
    { off := 0x1C },
    { off := 0x20, rw := 0xFFFFFFFF },
    { off := 0x40, stride := 0x8, count := 5 },
    { off := 0x44, stride := 0x8, count := 5 } ]

/-- The registers of block SEC. -/
def rowsSEC : List RegRow :=
  [ { off := 0x0, w1c := 0x7 },
    { off := 0x4, rw := 0x3, go := 0xE0000000 },
    { off := 0x8 },
    { off := 0xC },
    { off := 0x10, rw := 0x3 },
    { off := 0x14 },
    { off := 0x20, stride := 0x4, count := 8, rw := 0xFFFFFFFF },
    { off := 0x40, stride := 0x4, count := 4 },
    { off := 0x80, stride := 0x4, count := 16, rw := 0xFFFFFFFF },
    { off := 0x100, stride := 0x4, count := 82 },
    { off := 0x400, stride := 0x4, count := 256 } ]

/-- The register blocks with their windows and decode masks (R507). -/
def blocks : List Block :=
  [ ⟨0x00, 0xFFC, rowsSYS⟩,
    ⟨0x01, 0xFFC, rowsFRM⟩,
    ⟨0x02, 0xFFC, rowsANX⟩,
    ⟨0x03, 0xFFC, rowsANY⟩,
    ⟨0x04, 0xFFC, rowsLANE⟩,
    ⟨0x05, 0xFFC, rowsMMU⟩,
    ⟨0x06, 0xFFC, rowsDMA⟩,
    ⟨0x07, 0xFFC, rowsIMG⟩,
    ⟨0x10, 0x7FFC, rowsSOP⟩,
    ⟨0x11, 0x7FFC, rowsSOP⟩,
    ⟨0x12, 0x7FFC, rowsSOP⟩,
    ⟨0x13, 0x7FFC, rowsSOP⟩,
    ⟨0x14, 0x7FFC, rowsSOP⟩,
    ⟨0x15, 0x7FFC, rowsSOP⟩,
    ⟨0x18, 0xFFC, rowsTIME⟩,
    ⟨0x19, 0xFFC, rowsBKB⟩,
    ⟨0x1A, 0xFFC, rowsBKB⟩,
    ⟨0x1B, 0xFFC, rowsBKB⟩,
    ⟨0x1C, 0xFFC, rowsBKB⟩,
    ⟨0x20, 0xFFC, rowsBRG⟩,
    ⟨0x21, 0x1FFC, rowsSMAP⟩,
    ⟨0x22, 0xFFC, rowsWAY⟩,
    ⟨0x23, 0xFFC, rowsMBX⟩,
    ⟨0x24, 0xFFC, rowsCPL⟩,
    ⟨0x28, 0xFFC, rowsDIO⟩,
    ⟨0x29, 0xFFC, rowsLOOP⟩,
    ⟨0x2A, 0xFFC, rowsSAF⟩,
    ⟨0x30, 0xFFC, rowsBLW⟩,
    ⟨0x31, 0xFFC, rowsEVR⟩,
    ⟨0x32, 0xFFC, rowsUPD⟩,
    ⟨0x33, 0xFFC, rowsSEC⟩ ]

end Sys2Proof.Machine
end

