-- ==== Sys2Proof/Machine/Bits.lean ====
section
/-!
DEFINITION. Bit fields, byte order and check codes: the helpers every meaning shares.
-/

namespace Sys2Proof.Machine

/-- The `len` bits of a number from bit `lo` up. -/
def bitsAt (x lo len : Nat) : Nat := (x >>> lo) % 2 ^ len

/-- Bit `i` of a number. -/
def bitAt (x i : Nat) : Bool := x.testBit i

/-- The mask of a field inside a 32-bit register. -/
def Field.mask (f : Field) : Word := BitVec.ofNat 32 ((2 ^ f.len - 1) <<< f.lo)

/-- The value of a field. -/
def Field.get (f : Field) (x : Word) : Nat := bitsAt x.toNat f.lo f.len

/-- The register with one field replaced. A value too wide for the field keeps its low bits. -/
def Field.put (f : Field) (v : Nat) (x : Word) : Word :=
  (x &&& ~~~f.mask) ||| BitVec.ofNat 32 ((v % 2 ^ f.len) <<< f.lo)

/-- Bit 0 up: replace bits [lo + len - 1 : lo] of a 64-bit word. -/
def put64 (lo len v : Nat) (x : DWord) : DWord :=
  (x &&& ~~~(BitVec.ofNat 64 ((2 ^ len - 1) <<< lo))) ||| BitVec.ofNat 64 ((v % 2 ^ len) <<< lo)

/-- The bytes of a number, little-endian. -/
def leBytes : Nat → Nat → List Byte
  | 0, _ => []
  | n + 1, x => BitVec.ofNat 8 x :: leBytes n (x / 256)

/-- The number that little-endian bytes spell. -/
def ofLe : List Byte → Nat
  | [] => 0
  | b :: bs => b.toNat + 256 * ofLe bs

/-- Rotate the low `w` bits of a number left by `k` (rotl_w of R116). -/
def rotlNat (w x k : Nat) : Nat :=
  let x := x % 2 ^ w
  let k := k % w
  ((x <<< k) ||| (x >>> (w - k))) % 2 ^ w

/-- Reverse the low `w` bits of a number. -/
def revBits : Nat → Nat → Nat
  | 0, _ => 0
  | w + 1, x => (x % 2) * 2 ^ w + revBits w (x / 2)

/-- One bit step of a most-significant-bit-first CRC of width `w`. -/
def crcBit (w poly crc : Nat) : Nat :=
  if crc.testBit (w - 1) then ((crc <<< 1) % 2 ^ w) ^^^ poly else (crc <<< 1) % 2 ^ w

/-- Fold one byte into a most-significant-bit-first CRC of width `w`. -/
def crcByte (w poly crc b : Nat) : Nat :=
  let c0 := crc ^^^ (b <<< (w - 8))
  let c2 := crcBit w poly (crcBit w poly c0)
  let c4 := crcBit w poly (crcBit w poly c2)
  let c6 := crcBit w poly (crcBit w poly c4)
  crcBit w poly (crcBit w poly c6)

/-- A most-significant-bit-first CRC over bytes. -/
def crcMsb (w poly init : Nat) (bs : List Byte) : Nat :=
  bs.foldl (fun c b => crcByte w poly c b.toNat) init

/-- The CRC-16 of the IDT entries (R121) and of the ring headers (R235): polynomial 0x1021, initial value 0xFFFF. -/
def crc16 (bs : List Byte) : Nat := crcMsb 16 0x1021 0xFFFF bs

/-- The CRC-32 of R197: polynomial 0x04C11DB7, reflected input and output, initial value and final XOR all ones. -/
def crc32 (bs : List Byte) : Nat :=
  revBits 32 (crcMsb 32 0x04C11DB7 0xFFFFFFFF (bs.map fun b => BitVec.ofNat 8 (revBits 8 b.toNat))) ^^^ 0xFFFFFFFF

/-- The CRC-64 step of the checkpoint signature (R106). -/
def crc64Fold (acc : DWord) (bs : List Byte) : DWord :=
  BitVec.ofNat 64 (crcMsb 64 0x42F0E1EBA9EA3693 acc.toNat bs)

end Sys2Proof.Machine
end

