-- ==== Sys2Proof/Config.lean ====
section
/-!
DEFINITION. What an implementation fixes and the manual leaves open: constants without a body. No proof can see what
they are, so a claim that holds holds whatever they are. A constant applied to a counter of State gives a fresh value
at each use.
-/

namespace Sys2Proof.Config

/-- Address of the 4 KB page of image memory in which the runtime allocates the lock words (R47 gives none). -/
opaque lockPage : Nat
/-- Clock cycles an instruction takes beyond its first (R87: a program must not depend on them). -/
opaque cycles : Nat → Nat
/-- Whether a cached translation is used (R134: a change may be seen before or after the flush). -/
opaque tlbHit : Nat → Bool
/-- Which entry of a full translation cache is replaced (R133 names no policy). -/
opaque tlbVictim : Nat → Nat
/-- The number that names an initiator in P1 of an access-fault event (R472 gives no coding). -/
opaque initiatorCode : Nat → Word
/-- What general register i holds when the runtime enters a cycle, by task and release count (the manual does not say;
equal in every lane, R92). -/
opaque entryH : Nat → Nat → Nat → DWord
/-- What floating-point register i holds when the runtime enters a cycle. -/
opaque entryF : Nat → Nat → Nat → DWord
/-- What sr.FCSR holds when the runtime enters a cycle. -/
opaque entryFcsr : Nat → Nat → BitVec 13
/-- The instant inside the present frame, in units of 2^-16 ns after the last clock value the model set. -/
opaque instant : Nat → Nat

/-- The number that stands for a thing in an event parameter whose coding the manual does not give, by kind and thing. -/
opaque paramCode : Nat → Nat → Word
/-- Bits [31:0] of the SM3 digest of a change of modes or forces that R218 confirms, by the numbers that spell the change: the
manual does not give its bytes. -/
opaque changeDigest : List Nat → Word
/-- What a read that only the hardware makes finds in a word with an uncorrectable error (R112: no data is delivered). -/
opaque lostWord : Nat → DWord
/-- A raw input value the manual does not give (a sample in a fault row of R359). -/
opaque rawValue : Nat → Bool
/-- sr.TVAL of a machine check that an image instruction takes on a cell (R68 gives a virtual address, and such an
instruction forms none). -/
opaque imageTval : Nat → DWord

/-- Cause and value that the task-fault event of a digest failure reports (R129, R472: no instruction has trapped), by use. -/
opaque digestCause : Nat → DWord

/-- Slew that the servo makes in a frame in which the limit of R285 does not bind, in units of 2^-16 ns (R284 gives no
control law). -/
opaque servoSlew : Nat → Nat
/-- Change of the rate correction that the servo makes in a frame, in units of 2^-40 (R284 bounds it only). -/
opaque servoRate : Nat → Int
/-- clockIdentity, clockAccuracy and offsetScaledLogVariance the module announces (R294 gives only the priorities and
the class). -/
opaque clockIdentity : Nat
opaque clockAccuracy : Nat
opaque clockVariance : Nat

/-- The new SCHEDID that the runtime gives a changed schedule (R245 does not say how it is formed). -/
opaque newSchedId : Nat → Word

/-- A new session's SID (R301 gives no rule for it), by use. -/
opaque lapSid : Nat → Word
/-- Byte i of the session key that the SM2 key exchange of a HELLO yields (R301: the private keys are not architectural), by use. -/
opaque sessionKey : Nat → Nat → Byte
/-- Byte i of the module's ephemeral key, nonce and signature in a HELLO response (R301), by use. -/
opaque helloByte : Nat → Nat → Byte

/-- Byte i of the image header that a component's bank 0 was shipped with (R506), by component. -/
opaque shippedHeader : Nat → Nat → Byte
/-- Word i of a certificate, and its length (R488), by SEC_CERTSEL. -/
opaque certWord : Nat → Nat → Word
opaque certLength : Nat → BitVec 11
/-- Byte i of an SM3 digest or signature in a report or capability word (R454, R490), by use. -/
opaque sealByte : Nat → Nat → Byte
/-- Lowest and highest runtime version of a partner that the runtime accepts (R454; the image header of R475 has no field
for them). -/
opaque partnerLowest : Word
opaque partnerHighest : Word
/-- What the partner answers to an update request that a register write makes (R484), by use. -/
opaque updateGranted : Nat → Bool
/-- Byte i of the SM3 digest of a program bank, by the program it holds, and of the configuration items, by their values (R386, R454:
the manual does not give the bytes that are hashed). -/
opaque programDigest : Machine.Program → Nat → Byte
opaque configDigest : List (Nat × Word) → List (Nat × Word) → List (Nat × Byte) → Nat → Byte
/-- Size in bytes of a record (R390 counts bytes of items whose coding the manual does not give), by use. -/
opaque recordSize : Nat → Word
/-- An energy in µJ that Bellows measures in a frame (R456), by use. -/
opaque energy : Nat → BitVec 24

/-- Whether underflow is judged before rounding (IEEE 754 leaves the choice; R82 makes none). -/
opaque tininessBeforeRounding : Bool
/-- Whether a fused multiply-add of infinity, zero and a quiet NaN sets NV (IEEE 754 leaves the choice). -/
opaque fusedQuietNanInvalid : Bool

end Sys2Proof.Config
end

