-- ==== Sys2Proof/Machine/State.lean ====
section
/-!
DEFINITION. The state of the module, as plain data: everything the manual gives it, and the state right after reset.

What a register holds stands in `regs`, one sparse file for the whole register space, keyed by the offset in that space;
an offset that is not listed holds its reset value (Machine/Regs.lean). A fact that a register shows has the register as
its one home; the other fields hold what no register shows.
-/

namespace Sys2Proof.Machine

/-- Reasons a step could stop the model with a fault. The part turns every fault of the manual into a next state (a
trap, a stopped channel, a failed answer), so there is no constructor: no meaning raises one. -/
inductive Fault where
  deriving DecidableEq, Repr

/-- Reasons a command has no meaning here. -/
inductive Refusal where
  /-- Raised by `exec` alone, for a command whose meaning is not written yet; safe, since nothing is claimed of it. -/
  | notModelled (mnemonic : String)
  deriving DecidableEq, Repr

/-! ### Helin cores (03_helin_base.md, 04_helin_control.md) -/

/-- Whether a core executes (R71, R84, R446). -/
inductive RunState where
  /-- In reset, no instruction executes. -/
  | held
  | running
  /-- Clocks gated by WAIT or by the race to idle (R27, R84). -/
  | gated
  /-- Stopped by a double trap or by a lane fence (R71, R184). -/
  | stopped
  deriving DecidableEq, Repr

/-- One entry of a core's translation cache (R133): a leaf found by a walk. -/
structure TlbEntry where
  asid : Nat
  /-- Level of the leaf, 1 to 3 (R130). -/
  level : Nat
  /-- Virtual address bits above the leaf's page. -/
  vpn : Nat
  leaf : DWord
  deriving DecidableEq, Repr

/-- A Helin core (R55, R61, R102): its registers, its state registers and what the lane hardware keeps of it. -/
structure Core where
  h : Vector DWord 32
  f : Vector DWord 32
  pc : DWord
  status : DWord
  tvec : DWord
  tpc : DWord
  tcause : DWord
  tval : DWord
  tstatus : DWord
  kscratch : DWord
  corecyc : DWord
  instret : DWord
  fcsr : DWord
  taskid : DWord
  ptbase : DWord
  asid : DWord
  xlate : DWord
  islice : DWord
  ftime : DWord
  felapsed : DWord
  firstcycle : DWord
  frelease : DWord
  fperiod : DWord
  pepoch : DWord
  tstate : DWord
  cksigl : DWord
  cksigh : DWord
  ckstate : DWord
  run : RunState
  /-- Interrupt lines raised and not yet taken (R167). -/
  lines : BitVec 12
  /-- The slice table the image unit holds; none after a failed load (R120). -/
  slices : Option (List Slice)
  tlb : List TlbEntry
  deriving DecidableEq, Repr

/-! ### Event recorder (21_event_recorder.md) -/

/-- One event record (R461). The CRC of bytes 44-47 is computed when the record is read. -/
structure EvRec where
  seq : Nat
  code : Nat
  source : Nat
  flags : Nat
  supp : Nat
  optime : Nat
  pwrcyc : Nat
  params : List Nat
  deriving DecidableEq, Repr

/-- The token bucket of one pair of SOURCE and CODE (R465): tokens in units of 1/1,000, and the suppressed count. -/
structure Bucket where
  source : Nat
  code : Nat
  tokens : Nat
  suppressed : Nat
  deriving DecidableEq, Repr

/-- An event that has been raised and has not reached Bellows (R439). -/
structure RawEvent where
  source : Nat
  code : Nat
  severity : Nat
  safety : Bool
  params : List Nat
  deriving DecidableEq, Repr

/-- What the event recorder holds beside its registers. -/
structure Recorder where
  /-- Buckets that are not full; a pair not listed has a full bucket and no suppressed event. -/
  buckets : List Bucket
  /-- Records in the buffer and not yet in flash, oldest first (R466). -/
  buffer : List EvRec
  /-- Records in the flash log, oldest first (R468). -/
  log : List EvRec
  /-- The next record stored carries BUFOVF (R466). -/
  overflowed : Bool
  /-- A clear waits (R471). -/
  clearWaits : Bool
  /-- Events raised while Bellows restarts, oldest first (R439). -/
  held : List RawEvent
  /-- Erase blocks retired, the reserve of 8 included (R468). -/
  retired : Nat
  /-- Erasures of log blocks so far. -/
  erases : Nat
  deriving DecidableEq, Repr

/-- What an indicator shows (R503). -/
inductive Lamp where
  | off
  | green
  | greenFlash
  | amber
  | amberFlash
  | red
  | redFlash
  | yellow
  deriving DecidableEq, Repr

/-- The indicators that Bellows drives from register states (R503). -/
structure Lamps where
  pwr : Lamp
  run : Lamp
  force : Lamp
  safe : Lamp
  pair : Lamp
  rings : List Lamp
  stage : Lamp
  di : List Lamp
  dout : List Lamp
  /-- Backbone ports B0 to B3, then coupler links 0 to 3: those whose link a register shows. -/
  ports : List Lamp
  deriving DecidableEq, Repr

/-- What Bellows holds beside its registers. -/
structure Bellows where
  /-- A Bellows restart is in progress (R439). -/
  restarting : Bool
  /-- What the indicators hold during a Bellows restart (R503). -/
  heldLamps : Option Lamps
  /-- Cause of a module reset that waits for the flush of a power-fail warning (R451). -/
  deferred : Option Nat
  /-- The runtime watchdog next expects 0x5A (R440). -/
  second : Bool
  /-- Sensors at the second threshold of level CAP (R452). -/
  deep : BitVec 8
  /-- A hop failed the check of R281 since the last staged start. -/
  cableBad : Bool
  /-- Station inventory (R455): ring × 256 + ID, and TYPE, REV, SERIAL. -/
  inventory : List (Nat × Nat × Nat × Nat)
  /-- Operating time as MRAM holds it. -/
  savedOptime : Nat
  deriving DecidableEq, Repr

/-! ### Frame, tasks, lanes and Anvils (06_tasks_frame.md, 07_lanes_anvil.md) -/

/-- The values the runtime loads before it enters a task (R158). -/
structure Locked where
  ftime : DWord
  felapsed : DWord
  firstcycle : DWord
  frelease : DWord
  fperiod : DWord
  pepoch : DWord
  tstate : DWord
  deriving DecidableEq, Repr

/-- A cycle of a task, with the values it sampled at its release (R39, R168). -/
structure Cycle where
  locked : Locked
  /-- Frame count of the release tick. -/
  frame : Nat
  place : Nat
  policy : Nat
  deadline : Nat
  prio : Nat
  safe : Bool
  /-- Cores on which the cycle is open. -/
  openOn : List (Fin 12)
  /-- Cores that have entered the task. -/
  entered : List (Fin 12)
  /-- The snapshot and output-area copy is complete (R156). -/
  copied : Bool
  /-- The outcome is decided: an image is published, or the verdict is a task fault (R165, R183). -/
  published : Bool
  /-- The deadline has passed (R162). -/
  late : Bool
  carried : Bool
  /-- The error tasks of rings whose cycles it waits for, and: it is an error task at the head of its ready list (R277). -/
  hold : List Nat
  head : Bool
  deriving DecidableEq, Repr

/-- A checkpoint record or fault report (R177). -/
structure Record where
  task : Nat
  fault : Bool
  lane : Nat
  epoch : Nat
  release : Nat
  sig : BitVec 128
  cause : DWord
  tval : DWord
  image : List Byte
  /-- The CRC that the sender computes (R177), and whether it checks as the record reaches Anvil X and Anvil Y (R178). -/
  crc : Word
  okX : Bool
  okY : Bool
  /-- The CKPT executed before the task's deadline (R179). -/
  onTime : Bool
  /-- Fault report of a task call: the program's code and the call number (R109, R463). -/
  call : Option (Nat × Nat)
  deriving DecidableEq, Repr

/-- What the Anvils hold of one cycle: its records and how far its vote is (R179, R181). -/
structure Vote where
  release : Nat
  place : Nat
  /-- Records taken into the vote, oldest first. -/
  records : List Record
  /-- Lanes whose equal records decided the vote. -/
  decided : List Nat
  /-- The vote published an image. -/
  published : Bool
  /-- Missing and unequal lanes have been judged: nothing is left to do. -/
  judged : Bool
  /-- Frame count of the release tick, and: the cycle was carried, so the vote goes on into the next frame (R180). -/
  frame : Nat
  carried : Bool
  deriving DecidableEq, Repr

/-- What the runtime and the frame scheduler hold of one task beside the FRM registers. -/
structure Task where
  cycle : Option Cycle
  vote : Option Vote
  /-- Records of the closed epoch that are only compared (R194). -/
  oldVote : Option Vote
  /-- sr.FRELEASE of the last cycle whose skew window has closed (R179). -/
  closedRelease : Nat
  /-- The ring of eight words in which sr.FRELEASE is kept (R158). -/
  relRing : Vector Nat 8
  /-- The next release is the first after a start (R158). -/
  first : Bool
  /-- sr.FTIME of the previous actual release in ns, and the correction sum copied at it, in 2^-16 ns (R103). -/
  prevFtime : Nat
  prevCorr : Int
  /-- The sub-nanosecond remainder that carries into the next release (R103). -/
  remainder : Int
  /-- The previous cycle overran (R164). -/
  prevOvr : Bool
  /-- sr.FRELEASE of the last release before the last epoch change (R194). -/
  switchRelease : Nat
  /-- The placement the task runs in, and whether it has one yet (R168, R176). -/
  place : Nat
  placed : Bool
  /-- State copy of a placement change: 0 none needed, 1 wanted, 2 running, 3 done (R176). -/
  placeCopy : Nat
  /-- TEVENT records queued by the open cycle: lane, code, parameters (R110). -/
  tevents : List (Nat × Nat × List Nat)
  /-- Saved state of cores on which the cycle is pre-empted (R159). -/
  saved : List (Fin 12 × Core)
  /-- Code pages of the task that have failed their digest and are not yet verified (R129). -/
  badPages : List Nat
  /-- A digest failure waits for the next tick (R129). -/
  digestFault : Bool
  /-- The published cells hold a publication of the Anvils, not a substitute (R216). -/
  cellsPublished : Bool
  /-- The task waits for the checks of R201 before its first release. -/
  awaitsChecks : Bool
  /-- The enable of the group at the previous tick (R158). -/
  wasEnabled : Bool
  deriving DecidableEq, Repr

/-- What the LANE block holds of one lane beside its registers. -/
structure Lane where
  /-- Triads to be copied, in ascending order: those in TRIAD mode when the lane was fenced (R188). -/
  toCopy : List Nat
  /-- Triads whose copy has ended in this frame and that rejoin at the next tick. -/
  copiedNow : List Nat
  /-- Triads the lane has rejoined (R171). -/
  rejoined : List Nat
  /-- The triad whose copy runs. -/
  copying : Option Nat
  /-- The quench test was commanded (R191). -/
  commanded : Bool
  /-- Free cores offer placements (R190). -/
  freeOffered : Bool
  /-- Operating times of the quench PASSes, newest first (R186). -/
  passes : List Nat
  deriving DecidableEq, Repr

/-- What the LANE block holds of one triad beside its registers. -/
structure Triad where
  /-- A mode request in progress: target mode and odd lane (R173). -/
  request : Option (Nat × Nat)
  /-- The lane that needs a state copy before the switch, if any, and whether the copy has been made (R174). -/
  joining : Option Nat
  joinCopied : Bool
  /-- The voted placement is lost and waits to form again: the fenced lane (R184). -/
  lost : Option Nat
  /-- That copy has started, and has to end before the next tick. -/
  joinRuns : Bool
  /-- The copy into the odd lane was abandoned: the triad stays PAIR until a module restart (R188). -/
  abandoned : Bool
  /-- Its tasks get new placement epochs at the next tick (R184). -/
  epochDue : Bool
  /-- Operating point (R15), and the frames for which it stays at BLW_OPCAP.EFF (R458). -/
  point : Nat
  high : Nat
  /-- sr.CORECYC of its cores at the last tick, and the largest count of the last frames, newest first (R458). -/
  marks : List Nat
  busiest : List Nat
  deriving DecidableEq, Repr

/-- A verified timing set of an Anvil (R195). -/
structure VerifiedSet where
  skew : Nat
  stdcont : Bool
  crc : Nat
  /-- The deadline of each task, copied from FRM_TDLn at its last release. -/
  deadlines : Vector Nat 64
  deriving DecidableEq, Repr

/-- What both Anvils hold beside their registers. -/
structure Anvils where
  verX : VerifiedSet
  verY : VerifiedSet
  /-- SKEW, STDCONT and their CRC that act from the next tick (R196). -/
  verNext : Option (Nat × Bool × Nat)
  /-- Records on their way from the lanes, oldest first (R177). -/
  flight : List (Fin 12 × Record)
  /-- The lane a verdict of this frame has named (R187). -/
  named : Option Nat
  /-- The checks of R196 and R198 have passed in this frame (R201). -/
  checked : Bool
  deriving DecidableEq, Repr

/-- What the frame scheduler holds beside the FRM registers. -/
structure FrameState where
  /-- The frame count of the next tick, once the generator runs (R147, R148). -/
  nextTick : Nat
  /-- T_close sampled at the tick, in µs (R151). -/
  close : Nat
  /-- The close phase of this frame has begun. -/
  inClose : Bool
  /-- Epoch resets issued and not yet acted (R193). -/
  epochResets : List Nat
  deriving DecidableEq, Repr

/-! ### Modes, forces, restarts and online change (08_restart_change_modes.md) -/

/-- Kinds of restart (R202). -/
inductive RestartKind where
  | warm
  | cold
  | purge
  deriving DecidableEq, Repr

/-- A command that waits for the second step of R218. -/
inductive Waiting where
  | purge
  | forceSet (fs : List Force)
  | forceRel (ps : List (Bool × Bool × Nat))
  | switch
  | rollback
  deriving DecidableEq, Repr

/-- What the runtime holds of modes, forces, restarts and online change. -/
structure Modes where
  /-- The force table in MRAM. -/
  forces : List Force
  /-- The forces that act since the last tick (R215). -/
  acting : List Force
  /-- The restart that waits or runs, and whether its step 1 has been done (R204). -/
  restart : Option RestartKind
  restartBegun : Bool
  /-- Its steps 2 to 7 have been done. -/
  restartDone : Bool
  /-- A cold restart or purge was commanded while in STOP (R214). -/
  coldWanted : Option RestartKind
  /-- The restart in progress follows a module reset (R204 step 7). -/
  afterReset : Bool
  /-- SYS_MODECFG as stored in the MRAM runtime retained area (R212). -/
  storedCfg : Word
  /-- Commands that wait for their confirmation: channel, challenge, command (R218). -/
  waiting : List (Nat × Word × Waiting)
  /-- Confirmed commands that act at the next tick (R215, R218), oldest first, each with its channel. -/
  due : List (Nat × Waiting)
  deriving DecidableEq, Repr

/-- What the runtime holds of an online change beside SYS_CHG. -/
structure ChangeState where
  /-- The package or the other program in the inactive banks. -/
  package : Option Package
  /-- The program of the flash-active bank (R226). -/
  flash : Program
  /-- Deferrals of the pending switch (R225). -/
  deferrals : Nat
  /-- The migration copy has been made and the switch acts at the next tick (R224). -/
  copied : Bool
  /-- The staging area of R324, by offset; a byte that is not listed is 0 (DESIGN CHOICE, log entry 83). -/
  staging : List (Nat × Byte)
  /-- Retained data may carry the layout of a program that is not flash-active: that program, and the table that converts it
  (R226). -/
  convert : Option (Program × List Migration)
  /-- Pages of the active program bank that have failed their digest and are not yet verified (R129). -/
  failedPages : List Nat
  deriving DecidableEq, Repr

/-! ### Time base (11_time.md) -/

/-- PTP port states that the default profile gives a port (R294). -/
inductive PtpRole where
  | disabled
  | listening
  | slave
  | master
  | passive
  deriving DecidableEq, Repr

/-- One backbone port as a PTP port. -/
structure PtpPort where
  role : PtpRole
  /-- The masters heard on the port, newest first, each with the number of its Announces. -/
  masters : List (PtpMaster × Nat)
  /-- Measured mean path delay in 2^-16 ns. -/
  pathDelay : Int
  /-- Origin and arrival stamps of the last Sync, in 2^-16 ns. -/
  sync : Option (Int × Int)
  /-- Stamp of the delay request that waits for its answer, in 2^-16 ns. -/
  asked : Option Int
  /-- Sequence numbers of the messages sent. -/
  seq : Nat
  deriving DecidableEq, Repr

/-- What the time base holds beside its registers. Times are in units of 2^-16 ns. -/
structure TimeState where
  /-- The clock, from the epoch (R282). -/
  clock : Nat
  /-- The correction sum (R283). -/
  corr : Int
  /-- The offset that the servo still has to remove by slewing (R285). -/
  slewLeft : Int
  /-- An announced step: its value in ns and its tick F (R287). -/
  step : Option (Int × Nat)
  /-- Consecutive Sync intervals with the offset within 1 µs, and above 10 µs (R284). -/
  within : Nat
  beyond : Nat
  /-- The event of BIGOFF has been recorded for the present offset (R286). -/
  bigRaised : Bool
  /-- The clock has stepped since the last Sync: its offset is discarded (R288). -/
  stepped : Bool
  /-- The clock has been locked before the present holdover (R294). -/
  wasLocked : Bool
  ports : Vector PtpPort 4
  /-- The sums of corrections at the last frames in which it changed, newest first: frame count, and the sum at its tick (R103). -/
  corrLog : List (Nat × Int)
  /-- The time-base status TB of the SYNC frames of this frame, as sampled at its tick (R291). -/
  tb : List Byte
  deriving DecidableEq, Repr

/-! ### Safety inputs and outputs, test runs, current loops (14_safety.md, 15_digital_io.md, 16_current_loops.md) -/

/-- What the DIO block holds of one input beside DIO_DIRAW and DIO_DILATCH. -/
structure DiState where
  /-- Row of R359 of the last sample, and consecutive samples in it. -/
  row : Nat
  rowCount : Nat
  /-- Consecutive raw samples that differ from the filtered value (R360). -/
  count : Nat
  /-- Consecutive samples without a wire-break or window fault, up to 10,000 (R353). -/
  good : Nat
  proven : Bool
  /-- What latched the input: 0 wire break, 1 window, 2 test run, 3 source overload, 4 loss of FG1. -/
  kind : Nat
  /-- The fault has been absent for 100 ms, and a run has started since (R354). -/
  ready : Bool
  ran : Bool
  deriving DecidableEq, Repr

/-- What the DIO block holds of one output beside DIO_DOSTATE. -/
structure DoState where
  /-- Consecutive settled samples whose read-back differs from the command (R366). -/
  mismatch : Nat
  /-- The fault condition was present at the last sample. -/
  present : Bool
  /-- The channel is paired, as the last tick sampled its group (R39, R370). -/
  paired : Bool
  /-- The point that drives the channel, as the last tick sampled it (R39, R364). -/
  point : Nat
  deriving DecidableEq, Repr

/-- Configuration of an input as a test run holds it (R352). -/
structure DiCfg where
  en : Bool
  testPulse : Bool
  src : Nat
  filt : Nat
  deriving DecidableEq, Repr

/-- A test run in progress (R352). -/
structure TestRun where
  cfg : Vector DiCfg 16
  /-- Sources pulsed, ascending. -/
  sources : List Nat
  /-- Filtered values before the run. -/
  before : BitVec 16
  /-- Inputs with a FAIL sample so far. -/
  failed : BitVec 16
  /-- The start-up run. -/
  startup : Bool
  deriving DecidableEq, Repr

/-- A guard-opening group beside its state in SAF_GSTATE (R355). -/
structure Guard where
  mask : BitVec 16
  /-- Every filtered input of the mask reads 1 in WAIT_CLOSE. -/
  closed : Bool
  /-- A run has started since it closed. -/
  ran : Bool
  deriving DecidableEq, Repr

/-- What the DIO and SAF blocks hold beside their registers. -/
structure Dio where
  di : Vector DiState 16
  dout : Vector DoState 8
  guards : Vector Guard 8
  run : Option TestRun
  /-- A further run is queued (R353). -/
  queued : Bool
  /-- The start-up run has yet to start, and has ended. -/
  startPending : Bool
  startDone : Bool
  /-- FG1 has been enabled since the last module reset (R361). -/
  fg1 : Bool
  /-- Sources switched off on overload (R363). -/
  srcOff : BitVec 4
  deriving DecidableEq, Repr

/-- What the LOOP block holds of one channel beside its registers. -/
structure LoopChannel where
  /-- LOOP_CFGc and LOOP_UCALc as sampled at the last tick (R374, R376). -/
  cfg : Word
  ucal : Word
  /-- FG2 was present at the last tick (R382). -/
  powered : Bool
  /-- Signed word and tag of the cell as sampled at the last tick; none when it could not be read. -/
  value : Int
  tag : Nat
  /-- The stage is being reconfigured after a MODE change (R376). -/
  settling : Bool
  /-- The thermal limit is active (R382). -/
  thermal : Bool
  /-- Current driven in nA, and the DAC code (R374); the stage is disconnected when `connected` is false. -/
  drive : Nat
  code : Nat
  connected : Bool
  /-- Consecutive samples that show an open loop, miswiring, a read-back difference. -/
  openRun : Nat
  wireRun : Nat
  backRun : Nat
  deriving DecidableEq, Repr

/-- What the LOOP block holds beside its registers. -/
structure Loop where
  ch : Vector LoopChannel 4
  /-- FG2 has been enabled since the last module reset. -/
  fg2 : Bool
  deriving DecidableEq, Repr

/-! ### The part's own flash and MRAM settings of R442 -/

/-- User calibrations and settings in the MRAM runtime retained area (R290, R372, R374, R447). -/
structure Calibration where
  di : Vector Word 16
  loop : Vector Word 4
  ulat : Vector Word 16
  /-- Their CRCs check. -/
  diOk : Bool
  loopOk : Bool
  ulatOk : Bool
  /-- CPL_CFG as stored. -/
  cpl : Word
  deriving DecidableEq, Repr

/-! ### Firmware update (22_update_identity.md) -/

/-- A command of the UPD or SEC block that waits for its confirmation (R218). -/
inductive UpdWait where
  | apply
  | recover
  | enroll (slot : Nat)
  | revoke (slot : Nat)
  deriving DecidableEq, Repr

/-- What the MRAM save holds beside its bytes (R483). -/
structure Saved where
  forces : List Force
  storedCfg : Word
  calib : Calibration
  formats : List Nat
  deriving DecidableEq, Repr

/-- What the update path holds beside its registers, and what the banks hold of programs and configurations. -/
structure Update where
  /-- Components whose bank 0 holds the image the module was shipped with. -/
  shipped : List Nat
  /-- A siding write in progress: physical source, siding offset, length (R477). -/
  writing : Option (Nat × Nat × Nat)
  waiting : Option UpdWait
  programs : Vector Program 2
  configs : Vector ConfigData 2
  /-- Journal, settings and retained-data format versions in use. -/
  formats : List Nat
  saved : Option Saved
  /-- A trial changes the journal format (R483). -/
  journalTrial : Bool
  /-- A module reset met a TRIAL component: the boot falls back (R482). -/
  fallbackDue : Bool
  /-- Accumulated trial time in ns. -/
  trialNs : Nat
  recovery : Bool
  /-- Bits [31:0] of the digest of the key in each slot (R489). -/
  keyDigests : Vector Word 4
  /-- The nonce of an attestation in progress (R490). -/
  attest : Option (List Word)
  deriving DecidableEq, Repr


/-! ### Redundant pairs (17_redundant_pair.md) -/

/-- A packet of the copy engine: frame, PSEQ and its item. -/
structure PairPacket where
  frame : Nat
  pseq : Nat
  item : PairItem
  deriving DecidableEq, Repr

/-- A closed record that is not complete: frame, packet count, bytes, and the first lines of the journal entries that its
completion commits. -/
structure PairRecord where
  frame : Nat
  count : Nat
  bytes : Nat
  lines : List Nat
  deriving DecidableEq, Repr

/-- What a capability word is made of and a change of which makes a new one (R454): the active program, the register values, Signal
Map Table and IDT bytes of its configuration, versions and formats. -/
structure CapItems where
  program : Program
  regs : List (Nat × Word)
  smap : List (Nat × Word)
  idt : List Host.Cell
  version : Nat
  compat : Nat
  formats : List Nat
  deriving DecidableEq, Repr

/-- What the CPL block holds beside its registers. -/
structure Cpl where
  /-- CPL_CFG.EN as of the last module reset: the module is a member of a pair. -/
  member : Bool
  /-- CPL_CFG as of the last module reset. -/
  cfg : Word
  /-- There has been coupler contact since the reset (R385). -/
  contact : Bool
  /-- The last capability exchange was accepted (R386). -/
  paired : Bool
  /-- PSTATE of the partner's last heartbeat or HEALTH, and the measured offset of the ticks in ns (R393). -/
  peer : Nat
  offset : Int
  /-- Links on which sending packets is paused (R387). -/
  paused : BitVec 4
  /-- Items of the frame record being collected: kind and key (R388). -/
  items : List (Nat × Nat)
  /-- A record that has been closed carries the purge of the next tick (R423). -/
  purgeSent : Bool
  /-- Packets of the open record sent so far, as parts of a full copy. -/
  nextSeq : Nat
  /-- Closed records that are not complete, oldest first. -/
  records : List PairRecord
  /-- Packets sent on a link and not acknowledged, and packets that wait for a link. -/
  sent : List (Nat × PairPacket)
  unsent : List PairPacket
  /-- A full copy is due (R394). -/
  fullDue : Bool
  /-- At a standby: the full copy is complete; packets staged; records that are complete and not yet applied; the next frame
  to apply. -/
  fullDone : Bool
  staged : List PairPacket
  complete : List Nat
  /-- The active module has been declared lost (R402). -/
  lost : Bool
  /-- The kind of REQUEST that waits for its RESPONSE: 0 none, 1 takeover, 2 hand-back, 3 update, 4 planned switch. -/
  asked : Nat
  /-- The named tick of a switch, and whether it follows a quiet frame (R407); quiet frames so far. -/
  switchAt : Option (Nat × Bool)
  quiet : Nat
  /-- The module becomes ACTIVE, or ISOLATED, at the next tick. -/
  activeDue : Bool
  stepDownDue : Bool
  /-- Soak accumulated, in ns (R407). -/
  soak : Nat
  /-- The partner's last capability word, and the items that the module's own last one was assembled from (R386, R454). -/
  cap : Option CapWord
  capOf : Option CapItems
  /-- Lane of the temper scan in progress with the steps that it has passed, and a scan failed since the last HEALTH. -/
  scanning : Option (Nat × Nat)
  scanFailed : Bool
  /-- The last strike test passed (R393, R400). -/
  strike : Bool
  deriving DecidableEq, Repr
/-! ### DMA (05_memory_dma.md) -/

/-- A descriptor as a channel holds it (R140). -/
structure Desc where
  /-- Virtual address it was read from. -/
  addr : Nat
  src : Nat
  dst : Nat
  count : Nat
  /-- Bytes 20-23 as read. -/
  ctl : Nat
  next : Nat
  deriving DecidableEq, Repr

/-- What the DMA block and the IOMMU hold beside their registers. -/
structure Dma where
  /-- The descriptor each running channel moves. -/
  ch : Vector (Option Desc) 16
  /-- Cached IOMMU translations; the ASID is the context (R138). -/
  tlb : List TlbEntry
  deriving DecidableEq, Repr


/-! ### Queue blocks (13_queues.md) -/

/-- A packet in a queue instance. -/
structure Packet where
  data : List Byte
  /-- Bytes without the descriptor. -/
  size : Nat
  /-- Start of frame, in 2^-16 ns after the tick. -/
  start : Int
  /-- The end mark, once it is visible: GOOD or BAD (R328). -/
  good : Option Bool
  deriving DecidableEq, Repr

/-- A bank; its state stands in Q_STATUS. -/
structure QBank where
  packets : List Packet
  used : Nat
  /-- No further packet is appended (R327). -/
  closed : Bool
  deriving DecidableEq, Repr

/-- A queue instance. -/
structure Queue where
  banks : Vector QBank 2
  /-- The bank to fill next. -/
  next : Fin 2
  /-- Banks handed over, oldest first. -/
  handed : List (Fin 2)
  /-- Packets the writer keeps while the handshake is withheld (R330). -/
  waiting : List Packet
  deriving DecidableEq, Repr

/-! ### Sopin rings (09_sopin_ring.md, 10_ring_healing_stations.md) -/

/-- An IDT entry as a slot has read it (R121, R122). -/
structure IoBlock where
  index : Nat
  /-- The entry is enabled and consistent. -/
  ok : Bool
  station : Nat
  output : Bool
  analog : Bool
  start : Nat
  count : Nat
  payoff : Nat
  policy : Nat
  deriving DecidableEq, Repr

/-- A slot entry as the ring controller has read it in this frame (R240). -/
structure SlotUse where
  index : Nat
  typ : Nat
  owner : Nat
  dst : Nat
  /-- START and LEN in units of 8 ns. -/
  start : Nat
  len : Nat
  /-- Enabled and consistent: not on the safe side of R241. -/
  ok : Bool
  blocks : List IoBlock
  /-- A copy has been accepted at port nE, at port nW. -/
  gotE : Bool
  gotW : Bool
  /-- Payload of the copy that was used first. -/
  payload : Option (List Byte)
  /-- Responses at nE and nW that wait for each other: start of frame and payload (R260). -/
  respE : Option (Int × List Byte)
  respW : Option (Int × List Byte)
  deriving DecidableEq, Repr

/-- What the controller holds of one station beside SOPn_STAid. -/
structure Station where
  /-- Consecutive frames without an accepted copy (R274). -/
  miss : Nat
  /-- Late inputs (R21). -/
  late : Nat
  /-- Commands sent that still need a granted MRSP slot for their answer. -/
  needs : Nat
  /-- The frame of the granted slot. -/
  granted : Nat
  /-- The station is being probed by IDENT. -/
  probed : Bool
  /-- The frame from which it is ACTIVE (R258). -/
  activate : Option Nat
  /-- The cold-start index it reported (R252). -/
  csidx : Nat
  /-- GEN of its consist entry when it was rejected (R260). -/
  gen : Nat
  /-- It is being joined by CLAIM: activation frame FA and the new SCHEDID (R245, R272). -/
  join : Option (Nat × Word)
  /-- An EVT run whose records the bridge has not all got: the frame of its first IN frame (R319). -/
  evt : Option Nat
  /-- It was declared DROPPED and has not been ACTIVE since. -/
  dropped : Bool
  deriving DecidableEq, Repr

/-- A command of the module for a MGMT slot (R238). -/
inductive MgmtJob where
  | ident (id : Nat)
  | grant
  /-- Station-view entries from an index up. -/
  | sched (id : Nat) (first : Nat)
  /-- Positions from an ID up. -/
  | posn (id : Nat) (first : Nat)
  /-- With F two frames ahead, or F and SCHEDID of a join. -/
  | activate (id : Nat) (f : Option (Nat × Word))
  | reject (id : Nat) (reason : Nat)
  | cscfg (id : Nat)
  /-- Spare entries of a joining station, at a tick FA, with the new SCHEDID. -/
  | schedupd (id : Nat) (fa : Nat) (sched : Word)
  deriving DecidableEq, Repr

/-- What a ring controller holds beside its registers. -/
structure Ring where
  /-- G in use, and G sampled at the last tick, in units of 8 ns (R244). -/
  guard : Nat
  guardNext : Nat
  nslot : Nat
  schedid : Word
  /-- The ring status word of the frame (R235). -/
  stat : Nat
  /-- Frames since the cold start, up to 16. -/
  frames : Nat
  /-- Cold-start rounds sent. -/
  round : Nat
  /-- A round is open: when its CSTART left nE and nW, the returns of the own copies, and what else was heard. -/
  roundAt : Option (Int × Int)
  retE : Option Int
  retW : Option Int
  foreign : Bool
  garbled : Bool
  collided : Bool
  /-- Consecutive rounds that are clean except that the own copies did not return (R270). -/
  lonely : Nat
  lonelyRaised : Bool
  /-- The ring starts at the next tick: with C measured, or as a broken ring (R253, R270). -/
  starting : Option (Option Nat)
  broken : Bool
  slots : List SlotUse
  /-- Starts of frame of the own SYNC copies of this frame, unwrapped: at nE and nW. -/
  syncE : Option Int
  syncW : Option Int
  /-- Starts of frame of the active module's SYNC at a standby, at nE and nW (R397). -/
  seenE : Option Int
  seenW : Option Int
  /-- Consecutive frames that missed a SYNC copy, and that had both (R263, R269). -/
  missed : Nat
  intact : Nat
  /-- Consecutive frames with a one-copy slot while both SYNC copies return, and the senders (R264). -/
  ones : Nat
  onesRaised : Bool
  oneIds : List Nat
  /-- Stations heard at nE and at nW in this frame and the one before. -/
  heardE : List Nat
  heardW : List Nat
  lastE : List Nat
  lastW : List Nat
  /-- Bytes outside every window in this frame, and whether the babbler was reported (R247). -/
  outside : Nat
  babbled : Bool
  /-- Stations that are not as Station.reset. -/
  stations : List (Nat × Station)
  jobs : List MgmtJob
  seq : Nat
  /-- Grants of this frame and the next: slot and station (R258, R271). -/
  grants : List (Nat × Nat)
  grantsNext : List (Nat × Nat)
  /-- The station probed last, and the late station granted last. -/
  probe : Nat
  claim : Nat
  /-- Stations declared DROPPED at the last tick, with the blocks not transmitted since (R276). -/
  discards : List (Nat × Nat)
  /-- Foreign SYNC frames: consecutive frames with one, and one in this frame (R409). -/
  rivals : Nat
  rival : Bool
  /-- Frame count at the last frame with SRC 0 that came from another module, since the reset (R385), and at the last such
  SYNC (R256). -/
  zero : Option Nat
  zeroSync : Option Nat
  /-- The brakeman blocks every transmission until an alignment of at most G/8 (R248). -/
  braked : Bool
  deriving DecidableEq, Repr

/-! ### Streams to stations, sessions and the journal (12_bridge_lap.md, 18_accepted_work.md) -/

/-- Work of a stream for its station (R310, R311). -/
inductive RemWork where
  /-- PWRITE; the SEQ of a COMMITTED item, none for a PLAIN one. -/
  | write (addr lsb width : Nat) (value : Word) (item : Option Nat)
  | read (addr count : Nat)
  /-- EVTGET; the frame of the first IN frame of the EVT run. -/
  | events (fcnt : Nat)
  deriving DecidableEq, Repr

/-- The traffic of one channel to one station; channel 16 is the bridge's own (R319). -/
structure RemStream where
  channel : Nat
  ring : Nat
  station : Nat
  work : List RemWork
  /-- The outstanding command: its MGMT SEQ, the frame it was first sent in, and how often it was sent. -/
  out : Option (Nat × Nat × Nat)
  /-- The frame whose granted slot carries the answer. -/
  answer : Nat
  fenced : Bool
  deriving DecidableEq, Repr

/-- A fetch of a remote signal (R313). -/
structure Fetch where
  ring : Nat
  station : Nat
  addr : Nat
  sideEffect : Bool
  /-- The result, once it has arrived; none inside is a failure. -/
  result : Option (Option Word)
  abandoned : Bool
  deriving DecidableEq, Repr

/-- A NOTIFY that a session has not acknowledged (R320). -/
structure Notify where
  reqid : Nat
  ring : Nat
  station : Nat
  kind : Nat
  records : List Byte
  fcnt : Nat
  sends : Nat
  deriving DecidableEq, Repr

/-- A half-open session (R301). -/
structure HalfSession where
  sid : Nat
  peer : Nat
  via : Nat
  txCount : Nat
  /-- The session key (16 bytes), and the transcript: payload of the request and bytes 0–79 of the response. -/
  key : List Byte
  transcript : List Byte
  deriving DecidableEq, Repr

/-- What the bridge holds of one channel beside its registers. -/
structure LapChannel where
  /-- The session that a HELLO has begun and no KEYX has opened yet. -/
  half : Option HalfSession
  /-- The open session, if SSTATE is 2. -/
  sid : Nat
  /-- Source of the last valid request: address and port as one number, and the port of the module. -/
  peer : Nat
  via : Nat
  rxCount : Nat
  txCount : Nat
  /-- The session key (R301). -/
  key : List Byte
  /-- Stations subscribed: ring × 256 + id. -/
  subs : List Nat
  notes : List Notify
  nextReq : Nat
  /-- COMMANDs answered in this session: REQID and response payload (R323). -/
  answered : List (Nat × List Byte)
  fetches : List Fetch
  failures : List Failure
  /-- A 17th failure has fenced every stream of the channel (R317). -/
  full : Bool
  deriving DecidableEq, Repr

/-- A journal entry as the journal holds its header (R419); its bytes stand in MRAM. -/
structure WayEntry where
  kind : Nat
  stream : Nat
  seq : Nat
  /-- Frame count of acceptance. -/
  facc : Nat
  /-- First word and second word of KEY. -/
  key : Nat
  key2 : Nat
  payload : List Byte
  /-- First line and number of lines. -/
  line : Nat
  lines : Nat
  /-- STATE: ACC, CMT, DLV, DISC. -/
  state : Nat
  /-- Its delivery waits for the commit: the standby was READY at the close phase of its frame (R414). -/
  held : Bool
  /-- A job: it has been shown in its window (R416). -/
  shown : Bool
  /-- A WRITE for a station: it is delivered by its stream (R415). -/
  remote : Bool
  deriving DecidableEq, Repr

/-- What the bridge and the journal hold beside their registers. -/
structure Bridge where
  channels : Vector LapChannel 16
  streams : List RemStream
  /-- Whose turn it is in the rotation of R311, for each ring. -/
  turn : Vector Nat 6
  orphans : List Orphan
  /-- Prefetched words: ring, station, address, value (R312). -/
  cache : List (Nat × Nat × Nat × Word)
  /-- Host cells written in this frame: kind and index, and how many writes there were (R309). -/
  cells : List (Bool × Nat)
  writes : Nat
  /-- Sources of the UNKNOWN_SESSION answers of the last second, each with the clock at its answer (R302). -/
  unknown : List (Nat × Nat)
  entries : List WayEntry
  /-- The next line, the pass count, and lines written in this frame (R412, R420). -/
  line : Nat
  pass : Nat
  written : Nat
  /-- The newest journalled message of each safety stream: its words (R422). -/
  safeWords : List (Nat × List Word)
  /-- Backbone safety channels that received words in this frame (R350). -/
  safeGot : List Nat
  deriving DecidableEq, Repr


/-! ### What the module sends -/

/-- A PTP message as sent, without its encapsulation: what R294 and the registers decide of it. -/
inductive PtpOut where
  /-- A Sync and its Follow_Up, with the time-stamp of the Sync in 2^-16 ns. -/
  | sync (seq : Nat) (logInterval : Int) (sent : Int)
  | announce (seq : Nat) (logInterval : Int) (m : PtpMaster)
  | delayReq (seq : Nat) (sent : Int)
  | pdelayReq (seq : Nat) (sent : Int)
  /-- The answer to a Delay_Req, with logMinDelayReqInterval and the arrival time. -/
  | delayResp (requester requesterPort seq : Nat) (logInterval : Int) (arrived : Int)
  /-- The answer to a Pdelay_Req and its follow-up: arrival of the request, and departure of the answer. -/
  | pdelayResp (requester requesterPort seq : Nat) (arrived sent : Int)
  deriving DecidableEq, Repr

/-- A LAP datagram as sent (R297, R302). -/
structure LapOut where
  op : Nat
  flags : Nat
  sid : Nat
  dcnt : Nat
  reqid : Nat
  seq : Nat
  rcpt : Nat
  fcnt : Nat
  status : Nat
  payload : List Byte
  /-- The MAC of R302; 0 outside a session. -/
  mac : List Byte
  deriving DecidableEq, Repr

/-- A message the module has sent, newest first in the outbox. -/
inductive Out where
  /-- A coupler REQUEST of a kind (R405, R407, R484): 1 takeover, 2 hand-back, 3 update, 4 planned switch; and a RESPONSE
  with its tick. -/
  | cplRequest (kind : Nat)
  | cplResponse (kind : Nat) (granted : Bool) (tick : Nat)
  /-- A heartbeat word, a capability word, a HEALTH payload, and a packet of the copy engine on a link. -/
  | cplBeat (link fcnt pstate : Nat)
  | cplCap (link pepoch : Nat) (bytes : List Byte)
  | cplHealth (pepoch fcnt : Nat) (bytes : List Byte)
  | cplData (link pepoch : Nat) (p : PairPacket)
  | cplMarker (pepoch frame count : Nat)
  | cplAck (pepoch frame : Nat) (missing : List Nat)
  /-- A Sopin frame, first header byte to last FCS byte, on port nE or nW of a ring; its start of frame in 2^-16 ns after
  the tick. -/
  | ring (n : Nat) (west : Bool) (start : Int) (frame : List Byte)
  /-- A frame that a standby forwards from one port of a dual-homed ring to the other (R396). -/
  | forward (n : Nat) (west : Bool) (frame : List Byte)
  /-- A LAP datagram to a peer, on backbone port 0-3 or M0 (4). -/
  | lap (via peer : Nat) (m : LapOut)
  /-- An ARP answer for an address of the module, and the answer to an ICMP echo request from a peer (R296). -/
  | arp (via peer : Nat) (addr : Word)
  | echo (via peer : Nat) (data : List Byte)
  /-- A backbone safety datagram (R348): port, peer, RCH, FCNT and words. -/
  | safety (port : Nat) (peer : Word) (rch fcnt : Nat) (words : List Word)
  /-- A message of recovery mode on M0 (R486), and an answer on console M1 (R460). -/
  | recovery (bytes : List Byte)
  | console (cmd : Nat) (bytes : List Byte)
  /-- A PTP message on a backbone port, in a domain, over UDP/IPv4 or Layer 2 (R294). -/
  | ptp (port domain : Nat) (udp : Bool) (m : PtpOut)
  deriving DecidableEq, Repr

/-- The state of the module. -/
structure State where
  /-- The commands that wait, first in, first out. -/
  pending : List Instr
  /-- What every register holds, keyed by its offset in the register space (R507). -/
  regs : List (Nat × Word)
  /-- The words of the Signal Map Table, keyed by 4 × entry + word (R303). -/
  smap : List (Nat × Word)
  /-- Memory, by storage address (R19, R116). -/
  mem : List Host.Cell
  /-- Storage addresses of the 64-bit words that hold an uncorrectable error, rising, each with a number of its own
  (R112). -/
  ue : List (Nat × Nat)
  cores : Vector Core 12
  program : Program
  tasks : Vector Task 64
  lanes : Vector Lane 3
  triads : Vector Triad 4
  anvils : Anvils
  frame : FrameState
  modes : Modes
  change : ChangeState
  time : TimeState
  dma : Dma
  recorder : Recorder
  cpl : Cpl
  dio : Dio
  loop : Loop
  calib : Calibration
  bellows : Bellows
  update : Update
  rings : Vector Ring 6
  /-- Last values that ring inputs received with tag V, keyed by 2 × index + kind (R121, HOLD). -/
  held : List (Nat × Nat)
  bridge : Bridge
  /-- The queue instances: rings 0E to 5W, bridge channels, coupler links (R325). -/
  queues : Vector Queue 32
  /-- What the module has sent, newest first. -/
  outbox : List Out
  /-- How many free values have been used. -/
  free : Nat
  deriving DecidableEq, Repr

/-- A core in reset (R61, R102, R137). -/
def Core.reset : Core where
  h := Vector.replicate 32 0
  f := Vector.replicate 32 0
  pc := 0
  status := 1
  tvec := 0
  tpc := 0
  tcause := 0
  tval := 0
  tstatus := 0
  kscratch := 0
  corecyc := 0
  instret := 0
  fcsr := 0
  taskid := 0x3F
  ptbase := 0
  asid := 0
  xlate := 0
  islice := 0
  ftime := 0
  felapsed := 0
  firstcycle := 0
  frelease := 0
  fperiod := 0
  pepoch := 0
  tstate := 0
  cksigl := 0
  cksigh := 0
  ckstate := 0
  run := .held
  lines := 0
  slices := none
  tlb := []

/-- Bellows when nothing is in progress. -/
def Bellows.reset : Bellows where
  restarting := false
  heldLamps := none
  deferred := none
  second := false
  deep := 0
  cableBad := false
  inventory := []
  savedOptime := 0

/-- No program. -/
def Program.empty : Program where
  tasks := []
  modes := []
  hostCells := []
  image := []

/-- No configuration. -/
def ConfigData.empty : ConfigData where
  regs := []
  smap := []
  bytes := []

/-- The update path of a module as shipped (R506): no program, no configuration. -/
def Update.reset : Update where
  shipped := [0, 1, 2]
  writing := none
  waiting := none
  programs := Vector.replicate 2 Program.empty
  configs := Vector.replicate 2 ConfigData.empty
  formats := [0, 0, 0]
  saved := none
  journalTrial := false
  fallbackDue := false
  trialNs := 0
  recovery := false
  keyDigests := Vector.replicate 4 0
  attest := none

/-- A task that has never run. -/
def Task.reset : Task where
  cycle := none
  vote := none
  oldVote := none
  closedRelease := 0
  relRing := Vector.replicate 8 0
  first := true
  prevFtime := 0
  prevCorr := 0
  remainder := 0
  prevOvr := false
  switchRelease := 0
  place := 0
  placed := false
  placeCopy := 0
  tevents := []
  saved := []
  badPages := []
  digestFault := false
  cellsPublished := false
  awaitsChecks := false
  wasEnabled := false

/-- A lane in service with nothing in progress. -/
def Lane.reset : Lane where
  toCopy := []
  copiedNow := []
  rejoined := []
  copying := none
  commanded := false
  freeOffered := true
  passes := []

/-- A triad with nothing in progress. -/
def Triad.reset : Triad where
  request := none
  joining := none
  joinCopied := false
  joinRuns := false
  lost := none
  abandoned := false
  epochDue := false
  point := 2
  high := 16
  marks := [0, 0, 0]
  busiest := []

/-- The verified timing set after reset: SKEW 50 and STDCONT 0, with their CRC-32 (R196, R197). -/
def VerifiedSet.reset : VerifiedSet where
  skew := 50
  stdcont := false
  crc := 0xA2CA8B69
  deadlines := Vector.replicate 64 0

/-- A PTP port that is not enabled. -/
def PtpPort.reset : PtpPort where
  role := .disabled
  masters := []
  pathDelay := 0
  sync := none
  asked := none
  seq := 0

/-- An input before its first sample. -/
def DiState.reset : DiState where
  row := 2
  rowCount := 0
  count := 0
  good := 0
  proven := false
  kind := 0
  ready := false
  ran := false

/-- An output that is off. -/
def DoState.reset : DoState where
  mismatch := 0
  present := false
  paired := false
  point := 0

/-- The DIO and SAF blocks after reset: FG1 is not yet enabled and the start-up run is due (R353). -/
def Dio.reset : Dio where
  di := Vector.replicate 16 DiState.reset
  dout := Vector.replicate 8 DoState.reset
  guards := Vector.replicate 8 { mask := 0, closed := false, ran := false }
  run := none
  queued := false
  startPending := true
  startDone := false
  fg1 := false
  srcOff := 0

/-- A loop channel that drives nothing. -/
def LoopChannel.reset : LoopChannel where
  cfg := 0
  ucal := 0
  powered := false
  value := 0
  tag := 1
  settling := false
  thermal := false
  drive := 0
  code := 0
  connected := true
  openRun := 0
  wireRun := 0
  backRun := 0

/-- The coupler after reset. -/
def Cpl.reset : Cpl where
  member := false
  cfg := 0
  contact := false
  paired := false
  peer := 3
  offset := 0
  paused := 0
  items := []
  purgeSent := false
  nextSeq := 0
  records := []
  sent := []
  unsent := []
  fullDue := false
  fullDone := false
  staged := []
  complete := []
  lost := false
  asked := 0
  switchAt := none
  quiet := 0
  activeDue := false
  stepDownDue := false
  soak := 0
  cap := none
  capOf := none
  scanning := none
  scanFailed := false
  strike := false

/-- An empty queue instance. -/
def Queue.reset : Queue where
  banks := Vector.replicate 2 { packets := [], used := 0, closed := false }
  next := 0
  handed := []
  waiting := []

/-- A station of which nothing has been heard. -/
def Station.reset : Station where
  miss := 0
  late := 0
  needs := 0
  granted := 0
  probed := false
  activate := none
  csidx := 0
  gen := 0
  join := none
  evt := none
  dropped := false

/-- A ring controller that has not run. -/
def Ring.reset : Ring where
  guard := 125
  guardNext := 125
  nslot := 1
  schedid := 0
  stat := 0
  frames := 0
  round := 0
  roundAt := none
  retE := none
  retW := none
  foreign := false
  garbled := false
  collided := false
  lonely := 0
  lonelyRaised := false
  starting := none
  broken := false
  slots := []
  syncE := none
  syncW := none
  seenE := none
  seenW := none
  missed := 0
  intact := 0
  ones := 0
  onesRaised := false
  oneIds := []
  heardE := []
  heardW := []
  lastE := []
  lastW := []
  outside := 0
  babbled := false
  stations := []
  jobs := []
  seq := 0
  grants := []
  grantsNext := []
  probe := 0
  claim := 0
  discards := []
  rivals := 0
  rival := false
  zero := none
  zeroSync := none
  braked := false

/-- A channel without a session. -/
def LapChannel.reset : LapChannel where
  half := none
  sid := 0
  peer := 0
  via := 0
  rxCount := 0
  txCount := 0
  key := []
  subs := []
  notes := []
  nextReq := 0
  answered := []
  fetches := []
  failures := []
  full := false

/-- The bridge and an empty journal. -/
def Bridge.reset : Bridge where
  channels := Vector.replicate 16 LapChannel.reset
  streams := []
  turn := Vector.replicate 6 0
  orphans := []
  cache := []
  cells := []
  writes := 0
  unknown := []
  entries := []
  line := 0
  pass := 0
  written := 0
  safeWords := []
  safeGot := []


/-- The machine right after reset. -/
def State.reset : State where
  pending := []
  regs := [(UPD_COMP_STATE 0, 0xC), (UPD_COMP_STATE 1, 0xC), (UPD_COMP_STATE 2, 0xC)]
  smap := []
  mem := []
  ue := []
  cores := Vector.replicate 12 Core.reset
  program := Program.empty
  tasks := Vector.replicate 64 Task.reset
  lanes := Vector.replicate 3 Lane.reset
  triads := Vector.replicate 4 Triad.reset
  anvils := { verX := VerifiedSet.reset, verY := VerifiedSet.reset, verNext := none, flight := [], named := none,
              checked := false }
  frame := { nextTick := 0, close := 100, inClose := false, epochResets := [] }
  modes := { forces := [], acting := [], restart := some .warm, restartBegun := false, restartDone := false, coldWanted := none,
             afterReset := true, storedCfg := 0, waiting := [], due := [] }
  change := { package := none, flash := Program.empty, deferrals := 0, copied := false, staging := [], convert := none,
              failedPages := [] }
  time := { clock := 0, corr := 0, slewLeft := 0, step := none, within := 0, beyond := 0, bigRaised := false,
            stepped := false, wasLocked := false, ports := Vector.replicate 4 PtpPort.reset, corrLog := [], tb := [] }
  dma := { ch := Vector.replicate 16 none, tlb := [] }
  recorder := { buckets := [], buffer := [], log := [], overflowed := false, clearWaits := false, held := [],
                retired := 0, erases := 0 }
  cpl := Cpl.reset
  dio := Dio.reset
  loop := { ch := Vector.replicate 4 LoopChannel.reset, fg2 := false }
  calib := { di := Vector.replicate 16 0, loop := Vector.replicate 4 0, ulat := Vector.replicate 16 0, diOk := false,
             loopOk := false, ulatOk := false, cpl := 0 }
  bellows := Bellows.reset
  update := Update.reset
  rings := Vector.replicate 6 Ring.reset
  held := []
  bridge := Bridge.reset
  queues := Vector.replicate 32 Queue.reset
  outbox := []
  free := 0

end Sys2Proof.Machine
end

