-- ==== Sys2Proof/Machine/Ops.lean ====
section
/-!
DEFINITION. The named operations over the register file, memory and the free values.
-/

namespace Sys2Proof.Machine

/-! ### Sparse data in canonical form: keys strictly rising, no entry equal to what an unlisted key reads as -/

/-- What a key holds. -/
def sparseGet {V : Type} (d : Nat → V) (m : List (Nat × V)) (k : Nat) : V := (m.lookup k).getD (d k)

/-- Put an entry where its key belongs. -/
def sparsePut {V : Type} (k : Nat) (v : V) : List (Nat × V) → List (Nat × V)
  | [] => [(k, v)]
  | e :: m => if k < e.1 then (k, v) :: e :: m else e :: sparsePut k v m

/-- Change what a key holds: no entry where that equals what the key reads as unlisted. -/
def sparseSet {V : Type} [DecidableEq V] (d : Nat → V) (m : List (Nat × V)) (k : Nat) (v : V) : List (Nat × V) :=
  let rest := m.filter fun e => e.1 != k
  if v = d k then rest else sparsePut k v rest

/-- The canonical form. -/
def sparseWf {V : Type} [DecidableEq V] (d : Nat → V) : List (Nat × V) → Bool
  | [] => true
  | (k, v) :: m => decide (v ≠ d k) && (m.all fun e => decide (k < e.1)) && sparseWf d m

/-! ### The register file -/

/-- Whether a register of the row lies at a block offset. -/
def RegRow.has (r : RegRow) (e : Nat) : Bool :=
  if r.count ≤ 1 then e == r.off
  else decide (r.off ≤ e) && (e - r.off) % r.stride == 0 && decide ((e - r.off) / r.stride < r.count)

/-- The block of a window (R507). -/
def blockAt (window : Nat) : Option Block := blocks.find? fun b => b.window == window

/-- The row that implements a block offset (R53). -/
def Block.rowAt (b : Block) (e : Nat) : Option RegRow := b.rows.find? fun r => r.has e

/-- The row of a register, by its offset in the register space. -/
def rowOf (a : Nat) : Option RegRow := (blockAt (a / 0x10000)).bind fun b => b.rowAt (a % 0x10000)

/-- The reset value of a register. -/
def resetOf (a : Nat) : Word :=
  match rowOf a with
  | some r => BitVec.ofNat 32 r.reset
  | none => 0

/-- What a register holds. -/
def State.reg (s : State) (a : Nat) : Word := sparseGet resetOf s.regs a

/-- Give a register a value. -/
def State.setReg (s : State) (a : Nat) (v : Word) : State := { s with regs := sparseSet resetOf s.regs a v }

/-- A register is loaded: its RW bits take the value, every other bit stays (R7, R8). -/
def State.loadReg (s : State) (a : Nat) (v : Word) : State :=
  match rowOf a with
  | some r => s.setReg a ((s.reg a &&& ~~~BitVec.ofNat 32 r.rw) ||| (v &&& BitVec.ofNat 32 r.rw))
  | none => s

/-- A word of the Signal Map Table is loaded: its Reserved bits stay 0 (R8, R303). -/
def State.loadSmap (s : State) (key : Nat) (v : Word) : State :=
  match rowOf (0x211000 + 4 * (key % 1024)) with
  | some r => { s with smap := sparseSet (fun _ => 0) s.smap key (v &&& BitVec.ofNat 32 r.rw) }
  | none => s

/-- The value of a field of a register. -/
def State.fld (s : State) (a : Nat) (f : Field) : Nat := f.get (s.reg a)

/-- Give a field of a register a value. -/
def State.putFld (s : State) (a : Nat) (f : Field) (v : Nat) : State := s.setReg a (f.put v (s.reg a))

/-- Whether a field of a register is not 0. -/
def State.isSet (s : State) (a : Nat) (f : Field) : Bool := s.fld a f != 0

/-- Set a one-bit flag (Conflict code HS). -/
def State.flag (s : State) (a : Nat) (f : Field) : State := s.putFld a f 1

/-- Set one bit of a register. -/
def State.setBit (s : State) (a i : Nat) : State := s.putFld a ⟨i, 1⟩ 1

/-- Clear one bit of a register. -/
def State.clrBit (s : State) (a i : Nat) : State := s.putFld a ⟨i, 1⟩ 0

/-- Add to the COUNT of a counter, which stops at its maximum value (R45). -/
def State.bumpBy (s : State) (a k : Nat) : State := s.putFld a CNT_COUNT (min (s.fld a CNT_COUNT + k) 0x7FFFFFFF)

/-- Count one event (R45). -/
def State.bump (s : State) (a : Nat) : State := s.bumpBy a 1

/-- Use the next free value. -/
def State.tickFree (s : State) : State := { s with free := s.free + 1 }

/-- Send a message. -/
def State.send (s : State) (m : Out) : State := { s with outbox := m :: s.outbox }

/-- A backbone port that is enabled, or M0 (4): the only ports that send and deliver (R511). -/
def State.portOn (s : State) (via : Nat) : Bool := via == 4 || s.isSet (BKB_CTRL via) BKB_CTRL_EN

/-- Send a packet on a port; BKBn_TXPKT counts it. -/
def State.sendOn (s : State) (via : Nat) (m : Out) : State :=
  if !s.portOn via then s else (if via < 4 then s.bump (BKB_TXPKT via) else s).send m

/-- A packet arrives on a port; BKBn_RXPKT counts it. -/
def State.arrive (s : State) (via : Nat) (f : State → State) : State :=
  if !s.portOn via then s else f (if via < 4 then s.bump (BKB_RXPKT via) else s)

/-- Keep what the runtime holds of an online change. -/
def State.setChange (s : State) (c : ChangeState) : State := { s with change := c }

/-- Act when a condition holds. -/
def State.when (s : State) (c : Bool) (f : State → State) : State := if c then f s else s

/-- Act once for each element of a list, in order. -/
def State.forEach {α : Type} (s : State) (l : List α) (f : α → State → State) : State := l.foldl (fun t x => f x t) s

/-! ### Placements -/

/-- FRM_TCFG.PLACE: whether it names a voted placement. -/
def placeVoted (p : Nat) : Bool := !p.testBit 4

/-! ### Pairs -/

/-- Whether the module is the standby of a pair: a member whose pair state is not ACTIVE (R384). -/
def State.standby (s : State) : Bool := s.cpl.member && s.fld CPL_STATE CPL_STATE_PSTATE != 0

/-- The frame before the named tick of a hand-back is quiet (R407): no task is released and covered work is refused. -/
def State.quietFrame (s : State) : Bool := s.cpl.switchAt.elim false (·.2) && s.cpl.quiet != 0

/-- A change that belongs to the frame record (R388): kind and key. An active member collects it once. -/
def State.copyItem (s : State) (kind key : Nat) : State :=
  if s.cpl.member && !s.standby && !s.cpl.items.contains (kind, key) then
    { s with cpl := { s.cpl with items := s.cpl.items ++ [(kind, key)] } }
  else s

/-! ### Memory: regions, the lane transform, bytes and words -/

/-- Regions of the physical address space (R19). -/
inductive Region where
  | bootRom
  | image
  | mram
  | regs
  | flash
  | dram
  | none
  deriving DecidableEq, Repr

/-- The region of a physical address (R19). -/
def regionOf (pa : Nat) : Region :=
  if pa < 0x40000 then .bootRom
  else if 0x10000000 ≤ pa ∧ pa < 0x10400000 then .image
  else if 0x20000000 ≤ pa ∧ pa < 0x20400000 then .mram
  else if 0x40000000 ≤ pa ∧ pa < 0x41000000 then .regs
  else if 0x80000000 ≤ pa ∧ pa < 0x90000000 then .flash
  else if 0x1000000000 ≤ pa ∧ pa < 0x1200000000 then .dram
  else .none

/-- The lane region a physical address lies in: lane, region base, and w of R116. -/
def laneRegion (pa : Nat) : Option (Nat × Nat × Nat) :=
  if 0x10180000 ≤ pa ∧ pa < 0x10300000 then
    some ((pa - 0x10180000) / 0x80000, 0x10180000 + (pa - 0x10180000) / 0x80000 * 0x80000, 13)
  else if 0x20000000 ≤ pa ∧ pa < 0x20300000 then
    some ((pa - 0x20000000) / 0x100000, 0x20000000 + (pa - 0x20000000) / 0x100000 * 0x100000, 14)
  else if 0x1040000000 ≤ pa ∧ pa < 0x11C0000000 then
    some ((pa - 0x1040000000) / 0x80000000, 0x1040000000 + (pa - 0x1040000000) / 0x80000000 * 0x80000000, 25)
  else none

/-- rho of a lane (R116). -/
def laneRho (lane : Nat) : Nat := if lane = 1 then 4 else if lane = 2 then 8 else 0
/-- kappa of a lane, w bits (R116). -/
def laneKappa (w lane : Nat) : Nat :=
  if lane = 1 then 2 ^ w - 1 else if lane = 2 then 0x5555555555555555 % 2 ^ w else 0
/-- theta of a lane (R116). -/
def laneTheta (lane : Nat) : Nat := if lane = 1 then 21 else if lane = 2 then 43 else 0
/-- mu of a lane (R116). -/
def laneMu (lane : Nat) : DWord :=
  if lane = 1 then 0xFFFFFFFFFFFFFFFF else if lane = 2 then 0x5555555555555555 else 0

/-- The storage address of a byte (R116). -/
def storageAddr (pa : Nat) : Nat :=
  match laneRegion pa with
  | some (lane, base, w) =>
    base + ((rotlNat w ((pa - base) / 64) (laneRho lane) ^^^ laneKappa w lane) * 64) + (pa - base) % 64
  | none => pa

/-- The stored form of a 64-bit word at a logical address (R116). -/
def toStored (pa : Nat) (d : DWord) : DWord :=
  match laneRegion pa with
  | some (lane, _, _) => d.rotateLeft (laneTheta lane) ^^^ laneMu lane
  | none => d

/-- The logical form of a stored 64-bit word (R115). -/
def ofStored (pa : Nat) (d : DWord) : DWord :=
  match laneRegion pa with
  | some (lane, _, _) => (d ^^^ laneMu lane).rotateRight (laneTheta lane)
  | none => d

/-- What a byte of memory that nothing has written holds, by storage address: erased flash holds ones, every other
memory the stored form of 0 (DESIGN CHOICE, log entry 3). -/
def memDefault (sa : Nat) : Byte :=
  if regionOf sa = .flash then 0xFF
  else match laneRegion sa with
    | some (lane, _, _) => if lane = 1 then 0xFF else if lane = 2 then 0x55 else 0
    | none => 0

/-- The canonical form of memory. -/
def Memory.wf (m : List Host.Cell) : Bool := sparseWf memDefault m

/-- A stored byte. -/
def State.stored (s : State) (sa : Nat) : Byte := sparseGet memDefault s.mem sa

/-- Store a byte at a storage address. -/
def State.setStored (s : State) (sa : Nat) (b : Byte) : State := { s with mem := sparseSet memDefault s.mem sa b }

/-- The storage address of the 64-bit word that holds a physical address. -/
def wordStorage (pa : Nat) : Nat := storageAddr (pa / 8 * 8)

/-- The logical 64-bit word that holds a physical address. A word with an uncorrectable error delivers no data: what a
read finds is free. -/
def State.readWord (s : State) (pa : Nat) : DWord :=
  match s.ue.lookup (wordStorage pa) with
  | some k => Config.lostWord k
  | none =>
    let sa := wordStorage pa
    ofStored pa (BitVec.ofNat 64 (ofLe ((List.range 8).map fun i => s.stored (sa + i))))

/-- Write bytes from a storage address up. -/
def State.setStoredList (s : State) : Nat → List Byte → State
  | _, [] => s
  | sa, b :: bs => (s.setStored sa b).setStoredList (sa + 1) bs

/-- Write the logical 64-bit word that holds a physical address. -/
def State.writeWord (s : State) (pa : Nat) (d : DWord) : State :=
  s.setStoredList (wordStorage pa) (leBytes 8 (toStored pa d).toNat)

/-- The logical byte at a physical address. -/
def State.readByte (s : State) (pa : Nat) : Byte :=
  BitVec.ofNat 8 ((s.readWord pa).toNat >>> (8 * (pa % 8)))

/-- The little-endian value of `n` logical bytes from a physical address up. -/
def State.readLe (s : State) (pa n : Nat) : Nat := ofLe ((List.range n).map fun i => s.readByte (pa + i))

/-- Write one logical byte. -/
def State.writeByte (s : State) (pa : Nat) (b : Byte) : State :=
  s.writeWord pa (put64 (8 * (pa % 8)) 8 b.toNat (s.readWord pa))

/-- Write logical bytes from a physical address up. -/
def State.writeBytes (s : State) : Nat → List Byte → State
  | _, [] => s
  | pa, b :: bs => (s.writeByte pa b).writeBytes (pa + 1) bs

/-- Write the low `n` bytes of a value, little-endian. -/
def State.writeLe (s : State) (pa n v : Nat) : State := s.writeBytes pa (leBytes n v)

/-- Whether the word that holds a physical address holds an uncorrectable error (R112). -/
def State.hasUe (s : State) (pa : Nat) : Bool := (s.ue.lookup (wordStorage pa)).isSome

/-- Whether a word of a range of physical addresses holds an uncorrectable error. -/
def State.rangeUe (s : State) (pa n : Nat) : Bool :=
  (List.range ((pa + n + 7) / 8 - pa / 8)).any fun i => s.hasUe (pa / 8 * 8 + 8 * i)

/-- Insert into a list with rising keys, one entry for a key. -/
def insertAsc {V : Type} (k : Nat) (v : V) : List (Nat × V) → List (Nat × V)
  | [] => [(k, v)]
  | (j, u) :: m => if k = j then (j, u) :: m else if k < j then (k, v) :: (j, u) :: m else (j, u) :: insertAsc k v m

/-- Mark the word that holds a physical address as uncorrectable. -/
def State.markUe (s : State) (pa : Nat) : State := { s with ue := insertAsc (wordStorage pa) s.free s.ue, free := s.free + 1 }

/-- A whole 64-bit word has been written: its code is good again. -/
def State.healUe (s : State) (pa : Nat) : State := { s with ue := s.ue.filter fun a => a.1 != wordStorage pa }

/-! ### Cores -/

/-- Whether the core is at level K: sr.STATUS.PRIV (R57). -/
def Core.atK (k : Core) : Bool := k.status.getLsbD 0

/-- sr.STATUS.IE. -/
def Core.ie (k : Core) : Bool := k.status.getLsbD 1

/-- sr.STATUS.TD (R71). -/
def Core.td (k : Core) : Bool := k.status.getLsbD 2

/-- sr.CKSTATE.OPEN (R102). -/
def Core.isOpen (k : Core) : Bool := k.ckstate.getLsbD 0

/-- Change one core. -/
def State.setCore (s : State) (c : Fin 12) (k : Core) : State := { s with cores := s.cores.set c.val k c.isLt }

/-- Change one core by a function. -/
def State.modCore (s : State) (c : Fin 12) (g : Core → Core) : State := s.setCore c (g s.cores[c])

/-- The lane of a core, 0 A, 1 B, 2 C (register index lane × 4 + core). -/
def laneOf (c : Fin 12) : Nat := c.val / 4

/-- The triad of a core: its number within the lane. -/
def triadOf (c : Fin 12) : Nat := c.val % 4

/-- The core of a lane and a triad. -/
def coreAt (lane triad : Nat) : Fin 12 := ⟨(lane * 4 + triad % 4) % 12, Nat.mod_lt _ (by decide)⟩

/-- Raise an interrupt line on a core; a pending interrupt ends clock gating (R27, R84, R167). -/
def State.raiseLine (s : State) (line : Nat) (c : Fin 12) : State :=
  s.modCore c fun k =>
    { k with lines := k.lines ||| BitVec.ofNat 12 (2 ^ line),
             run := if k.run = .gated then .running else k.run }

/-- All core numbers. -/
def allCores : List (Fin 12) := List.finRange 12

/-- Raise a line: lines 0 and 1 always, lines 2-11 on every core whose FRM_IRQEN enables it (R167). -/
def State.irq (s : State) (line : Nat) : State :=
  s.forEach allCores fun c t =>
    if line < 2 ∨ t.isSet (FRM_IRQEN c.val) ⟨line, 1⟩ then t.raiseLine line c else t

end Sys2Proof.Machine
end

