-- ==== Sys2Proof/Machine/Events.lean ====
section
/-!
DEFINITION. Raising an event and storing its record (21_event_recorder.md), shared by every block.
-/

namespace Sys2Proof.Machine

/-- SOURCE of the runtime (R463). -/
def srcRuntime : Nat := 0x40
/-- SOURCE of Bellows firmware (R463). -/
def srcBellows : Nat := 0x41
/-- SOURCE of the program loader and update path (R463). -/
def srcLoader : Nat := 0x42

/-- Severities of R462. -/
def sevInfo : Nat := 0
def sevWarning : Nat := 1
def sevFault : Nat := 2
def sevCritical : Nat := 3

/-- A value of two registers, low word first. -/
def State.regPair (s : State) (lo hi : Nat) : Nat := (s.reg lo).toNat + 0x100000000 * (s.reg hi).toNat

/-- EVR_NEXT as one number. -/
def State.evrNext (s : State) : Nat := s.regPair EVR_NEXTL EVR_NEXTH

/-- Set EVR_NEXT. -/
def State.setEvrNext (s : State) (n : Nat) : State :=
  (s.setReg EVR_NEXTL (BitVec.ofNat 32 n)).putFld EVR_NEXTH EVR_NEXTH_NEXTH (n / 0x100000000)

/-- EVR_FIRST as one number. -/
def State.evrFirst (s : State) : Nat := s.regPair EVR_FIRSTL EVR_FIRSTH

/-- Set EVR_FIRST. -/
def State.setEvrFirst (s : State) (n : Nat) : State :=
  (s.setReg EVR_FIRSTL (BitVec.ofNat 32 n)).putFld EVR_FIRSTH EVR_FIRSTH_FIRSTH (n / 0x100000000)

/-- The rate overrides enabled for a pair (R465). -/
def State.overridesFor (s : State) (source code : Nat) : List Nat :=
  (List.range 16).filter fun k =>
    s.isSet (EVR_RLIM_W0 k) EVR_RLIM_W0_EN && s.fld (EVR_RLIM_W0 k) EVR_RLIM_W0_SOURCE == source &&
      s.fld (EVR_RLIM_W0 k) EVR_RLIM_W0_CODE == code

/-- Whether an override group is consistent: its GEN fields are equal (R49), and no other enabled override holds its key. -/
def State.overrideConsistent (s : State) (k : Nat) : Bool :=
  s.fld (EVR_RLIM_W0 k) EVR_RLIM_W0_GEN == s.fld (EVR_RLIM_W1 k) EVR_RLIM_W1_GEN &&
    (s.overridesFor (s.fld (EVR_RLIM_W0 k) EVR_RLIM_W0_SOURCE) (s.fld (EVR_RLIM_W0 k) EVR_RLIM_W0_CODE)).length ≤ 1

/-- RATE and BURST of a pair: its first consistent override, else the defaults (R465). -/
def State.rateOf (s : State) (source code : Nat) : Nat × Nat :=
  match (s.overridesFor source code).find? s.overrideConsistent with
  | some k => (max 1 (s.fld (EVR_RLIM_W1 k) EVR_RLIM_W1_RATE), max 1 (s.fld (EVR_RLIM_W1 k) EVR_RLIM_W1_BURST))
  | none => (4, 8)

/-- The bucket of a pair; a pair not listed has a full bucket (R465). -/
def State.bucketOf (s : State) (source code : Nat) : Bucket :=
  match s.recorder.buckets.find? fun b => b.source == source && b.code == code with
  | some b => b
  | none => { source := source, code := code, tokens := 1000 * (s.rateOf source code).2, suppressed := 0 }

/-- Keep a bucket. -/
def State.setBucket (s : State) (b : Bucket) : State :=
  { s with recorder := { s.recorder with
      buckets := b :: s.recorder.buckets.filter fun c => !(c.source == b.source && c.code == b.code) } }

/-- Start a flush unless one runs already (R467). -/
def State.startFlush (s : State) : State := s.flag EVR_STATUS EVR_STATUS_FLUSHING

/-- The operating time of the module in 10 ms units (R461). -/
def State.optime (s : State) : Nat := s.regPair BLW_OPTIMEL BLW_OPTIMEH

/-- Store a record in the buffer, or count it as lost (R464, R466, R467). The answer tells whether it was stored. -/
def State.storeRecord (s : State) (e : RawEvent) (supp : Nat) : State × Bool :=
  if 4096 ≤ s.recorder.buffer.length then
    ({ (s.bump EVR_BUFLOST).flag EVR_STATUS EVR_STATUS_LOST with
        recorder := { s.recorder with overflowed := true } }, false)
  else
    let r : EvRec :=
      { seq := s.evrNext, code := e.code, source := e.source,
        flags := e.severity + (if e.safety then 4 else 0) + (if s.recorder.overflowed then 8 else 0),
        supp := min supp 65535, optime := s.optime, pwrcyc := (s.reg BLW_PWRCYC).toNat, params := e.params }
    let t := { s with recorder := { s.recorder with buffer := s.recorder.buffer ++ [r], overflowed := false } }
    let t := (t.setEvrNext (s.evrNext + 1)).putFld EVR_BUFCNT EVR_BUFCNT_BUFCNT t.recorder.buffer.length
    (if sevFault ≤ e.severity ∨ 2048 ≤ t.recorder.buffer.length then t.startFlush else t, true)

/-- Take a token of the pair and store the record, or suppress it (R465). -/
def State.rateAndStore (s : State) (e : RawEvent) : State :=
  let b := s.bucketOf e.source e.code
  if 1000 ≤ b.tokens then
    match s.storeRecord e b.suppressed with
    | (t, true) => t.setBucket { b with tokens := b.tokens - 1000, suppressed := 0 }
    | (t, false) => t.setBucket { b with tokens := b.tokens - 1000 }
  else (s.setBucket { b with suppressed := b.suppressed + 1 }).bump EVR_SUPPTOT

/-- A fault of R481: it sets the accumulated trial time back to 0. -/
def State.trialFault (s : State) : State := { s.setReg UPD_TRIAL 0 with update := { s.update with trialNs := 0 } }

/-- An event reaches Bellows (R464, R465, R466, R481). A rate override that is enabled for the pair and inconsistent
sets CFG_SKEW and records an event of its own; the pair then has the default limits (R48, log entry 12). -/
def State.deliver (s : State) (e : RawEvent) : State :=
  let s := s.forEach ((s.overridesFor e.source e.code).filter fun k => !s.overrideConsistent k) fun k t =>
    (t.flag EVR_STATUS EVR_STATUS_CFG_SKEW).rateAndStore
      { source := 0x31, code := 1, severity := sevWarning, safety := false, params := [k] }
  let s := s.rateAndStore e
  if sevFault ≤ e.severity ∧ e.source < 0x80 then s.trialFault else s

/-- Raise an event. While Bellows restarts it waits (R439). -/
def State.raise (s : State) (e : RawEvent) : State :=
  if s.bellows.restarting then { s with recorder := { s.recorder with held := s.recorder.held ++ [e] } }
  else s.deliver e

/-- Raise an event by its parts. -/
def State.event (s : State) (source code severity : Nat) (params : List Nat) (safety : Bool := false) : State :=
  s.raise { source := source, code := code, severity := severity, safety := safety, params := params }

/-- Generic event 0x0001: an agreement group was used while inconsistent (R48, R472). -/
def State.evGroup (s : State) (source group : Nat) : State := s.event source 1 sevWarning [group]

/-- Generic event 0x0002: an access fault (R33, R472). The coding of the initiator is free. -/
def State.evAccess (s : State) (source addr initiator : Nat) : State :=
  s.event source 2 sevWarning [addr % 0x100000000, (Config.initiatorCode initiator).toNat]

/-- Generic event 0x0003: an uncorrectable memory error (R112, R472). -/
def State.evUncorrectable (s : State) (source storage : Nat) : State :=
  s.event source 3 sevFault [storage / 256 % 0x100000000]

/-- Generic event 0x0004: a command or write was refused (R472). -/
def State.evRefused (s : State) (source offset reason : Nat) : State := s.event source 4 sevInfo [offset, reason]

/-- Generic event 0x0005: a state change (R472). -/
def State.evState (s : State) (source item old new : Nat) : State := s.event source 5 sevInfo [item, old, new]

/-- Generic event 0x0006: a limit was exceeded (R472). -/
def State.evLimit (s : State) (source item measured limit : Nat) : State :=
  s.event source 6 sevWarning [item, measured, limit]

/-- Bellows firmware acts only while it does not restart (R439). -/
def State.firmware (s : State) (f : State → State) : State := if s.bellows.restarting then s else f s

/-- The SOURCE of a register block: the number of its window (R463). -/
def srcOf (reg : Nat) : Nat := reg / 0x10000

end Sys2Proof.Machine
end

