-- ==== Sys2Proof/Machine/MemErr.lean ====
section
/-!
DEFINITION. What the memory codes do when they find an error (R112, R113), shared by every initiator.
-/

namespace Sys2Proof.Machine

/-- A correctable error of the memory that holds an address is counted (R112). -/
def State.countCe (s : State) (pa : Nat) : State :=
  match regionOf pa with
  | .image => s.bump IMG_CE
  | .mram => s.bump MMU_MRAM_CE
  | .dram => s.bump MMU_DRAM_CE
  | .flash => s.bump MMU_FLASH_CE
  | _ => s

/-- An uncorrectable error is flagged, counted and recorded with its storage address (R112). -/
def State.reportUe (s : State) (pa : Nat) : State :=
  let sa := wordStorage pa
  let mmu (t : State) (f : Field) (c : Nat) : State :=
    (((t.flag MMU_STATUS f).bump c).setReg MMU_UEADDR (BitVec.ofNat 32 (sa / 256))).evUncorrectable (srcOf MMU_STATUS) sa
  match regionOf pa with
  | .image =>
    (((s.flag IMG_STATUS IMG_STATUS_UE).bump IMG_UE).putFld IMG_UEADDR IMG_UEADDR_UEADDR ((sa - 0x10000000) / 8)).evUncorrectable
      (srcOf IMG_STATUS) sa
  | .mram => mmu s MMU_STATUS_MRAM_UE MMU_MRAM_UE
  | .dram => mmu s MMU_STATUS_DRAM_UE MMU_DRAM_UE
  | .flash => mmu s MMU_STATUS_FLASH_UE MMU_FLASH_UE
  | _ => s

/-- An uncorrectable error of L2 (R112). -/
def State.reportL2Ue (s : State) (pa : Nat) : State :=
  let sa := wordStorage pa
  (((s.flag MMU_STATUS MMU_STATUS_L2_UE).bump MMU_L2_UE).setReg MMU_UEADDR (BitVec.ofNat 32 (sa / 256))).evUncorrectable
    (srcOf MMU_STATUS) sa

/-- Report each unreadable word of a range once. -/
def State.reportRange (s : State) (pa n : Nat) : State :=
  s.forEach (List.range ((pa + n + 7) / 8 - pa / 8)) fun i t =>
    let a := pa / 8 * 8 + 8 * i
    if t.hasUe a then t.reportUe a else t

/-- The part of a run of bytes that lies in one 64-bit word is written: a whole word makes its code good again, and a
part of a word that holds an uncorrectable error is not written (R114). -/
def State.writePart (s : State) (pa : Nat) (bs : List Byte) : State :=
  if bs.length = 8 then (s.healUe pa).writeBytes pa bs
  else if s.hasUe pa then s.reportUe pa
  else s.writeBytes pa bs

/-- Hardware writes a run of bytes from a physical address up. -/
def State.writeRun (s : State) (pa : Nat) (bs : List Byte) : State :=
  let n := bs.length
  s.forEach (List.range ((pa + n + 7) / 8 - pa / 8)) fun i t =>
    let wa := pa / 8 * 8 + 8 * i
    let lo := max pa wa
    t.writePart lo ((bs.drop (lo - pa)).take (min (pa + n) (wa + 8) - lo))

end Sys2Proof.Machine
end

