-- ==== Sys2Proof/Machine/Image.lean ====
section
/-!
DEFINITION. The cyclic image: cells of image memory (R117, R118), a task's slices, forces (R215-R217), substitution
(R163) and publication (R183).
-/

namespace Sys2Proof.Machine

/-! ### Cells -/

/-- Live input bank b (R117). -/
def bankBase (b : Nat) : Nat := 0x10080000 + 0x40000 * (b % 2)
/-- The published output image. -/
def pubBase : Nat := 0x10100000
/-- The substitute image. -/
def subBase : Nat := 0x10140000
/-- The lane region of image memory. -/
def laneImage (lane : Nat) : Nat := 0x10180000 + 0x80000 * lane

/-- Size of a cell in bytes (R118). -/
def cellSize (analog : Bool) : Nat := if analog then 8 else 1
/-- Points of a kind. -/
def kindPoints (analog : Bool) : Nat := if analog then 16384 else 131072
/-- Address of the cell of a point in a full image. -/
def cellAddr (base : Nat) (analog : Bool) (i : Nat) : Nat := if analog then base + 0x20000 + 8 * i else base + i

/-- The flag S of a quality tag (R88). -/
def tagS : Nat := 1
/-- The flag F. -/
def tagF : Nat := 2
/-- The flag E. -/
def tagE : Nat := 4

/-- A point: its value and its quality tag. -/
structure Point where
  value : Nat
  tag : Nat
  deriving DecidableEq, Repr

/-- The point that a cell's content spells. Bit 3 of the tag reads 0 (R88). -/
def pointOfCell (analog : Bool) (x : Nat) : Point :=
  if analog then { value := bitsAt x 0 32, tag := bitsAt x 32 3 } else { value := bitsAt x 0 1, tag := bitsAt x 4 3 }

/-- The cell content of a point. Bit 3 of the tag is stored as 0 (R88). -/
def cellOfPoint (analog : Bool) (p : Point) : Nat :=
  if analog then p.value % 2 ^ 32 + (p.tag % 8) * 2 ^ 32 else p.value % 2 + (p.tag % 8) * 16

/-- Read a cell. -/
def State.cellAt (s : State) (analog : Bool) (pa : Nat) : Point := pointOfCell analog (s.readLe pa (cellSize analog))

/-- Write a cell. -/
def State.putCell (s : State) (analog : Bool) (pa : Nat) (p : Point) : State :=
  s.writeRun pa (leBytes (cellSize analog) (cellOfPoint analog p))

/-- A point of a full image. -/
def State.point (s : State) (base : Nat) (analog : Bool) (i : Nat) : Point := s.cellAt analog (cellAddr base analog i)

/-- Write a point of a full image. -/
def State.putPoint (s : State) (base : Nat) (analog : Bool) (i : Nat) (p : Point) : State :=
  s.putCell analog (cellAddr base analog i) p

/-- Read a point of a full image: none, and the error reported, when its word holds an uncorrectable error. -/
def State.readPoint (s : State) (base : Nat) (analog : Bool) (i : Nat) : State × Option Point :=
  let pa := cellAddr base analog i
  if s.hasUe pa then (s.reportUe pa, none) else (s, some (s.cellAt analog pa))

/-- A run of logical bytes. -/
def State.bytes (s : State) (pa n : Nat) : List Byte := (List.range n).map fun i => s.readByte (pa + i)

/-! ### The program's slices -/

/-- What the loaded program says of a task. -/
def State.taskProg (s : State) (n : Nat) : Option TaskProg :=
  (s.program.tasks.find? fun t => t.1 == n).map (·.2)

/-- The slices of a task. -/
def State.slicesOf (s : State) (n : Nat) : List Slice :=
  match s.taskProg n with
  | some t => t.slices
  | none => []

/-- The output slices of a task, in slice-table order. -/
def State.outSlices (s : State) (n : Nat) : List Slice := (s.slicesOf n).filter (·.output)

/-- The input slices of a task, in slice-table order. -/
def State.inSlices (s : State) (n : Nat) : List Slice := (s.slicesOf n).filter fun x => !x.output

/-- Bytes of a slice. -/
def Slice.bytes (x : Slice) : Nat := x.count * cellSize x.analog

/-- Whether a slice holds a point. -/
def Slice.holds (x : Slice) (analog : Bool) (i : Nat) : Bool :=
  x.analog == analog && decide (x.start ≤ i) && decide (i < x.start + x.count)

/-- The points of a slice with the byte offset of each cell inside the slice. -/
def Slice.points (x : Slice) : List (Nat × Nat) := (List.range x.count).map fun i => (x.start + i, i * cellSize x.analog)

/-- The task that owns a point of the published output image (R120). -/
def State.ownerOf (s : State) (analog : Bool) (i : Nat) : Option Nat :=
  (s.program.tasks.find? fun t => t.2.slices.any fun x => x.output && x.holds analog i).map (·.1)

/-- The safety class of a task as its group holds it. -/
def State.isSafe (s : State) (n : Nat) : Bool := s.isSet (FRM_TCFG n) FRM_TCFG_CLASS

/-- The tasks of the program. -/
def State.taskNumbers (s : State) : List Nat := (s.program.tasks.map (·.1)).filter (· < 64)

/-- Change one task. -/
def State.modTask (s : State) (n : Nat) (g : Task → Task) : State :=
  if h : n < 64 then { s with tasks := s.tasks.set n (g s.tasks[n]) } else s

/-- A task; numbers above 63 name none. -/
def State.task (s : State) (n : Nat) : Task := if h : n < 64 then s.tasks[n] else Task.reset

/-! ### Forces (R215, R216, R217) -/

/-- The effective mode (R211): 0 RUN, 1 PROG, 2 STOP. -/
def State.eff (s : State) : Nat := s.fld SYS_MODE SYS_MODE_EFF
/-- Effective mode STOP. -/
def effStop : Nat := 2
/-- Effective mode PROG. -/
def effProg : Nat := 1
/-- Effective mode RUN. -/
def effRun : Nat := 0

/-- The force that acts on a point in a direction. -/
def State.forceOn (s : State) (analog output : Bool) (i : Nat) : Option Force :=
  s.modes.acting.find? fun f => f.analog == analog && f.output == output && f.index == i

/-- A point as a force shows it: the forced value, F, and E if the point carries it (R215). -/
def Force.apply (f : Force) (p : Point) : Point :=
  { value := if f.analog then f.value.toNat else f.value.toNat % 2, tag := tagF + (p.tag &&& tagE) }

/-- An input point as a snapshot copy shows it. -/
def State.forcedInput (s : State) (analog : Bool) (i : Nat) (p : Point) : Point :=
  match s.forceOn analog false i with
  | some f => f.apply p
  | none => p

/-- An output point as a write into the published cell shows it. A substitution of a SAFE task is never forced, and in
STOP nothing is (R217). -/
def State.forcedOutput (s : State) (publication safe analog : Bool) (i : Nat) (p : Point) : Point :=
  if s.eff = effStop ∨ (!publication && safe) then p
  else match s.forceOn analog true i with
    | some f => f.apply p
    | none => p

/-! ### Substitution and publication -/

/-- Write a cell of the published output image; an active member of a pair copies it (R388). -/
def State.putPub (s : State) (analog : Bool) (i : Nat) (p : Point) : State :=
  (s.putPoint pubBase analog i p).copyItem 0 (2 * i + bit analog)

/-- The points of a task's output slices: kind and index. -/
def State.outPoints (s : State) (n : Nat) : List (Bool × Nat) :=
  (s.outSlices n).flatMap fun x => (List.range x.count).map fun i => (x.analog, x.start + i)

/-- The safety class that counts for a task's outputs: that of its open cycle, else that of its group (R39, R168). -/
def State.safeNow (s : State) (n : Nat) : Bool := (s.task n).cycle.elim (s.isSafe n) (·.safe)

/-- Hardware reads a run of cells in a full image: each word that it cannot read is reported (R112, log entry 15). -/
def State.meetPoints (s : State) (base : Nat) (analog : Bool) (start count : Nat) : State :=
  s.when (count != 0) fun t => t.reportRange (cellAddr base analog start) (count * cellSize analog)

/-- Hardware reads the cells of slices in a full image: each word that it cannot read is reported (R112), and what it goes on
with is the free value of the lost word (log entry 15). -/
def State.meetSlices (s : State) (base : Nat) (l : List Slice) : State :=
  s.forEach l fun x t => t.reportRange (cellAddr base x.analog x.start) x.bytes

/-- The published cells of a task take the substitute image values with tag S (R163). -/
def State.substitute (s : State) (n : Nat) : State :=
  let safe := s.safeNow n
  let s := s.meetSlices subBase (s.outSlices n)
  (s.forEach (s.outPoints n) fun (a, i) t =>
    t.putPub a i (t.forcedOutput false safe a i { value := (t.point subBase a i).value, tag := tagS })).modTask n
      fun k => { k with cellsPublished := false }

/-- The published cells of a task keep their values, with S ORed into each tag (R163, HOLD_ONE). A forced point of an
STD task keeps its force. -/
def State.holdOutputs (s : State) (n : Nat) : State :=
  let safe := s.safeNow n
  let s := s.meetSlices pubBase (s.outSlices n)
  s.forEach (s.outPoints n) fun (a, i) t =>
    let p := t.point pubBase a i
    t.putPub a i (t.forcedOutput false safe a i { p with tag := p.tag ||| tagS })

/-- Cut a record's image into the cells of the output slices. -/
def imageCells : List Slice → List Byte → List (Bool × Nat × Nat)
  | [], _ => []
  | x :: xs, bs =>
    (x.points.map fun (i, o) => (x.analog, i, ofLe ((bs.drop o).take (cellSize x.analog))))
      ++ imageCells xs (bs.drop x.bytes)

/-- Whether a point of the published output image is owned by a SAFE task other than one (R17, R120). -/
def State.foreignSafe (s : State) (n : Nat) (analog : Bool) (i : Nat) : Bool :=
  s.program.tasks.any fun t => t.1 != n && s.isSafe t.1 && t.2.slices.any fun x => x.output && x.holds analog i

/-- The cells of an image that the placement of the task may write: an image of a free placement writes no slice owned by a
SAFE task (R17). -/
def State.writableCells (s : State) (n : Nat) (free : Bool) (image : List Byte) : List (Bool × Nat × Nat) :=
  (imageCells (s.outSlices n) image).filter fun c => !(free && s.foreignSafe n c.1 c.2.1)

/-- A free image that attempts a write to a slice owned by a SAFE task is recorded (R17). -/
def State.reportOwned (s : State) (n : Nat) (free : Bool) : State :=
  match (s.outSlices n).find? fun x => free && x.points.any fun p => s.foreignSafe n x.analog p.1 with
  | some x => s.evRefused (srcOf ANX_STATUS) n x.start
  | none => s

/-- Publication (R183): the image becomes the voted copy and, with forces, the published cells. What an image of a free
placement holds for slices of SAFE tasks is discarded and recorded (R17). -/
def State.publishImage (s : State) (n : Nat) (free : Bool) (image : List Byte) : State :=
  match s.taskProg n with
  | none => s
  | some tp =>
    let safe := s.safeNow n
    let t := ((s.reportOwned n free).writeRun tp.votedCopy image).copyItem 1 n
    (t.forEach (s.writableCells n free image) fun (a, i, x) u =>
      u.putPub a i (u.forcedOutput true safe a i (pointOfCell a x))).modTask n
        fun k => { k with cellsPublished := true }

/-- The voted copy of one point of a task. -/
def votedCell : List Slice → Nat → Bool → Nat → Option Nat
  | [], _, _, _ => none
  | x :: xs, pa, a, i =>
    if x.holds a i then some (pa + (i - x.start) * cellSize a) else votedCell xs (pa + x.bytes) a i

/-- The voted copy is written from the substitute image with tag S (R157, at each start of the task). -/
def State.initVoted (s : State) (n : Nat) : State :=
  match s.taskProg n with
  | none => s
  | some tp =>
    ((s.meetSlices subBase (s.outSlices n)).forEach (s.outPoints n) fun (a, i) t =>
      match votedCell (s.outSlices n) tp.votedCopy a i with
      | some pa => t.putCell a pa { value := (t.point subBase a i).value, tag := tagS }
      | none => t).copyItem 1 n

/-- A force on an output point is set: the published cell takes the forced value (R216). A force is released: the cell
takes the voted copy's value and tag, or the substitute while a restart holds it (R204). A substitute of a SAFE task stays. -/
def State.refreshForced (s : State) (analog : Bool) (i : Nat) : State :=
  match s.ownerOf analog i with
  | none => s
  | some n =>
    match s.taskProg n with
    | none => s
    | some tp =>
      if s.isSafe n && !(s.task n).cellsPublished then s
      else match votedCell (s.outSlices n) tp.votedCopy analog i with
        | none => s
        | some pa =>
          let from' := if s.modes.restart.isSome then cellAddr subBase analog i else pa
          let s := s.reportRange from' (cellSize analog)
          let p := if s.modes.restart.isSome then { value := (s.point subBase analog i).value, tag := tagS } else s.cellAt analog pa
          s.putPub analog i (s.forcedOutput true (s.isSafe n) analog i p)

end Sys2Proof.Machine
end

