-- ==== Sys2Proof/Machine/Dio.lean ====
section
/-!
DEFINITION. Safety digital inputs and outputs, test runs and guard-opening tests (14_safety.md, 15_digital_io.md).
-/

namespace Sys2Proof.Machine

/-! ### Access -/

/-- Source number of the DIO block. -/
def srcDio : Nat := srcOf DIO_STATUS
/-- Source number of the SAF block. -/
def srcSaf : Nat := srcOf SAF_STATUS

/-- The input numbers. -/
def allInputs : List Nat := List.range 16
/-- The output numbers. -/
def allOutputs : List Nat := List.range 8

/-- What the block holds of an input. -/
def State.di (s : State) (i : Nat) : DiState := if h : i < 16 then s.dio.di[i] else DiState.reset
/-- Change what the block holds of an input. -/
def State.modDi (s : State) (i : Nat) (g : DiState → DiState) : State :=
  if h : i < 16 then { s with dio := { s.dio with di := s.dio.di.set i (g s.dio.di[i]) } } else s
/-- What the block holds of an output. -/
def State.dout (s : State) (c : Nat) : DoState := if h : c < 8 then s.dio.dout[c] else DoState.reset
/-- Change what the block holds of an output. -/
def State.modDout (s : State) (c : Nat) (g : DoState → DoState) : State :=
  if h : c < 8 then { s with dio := { s.dio with dout := s.dio.dout.set c (g s.dio.dout[c]) } } else s
/-- A guard-opening group. -/
def State.guardOf (s : State) (g : Nat) : Guard :=
  if h : g < 8 then s.dio.guards[g] else { mask := 0, closed := false, ran := false }
/-- Change a guard-opening group. -/
def State.modGuard (s : State) (g : Nat) (f : Guard → Guard) : State :=
  if h : g < 8 then { s with dio := { s.dio with guards := s.dio.guards.set g (f s.dio.guards[g]) } } else s

/-- Bit of a register field that holds one bit per channel. -/
def State.bitOf (s : State) (a lo i : Nat) : Bool := (s.reg a).getLsbD (lo + i)
/-- Give that bit a value. -/
def State.putBit (s : State) (a lo i : Nat) (b : Bool) : State := s.putFld a ⟨lo + i, 1⟩ (bit b)

/-- The filtered value of an input. -/
def State.filtered (s : State) (i : Nat) : Bool := s.bitOf DIO_DIRAW 16 i
/-- Whether an input is latched faulted. -/
def State.diLatched (s : State) (i : Nat) : Bool := s.bitOf DIO_DILATCH 0 i
/-- The command of an output. -/
def State.doCmd (s : State) (c : Nat) : Bool := s.bitOf DIO_DOSTATE 0 c
/-- Whether an output is latched off. -/
def State.doLatched (s : State) (c : Nat) : Bool := s.bitOf DIO_DOSTATE 16 c

/-- Configuration of an input as its register holds it; FILT 0 acts as 1. -/
def State.diCfg (s : State) (i : Nat) : DiCfg :=
  { en := s.isSet (DIO_DICFG i) DIO_DICFG_EN, testPulse := s.isSet (DIO_DICFG i) DIO_DICFG_DIAG,
    src := s.fld (DIO_DICFG i) DIO_DICFG_SRC, filt := max 1 (s.fld (DIO_DICFG i) DIO_DICFG_FILT) }

/-- Configuration of an input in force: what a run holds while it runs (R352). -/
def State.diCfgNow (s : State) (i : Nat) : DiCfg :=
  match s.dio.run with
  | some r => if h : i < 16 then { r.cfg[i] with en := (s.diCfg i).en } else s.diCfg i
  | none => s.diCfg i

/-! ### Guard-opening groups (R355) -/

/-- State of a group in SAF_GSTATE. -/
def State.gstate (s : State) (g : Nat) : Nat := s.fld SAF_GSTATE ⟨2 * g, 2⟩

/-- Set the state of a group and GPEND. -/
def State.setGstate (s : State) (g v : Nat) : State :=
  let t := s.putFld SAF_GSTATE ⟨2 * g, 2⟩ v
  t.putFld SAF_STATUS SAF_STATUS_GPEND (bit ((List.range 8).any fun j => t.gstate j != 0))

/-- Start a group if it is enabled; a disabled group becomes DONE. -/
def State.startGroup (s : State) (g : Nat) : State :=
  if s.isSet (SAF_GTEST g) SAF_GTEST_EN then
    (s.setGstate g 1).modGuard g fun _ =>
      { mask := BitVec.ofNat 16 (s.fld (SAF_GTEST g) SAF_GTEST_MASK), closed := false, ran := false }
  else s.setGstate g 0

/-- At every module reset every enabled group starts. -/
def State.startGuards (s : State) : State := s.forEach (List.range 8) fun g t => t.startGroup g

/-- At a restart the enabled groups with EVERY start. -/
def State.restartGuards (s : State) : State :=
  s.forEach ((List.range 8).filter fun g =>
    s.isSet (SAF_GTEST g) SAF_GTEST_EN && s.isSet (SAF_GTEST g) SAF_GTEST_EVERY) fun g t => t.startGroup g

/-- Whether a guard-opening test holds an input. -/
def State.guardHolds (s : State) (i : Nat) : Bool :=
  (List.range 8).any fun g => s.gstate g != 0 && (s.guardOf g).mask.getLsbD i

/-- Inputs of a group. -/
def State.guardInputs (s : State) (g : Nat) : List Nat := allInputs.filter fun i => (s.guardOf g).mask.getLsbD i

/-- A group is DONE. -/
def State.guardDone (s : State) (g : Nat) : State := (s.setGstate g 0).event srcSaf 0x0102 sevInfo [g]

/-- What a sample does to a group. -/
def State.guardSample (s : State) (g : Nat) : State :=
  let ins := s.guardInputs g
  match s.gstate g with
  | 1 =>
    if ins.all fun i => !s.filtered i then (s.setGstate g 2).modGuard g fun k => { k with closed := false, ran := false }
    else s
  | 2 =>
    if ins.all fun i => s.filtered i then
      if ins.any fun i => (s.diCfgNow i).testPulse then s.modGuard g fun k => { k with closed := true }
      else s.guardDone g
    else s.modGuard g fun k => { k with closed := false, ran := false }
  | _ => s

/-! ### Inputs (R359, R360, R354) -/

/-- Latch an input as faulted (R354). -/
def State.latchInput (s : State) (i kind : Nat) : State :=
  let t := (s.putBit DIO_DILATCH 0 i true).modDi i fun d => { d with kind := kind, ready := false, ran := false, good := 0 }
  if kind = 2 then
    (((t.bump SAF_TPFAIL).flag SAF_STATUS SAF_STATUS_TPFAIL).event srcSaf 0x0101 sevFault [i] true)
  else t.event srcDio 0x0101 sevFault [i, (Config.paramCode 1 kind).toNat] true

/-- A wire break or window fault of R359. -/
def State.inputFault (s : State) (i : Nat) (wire : Bool) : State :=
  if wire then ((s.flag DIO_STATUS DIO_STATUS_WB).bump DIO_WBCNT).latchInput i 0
  else ((s.flag DIO_STATUS DIO_STATUS_WIN).bump DIO_WINCNT).latchInput i 1

/-- The effective current of R372 in units of 2^-32 nA, from the converter reading in nA. -/
def State.effCurrent (s : State) (i : Nat) (adc : Int) : Int :=
  let fg := toSigned 16 (s.fld (DIO_DIFCAL i) DIO_DIFCAL_FGAIN)
  let fo := toSigned 16 (s.fld (DIO_DIFCAL i) DIO_DIFCAL_FOFFS)
  let ug := toSigned 16 (s.fld (DIO_DIUCAL i) DIO_DIUCAL_UGAIN)
  let uo := toSigned 16 (s.fld (DIO_DIUCAL i) DIO_DIUCAL_UOFFS)
  let i1 := adc * (65536 + fg) + fo * 1000 * 65536
  i1 * (65536 + ug) + uo * 1000 * 4294967296

/-- Row of R359 that an effective current falls in, 0 the first. -/
def currentRow (eff : Int) : Nat :=
  let u : Int := 4294967296
  if eff < 350000 * u then 0
  else if eff < 600000 * u then 1
  else if eff < 1500000 * u then 2
  else if eff < 2000000 * u then 3
  else if eff ≤ 15000000 * u then 4
  else 5

/-- Whether a row acts as a fault row after 3 samples. -/
def faultRow (testPulse : Bool) (row : Nat) : Bool := row == 5 || (!testPulse && decide (row ≤ 1))

/-- One sample of one input (R359, R360, R352, R362). `since` is the time in µs since the start of a run. -/
def State.sampleInput (s : State) (i : Nat) (adc : Int) (since : Nat) : State :=
  let c := s.diCfgNow i
  if !c.en then s
  else
    let row := currentRow (s.effCurrent i adc)
    let prev := s.bitOf DIO_DIRAW 0 i
    let free := faultRow c.testPulse row
    let raw := if free then Config.rawValue s.free
      else if row ≤ 2 then false
      else if row = 3 then prev
      else true
    let s := if free then s.tickFree else s
    let (off, judged) := match s.dio.run with
      | some r => match r.sources[since / 1000]? with
        | some k => (decide (c.src = k ∧ since % 1000 < 500),
            c.testPulse && r.before.getLsbD i && decide (100 ≤ since % 1000 ∧ since % 1000 < 400) &&
              ((c.src == k) == raw))
        | none => (false, false)
      | none => (false, false)
    let s := if judged then
        { s with dio := { s.dio with run := s.dio.run.map fun r =>
            { r with failed := r.failed ||| BitVec.ofNat 16 (2 ^ i) } } }
      else s
    let t := if off then
        (if c.testPulse then s.putBit DIO_DIRAW 0 i raw else s).modDi i fun k => { k with good := min 10000 (k.good + 1) }
      else
        let d := s.di i
        let n := if d.row = row then d.rowCount + 1 else 1
        let diff := raw != s.filtered i
        let cnt := if diff then d.count + 1 else 0
        let change := diff && decide (c.filt ≤ cnt)
        let t := (s.putBit DIO_DIRAW 0 i raw).modDi i fun k =>
          { k with row := row, rowCount := n, count := if change then 0 else cnt, good := min 10000 (k.good + 1) }
        let t := if change then t.putBit DIO_DIRAW 16 i raw else t
        let acts (k : Nat) : Bool := n == k || (decide (k < n) && !t.diLatched i)
        if free && acts 3 then t.inputFault i (row == 0)
        else if row == 3 && acts 100 then t.inputFault i false
        else t
    if t.dio.startDone && !c.testPulse && !t.diLatched i && decide (10000 ≤ (t.di i).good) then
      t.modDi i fun k => { k with proven := true }
    else t

/-- Whether the fault that latched an input is present now (R354). -/
def State.faultPresent (s : State) (i : Nat) : Bool :=
  let d := s.di i
  let c := s.diCfgNow i
  faultRow c.testPulse d.row || (d.row == 3 && decide (100 ≤ d.rowCount)) ||
    (d.kind == 3 && s.dio.srcOff.getLsbD c.src) || (d.kind == 4 && s.isSet DIO_STATUS DIO_STATUS_FG1OFF)

/-! ### Test runs (R352, R353) -/

/-- The sources that a run pulses, ascending (R352). -/
def State.runSources (s : State) : List Nat :=
  (List.range 4).filter fun k => allInputs.any fun i =>
    let c := s.diCfg i
    c.en && c.testPulse && c.src == k

/-- Start a run. -/
def State.startRun (s : State) (startup : Bool) : State :=
  let r : TestRun :=
    { cfg := Vector.ofFn fun i => s.diCfg i.val, sources := s.runSources,
      before := BitVec.ofNat 16 (s.fld DIO_DIRAW DIO_DIRAW_FILTERED), failed := 0, startup := startup }
  let t := { s with dio := { s.dio with run := some r, startPending := s.dio.startPending && !startup } }
  let t := t.flag SAF_STATUS SAF_STATUS_RUNNING
  let t := t.forEach allInputs fun i u => u.modDi i fun d => { d with ran := d.ready }
  t.forEach (List.range 8) fun g u => u.modGuard g fun k => { k with ran := k.closed }

/-- The result of an input in a run: 0 not judged, 1 PASS, 2 FAIL, 3 UNTESTED (R352). -/
def TestRun.result (r : TestRun) (i : Nat) : Nat :=
  if h : i < 16 then
    if !(r.cfg[i].en && r.cfg[i].testPulse) then 0
    else if !r.before.getLsbD i then 3
    else if r.failed.getLsbD i then 2 else 1
  else 0

/-- What the end of a run does to an input (R353, R354). A run that any cause has started after the fault was absent ends a latch, a
periodic one with AUTOREC 0 too (DEDUCED, log entry 145). -/
def State.judgeInput (s : State) (r : TestRun) (i : Nat) : State :=
  let res := r.result i
  let t := s.putFld SAF_TPRES ⟨2 * i, 2⟩ res
  let tp := if h : i < 16 then r.cfg[i].testPulse else false
  if res = 2 then t.latchInput i 2
  else
    let d := t.di i
    if t.diLatched i then
      if d.ready && d.ran && (res == 1 || !tp) then
        (t.putBit DIO_DILATCH 0 i false).modDi i fun k => { k with ready := false, ran := false, proven := true }
      else t
    else if res = 1 ∨ (!tp ∧ t.dio.startDone ∧ 10000 ≤ d.good) then t.modDi i fun k => { k with proven := true }
    else t

/-- What the end of a run does to a guard-opening group (R355). -/
def State.judgeGuard (s : State) (r : TestRun) (g : Nat) : State :=
  if s.gstate g = 2 ∧ (s.guardOf g).ran then
    if (s.guardInputs g).all fun i => (if h : i < 16 then !r.cfg[i].testPulse else true) || r.result i == 1 then s.guardDone g
    else s.modGuard g fun k => { k with ran := false }
  else s

/-- End a run; a queued run starts then. -/
def State.endRun (s : State) : State :=
  match s.dio.run with
  | none => s
  | some r =>
    let t := { s with dio := { s.dio with run := none, startDone := s.dio.startDone || r.startup } }
    let t := t.putFld SAF_STATUS SAF_STATUS_RUNNING 0
    let t := t.forEach allInputs fun i u => u.judgeInput r i
    let t := t.forEach (List.range 8) fun g u => u.judgeGuard r g
    if t.dio.queued then ({ t with dio := { t.dio with queued := false } }).startRun false
    else t.putFld SAF_TPCTRL SAF_TPCTRL_TEST 0

/-- SAF_TPCTRL.TEST: start a run, or queue one further run (R43, R353). -/
def State.issueTest (s : State) : State :=
  let t := s.flag SAF_TPCTRL SAF_TPCTRL_TEST
  match s.dio.run with
  | none => t.startRun false
  | some _ => { t with dio := { t.dio with queued := true } }

/-! ### Outputs (R364 to R371) -/

/-- Whether the pair of a channel is paired, as a tick samples it (R369). -/
def State.doPairNow (s : State) (c : Nat) : Bool :=
  s.isSet (DIO_DOCFG (c / 2 * 2)) DIO_DOCFG_PAIR && s.isSet (DIO_DOCFG (c / 2 * 2 + 1)) DIO_DOCFG_PAIR

/-- A tick samples the group of a channel and the point that drives it, for every use up to the next tick (R39, R370). -/
def State.sampleGroup (s : State) (c : Nat) : State :=
  s.modDout c fun d => { d with
    paired := s.doPairNow c
    point := s.fld (DIO_DOCFG (if s.doPairNow c then c / 2 * 2 else c)) DIO_DOCFG_POINT }

/-- The pair of a channel is paired, as the last tick sampled it. -/
def State.doPaired (s : State) (c : Nat) : Bool := (s.dout c).paired

/-- The channel whose POINT drives a channel (R370). -/
def State.doDriver (s : State) (c : Nat) : Nat := if s.doPaired c then c / 2 * 2 else c

/-- The point that drives a channel. -/
def State.doPoint (s : State) (c : Nat) : Nat := (s.dout c).point

/-- Whether a point lies in an output slice of a SAFE task. -/
def State.safeOwned (s : State) (analog : Bool) (i : Nat) : Bool :=
  match s.ownerOf analog i with
  | some n => s.isSafe n
  | none => false

/-- SAFEFAIL or the CMPFAULT of either Anvil. -/
def State.safeLost (s : State) : Bool :=
  s.isSet LANE_STATUS LANE_STATUS_SAFEFAIL || s.isSet ANX_STATUS ANX_STATUS_CMPFAULT || s.isSet ANY_STATUS ANY_STATUS_CMPFAULT

/-- Command a channel. -/
def State.setDoCmd (s : State) (c : Nat) (on : Bool) : State :=
  let t := if s.doCmd c = on then s else s.modDout c fun d => { d with mismatch := 0 }
  let t := t.putBit DIO_DOSTATE 0 c on
  if on then t.putFld DIO_DOLOAD ⟨2 * c, 2⟩ 0 else t

/-- SAFE-owned channels switch off at once (R365). -/
def State.safeOutputsOff (s : State) : State :=
  s.forEach (allOutputs.filter fun c => s.safeOwned false (s.doPoint c)) fun c t => t.setDoCmd c false

/-- Whether a channel may follow its cell at a tick (R364, R365, R369, R371). -/
def State.doFollows (s : State) (c : Nat) (pairOk : Bool) : Bool :=
  let latched := s.doLatched c || (s.doPaired c && s.doLatched (c / 2 * 2 + 1 - c % 2))
  let p := s.doPoint c
  pairOk && !latched && !s.standby && s.dio.fg1 && !s.isSet DIO_STATUS DIO_STATUS_FG1OFF && (s.ownerOf false p).isSome &&
    !(s.safeOwned false p && s.safeLost)

/-- Channels at a tick: those that follow take the cell that drives the first of them, the others are off. A cell that
cannot be read switches them off (R364). -/
def State.doTickChannels (s : State) (cs : List Nat) (pairOk : Bool) : State :=
  let on := cs.filter fun c => s.doFollows c pairOk
  let t := s.forEach (cs.filter fun c => !on.contains c) fun c u => u.setDoCmd c false
  match on with
  | [] => t
  | c :: _ =>
    match t.readPoint pubBase false (t.doPoint c) with
    | (t, some v) => t.forEach on fun k u => u.setDoCmd k (v.value == 1)
    | (t, none) => t.forEach on fun k u => u.setDoCmd k false

/-- Each pair at a tick: the group is sampled and checked, then both channels act, together where they are paired (R369,
R370). -/
def State.doTickPair (s : State) (p : Nat) : State :=
  let en := s.bitOf DIO_DOEN 0 p
  let equal := s.fld (DIO_DOCFG (2 * p)) DIO_DOCFG_PAIR == s.fld (DIO_DOCFG (2 * p + 1)) DIO_DOCFG_PAIR
  let t := if en && !equal then (s.flag DIO_STATUS DIO_STATUS_CFG_SKEW).evGroup srcDio p else s
  let t := (t.sampleGroup (2 * p)).sampleGroup (2 * p + 1)
  if t.doPaired (2 * p) then t.doTickChannels [2 * p, 2 * p + 1] (en && equal)
  else (t.doTickChannels [2 * p] (en && equal)).doTickChannels [2 * p + 1] (en && equal)

/-- The output channels sample their cells at a tick. -/
def State.doTick (s : State) : State := s.forEach [0, 1, 2, 3] fun p t => t.doTickPair p

/-- A channel fault (R366, R370). -/
def State.doFault (s : State) (c : Nat) : State :=
  let both := if s.doPaired c then [c / 2 * 2, c / 2 * 2 + 1] else [c]
  let t := s.forEach both fun k u => (u.setDoCmd k false).putBit DIO_DOSTATE 16 k true
  ((t.flag DIO_STATUS DIO_STATUS_DOFLT).bump DIO_DOFLTCNT).event srcDio 0x0102 sevFault [c] true

/-- One sample of one output (R366). `settled`: 250 µs have passed since the last change of its command. -/
def State.sampleOutput (s : State) (c : Nat) (back excess settled : Bool) : State :=
  let t := s.putBit DIO_DOSTATE 8 c back
  let mis := settled && back != s.doCmd c && !s.isSet DIO_STATUS DIO_STATUS_FG1OFF
  let n := if mis then (t.dout c).mismatch + 1 else 0
  let heavy := excess && s.doCmd c
  let t := t.modDout c fun d => { d with mismatch := n, present := (back != s.doCmd c) || heavy }
  if s.doLatched c then t
  else if heavy || decide (3 ≤ n) then t.doFault c
  else t

/-- Clear the latches of a mask whose fault is absent (R366, R370). -/
def State.clearOutputs (s : State) (mask : Nat) : State :=
  s.forEach (allOutputs.filter fun c => mask.testBit c) fun c t =>
    if (t.dout c).present || t.fld DIO_DOLOAD ⟨2 * t.doDriver c, 2⟩ == 3 then t else t.putBit DIO_DOSTATE 16 c false

/-- DIO_DOCLR: clear what MASK selects. -/
def State.doClear (s : State) : State :=
  (s.clearOutputs (s.fld DIO_DOCLR DIO_DOCLR_MASK)).putFld DIO_DOCLR DIO_DOCLR_GO 0

/-! ### The tick (R361, R367) -/

/-- Inputs and read-backs are written into an input bank at a tick. -/
def State.dioPoints (s : State) (bank : Nat) : State :=
  let s := s.forEach allInputs fun i t =>
    let held := !t.isSet (DIO_DICFG i) DIO_DICFG_EN || t.diLatched i || !(t.di i).proven || t.guardHolds i || !t.dio.fg1
    t.putPoint (bankBase bank) false (t.fld (DIO_DICFG i) DIO_DICFG_POINT)
      (if held then { value := 0, tag := tagS } else { value := bit (t.filtered i), tag := 0 })
  s.forEach (allOutputs.filter fun c => s.isSet (DIO_DOFB c) DIO_DOFB_EN) fun c t =>
    t.putPoint (bankBase bank) false (t.fld (DIO_DOFB c) DIO_DOFB_FBPOINT)
      { value := bit (t.bitOf DIO_DOSTATE 8 c), tag := if t.doLatched c then tagS else 0 }

/-- Bellows loads the user calibration before FG1 is enabled (R372). -/
def State.loadDiCal (s : State) : State :=
  if s.calib.diOk then s.forEach allInputs fun i t => t.setReg (DIO_DIUCAL i) (if h : i < 16 then t.calib.di[i] else 0)
  else
    (((s.forEach allInputs fun i t => t.setReg (DIO_DIUCAL i) 0).flag DIO_STATUS DIO_STATUS_UCALBAD).evState srcDio
      (DIO_DIUCAL 0 % 65536) 0 1)

end Sys2Proof.Machine
end

