-- ==== Sys2Proof/Machine/Loop.lean ====
section
/-!
DEFINITION. Current-loop outputs (16_current_loops.md).
-/

namespace Sys2Proof.Machine

/-- Source number of the LOOP block. -/
def srcLoop : Nat := srcOf LOOP_STATUS
/-- The channel numbers. -/
def allLoops : List Nat := [0, 1, 2, 3]

/-- What the block holds of a channel. -/
def State.loopCh (s : State) (c : Nat) : LoopChannel := if h : c < 4 then s.loop.ch[c] else LoopChannel.reset
/-- Change what the block holds of a channel. -/
def State.modLoop (s : State) (c : Nat) (g : LoopChannel → LoopChannel) : State :=
  if h : c < 4 then { s with loop := { s.loop with ch := s.loop.ch.set c (g s.loop.ch[c]) } } else s

/-- The latched cause of a channel. -/
def State.loopCause (s : State) (c : Nat) : Nat := s.fld LOOP_FAULT ⟨4 * c, 4⟩

/-- The target of R373 in nA. -/
def loopTarget (ne43 : Bool) (value : Int) : Nat :=
  let v := clampNat 0 24000000 value.toNat
  if ne43 then clampNat 3800000 20500000 v else v

/-- The fault level of R375 in nA. -/
def faultLevel (fresp : Nat) : Nat :=
  if fresp = 1 then 21500000 else if fresp = 2 then 0 else 3500000

/-- The DAC code of R374: both corrections, the user's as the last tick sampled it, then the nearest code, ties up, inside 0 to 65,535. -/
def State.dacCode (s : State) (c target : Nat) : Nat :=
  let ug := toSigned 16 (LOOP_UCAL_UGAIN.get (s.loopCh c).ucal)
  let uo := toSigned 16 (LOOP_UCAL_UOFFS.get (s.loopCh c).ucal)
  let fg := toSigned 16 (s.fld (LOOP_FCAL c) LOOP_FCAL_FGAIN)
  let fo := toSigned 16 (s.fld (LOOP_FCAL c) LOOP_FCAL_FOFFS)
  let u : Int := 65536
  let iu := (target : Int) * (u + ug) + uo * 10 * u
  let i2 := iu * (u + fg) + fo * 10 * u * u
  let den : Int := 24000000 * u * u
  clampNat 0 65535 ((2 * i2 * 65535 + den) / (2 * den)).toNat

/-- Which row of R375 applies to a channel, 1 to 7. -/
def State.loopRow (s : State) (c : Nat) : Nat :=
  let k := s.loopCh c
  let point := LOOP_CFG_POINT.get k.cfg
  if LOOP_CFG_EN.get k.cfg = 0 ∨ s.standby ∨ !k.powered ∨ s.isSet LOOP_STATUS LOOP_STATUS_FG2OFF ∨ (s.ownerOf true point).isNone then 1
  else if s.loopCause c = 3 then 2
  else if k.thermal then 3
  else if s.safeOwned true point && s.safeLost then 4
  else if s.loopCause c ≠ 0 then 5
  else if LOOP_CFG_SFAULT.get k.cfg = 1 ∧ k.tag &&& (tagS + tagE) ≠ 0 then 6
  else 7

/-- Whether a channel drives its fault level. -/
def loopRowFault (row : Nat) : Bool := row == 4 || row == 5 || row == 6

/-- Set what a channel drives (R375, R376). -/
def State.loopDrive (s : State) (c : Nat) : State :=
  let k := s.loopCh c
  let row := s.loopRow c
  let target :=
    if k.settling then 0
    else match row with
      | 1 => 0
      | 2 => 0
      | 3 => 3500000
      | 7 => loopTarget (LOOP_CFG_NE43.get k.cfg == 1) k.value
      | _ => faultLevel (LOOP_CFG_FRESP.get k.cfg)
  let code := if row ≤ 2 ∨ k.settling then 0 else s.dacCode c target
  s.modLoop c fun k => { k with drive := target, code := code, connected := row != 2 }

/-- Every channel drives its row again, because a condition arose or ended. -/
def State.loopsDrive (s : State) : State := s.forEach allLoops fun c t => t.loopDrive c

/-- A channel samples its configuration and its cell at a tick (R373, R376). A cell that cannot be read leaves the value and gives tag S
(DESIGN CHOICE, log entry 164). -/
def State.loopTickChannel (s : State) (c : Nat) : State :=
  let cfg := s.reg (LOOP_CFG c)
  let old := (s.loopCh c).cfg
  let moved := LOOP_CFG_MODE.get cfg != LOOP_CFG_MODE.get old
  let (t, p) := s.readPoint pubBase true (LOOP_CFG_POINT.get cfg)
  let t := if LOOP_CFG_EN.get cfg = 1 then t else s
  let t := t.modLoop c fun k =>
    { k with cfg := cfg, ucal := s.reg (LOOP_UCAL c), settling := k.settling || moved,
             powered := s.loop.fg2 && !s.isSet LOOP_STATUS LOOP_STATUS_FG2OFF,
             value := match p with
               | some v => toSigned 32 v.value
               | none => k.value
             tag := match p with
               | some v => v.tag
               | none => tagS }
  t.loopDrive c

/-- The loop channels at a tick. -/
def State.loopTick (s : State) : State := s.forEach allLoops fun c t => t.loopTickChannel c

/-- A channel fault (R383). A miswired stage stays disconnected until that fault is cleared (R381), so its cause stands. -/
def State.loopFault (s : State) (c cause : Nat) : State :=
  let t := ((s.putFld LOOP_FAULT ⟨4 * c, 4⟩ (if s.loopCause c = 3 then 3 else cause)).bump LOOP_FLTCNT).flag LOOP_STATUS LOOP_STATUS_CHFLT
  let t := if cause = 2 then t.flag LOOP_STATUS LOOP_STATUS_OPEN
    else if cause = 3 then t.flag LOOP_STATUS LOOP_STATUS_MISWIRE
    else if cause = 4 then t.flag LOOP_STATUS LOOP_STATUS_THERM
    else t
  (t.event srcLoop 0x0101 sevWarning [c, cause]).loopDrive c

/-- Whether a sample shows an open loop (R380). -/
def openSample (m : LoopMeasure) (drive : Nat) : Bool :=
  decide (m.current < 100000) && decide (6000 < m.volts) && decide (500000 ≤ drive)

/-- Whether a sample shows miswiring (R381). -/
def wireSample (m : LoopMeasure) (sink : Bool) : Bool :=
  (!sink && decide ((m.supply : Int) + 500 < m.volts)) || decide (m.volts < -500)

/-- Whether a sample is non-compliant (R379). -/
def nonCompliant (m : LoopMeasure) (drive : Nat) : Bool := m.limited && decide (m.current + 24000 < drive)

/-- Whether a sample counts towards a read-back fault (R383). -/
def backSample (m : LoopMeasure) (drive : Nat) : Bool :=
  m.settled && (decide (m.current + 200000 < drive) || decide (drive + 200000 < m.current))

/-- One measurement of a channel (R377, R379 to R383). -/
def State.sampleLoop (s : State) (c : Nat) (m : LoopMeasure) : State :=
  let k := s.loopCh c
  if LOOP_CFG_EN.get k.cfg = 0 then s
  else
    let t := s.setReg (LOOP_MEAS c)
      (BitVec.ofNat 32 (m.current / 1000 % 65536 * 65536 + (m.volts % 65536).toNat))
    if !s.loop.fg2 || s.isSet LOOP_STATUS LOOP_STATUS_FG2OFF then
      (t.putBit LOOP_COMPLIANCE 0 c false).modLoop c fun k => { k with openRun := 0, wireRun := 0, backRun := 0 }
    else
      let opn := openSample m k.drive
      let wire := wireSample m (LOOP_CFG_MODE.get k.cfg == 1)
      let nc := nonCompliant m k.drive && !opn
      let back := backSample m k.drive && !nc && !opn
      let t := t.putBit LOOP_COMPLIANCE 0 c nc
      let t := if nc then t.putBit LOOP_COMPLIANCE 8 c true else t
      let n1 := if opn then k.openRun + 1 else 0
      let n2 := if wire then k.wireRun + 1 else 0
      let n3 := if back then k.backRun + 1 else 0
      let t := t.modLoop c fun k => { k with openRun := n1, wireRun := n2, backRun := n3 }
      let t := if n1 = 10 then t.loopFault c 2 else t
      let t := if n3 = 10 then t.loopFault c 5 else t
      if n2 = 10 then t.loopFault c 3 else t

/-- Whether the condition of a latched cause is present now (R383). -/
def State.loopPresent (s : State) (c : Nat) : Bool :=
  let k := s.loopCh c
  match s.loopCause c with
  | 1 => s.bitOf LOOP_COMPLIANCE 0 c
  | 2 => k.openRun != 0
  | 3 => k.wireRun != 0
  | 4 => k.thermal
  | 5 => k.backRun != 0
  | _ => false

/-- Clear the latches of a mask whose condition is absent (R383). -/
def State.clearLoops (s : State) (mask : Nat) : State :=
  s.forEach (allLoops.filter fun c => mask.testBit c) fun c t =>
    if t.loopPresent c then t else (t.putFld LOOP_FAULT ⟨4 * c, 4⟩ 0).loopDrive c

/-- LOOP_CLR: clear what MASK selects. -/
def State.loopClear (s : State) : State := (s.clearLoops (s.fld LOOP_CLR LOOP_CLR_MASK)).putFld LOOP_CLR LOOP_CLR_GO 0

/-- Bellows computes a load resistance (R377): V divided by I in source mode, V_ext less V divided by I in sink mode. -/
def State.loopLoad (s : State) (c : Nat) : State :=
  let k := s.loopCh c
  let i := s.fld (LOOP_MEAS c) LOOP_MEAS_IRB
  let v := toSigned 16 (s.fld (LOOP_MEAS c) LOOP_MEAS_VTERM)
  let ext := s.fld (LOOP_CFG c) LOOP_CFG_VEXT
  if LOOP_CFG_EN.get k.cfg = 1 ∧ 1000 ≤ i then
    let drop : Int := if LOOP_CFG_MODE.get k.cfg = 1 then (if ext = 0 then 24 else ext : Nat) * 1000 - v else v
    (s.putFld (LOOP_LOAD c) LOOP_LOAD_RLOAD (min 65535 (drop * 1000 / i).toNat)).putFld (LOOP_LOAD c) LOOP_LOAD_VALID 1
  else s

/-- Bellows loads the user calibration before FG2 is enabled (R374). -/
def State.loadLoopCal (s : State) : State :=
  if s.calib.loopOk then s.forEach allLoops fun c t => t.setReg (LOOP_UCAL c) (if h : c < 4 then t.calib.loop[c] else 0)
  else
    (((s.forEach allLoops fun c t => t.setReg (LOOP_UCAL c) 0).flag LOOP_STATUS LOOP_STATUS_UCALBAD).evState srcLoop
      (LOOP_UCAL 0 % 65536) 0 1)

end Sys2Proof.Machine
end

