-- ==== Sys2Proof/Machine/Mailbox.lean ====
section
/-!
DEFINITION. Mailboxes (19_mailboxes.md).
-/

namespace Sys2Proof.Machine

/-- Channel states of R428. -/
def mbxEmpty : Nat := 0
def mbxPosted : Nat := 1
def mbxTaken : Nat := 2
def mbxAcked : Nat := 3

/-- All mailbox channels. -/
def allMailboxes : List Nat := List.range 32

/-- The identity that the port of an initiator stamps (R425, R426); none for an initiator without one. -/
def identityOf : Initiator → Option Nat
  | .core c => some c.val
  | .lap n => some (0x10 + n.val)
  | .bellows => some 0x20
  | .dma _ => none

/-- State of a channel. -/
def State.mbxState (s : State) (c : Nat) : Nat := s.fld (MBX_CH_STAT c) MBX_CH_STAT_STATE
/-- Sender of a channel. -/
def State.mbxSender (s : State) (c : Nat) : Nat := s.fld (MBX_BIND c) MBX_BIND_SENDER
/-- Receiver of a channel. -/
def State.mbxReceiver (s : State) (c : Nat) : Nat := s.fld (MBX_BIND c) MBX_BIND_RECEIVER

/-- Whether an identity may send, and whether it may receive (R425). -/
def mayReceive (i : Nat) : Bool := decide (i < 12) || i == 0x20
def maySend (i : Nat) : Bool := mayReceive i || decide (0x10 ≤ i ∧ i < 0x20)

/-- Whether a channel is enabled with a binding that names no reserved identity (R425). -/
def State.mbxEnabled (s : State) (c : Nat) : Bool :=
  s.isSet (MBX_BIND c) MBX_BIND_EN && maySend (s.mbxSender c) && mayReceive (s.mbxReceiver c)

/-- Raise line MBX on a core endpoint, if its FRM_IRQENc enables it (R434). -/
def State.mbxLine (s : State) (i : Nat) : State :=
  if h : i < 12 then (if s.isSet (FRM_IRQEN i) ⟨5, 1⟩ then s.raiseLine 5 ⟨i, h⟩ else s) else s

/-- Set the state of a channel with its pending bits; a rising pending bit raises line MBX (R434, R437). -/
def State.setMbxState (s : State) (c st : Nat) : State :=
  let rx := st == mbxPosted && decide (s.mbxReceiver c < 12)
  let ack := st == mbxAcked && decide (s.mbxSender c < 12)
  let rxRise := rx && !(s.reg MBX_RXPEND).getLsbD c
  let ackRise := ack && !(s.reg MBX_ACKPEND).getLsbD c
  let t := s.putFld (MBX_CH_STAT c) MBX_CH_STAT_STATE st
  let t := (t.putFld MBX_RXPEND ⟨c, 1⟩ (bit rx)).putFld MBX_ACKPEND ⟨c, 1⟩ (bit ack)
  let t := if rxRise then t.mbxLine (s.mbxReceiver c) else t
  (if ackRise then t.mbxLine (s.mbxSender c) else t).copyItem 7 c

/-- A refused write or command: LASTERR, the count and the flag; a refused identity is also an event (R426, R428). -/
def State.mbxRefuse (s : State) (c code : Nat) : State :=
  let t := (((s.putFld (MBX_CH_STAT c) MBX_CH_STAT_LASTERR code).bump MBX_DENY).flag MBX_STATUS MBX_STATUS_DENY).copyItem 7 c
  if code = 1 then t.evRefused (srcOf MBX_STATUS) (MBX_CH_STAT c % 65536) 1 else t

/-- The refusal of a command of R428 by an endpoint in the states listed for it: none when it is performed. -/
def State.mbxCheck (s : State) (who : Option Nat) (c : Nat) (bySender : Bool) (states : List Nat) : Option Nat :=
  if s.standby then some 6
  else if who ≠ some (if bySender then s.mbxSender c else s.mbxReceiver c) then some 1
  else if !s.mbxEnabled c then some 4
  else if !states.contains (s.mbxState c) then some 2
  else none

/-- HDR.POST by the sender (R428). -/
def State.mbxPost (s : State) (who : Option Nat) (c len mtype : Nat) : State :=
  match s.mbxCheck who c true [mbxEmpty] with
  | some e => s.mbxRefuse c e
  | none =>
    if 12 < len then s.mbxRefuse c 3
    else
      let t := ((s.putFld (MBX_CH_HDR c) MBX_CH_HDR_LEN len).putFld (MBX_CH_HDR c) MBX_CH_HDR_MTYPE mtype).putFld
        (MBX_CH_HDR c) MBX_CH_HDR_REDELIVERED 0
      t.setMbxState c mbxPosted

/-- CMD.TAKE by the receiver. -/
def State.mbxTake (s : State) (who : Option Nat) (c : Nat) : State :=
  match s.mbxCheck who c false [mbxPosted] with
  | some e => s.mbxRefuse c e
  | none => s.setMbxState c mbxTaken

/-- CMD.ACK by the receiver, with a return code. -/
def State.mbxAck (s : State) (who : Option Nat) (c rcode : Nat) : State :=
  match s.mbxCheck who c false [mbxTaken] with
  | some e => s.mbxRefuse c e
  | none => (s.putFld (MBX_CH_ACK c) MBX_CH_ACK_RCODE rcode).setMbxState c mbxAcked

/-- CMD.DONE by the sender. -/
def State.mbxDone (s : State) (who : Option Nat) (c : Nat) : State :=
  match s.mbxCheck who c true [mbxAcked] with
  | some e => s.mbxRefuse c e
  | none => s.setMbxState c mbxEmpty

/-- CMD.WITHDRAW by the sender. -/
def State.mbxWithdraw (s : State) (who : Option Nat) (c : Nat) : State :=
  match s.mbxCheck who c true [mbxPosted] with
  | some e => s.mbxRefuse c e
  | none => s.setMbxState c mbxEmpty

/-- More than one GO bit: malformed, after the checks that come before it (R426 to R428, R437). -/
def State.mbxMalformed (s : State) (who : Option Nat) (c : Nat) : State :=
  if s.standby then s.mbxRefuse c 6
  else if who ≠ some (s.mbxSender c) ∧ who ≠ some (s.mbxReceiver c) then s.mbxRefuse c 1
  else if !s.mbxEnabled c then s.mbxRefuse c 4
  else s.mbxRefuse c 3

/-- A write of MBX_CHc_CMD: exactly one GO bit is a command, more than one is malformed (R428). -/
def State.mbxCmd (s : State) (who : Option Nat) (c : Nat) (v : Word) : State :=
  match bitsAt v.toNat 28 4 with
  | 0 => s
  | 8 => s.mbxTake who c
  | 4 => s.mbxAck who c (MBX_CH_CMD_RCODE.get v)
  | 2 => s.mbxDone who c
  | 1 => s.mbxWithdraw who c
  | _ => s.mbxMalformed who c

/-- A write of a data register, or of the header without POST: the sender only, while EMPTY (R428). -/
def State.mbxStore (s : State) (who : Option Nat) (c addr : Nat) (v mask : Word) : State :=
  if who ≠ some (s.mbxSender c) then s.mbxRefuse c 1
  else if s.mbxState c ≠ mbxEmpty then s.mbxRefuse c 2
  else (s.setReg addr ((s.reg addr &&& ~~~mask) ||| (v &&& mask))).copyItem 7 c

/-- A write of MBX_CHc_HDR (R428). -/
def State.mbxHdr (s : State) (who : Option Nat) (c : Nat) (v : Word) : State :=
  if v.getLsbD 31 then s.mbxPost who c (MBX_CH_HDR_LEN.get v) (MBX_CH_HDR_MTYPE.get v)
  else s.mbxStore who c (MBX_CH_HDR c) v 0x000FFFFF

/-- A write of MBX_CHc_STAT: the receiver clears SENDER_RESTARTED. -/
def State.mbxStat (s : State) (who : Option Nat) (c : Nat) (v : Word) : State :=
  if who ≠ some (s.mbxReceiver c) then s.mbxRefuse c 1
  else if v.getLsbD 31 then (s.putFld (MBX_CH_STAT c) MBX_CH_STAT_SENDER_RESTARTED 0).copyItem 7 c
  else s

/-- Whether an identity is a core, for the registers that only the runtime may write. -/
def isCoreId : Option Nat → Bool
  | some i => decide (i < 12)
  | none => false

/-- A write of MBX_BINDc (R427): sender and receiver change only while EMPTY, EN alone at any time. -/
def State.mbxBind (s : State) (who : Option Nat) (c : Nat) (v : Word) : State :=
  if !(isCoreId who || who == some 0x20) then s.mbxRefuse c 1
  else
    let same := MBX_BIND_SENDER.get v == s.mbxSender c && MBX_BIND_RECEIVER.get v == s.mbxReceiver c
    if !same && s.mbxState c != mbxEmpty then s.mbxRefuse c 5
    else (s.setReg (MBX_BIND c) (v &&& 0x8000FFFF)).copyItem 7 c

/-- Set SENDER_RESTARTED; a core receiver hears of it (R434). -/
def State.mbxSenderRestarted (s : State) (c : Nat) : State :=
  ((s.putFld (MBX_CH_STAT c) MBX_CH_STAT_SENDER_RESTARTED 1).mbxLine (s.mbxReceiver c)).copyItem 7 c

/-- A TAKEN channel returns to POSTED with REDELIVERED set (R431). -/
def State.mbxRedeliver (s : State) (c : Nat) : State :=
  if s.mbxState c = mbxTaken then (s.putFld (MBX_CH_HDR c) MBX_CH_HDR_REDELIVERED 1).setMbxState c mbxPosted else s

/-- An endpoint reset on one channel (R431). -/
def State.mbxReset (s : State) (i c : Nat) : State :=
  let t := if s.mbxReceiver c = i then s.mbxRedeliver c else s
  if s.mbxSender c = i then t.mbxSenderRestarted c else t

/-- An endpoint reset acts on every channel that names the endpoint (R430, R431). -/
def State.endpointReset (s : State) (i : Nat) : State := s.forEach allMailboxes fun c t => t.mbxReset i c

/-- Endpoint resets of the cores of a mask (MBX_EPRST). -/
def State.coresReset (s : State) (mask : Nat) : State :=
  s.forEach ((List.range 12).filter fun i => mask.testBit i) fun i t => t.endpointReset i

/-- At a takeover or hand-back tick both endpoints of every message ran on the other module (R437). -/
def State.mbxTakeover (s : State) : State :=
  s.forEach allMailboxes fun c t =>
    let u := t.mbxRedeliver c
    if u.isSet (MBX_BIND c) MBX_BIND_EN then u.mbxSenderRestarted c else u

/-- The bridge posts a journalled message with a LAP channel's identity (R436). -/
def State.mbxHostPost (s : State) (n c seq mtype : Nat) (words : List Word) : State :=
  let t := s.forEach (words.zipIdx) fun (w, i) u => u.setReg (MBX_CH_D0 c + 4 * (i % 12)) w
  (t.setReg (MBX_HSEQ c) (BitVec.ofNat 32 seq)).mbxPost (some (0x10 + n)) c words.length mtype

/-- MBX_POST (R428). -/
def execMbxPost (who : Initiator) (c : Fin 32) (len : BitVec 4) (mtype : BitVec 16) (s : State) :
    Host.Outcome State Fault Refusal := .next (s.mbxPost (identityOf who) c len.toNat mtype.toNat)

/-- MBX_TAKE (R428). -/
def execMbxTake (who : Initiator) (c : Fin 32) (s : State) : Host.Outcome State Fault Refusal :=
  .next (s.mbxTake (identityOf who) c)

/-- MBX_ACK (R428). -/
def execMbxAck (who : Initiator) (c : Fin 32) (rcode : BitVec 16) (s : State) : Host.Outcome State Fault Refusal :=
  .next (s.mbxAck (identityOf who) c rcode.toNat)

/-- MBX_DONE (R428). -/
def execMbxDone (who : Initiator) (c : Fin 32) (s : State) : Host.Outcome State Fault Refusal :=
  .next (s.mbxDone (identityOf who) c)

/-- MBX_WITHDRAW (R428). -/
def execMbxWithdraw (who : Initiator) (c : Fin 32) (s : State) : Host.Outcome State Fault Refusal :=
  .next (s.mbxWithdraw (identityOf who) c)

/-- MBX_BIND_WRITE (R427). -/
def execMbxBindWrite (who : Initiator) (c : Fin 32) (v : Word) (s : State) : Host.Outcome State Fault Refusal :=
  .next (s.mbxBind (identityOf who) c v)

/-- A write of MBX_EPRST: the runtime only (R430); the refusal is shown on no channel. -/
def State.mbxEprst (s : State) (who : Option Nat) (v : Word) : State :=
  if isCoreId who then
    let t := s.putFld MBX_EPRST MBX_EPRST_CORES (MBX_EPRST_CORES.get v)
    if v.getLsbD 31 then t.coresReset (MBX_EPRST_CORES.get v) else t
  else ((s.bump MBX_DENY).flag MBX_STATUS MBX_STATUS_DENY).evRefused (srcOf MBX_STATUS) (MBX_EPRST % 65536) 1

/-- MBX_EPRST (R430): GO is issued with CORES. -/
def execMbxEprst (who : Initiator) (cores : BitVec 12) (s : State) : Host.Outcome State Fault Refusal :=
  .next (s.mbxEprst (identityOf who) (0x80000000 ||| cores.setWidth 32))

end Sys2Proof.Machine
end

