-- ==== Sys2Proof/Machine/Tasks.lean ====
section
/-!
DEFINITION. Tasks and their placements: which cores a placement has, how a cycle ends without publication, epochs, and
how the runtime enters, pre-empts and resumes a cycle (06_tasks_frame.md, 07_lanes_anvil.md).
-/

namespace Sys2Proof.Machine

/-! ### Lanes, triads and placements (R170, R171, R172) -/

/-- Lane states of LANE_LSTATE.STATE. -/
def lsAvailable : Nat := 0
def lsFenced : Nat := 1
def lsQuench : Nat := 2
def lsRejoin : Nat := 3
def lsOut : Nat := 4

/-- Triad modes. -/
def modeTriad : Nat := 0
def modePair : Nat := 1
def modeFree : Nat := 2

/-- State of a lane. -/
def State.laneState (s : State) (l : Nat) : Nat := s.fld (LANE_LSTATE l) LANE_LSTATE_STATE
/-- Mode of a triad. -/
def State.triadMode (s : State) (t : Nat) : Nat := s.fld (LANE_TRIAD t) LANE_TRIAD_MODE
/-- Odd lane of a triad. -/
def State.triadOdd (s : State) (t : Nat) : Nat := s.fld (LANE_TRIAD t) LANE_TRIAD_ODD
/-- What the LANE block holds of a lane. -/
def State.lane (s : State) (l : Nat) : Lane := if h : l < 3 then s.lanes[l] else Lane.reset
/-- Change what the LANE block holds of a lane. -/
def State.modLane (s : State) (l : Nat) (g : Lane → Lane) : State :=
  if h : l < 3 then { s with lanes := s.lanes.set l (g s.lanes[l]) } else s
/-- What the LANE block holds of a triad. -/
def State.triad (s : State) (t : Nat) : Triad := if h : t < 4 then s.triads[t] else Triad.reset
/-- Change what the LANE block holds of a triad. -/
def State.modTriad (s : State) (t : Nat) (g : Triad → Triad) : State :=
  if h : t < 4 then { s with triads := s.triads.set t (g s.triads[t]) } else s

/-- The lanes. -/
def allLanes : List Nat := [0, 1, 2]
/-- The triads. -/
def allTriads : List Nat := [0, 1, 2, 3]

/-- Whether a lane takes part in the votes of a triad as far as its own state goes (R171). -/
def State.laneVotes (s : State) (l t : Nat) : Bool :=
  s.laneState l == lsAvailable || (s.laneState l == lsRejoin && (s.lane l).rejoined.contains t)

/-- The voting lanes of a triad (R170, R172). -/
def State.voters (s : State) (t : Nat) : List Nat :=
  if s.triadMode t = modeFree ∨ 2 < s.triadMode t then []
  else allLanes.filter fun l => (s.triadMode t == modeTriad || l != s.triadOdd t) && s.laneVotes l t

/-- Whether a triad offers its voted placement. -/
def State.votedOffered (s : State) (t : Nat) : Bool :=
  (s.triad t).lost.isNone && (s.voters t).length == (if s.triadMode t = modeTriad then 3 else 2)

/-- Whether a core offers a free placement (R170, R171, R190). -/
def State.freeOffered (s : State) (l t : Nat) : Bool :=
  decide (l < 3) &&
    (s.triadMode t == modeFree ||
      (s.triadMode t == modePair && s.triadOdd t == l && s.fld (LANE_TRIAD t) LANE_TRIAD_STATE != 3)) &&
    !(s.lane l).toCopy.contains t &&
    (s.laneState l == lsAvailable || (s.laneState l == lsRejoin && (s.lane l).freeOffered))

/-- The triad a placement belongs to. -/
def placeTriad (p : Nat) : Nat := p % 4
/-- The lane of a free placement. -/
def placeLane (p : Nat) : Nat := p / 4 % 4

/-- Whether a placement exists in the triad modes of this instant (R169). -/
def State.placeExists (s : State) (p : Nat) : Bool :=
  if placeVoted p then placeLane p == 0 && s.votedOffered (placeTriad p)
  else s.freeOffered (placeLane p) (placeTriad p)

/-- The lanes in which a placement runs a task. -/
def State.placeLanes (s : State) (p : Nat) : List Nat :=
  if placeVoted p then s.voters (placeTriad p) else if placeLane p < 3 then [placeLane p] else []

/-- The cores of a placement. -/
def State.placeCores (s : State) (p : Nat) : List (Fin 12) := (s.placeLanes p).map fun l => coreAt l (placeTriad p)

/-- All task numbers. -/
def allTasks : List Nat := List.range 64

/-- The frame count of the present frame. -/
def State.frameCount (s : State) : Nat := s.regPair FRM_FCOUNTL FRM_FCOUNTH

/-- The placement in which a task runs now: that of FRM_TCFG.PLACE until its first release. -/
def State.placeNow (s : State) (n : Nat) : Nat :=
  if (s.task n).placed then (s.task n).place else s.fld (FRM_TCFG n) FRM_TCFG_PLACE

/-- Tasks whose cycle exists on a placement that satisfies a test. -/
def State.tasksWith (s : State) (p : Nat → Cycle → Bool) : List Nat :=
  allTasks.filter fun n => match (s.task n).cycle with
    | some c => p n c
    | none => false

/-- Whether a task has an open or carried cycle in some lane (R154, R193). -/
def State.cycleOpen (s : State) (n : Nat) : Bool :=
  match (s.task n).cycle with
  | some c => !c.openOn.isEmpty || c.carried
  | none => false

/-! ### The release count (R158) -/

/-- The largest value in the ring: the count of the last release. -/
def Task.lastRelease (k : Task) : Nat := k.relRing.toList.foldl max 0

/-- Write the next release count into the next word of the ring. -/
def Task.nextRelease (k : Task) : Task :=
  let r := k.lastRelease + 1
  { k with relRing := k.relRing.set (r % 8) r (Nat.mod_lt _ (by decide)) }

/-! ### Epochs (R192, R193) -/

/-- The open epoch of a task, as both Anvils hold it. -/
def State.openEpoch (s : State) (n : Nat) : Nat := s.fld (ANX_EPOCH n) ANX_EPOCH_OPEN
/-- The closed epoch of a task. -/
def State.closedEpoch (s : State) (n : Nat) : Nat := s.fld (ANX_EPOCH n) ANX_EPOCH_CLOSED

/-- Set both epochs of a task in both Anvils. -/
def State.setEpochs (s : State) (n opn cls : Nat) : State :=
  let v := BitVec.ofNat 32 (opn % 65536 + cls % 65536 * 65536)
  (s.setReg (ANX_EPOCH n) v).setReg (ANY_EPOCH n) v

/-- A new placement epoch: the open value becomes the closed one and the new open value is one more (R192). Records of
the vote in progress belong to the closed epoch from here on (R194). -/
def State.advanceEpoch (s : State) (n : Nat) : State :=
  (s.setEpochs n (s.openEpoch n + 1) (s.openEpoch n)).modTask n fun k =>
    { k with switchRelease := k.lastRelease, oldVote := k.vote, vote := none }

/-- Count in both Anvils. -/
def State.bumpAnvils (s : State) (x y k : Nat) : State := (s.bumpBy x k).bumpBy y k

/-- Set a flag in both Anvils' status. -/
def State.flagAnvils (s : State) (f : Field) : State := (s.flag ANX_STATUS f).flag ANY_STATUS f

/-- The records a vote still holds: those of a vote that has been judged are gone. -/
def voteRecords : Option Vote → Nat
  | some v => if v.judged then 0 else v.records.length
  | none => 0

/-- Both epochs become 0 and every record still held is discarded and counted (R193). -/
def State.resetEpochs (s : State) (n : Nat) : State :=
  let k := s.task n
  let dropped := voteRecords k.vote + voteRecords k.oldVote
  ((s.setEpochs n 0 0).bumpAnvils ANX_STALE_CNT ANY_STALE_CNT dropped).modTask n fun k =>
    { k with vote := none, oldVote := none, switchRelease := 0, closedRelease := k.lastRelease }

/-! ### Ending a cycle -/

/-- The runtime has closed a cycle on a core: no cycle is open, the core is at K with its clocks gated. -/
def Core.idle (k : Core) : Core :=
  { k with ckstate := 0, taskid := 0x3F, status := k.status ||| 1,
           run := match k.run with
             | .running => .gated
             | r => r }

/-- Idle every core that runs a task's cycle now. -/
def State.idleCores (s : State) (n : Nat) (cs : List (Fin 12)) : State :=
  s.forEach cs fun c t => if t.cores[c].taskid = BitVec.ofNat 64 n then t.modCore c Core.idle else t

/-- The runtime closes a cycle in every lane: sr.CKSTATE.OPEN is cleared and the queued TEVENT records are discarded
(R162). -/
def State.closeCycle (s : State) (n : Nat) : State :=
  match (s.task n).cycle with
  | none => s
  | some c =>
    let s := s.idleCores n c.openOn
    let s := (s.putFld (FRM_TSTAT n) FRM_TSTAT_OPEN 0).putFld (FRM_TSTAT n) FRM_TSTAT_CARRY 0
    s.modTask n fun k => { k with cycle := none, tevents := [], saved := [] }

/-- The cores on which a cycle is open change; FRM_TSTATn.OPEN shows whether there is one. A published cycle that is open
nowhere has ended. -/
def State.setOpenOn (s : State) (n : Nat) (cs : List (Fin 12)) : State :=
  match (s.task n).cycle with
  | none => s
  | some c =>
    let s := s.putFld (FRM_TSTAT n) FRM_TSTAT_OPEN (bit !cs.isEmpty)
    if cs.isEmpty && c.published then
      (s.putFld (FRM_TSTAT n) FRM_TSTAT_CARRY 0).modTask n fun k => { k with cycle := none, saved := [] }
    else s.modTask n fun k => { k with cycle := some { c with openOn := cs } }

/-- A task enters the SAFE_STOP state (R166): substitutes, and no release until RESTART. -/
def State.safeStop (s : State) (n : Nat) : State := (s.substitute n).flag (FRM_TSTAT n) FRM_TSTAT_STOPPED

/-- Overrun policies of FRM_TCFG.POLICY. -/
def polHoldOne : Nat := 0
def polSubstitute : Nat := 1
def polSafeStop : Nat := 2

/-- The outputs of a cycle that overran, without carry (R163). -/
def State.overrunOutputs (s : State) (n policy : Nat) : State :=
  if policy = polHoldOne then s.holdOutputs n
  else if policy = polSafeStop then s.safeStop n
  else s.substitute n

/-- The outputs of a task fault (R163). -/
def State.faultOutputs (s : State) (n policy : Nat) : State :=
  if policy = polSafeStop then s.safeStop n else s.substitute n

/-- End an open cycle without publication: the overrun column of R163 without carry (R184). -/
def State.endUnpublished (s : State) (n : Nat) : State :=
  match (s.task n).cycle with
  | none => s
  | some c =>
    let t := s.closeCycle n
    if c.published then t else t.overrunOutputs n c.policy

/-- After an overrun or a task fault the triad of the task runs at BLW_OPCAP.EFF for 1,024 frames (R458). -/
def State.fullSpeed (s : State) (n : Nat) : State :=
  s.modTriad (placeTriad ((s.task n).cycle.elim (s.task n).place (·.place))) fun k => { k with high := 1024 }

/-- A task fault is counted, flagged and recorded (R165). A task call records its own event and no other (R109). -/
def State.countTaskFault (s : State) (n : Nat) (cause tval : DWord) (call : Option (Nat × Nat)) (release epoch : Nat) :
    State :=
  let t := (((s.fullSpeed n).flag (FRM_TSTAT n) FRM_TSTAT_FAULT).flag FRM_STATUS FRM_STATUS_FAULT).bump FRM_FLTCNT
  match call with
  | some (code, number) => t.event (0xC0 + n) code sevFault [release % 0x100000000, epoch, number]
  | none => t.event 0x01 0x0102 sevFault [n, cause.toNat % 0x100000000, tval.toNat % 0x100000000]

/-- A task fault decides the outcome of a task's cycle: its outputs follow R163 and its events are discarded. A lane that
has not reported yet goes on until it does, or until its skew window closes (R162, R181). -/
def State.endFaulted (s : State) (n : Nat) : State :=
  match (s.task n).cycle with
  | none => s
  | some c =>
    let s := (s.faultOutputs n c.policy).modTask n fun k =>
      { k with cycle := some { c with published := true, carried := false }, tevents := [] }
    (s.putFld (FRM_TSTAT n) FRM_TSTAT_CARRY 0).setOpenOn n c.openOn

/-! ### Starting a task (R158, R204 step 5) -/

/-- A task is prepared for a start: its voted copy is written from the substitute image, its epochs become 0 and its next
release is a first cycle. Whether the cycle before overran is kept for that release (R164). -/
def State.beginTask (s : State) (n : Nat) : State :=
  (((s.closeCycle n).initVoted n).resetEpochs n).modTask n fun k =>
    { k with first := true, placed := false, placeCopy := 0 }

/-- A task is started by a restart or by RESTART: it leaves the SAFE_STOP state as well (R166). -/
def State.startTask (s : State) (n : Nat) : State := (s.beginTask n).putFld (FRM_TSTAT n) FRM_TSTAT_STOPPED 0

/-! ### Dispatch (R159, R160) -/

/-- Read the slice table at a physical address: up to 32 slices, and an entry with COUNT 0 that ends the table, 33 entries
in all; none when a word of it holds an uncorrectable error (R120). A 33rd entry whose COUNT is not 0 is taken as a slice (DESIGN
CHOICE, log entry 157). -/
def State.readSlices (s : State) : Nat → Nat → Option (List Slice)
  | 0, _ => some []
  | k + 1, pa =>
    if s.rangeUe pa 16 then none
    else
      let w0 := s.readLe pa 4
      let w1 := s.readLe (pa + 4) 4
      let w2 := s.readLe (pa + 8) 4
      if bitsAt w1 0 18 = 0 then some []
      else (s.readSlices k (pa + 16)).map fun l =>
        { start := bitsAt w0 0 17, count := bitsAt w1 0 18, analog := w0.testBit 17, output := w0.testBit 18,
          area := bitsAt w2 0 19 } :: l

/-- The first word of a range that holds an uncorrectable error. -/
def State.firstUe (s : State) (pa n : Nat) : Nat :=
  (((List.range ((pa + n + 7) / 8 - pa / 8)).map fun i => pa / 8 * 8 + 8 * i).find? s.hasUe).getD pa

/-- The address of the first table word that a failed load of a slice table met. -/
def State.sliceUe (s : State) : Nat → Nat → Nat
  | 0, pa => pa
  | k + 1, pa =>
    if s.rangeUe pa 16 then s.firstUe pa 16
    else if bitsAt (s.readLe (pa + 4) 4) 0 18 = 0 then pa
    else s.sliceUe k (pa + 16)

/-- The bytes of a slice table (R120). -/
def sliceTable (l : List Slice) : List Byte :=
  (l.flatMap fun x =>
    leBytes 4 (x.start % 2 ^ 17 + bit x.analog * 2 ^ 17 + bit x.output * 2 ^ 18) ++ leBytes 4 (x.count % 2 ^ 18) ++
      leBytes 4 (x.area % 2 ^ 19) ++ leBytes 4 0) ++ leBytes 16 0

/-- Before a release the runtime reloads a slice table that could not be read (R120). -/
def State.reloadSlices (s : State) (n : Nat) : State :=
  match s.taskProg n with
  | none => s
  | some tp =>
    let a := tp.isliceAddr / 16 * 16
    if (s.readSlices 33 a).isNone then s.writeRun a (sliceTable tp.slices) else s

/-- The bytes of a record as R178 compares them, with byte 1 and bytes 56 to 59 as 0. -/
def Record.bytes (r : Record) : List Byte :=
  leBytes 1 (r.task % 64 + (if r.fault then 128 else 0)) ++ leBytes 1 0 ++ leBytes 2 r.epoch ++ leBytes 4 r.image.length ++
    leBytes 8 r.release ++ leBytes 16 r.sig.toNat ++ leBytes 8 r.cause.toNat ++ leBytes 8 r.tval.toNat ++ leBytes 16 0 ++
    r.image

/-- The CRC of a record: over bytes 0 to 55, with byte 1 as 0, and the image (R177, R197). -/
def Record.checksum (r : Record) : Word := BitVec.ofNat 32 (crc32 (r.bytes.take 56 ++ r.image))

/-- A core sends a record to both Anvils; its checkpoint unit computes the CRC (R177). -/
def State.sendRecord (s : State) (c : Fin 12) (r : Record) : State :=
  { s with anvils := { s.anvils with flight := s.anvils.flight ++ [(c, { r with crc := r.checksum })] } }

/-- The cycle of a core whose slice table could not be read ends as a task fault (R120, R165). -/
def State.entryFault (s : State) (c : Fin 12) (n : Nat) (cy : Cycle) (bad : Nat) : State :=
  let r : Record :=
    { task := n, fault := true, lane := laneOf c, epoch := cy.locked.pepoch.toNat % 65536,
      release := cy.locked.frelease.toNat, sig := 0, cause := 0x0E, tval := BitVec.ofNat 64 bad, image := [], crc := 0, okX := true,
      okY := true, onTime := !cy.late, call := none }
  let s := (s.reportUe bad).modCore c fun k => { k with slices := none }
  let s := s.modTask n fun t => { t with cycle := some { cy with entered := c :: cy.entered } }
  (s.sendRecord c r).setOpenOn n (cy.openOn.filter (· != c))

/-- What puts a cycle at the head of a ready list in a frame: 0 for a cycle carried in this frame (R164), 1 for an error task
(R277), 2 otherwise. -/
def Cycle.rank (x : Cycle) (frame : Nat) : Nat := if x.carried && x.frame == frame then 0 else if x.head then 1 else 2

/-- The order of a ready list (R159): rank, then priority number, then task number. -/
def Cycle.before (frame : Nat) (x : Cycle) (a : Nat) (y : Cycle) (b : Nat) : Bool :=
  if x.rank frame = y.rank frame then decide (x.prio < y.prio) || (x.prio == y.prio && decide (a ≤ b))
  else decide (x.rank frame < y.rank frame)

/-- The released tasks and carried cycles of a core, in the order of its ready list (R159). -/
def State.readyList (s : State) (c : Fin 12) : List Nat :=
  (s.tasksWith fun _ k => k.openOn.contains c).mergeSort fun a b =>
    match (s.task a).cycle, (s.task b).cycle with
    | some x, some y => x.before s.frameCount a y b
    | _, _ => true

/-- Whether a reader waits for the end of an error task's cycle (R277). -/
def State.heldBack (s : State) (cy : Cycle) : Bool :=
  cy.hold.any fun e => (s.task e).cycle.elim false fun k => k.frame == cy.frame && !k.published && !k.carried

/-- Load the frame-locked registers of a cycle (R102, R158). -/
def Core.lockedFrom (k : Core) (l : Locked) : Core :=
  { k with ftime := l.ftime, felapsed := l.felapsed, firstcycle := l.firstcycle, frelease := l.frelease,
           fperiod := l.fperiod, pepoch := l.pepoch, tstate := l.tstate }

/-- The runtime enters a cycle on a core. What the general and floating-point registers hold then is free. -/
def Core.enter (k : Core) (n lane : Nat) (tp : TaskProg) (l : Locked) (slices : Option (List Slice)) : Core :=
  let r := l.frelease.toNat
  { k.lockedFrom l with
    h := Vector.ofFn fun i => Config.entryH n r i.val
    f := Vector.ofFn fun i => Config.entryF n r i.val
    fcsr := (Config.entryFcsr n r).setWidth 64
    pc := tp.entry
    status := 2
    ptbase := BitVec.ofNat 64 (tp.ptbase.getD lane 0)
    asid := BitVec.ofNat 64 (n + 1)
    xlate := 1
    islice := BitVec.ofNat 64 (tp.isliceAddr / 16 * 16)
    slices := slices
    taskid := BitVec.ofNat 64 n
    cksigl := 0xFFFFFFFFFFFFFFFF
    cksigh := 0xFFFFFFFFFFFFFFFF
    ckstate := 1
    run := .running }

/-- Restore a pre-empted cycle on a core; what the core itself counts and holds pending stays. -/
def Core.resume (k saved : Core) : Core :=
  { saved with lines := k.lines, corecyc := k.corecyc, instret := k.instret, tlb := k.tlb, run := .running }

/-- Whether a core executes at all. -/
def Core.alive (k : Core) : Bool :=
  match k.run with
  | .running => true
  | .gated => true
  | _ => false

/-- Whether a core is in the handler of an interrupt that it has taken. -/
def Core.inHandler (k : Core) : Bool := k.td && k.tcause.getLsbD 31

/-- A core with nothing to do gates its clocks (R27, R161); one that handles an interrupt has its work still to do. -/
def Core.gate (k : Core) : Core := { k with run := if k.run = .running && !k.inHandler then .gated else k.run }

/-- The head of a core's ready list runs: the runtime enters its cycle, or resumes it, once its copy is complete and no
other cycle is open on the core. A core whose ready list is empty gates its clocks (R27). -/
def State.dispatch (s : State) (c : Fin 12) : State :=
  let k := s.cores[c]
  if !k.alive || k.isOpen then s
  else match (s.readyList c).head? with
    | none => s.modCore c Core.gate
    | some n =>
      match (s.task n).cycle, s.taskProg n with
      | some cy, some tp =>
        if !cy.copied || s.heldBack cy then s
        else match (s.task n).saved.find? fun e => e.1 == c with
          | some e =>
            (s.modCore c fun k => (k.resume e.2).lockedFrom cy.locked).modTask n fun t =>
              { t with saved := t.saved.filter fun e => e.1 != c }
          | none =>
            if cy.entered.contains c then s
            else
              let a := tp.isliceAddr / 16 * 16
              match s.readSlices 33 a with
              | none => s.entryFault c n cy (s.sliceUe 33 a)
              | some sl =>
                (s.modCore c fun k => k.enter n (laneOf c) tp cy.locked (some sl)).modTask n fun t =>
                  { t with cycle := some { cy with entered := c :: cy.entered } }
      | _, _ => s

/-- Dispatch on every core. -/
def State.dispatchAll (s : State) : State := s.forEach allCores fun c t => t.dispatch c

/-- At a tick, a released task ahead of a carried cycle pre-empts it: the core state is saved (R159, R145). -/
def State.preempt (s : State) (c : Fin 12) : State :=
  let k := s.cores[c]
  if !k.alive || !k.isOpen then s
  else match (s.readyList c).head? with
    | none => s
    | some n =>
      if k.taskid = BitVec.ofNat 64 n then s
      else (s.modTask k.taskid.toNat fun t => { t with saved := (c, k) :: t.saved }).modCore c Core.idle

/-- FRM_TSTATn.PMOVE is 1 from a write of PLACE until the hand-over (R168). -/
def State.showMove (s : State) (n : Nat) : State :=
  s.putFld (FRM_TSTAT n) FRM_TSTAT_PMOVE (bit ((s.task n).placed && s.fld (FRM_TCFG n) FRM_TCFG_PLACE != (s.task n).place))

end Sys2Proof.Machine
end

