-- ==== Sys2Proof/Machine/Translate.lean ====
section
/-!
DEFINITION. Address translation: table entries, walks, the translation cache of a core, and what a region accepts
(R77, R130 to R137), shared by the cores and the IOMMU (R138).
-/

namespace Sys2Proof.Machine

/-- What an access does. -/
inductive AccessKind where
  | fetch
  | load
  | store
  | atomic
  deriving DecidableEq, Repr

/-- Cause code of the translation fault of an access (R68). -/
def AccessKind.transCode : AccessKind → Nat
  | .fetch => 0x02
  | .load => 0x05
  | .store => 0x06
  | .atomic => 0x06

/-- Cause code of the access fault of an access (R68). -/
def AccessKind.accessCode : AccessKind → Nat
  | .fetch => 0x03
  | .load => 0x07
  | .store => 0x08
  | .atomic => 0x08

/-! ### Table entries (R131, R132) -/

/-- Bits a leaf of a level leaves to the virtual address (R130). -/
def pageBits (level : Nat) : Nat := 39 - 9 * level

/-- The physical address a leaf maps a virtual address to. -/
def leafAddr (level leaf va : Nat) : Nat := bitsAt leaf 12 28 * 4096 + va % 2 ^ pageBits level

/-- Whether ATTR agrees with the region of the address. An address outside every region has none to agree with. -/
def attrAgrees (attr pa : Nat) : Bool :=
  match regionOf pa with
  | .regs => attr == 2
  | .image => attr == 1
  | .mram => attr == 1
  | .none => attr != 3
  | _ => attr == 0

/-- Whether an entry is malformed (R132). The region of a leaf is that of the address accessed (DEDUCED, log entry 20).
An IOMMU context ignores T and X and requires G to be 0 (R138). -/
def pteMalformed (iommu : Bool) (level e va : Nat) : Bool :=
  let t := e.testBit 5 && !iommu
  let x := e.testBit 4 && !iommu
  let g := e.testBit 6
  bitsAt e 9 3 != 0 || bitsAt e 40 24 != 0 ||
    (if e.testBit 1 then
      bitsAt e 12 (pageBits level - 12) != 0 || (e.testBit 3 && !e.testBit 2) || (e.testBit 3 && x) ||
        (g && (t || iommu)) || !attrAgrees (bitsAt e 7 2) (leafAddr level e va)
    else level == 3 || e.testBit 2 || e.testBit 3 || x || t || g || bitsAt e 7 2 != 0)

/-! ### Walks (R130) -/

/-- What a walk finds. -/
inductive Walk where
  | page (level leaf : Nat)
  /-- V 0, or a malformed entry at an address. -/
  | fault (malformed : Option Nat)
  /-- An uncorrectable error on reading an entry. -/
  | ue (pa : Nat)
  deriving DecidableEq, Repr

/-- Walk the tables from a table address through levels. -/
def State.walk (s : State) (iommu : Bool) (va : Nat) : List Nat → Nat → Walk
  | [], _ => .fault none
  | level :: rest, table =>
    let a := table + 8 * bitsAt va (pageBits level) 9
    if s.hasUe a then .ue a
    else
      let e := (s.readWord a).toNat
      if !e.testBit 0 then .fault none
      else if pteMalformed iommu level e va then .fault (some a)
      else if e.testBit 1 then .page level e
      else s.walk iommu va rest (bitsAt e 12 28 * 4096)

/-- The outcome of a translation. -/
inductive Xlate where
  | page (pa leaf : Nat)
  | fault
  | machineCheck
  deriving DecidableEq, Repr

/-- A walk's outcome with its errors recorded: a malformed entry records an event (R132). -/
def State.walked (s : State) (w : Walk) (va initiator : Nat) : State × Xlate :=
  match w with
  | .page level leaf => (s, .page (leafAddr level leaf va) leaf)
  | .fault none => (s, .fault)
  | .fault (some a) => (s.evAccess (srcOf MMU_STATUS) a initiator, .fault)
  | .ue a => (s.reportUe a, .machineCheck)

/-! ### The translation cache (R133) -/

/-- Whether a cached leaf translates an address for an ASID. -/
def TlbEntry.covers (e : TlbEntry) (asid va : Nat) : Bool :=
  (e.asid == asid || e.leaf.getLsbD 6) && e.vpn == va >>> pageBits e.level

/-- Keep a leaf; a full cache of `cap` entries replaces one that the manual does not name. -/
def tlbInsert (cap : Nat) (l : List TlbEntry) (e : TlbEntry) (pick : Nat) : List TlbEntry :=
  if l.length < cap then l ++ [e] else l.set (Config.tlbVictim pick % cap) e

/-- A leaf with every permission, as physical addressing at K has it. -/
def physLeaf : Nat := 0x3F

/-- Walk for a core and keep the leaf. -/
def State.coreWalk (s : State) (c : Fin 12) (va : Nat) : State × Xlate :=
  let k := s.cores[c]
  let w := s.walk false va [1, 2, 3] (bitsAt k.ptbase.toNat 12 28 * 4096)
  let s := match w with
    | .page level leaf =>
      (s.modCore c fun k =>
        { k with tlb := tlbInsert 64 k.tlb { asid := k.asid.toNat, level := level, vpn := va >>> pageBits level,
                                             leaf := BitVec.ofNat 64 leaf } s.free }).tickFree
    | _ => s
  s.walked w va c.val

/-- Translate an address for a core (R130, R134, R137). -/
def State.translate (s : State) (c : Fin 12) (va : DWord) : State × Xlate :=
  let k := s.cores[c]
  let v := va.toNat
  if !k.xlate.getLsbD 0 then (if k.atK then (s, .page v physLeaf) else (s, .fault))
  else if 2 ^ 39 ≤ v then (s, .fault)
  else match k.tlb.find? fun e => e.covers k.asid.toNat v with
    | none => s.coreWalk c v
    | some e =>
      if Config.tlbHit s.free then (s.tickFree, .page (leafAddr e.level e.leaf.toNat v) e.leaf.toNat)
      else s.tickFree.coreWalk c v

/-! ### Permissions (R77, R80, R131) -/

/-- Whether a region accepts an access (R77). -/
def regionTakes (kind : AccessKind) (atK : Bool) (r : Region) : Bool :=
  match kind with
  | .fetch => (r == .bootRom && atK) || r == .flash || r == .dram
  | .load => r != .none
  | .store => r == .image || r == .mram || r == .regs || r == .dram
  | .atomic => r == .image || r == .dram

/-- Whether a leaf permits an access at a level. -/
def leafPermits (kind : AccessKind) (atK : Bool) (leaf : Nat) : Bool :=
  (atK || leaf.testBit 5) &&
    (match kind with
      | .fetch => leaf.testBit 4
      | .load => leaf.testBit 2
      | .store => leaf.testBit 3
      | .atomic => leaf.testBit 3)

/-- An address in the published output image. -/
def inPublished (pa : Nat) : Bool := decide (0x10100000 ≤ pa) && decide (pa < 0x10140000)

/-- Whether an access writes. -/
def AccessKind.writes : AccessKind → Bool
  | .store => true
  | .atomic => true
  | _ => false

/-- Whether an access is permitted. A task writes nothing into the published output image; the runtime, at K, is one of its writers
(R18; DEDUCED, log entry 136). -/
def permitted (kind : AccessKind) (atK : Bool) (pa leaf : Nat) : Bool :=
  leafPermits kind atK leaf && regionTakes kind atK (regionOf pa) && !(kind.writes && !atK && inPublished pa)

/-- What checking the address of a data access gives. -/
inductive Found where
  | at (pa : Nat)
  | trap (code : Nat)
  deriving DecidableEq, Repr

/-- A core runs a task of a voted placement at T. -/
def State.votedAtT (s : State) (c : Fin 12) : Bool :=
  !s.cores[c].atK && (s.tasks.toList[(s.cores[c].taskid.toNat % 64)]?).elim false fun k => placeVoted k.place

/-- An access to the register space: R32, the page and, for a task of a voted placement, R37 may forbid it, which is an access fault
with the event of R33. -/
def State.regsAccess (s : State) (c : Fin 12) (kind : AccessKind) (pa size : Nat) (perm lwsw : Bool) : State × Found :=
  if perm && lwsw && size == 4 && pa % 4 == 0 && !s.votedAtT c then (s, .at pa)
  else (s.evAccess (srcOf (pa - 0x40000000)) pa c.val, .trap kind.accessCode)

/-- Check the address of a data access of a core, in the order of R69: translation, alignment, access. `lwsw` tells
whether the instruction is LW or SW. R69 names the load machine check last and says nothing of one that the walk meets; that one
comes with the translation, before alignment (DESIGN CHOICE, log entry 138). -/
def State.dataAddr (s : State) (c : Fin 12) (kind : AccessKind) (va : DWord) (size : Nat) (lwsw : Bool) : State × Found :=
  let atK := s.cores[c].atK
  match s.translate c va with
  | (s, .fault) => (s, .trap kind.transCode)
  | (s, .machineCheck) => (s, .trap 0x0E)
  | (s, .page pa leaf) =>
    if regionOf pa = .regs then
      s.regsAccess c kind pa size (leafPermits kind atK leaf) lwsw
    else if va.toNat % size ≠ 0 then (s, .trap 0x09)
    else if permitted kind atK pa leaf then (s, .at pa)
    else (s, .trap kind.accessCode)

/-! ### The IOMMU (R138) -/

/-- What a walk of a context's tables finds. -/
def State.ctxTables (s : State) (ctx va : Nat) : Walk :=
  s.walk true va [1, 2, 3] (s.fld (MMU_CTX_BASE ctx) MMU_CTX_BASE_PPN * 4096)

/-- Walk for a context and keep the leaf. -/
def State.ctxWalk (s : State) (ctx va : Nat) : State × Xlate :=
  let w := s.ctxTables ctx va
  let s := match w with
    | .page level leaf =>
      let e : TlbEntry := { asid := ctx, level := level, vpn := va >>> pageBits level, leaf := BitVec.ofNat 64 leaf }
      { s with dma := { s.dma with tlb := s.dma.tlb ++ [e] } }
    | _ => s
  s.walked w va (64 + ctx)

/-- Translate an address through a context; contexts 0 to 17 exist. A cached leaf may be used or not; where the tables still give
the same leaf, both come to the same. -/
def State.ctxTranslate (s : State) (ctx va : Nat) : State × Xlate :=
  if 17 < ctx ∨ !s.isSet (MMU_CTX_BASE ctx) MMU_CTX_BASE_EN ∨ 2 ^ 39 ≤ va then (s, .fault)
  else match s.dma.tlb.find? fun e => e.asid == ctx && e.vpn == va >>> pageBits e.level with
    | none => s.ctxWalk ctx va
    | some e =>
      let cached : Xlate := .page (leafAddr e.level e.leaf.toNat va) e.leaf.toNat
      if s.ctxTables ctx va = .page e.level e.leaf.toNat then (s, cached)
      else if Config.tlbHit s.free then (s.tickFree, cached)
      else s.tickFree.ctxWalk ctx va

/-- MMU_IOINV.INV: discard cached translations of one context or of all. -/
def State.iommuInvalidate (s : State) (all : Bool) (ctx : Nat) : State :=
  { s with dma := { s.dma with tlb := if all then [] else s.dma.tlb.filter fun e => e.asid != ctx } }

/-- Whether a page and a region permit an access of a context at physical level. -/
def ctxPermits (kind : AccessKind) (pa leaf : Nat) : Bool := permitted kind true pa leaf

/-- The contexts of the bridge and of the coupler. -/
def bridgeCtx : Nat := 16
def couplerCtx : Nat := 17

/-- Where the bridge or the coupler finds a location of memory through its context; none is an access fault. The manual gives these
accesses no virtual address: each names its location by the physical address, and the context translates that (DESIGN CHOICE, log
entry 137). -/
def State.unitAddr (s : State) (ctx : Nat) (kind : AccessKind) (pa : Nat) : State × Option Nat :=
  match s.ctxTranslate ctx pa with
  | (t, .page at' leaf) => (t, if ctxPermits kind at' leaf then some at' else none)
  | (t, _) => (t, none)

/-- A run of bytes cut where pages of 4 KB meet: address and bytes. -/
def pageParts (pa : Nat) (bs : List Byte) : List (Nat × List Byte) :=
  (List.range ((pa % 4096 + bs.length + 4095) / 4096)).map fun i =>
    let lo := max pa (pa / 4096 * 4096 + 4096 * i)
    (lo, (bs.drop (lo - pa)).take (pa / 4096 * 4096 + 4096 * (i + 1) - lo))

/-- A unit writes a run of bytes through its context; what cannot be translated is not written. -/
def State.unitWrite (s : State) (ctx pa : Nat) (bs : List Byte) : State :=
  s.forEach (pageParts pa bs) fun p t =>
    match t.unitAddr ctx .store p.1 with
    | (u, some a) => u.writeRun a p.2
    | (u, none) => u

/-! ### What the memory checks find at an access (R13, R112) -/

/-- Whether a region is cached in L1 and L2. -/
def cacheable (r : Region) : Bool := r == .bootRom || r == .flash || r == .dram

/-- A dirty line of L2 is lost: what its 64 bytes hold afterwards is free (R112). -/
def State.loseLine (s : State) (pa : Nat) : State :=
  s.forEach (List.range 8) fun i t => (t.writeWord (pa / 64 * 64 + 8 * i) (Config.lostWord t.free)).tickFree

/-- What the codes of an access find. The answer tells whether it is a machine check. -/
def State.eccCheck (s : State) (pa : Nat) (ecc : Ecc) : State × Bool :=
  let r := regionOf pa
  let ue (t : State) : State × Bool := if t.hasUe pa then (t.reportUe pa, true) else (t, false)
  match ecc with
  | .corrected => ue (s.countCe pa)
  | .uncorrectable => if r = .bootRom ∨ r = .none then (s, false) else ue (s.markUe pa)
  | .l2Corrected => ue (if cacheable r then s.bump MMU_L2_CE else s)
  | .l2Clean => ue (if cacheable r then s.reportL2Ue pa else s)
  | .l2Dirty => if r = .dram then ((s.reportL2Ue pa).loseLine pa, true) else ue s
  | _ => ue s

/-- What parity and the codes find at an access of a core. L1 errors are counted; a line that fails again on its refetch
is a machine check. -/
def State.memCheck (s : State) (c : Fin 12) (pa : Nat) (l1 : Parity) (ecc : Ecc) : State × Bool :=
  if !cacheable (regionOf pa) then s.eccCheck pa ecc
  else match l1 with
    | .ok => s.eccCheck pa ecc
    | .once => (s.bump (LANE_L1ERR c.val)).eccCheck pa ecc
    | .twice => (s.bumpBy (LANE_L1ERR c.val) 2, true)

/-- Cached translations of tasks are flushed on every core (R134). -/
def State.flushTasks (s : State) (ns : List Nat) : State :=
  s.forEach allCores fun c t => t.modCore c fun k => { k with tlb := k.tlb.filter fun e => !ns.contains (e.asid - 1) || e.asid == 0 }

end Sys2Proof.Machine
end

