-- ==== Sys2Proof/Machine/Lanes.lean ====
section
/-!
DEFINITION. The LANE block: mode requests and hand-over, fences, module SAFE failure, quench tests and state copies
(R170 to R191).
-/

namespace Sys2Proof.Machine

/-- Source number of the LANE block. -/
def srcLane : Nat := srcOf LANE_STATUS
/-- Interrupt lines of R167. -/
def lineTick : Nat := 0
def lineDeadline : Nat := 1
def lineAnvil : Nat := 2
def lineLane : Nat := 3
def lineDma : Nat := 4
def lineMbx : Nat := 5
def lineBrg : Nat := 6
def lineRing : Nat := 7
def lineCpl : Nat := 8
def lineLio : Nat := 9
def lineBlw : Nat := 10

/-- The cores of a lane. -/
def laneCores (l : Nat) : List (Fin 12) := allCores.filter fun c => laneOf c == l

/-- The lanes a mode names as voters (R170). -/
def namedVoters (mode odd : Nat) : List Nat :=
  if mode = modeTriad then allLanes else if mode = modePair then allLanes.filter (· != odd) else []

/-- ODDFENCED of every triad: the odd core's lane is not AVAILABLE. -/
def State.refreshOdd (s : State) : State :=
  s.forEach allTriads fun t u =>
    u.putFld (LANE_TRIAD t) LANE_TRIAD_ODDFENCED
      (bit (u.triadMode t == modePair && u.laneState (u.triadOdd t) != lsAvailable))

/-- Set the state of a lane. -/
def State.setLaneState (s : State) (l st : Nat) : State :=
  ((s.putFld (LANE_LSTATE l) LANE_LSTATE_STATE st).when (st == lsOut) State.trialFault).refreshOdd

/-- Set the mode and odd lane of a triad. LANE_TRIADt.ODD is 0 outside PAIR mode, for which alone the manual gives it (DESIGN
CHOICE, log entry 118). -/
def State.setTriad (s : State) (t mode odd : Nat) : State :=
  ((s.putFld (LANE_TRIAD t) LANE_TRIAD_MODE mode).putFld (LANE_TRIAD t) LANE_TRIAD_ODD
    (if mode = modePair then odd else 0)).refreshOdd

/-- Progress of a hand-over (LANE_TRIADt.STATE). -/
def State.setTriadState (s : State) (t v : Nat) : State := s.putFld (LANE_TRIAD t) LANE_TRIAD_STATE v

/-! ### Tasks of a triad -/

/-- Tasks whose current placement is the voted placement of a triad, those that have not been released since their start
among them. -/
def State.votedOn (s : State) (t : Nat) : List Nat :=
  s.taskNumbers.filter fun n => placeVoted (s.placeNow n) && placeTriad (s.placeNow n) == t

/-- Whether a task group is enabled and names a triad as its voted placement. -/
def State.groupNames (s : State) (t n : Nat) : Bool :=
  s.isSet (FRM_TCFG n) FRM_TCFG_EN && placeVoted (s.fld (FRM_TCFG n) FRM_TCFG_PLACE) &&
    placeTriad (s.fld (FRM_TCFG n) FRM_TCFG_PLACE) == t

/-- Whether a triad has an open cycle in any lane, or a carried cycle (R174). -/
def State.triadBusy (s : State) (t : Nat) : Bool :=
  allTasks.any fun n => s.cycleOpen n && placeTriad ((s.task n).cycle.elim 0 (·.place)) == t

/-- Whether a triad has a carried cycle. -/
def State.triadCarries (s : State) (t : Nat) : Bool :=
  allTasks.any fun n => (s.task n).cycle.elim false fun c => c.carried && placeTriad c.place == t

/-- Every task on the voted placement of a triad gets a new placement epoch (R174). -/
def State.advanceTriad (s : State) (t : Nat) : State := s.forEach (s.votedOn t) fun n u => u.advanceEpoch n

/-! ### Mode requests (R173) -/

/-- Whether a target would make a voter of the lane whose copy into the triad was abandoned: it stays odd until the next module
restart (R188). -/
def State.wantsAbandoned (s : State) (t mode odd : Nat) : Bool :=
  (s.triad t).abandoned && (namedVoters mode odd).contains (s.triadOdd t)

/-- The refusal code of a request, 0 for none. Code 3 comes first, then the lowest that applies. Code 2 is also given where an
abandoned copy keeps the lane odd (DESIGN CHOICE, log entry 119). -/
def State.modeRefusal (s : State) (t mode odd : Nat) : Nat :=
  if mode = 3 ∨ odd = 3 then 3
  else if mode = modeFree ∧ allTasks.any (s.groupNames t) then 1
  else if (namedVoters mode odd).any (fun l => s.laneState l != lsAvailable) || s.wantsAbandoned t mode odd then 2
  else if s.isSet LANE_STATUS LANE_STATUS_SAFEFAIL then 5
  else 0

/-- LANE_MODEt.GO: sample the parameters and accept or refuse the request. -/
def State.modeRequest (s : State) (t : Nat) : State :=
  let mode := s.fld (LANE_MODE t) LANE_MODE_MODE
  let odd := s.fld (LANE_MODE t) LANE_MODE_ODD
  let code := s.modeRefusal t mode odd
  let s := s.putFld (LANE_MODE t) LANE_MODE_REFUSED code
  if code ≠ 0 then (s.putFld (LANE_MODE t) LANE_MODE_GO 0).evRefused srcLane (LANE_MODE t % 65536) code
  else
    let now := s.voters t
    let join := if now.isEmpty then none else (namedVoters mode odd).find? fun l => !now.contains l
    ((s.flag (LANE_MODE t) LANE_MODE_GO).setTriadState t 1).modTriad t fun k =>
      { k with request := some (mode, odd), joining := join, joinCopied := false, joinRuns := false }

/-- A pending request is refused because a lane was fenced (code 4). -/
def State.refuseByFence (s : State) (t : Nat) : State :=
  if (s.triad t).request.isSome || s.isSet (LANE_MODE t) LANE_MODE_GO then
    (((s.putFld (LANE_MODE t) LANE_MODE_REFUSED 4).putFld (LANE_MODE t) LANE_MODE_GO 0).setTriadState t 0).modTriad t fun k =>
      { k with request := none, joining := none, joinCopied := false, joinRuns := false }
  else s

/-! ### Fences (R184) -/

/-- Every core of a lane stops, and what was open on it ends there. -/
def State.stopLane (s : State) (l : Nat) : State :=
  let s := s.forEach (laneCores l) fun c t =>
    t.modCore c fun k => if k.run = .held then k else { k.idle with run := .stopped }
  s.forEach allTasks fun n t =>
    match (t.task n).cycle with
    | none => t
    | some cy =>
      (t.setOpenOn n (cy.openOn.filter fun c => laneOf c != l)).modTask n fun k =>
        { k with saved := k.saved.filter fun e => laneOf e.1 != l }

/-- What a fence does to a triad: a TRIAD becomes PAIR with the lane odd, and a PAIR that had the lane as a voter loses
its voted placement. -/
def State.fenceTriad (s : State) (l t : Nat) : State :=
  let s := s.refuseByFence t
  if s.triadMode t = modeTriad then
    ((s.setTriad t modePair l).modTriad t fun k => { k with epochDue := true }).modLane l fun k =>
      { k with toCopy := (k.toCopy.filter (· != t)) ++ [t] }
  else if s.triadMode t = modePair ∧ s.triadOdd t ≠ l ∧ (s.triad t).lost.isNone then
    s.modTriad t fun k => { k with lost := some l, joining := none, joinCopied := false, joinRuns := false, epochDue := true }
  else s

/-- Tasks whose cycle ends when a lane is fenced: those on its free cores, and those on voted placements that are lost. -/
def State.endedByFence (s : State) (l : Nat) : List Nat :=
  s.tasksWith fun _ c =>
    if placeVoted c.place then
      s.triadMode (placeTriad c.place) == modePair && s.triadOdd (placeTriad c.place) != l
    else placeLane c.place == l

/-- A pending online change is cancelled by a fence (R225). -/
def State.cancelSwitch (s : State) (reason : Nat) : State :=
  let st := s.fld SYS_CHG SYS_CHG_STATE
  if st = 3 ∨ st = 6 then
    ((s.putFld SYS_CHG SYS_CHG_STATE (if st = 3 then 1 else 4)).evState srcRuntime reason st (if st = 3 then 1 else 4)).setChange
      { s.change with copied := false, deferrals := 0 }
  else s

/-- Fence a lane with a cause. The event carries ANV_LASTMIS as it stands (R184). -/
def State.fenceLane (s : State) (l cause task : Nat) : State :=
  let lastmis := (s.reg ANX_LASTMIS).toNat
  let ended := s.endedByFence l
  let s := (s.putFld (LANE_LSTATE l) LANE_LSTATE_CAUSE cause).setLaneState l lsFenced
  let s := (s.flag LANE_STATUS LANE_STATUS_FENCE).event srcLane 0x0101 sevFault [l, cause, task, lastmis] true
  let s := s.modLane l fun k =>
    { k with copying := none, copiedNow := [], rejoined := [], commanded := cause == 4, freeOffered := false }
  let s := s.forEach allTriads fun t u => u.fenceTriad l t
  let s := s.stopLane l
  let s := s.forEach ended fun n u => u.endUnpublished n
  let s := s.when s.change.copied fun u => u.cancelSwitch 1
  let s := s.forEach (laneCores l) fun c u => u.endpointReset c.val
  s.refreshOdd.irq lineLane

/-- Ask the partner of a pair to take over (R187, R405). -/
def State.requestTakeover (s : State) : State :=
  if s.cpl.member then { s.send (.cplRequest 1) with cpl := { s.cpl with asked := 1 } } else s

/-- Module SAFE failure (R187), and with no lane the steps that a comparator fault takes (R199). -/
def State.safeFailure (s : State) (ls : List Nat) (task : Nat) : State :=
  let s := s.forEach (ls.filter fun l => s.laneState l == lsAvailable || s.laneState l == lsRejoin) fun l t =>
    t.fenceLane l 5 task
  let safe := s.taskNumbers.filter s.isSafe
  let s := s.forEach safe fun n t => t.closeCycle n
  let s := s.flag LANE_STATUS LANE_STATUS_SAFEFAIL
  let s := s.forEach safe fun n t => t.safeStop n
  (s.safeOutputsOff.loopsDrive).requestTakeover

/-- Whether another lane is FENCED, QUENCH or REJOIN. -/
def State.otherLaneDown (s : State) (l : Nat) : Bool :=
  allLanes.any fun k => k != l && (s.laneState k == lsFenced || s.laneState k == lsQuench || s.laneState k == lsRejoin)

/-- A fence during a rejoin that concerns another lane takes the path of a module SAFE failure (R190). -/
def State.otherRejoins (s : State) (l : Nat) : Bool := allLanes.any fun k => k != l && s.laneState k == lsRejoin

/-- A lane is fenced for a reason outside a verdict: a core fault (3) or a command (4). -/
def State.fence (s : State) (l cause task : Nat) : State :=
  if s.laneState l ≠ lsAvailable ∧ s.laneState l ≠ lsRejoin then s
  else if s.otherRejoins l then s.safeFailure [l] task
  else s.fenceLane l cause task

/-- A verdict names an odd lane (R184, R187). -/
def State.fenceOdd (s : State) (l cause task : Nat) : State :=
  if s.laneState l ≠ lsAvailable ∧ s.laneState l ≠ lsRejoin then s
  else if s.otherLaneDown l || (s.anvils.named.elim false fun k => k != l) then s.safeFailure [l] task
  else ({ s with anvils := { s.anvils with named := some l } }).fenceLane l cause task

/-- A core fault (R71): its flag is set and its lane is fenced. -/
def State.coreFault (s : State) (c : Fin 12) : State :=
  ((s.setBit LANE_CFAULT c.val).irq lineLane).fence (laneOf c) 3 s.cores[c].taskid.toNat

/-- LANE_QUENCH.GO (R191). -/
def State.commandQuench (s : State) : State :=
  let l := s.fld LANE_QUENCH LANE_QUENCH_LANE
  let s := s.putFld LANE_QUENCH LANE_QUENCH_GO 0
  if l = 3 then s
  else if s.laneState l = lsAvailable ∧
      allTriads.all fun t => s.triadMode t == modeFree || (s.triadMode t == modePair && s.triadOdd t == l) then
    s.fence l 4 0
  else (s.putFld (LANE_LSTATE l) LANE_LSTATE_CAUSE 6).evRefused srcLane (LANE_QUENCH % 65536) 6

/-! ### Quench tests (R185, R186) -/

/-- The cores of a lane that passed its test stand idle again. -/
def State.wakeLane (s : State) (l : Nat) : State :=
  s.forEach (laneCores l) fun c t => t.modCore c fun k => { k.idle with run := .gated }

/-- Quench PASSes of a lane inside the last QWIN hours. -/
def State.passesInWindow (s : State) (l : Nat) : List Nat :=
  let win := clampNat 1 168 (s.fld LANE_CFG LANE_CFG_QWIN) * 360000
  (s.lane l).passes.filter fun p => decide (s.optime < p + win)

/-- The end of a quench test. -/
def State.quenchEnd (s : State) (l : Nat) (pass : Bool) : State :=
  let res := if pass then 1 else 2
  let s := ((s.putFld (LANE_LSTATE l) LANE_LSTATE_QRES res).flag LANE_STATUS LANE_STATUS_QDONE).event srcLane 0x0102 sevInfo
    [l, res] true
  let s := if pass then
      let t := s.bump (LANE_TRANS l)
      t.modLane l fun k => { k with passes := t.optime :: t.passesInWindow l }
    else s
  let s := s.irq lineLane
  if !pass || decide (s.fld LANE_CFG LANE_CFG_QLIMIT < (s.lane l).passes.length) then s.setLaneState l lsOut
  else if (s.lane l).commanded then
    ((s.setLaneState l lsAvailable).wakeLane l).modLane l fun k => { k with commanded := false, freeOffered := true }
  else
    ((s.setLaneState l lsRejoin).wakeLane l).modLane l fun k =>
      { k with toCopy := k.toCopy.filter (fun t => s.triadMode t == modePair && s.triadOdd t == l), freeOffered := false }

/-! ### State copies (R188, R174, R176) -/

/-- Copy one 64-byte line from a lane into others, from the second source when the first cannot be read. The answer
tells whether a source could be read. -/
def State.copyLine (s : State) (srcs : List Nat) (dst : List Nat) : State × Bool :=
  match srcs with
  | [] => (s, false)
  | a :: rest =>
    if s.rangeUe a 64 then ((s.reportUe a).evState srcLane 0 a 0).copyLine rest dst
    else (s.forEach dst fun d t => t.writeRun d (s.bytes a 64), true)

/-- Base of a lane's region in DRAM. -/
def laneDram (l : Nat) : Nat := 0x1040000000 + 0x80000000 * l
/-- Base of a lane's region in MRAM. -/
def laneMram (l : Nat) : Nat := 0x20000000 + 0x100000 * l

/-- Copy lines of a lane region, `base` giving the region of each lane. -/
def State.copyLines (s : State) (base : Nat → Nat) (srcs dst : List Nat) : List Nat → State × Bool
  | [] => (s, true)
  | o :: os =>
    match s.copyLine (srcs.map fun l => base l + o) (dst.map fun l => base l + o) with
    | (t, true) => t.copyLines base srcs dst os
    | (t, false) => (t, false)

/-- The line offsets of ranges. -/
def lineOffsets (rs : List (Nat × Nat)) : List Nat :=
  rs.flatMap fun (o, n) => (List.range ((o + n + 63) / 64 - o / 64)).map fun i => o / 64 * 64 + 64 * i

/-- Copy the lane state of tasks: their lane data and lane retained variables (R188). -/
def State.copyTasks (s : State) (srcs dst : List Nat) : List Nat → State × Bool
  | [] => (s, true)
  | n :: ns =>
    match s.taskProg n with
    | none => s.copyTasks srcs dst ns
    | some p =>
      match s.copyLines laneDram srcs dst (lineOffsets p.laneData) with
      | (t, false) => (t, false)
      | (t, true) =>
        match t.copyLines laneMram srcs dst (lineOffsets p.retained) with
        | (u, false) => (u, false)
        | (u, true) => u.copyTasks srcs dst ns

/-- The next triad to copy into a rejoining lane. -/
def State.nextCopy (s : State) (l : Nat) : Option Nat :=
  ((allTriads.filter fun t => (s.lane l).toCopy.contains t && !(s.lane l).copiedNow.contains t)).head?

/-- A copy of a triad into a rejoining lane ends (R188). -/
def State.rejoinCopied (s : State) (l t : Nat) : State :=
  match s.copyTasks (s.voters t) [l] (s.votedOn t) with
  | (u, true) => u.modLane l fun k => { k with copying := none, copiedNow := k.copiedNow ++ [t] }
  | (u, false) =>
    ((u.evState srcLane t 2 0).modTriad t fun k => { k with abandoned := true }).modLane l fun k =>
      { k with copying := none, toCopy := k.toCopy.filter (· != t) }

/-- A triad gets a new mode at a tick: epochs, then the mode (R174). -/
def State.switchTriad (s : State) (t mode odd : Nat) : State :=
  ((s.advanceTriad t).setTriad t mode odd).setTriadState t 0

/-! ### What the LANE block does at a tick, before any release -/

/-- Epochs that a fence made due (R184). -/
def State.laneEpochs (s : State) : State :=
  s.forEach (allTriads.filter fun t => (s.triad t).epochDue) fun t u =>
    (u.advanceTriad t).modTriad t fun k => { k with epochDue := false }

/-- The mode that a triad takes when a lane has rejoined it (R188, R204): TRIAD if every other lane votes in it, else PAIR with the
lane odd that does not. A PAIR whose odd lane is another one stays as it is. -/
def State.rejoinMode (s : State) (l t : Nat) : Nat × Nat :=
  if s.triadOdd t ≠ l then (modePair, s.triadOdd t)
  else match (allLanes.filter (· != l)).find? fun k => !(s.voters t).contains k with
    | none => (modeTriad, 0)
    | some k => (modePair, k)

/-- A lane rejoins a triad at a tick. -/
def State.rejoinTriad (s : State) (l t : Nat) : State :=
  let m := s.rejoinMode l t
  (s.modLane l fun k => { k with rejoined := t :: k.rejoined, toCopy := k.toCopy.filter (· != t) }).switchTriad t m.1 m.2

/-- Triads whose copy has ended rejoin, free cores are offered again, and a lane that has rejoined every triad becomes
AVAILABLE (R188, R190). -/
def State.rejoinLane (s : State) (l : Nat) : State :=
  if s.laneState l ≠ lsRejoin then s
  else
    let s := s.forEach (s.lane l).copiedNow fun t u => (u.flushTasks (u.votedOn t)).rejoinTriad l t
    let s := s.modLane l fun k => { k with copiedNow := [], freeOffered := true }
    if (s.lane l).toCopy.isEmpty then
      (((s.modLane l fun k => { k with rejoined := [] }).setLaneState l lsAvailable).flag LANE_STATUS LANE_STATUS_QDONE).irq
        lineLane
    else s

/-- The hand-over of a triad at a tick: drain, copy and switch (R174), or the re-forming of a lost PAIR (R184). -/
def State.handOver (s : State) (t : Nat) : State :=
  let k := s.triad t
  match k.request with
  | some (mode, odd) =>
    if s.triadBusy t then s.modTriad t fun k => { k with joinCopied := false, joinRuns := false }
    else if k.joining.isSome && !k.joinCopied then s.setTriadState t 2
    else
      let s := s.modTriad t fun k => { k with request := none, joining := none, joinCopied := false, joinRuns := false }
      (((s.switchTriad t mode odd).putFld (LANE_MODE t) LANE_MODE_GO 0).flag LANE_STATUS LANE_STATUS_MODEDONE).irq lineLane
  | none =>
    match k.lost with
    | none => s
    | some f =>
      let odd := s.triadOdd t
      if k.joining.isSome && k.joinCopied then
        (s.modTriad t fun k => { k with lost := none, joining := none, joinCopied := false, joinRuns := false }).switchTriad t modePair f
      else if k.joining.isNone ∧ s.laneState odd = lsAvailable ∧ s.laneState (3 - odd - f) = lsAvailable then
        (s.setTriadState t 3).modTriad t fun k => { k with joining := some odd, joinCopied := false, joinRuns := false }
      else s

/-- A state copy ends before a tick (R188): one that still runs at the tick is given up, and starts again in a later frame. -/
def State.copiesLapse (s : State) : State :=
  let s := s.forEach allLanes fun l t => t.modLane l fun k => { k with copying := none }
  let s := s.forEach allTriads fun t u => u.modTriad t fun k => { k with joinRuns := false }
  s.forEach allTasks fun n t => t.modTask n fun k => { k with placeCopy := if k.placeCopy = 2 then 1 else k.placeCopy }

/-- The LANE block at a tick. -/
def State.laneTick (s : State) : State :=
  let s := s.copiesLapse.laneEpochs
  let s := s.forEach allLanes fun l t => t.rejoinLane l
  s.forEach allTriads fun t u => u.handOver t

end Sys2Proof.Machine
end

