-- ==== Sys2Proof/Machine/Mapping.lean ====
section
/-!
DEFINITION. What a task maps: the table sets that the loader builds (R134, R135), the mappings it rejects (R136), and the bytes
of a program in its bank (R127, R129).
-/

namespace Sys2Proof.Machine

/-- Base of a DRAM program bank. -/
def progBase (bank : Nat) : Nat := 0x1000000000 + 0x20000000 * bank

/-- SYS_CHG.BANK, the active DRAM program bank. -/
def State.progBank (s : State) : Nat := s.fld SYS_CHG SYS_CHG_BANK

/-- The counterpart in a lane of an address in lane A's regions. -/
def laneCounterpart (pa lane : Nat) : Nat :=
  match regionOf pa with
  | .image => pa + 0x80000 * lane
  | .mram => pa + 0x100000 * lane
  | .dram => pa + 0x80000000 * lane
  | _ => pa

/-- The physical address that a mapping gives a lane, with a program bank. -/
def Mapping.addr (m : Mapping) (bank lane : Nat) : Nat :=
  match m.space with
  | .bank => progBase bank + m.base
  | .lane => laneCounterpart m.base lane
  | .fixed => m.base

/-- The physical range of a mapping. -/
def Mapping.range (m : Mapping) (bank lane : Nat) : Nat × Nat :=
  (m.addr bank lane, m.addr bank lane + 2 ^ pageBits m.level)

/-! ### Table sets (R130, R131, R135) -/

/-- ATTR of the leaf of an address (R132). -/
def attrOf (pa : Nat) : Nat :=
  match regionOf pa with
  | .regs => 2
  | .image => 1
  | .mram => 1
  | _ => 0

/-- The leaf of a mapping in a lane's table set. -/
def Mapping.leaf (m : Mapping) (bank lane : Nat) : Nat :=
  let pa := m.addr bank lane
  3 + 4 * bit m.r + 8 * bit m.w + 16 * bit m.x + 32 * bit m.t + 128 * attrOf pa + pa / 4096 * 4096

/-- The tables below level 1 that mappings need: level and index. The loader lays them after the level-1 table in this order
(DESIGN CHOICE, log entry 131: the manual gives them no places). -/
def tableKeys (ms : List Mapping) : List (Nat × Nat) :=
  (((ms.filter fun m => decide (2 ≤ m.level)).map fun m => (2, m.va / 2 ^ 30)).eraseDups) ++
    ((ms.filter fun m => decide (3 ≤ m.level)).map fun m => (3, m.va / 2 ^ 21)).eraseDups

/-- Where a table lies in a set. -/
def tableAt (root : Nat) (keys : List (Nat × Nat)) (key : Nat × Nat) : Nat := root + 4096 * (1 + keys.idxOf key)

/-- The address of an entry for a virtual address in the table of a level. -/
def entryAt (root : Nat) (keys : List (Nat × Nat)) (level va : Nat) : Nat :=
  (if level = 1 then root else tableAt root keys (level, va / 2 ^ pageBits (level - 1))) + 8 * bitsAt va (pageBits level) 9

/-- The entries of a set: addresses and words. -/
def tableEntries (ms : List Mapping) (bank lane root : Nat) : List (Nat × Nat) :=
  let keys := tableKeys ms
  (keys.map fun k => (entryAt root keys (k.1 - 1) (k.2 * 2 ^ pageBits (k.1 - 1)), 1 + tableAt root keys k)) ++
    ms.map fun m => (entryAt root keys m.level m.va, m.leaf bank lane)

/-- The loader builds the table set of a task for a lane: every other entry is invalid. -/
def State.buildTables (s : State) (tp : TaskProg) (bank lane : Nat) : State :=
  let root := tp.ptbase.getD lane 0
  let s := s.forEach (List.range (512 * (1 + (tableKeys tp.maps).length))) fun i t => t.writeWord (root + 8 * i) 0
  s.forEach (tableEntries tp.maps bank lane root) fun e t => t.writeWord e.1 (BitVec.ofNat 64 e.2)

/-- The tables and the slice table of a task are written, one table set for each lane, and its translations flushed. -/
def State.loadTask (s : State) (n : Nat) : State :=
  match s.taskProg n with
  | none => s
  | some tp =>
    let s := s.writeRun (tp.isliceAddr / 16 * 16) (sliceTable tp.slices)
    let bank := s.progBank
    (if tp.maps.isEmpty then s else s.forEach allLanes fun l t => t.buildTables tp bank l).flushTasks [n]

/-- The bytes of a program are written into a DRAM bank. -/
def State.writeProgram (s : State) (p : Program) (bank : Nat) : State :=
  s.forEach p.image fun e t => t.writeByte (progBase bank + e.1) e.2

/-! ### Mappings that the loader rejects (R136) -/

/-- Two ranges meet. -/
def rangesTouch (a b : Nat × Nat) : Bool := decide (a.1 < b.2) && decide (b.1 < a.2)

/-- The regions of a lane in image memory, MRAM and DRAM. -/
def laneRegions (l : Nat) : List (Nat × Nat) :=
  [(0x10180000 + 0x80000 * l, 0x10200000 + 0x80000 * l), (laneMram l, laneMram l + 0x100000), (laneDram l, laneDram l + 0x80000000)]

/-- A range lies inside one of some ranges. -/
def insideOne (l : List (Nat × Nat)) (a : Nat × Nat) : Bool := l.any fun r => decide (r.1 ≤ a.1) && decide (a.2 ≤ r.2)

/-- Where a fetch may be mapped: program banks, flash and boot ROM. -/
def codeRegions : List (Nat × Nat) := [(progBase 0, progBase 2), (0x80000000, 0x90000000), (0, 0x40000)]

/-- A mapping is rejected in a lane. `voted`: the task has a voted placement; `others`: ranges of other tasks' lane areas. The
lock words lie in a page of image memory that the runtime chooses (log entry 131). -/
def Mapping.rejected (m : Mapping) (voted : Bool) (lane : Nat) (others : List (Nat × Nat)) : Bool :=
  [0, 1].any fun bank =>
    let a := m.range bank lane
    (m.t && voted && rangesTouch a (0x40000000, 0x41000000)) ||
      (m.t && m.w && rangesTouch a (0x10000000, 0x10400000) && a != (Config.lockPage, Config.lockPage + 4096)) ||
      others.any (rangesTouch a) || ((allLanes.filter (· != lane)).flatMap laneRegions).any (rangesTouch a) ||
      (m.x && !insideOne codeRegions a) || (m.w && rangesTouch a (progBase 0, progBase 2))

end Sys2Proof.Machine
end

