-- ==== Sys2Proof/Machine/Anvil.lean ====
section
/-!
DEFINITION. The Anvils: sorting, comparing and voting records, publication, and the self-checks (R177 to R201).
-/

namespace Sys2Proof.Machine

/-! ### Records (R177, R178) -/

/-- A record as one Anvil sees it: its lane, whether its CRC checks there, its bytes, and what it stands for. -/
structure Seen (α : Type) where
  lane : Nat
  good : Bool
  bytes : List Byte
  what : α
  deriving DecidableEq, Repr

/-- A record as Anvil X, or Anvil Y, sees it. -/
def Record.seen (y : Bool) (r : Record) : Seen Record :=
  { lane := r.lane, good := if y then r.okY else r.okX, bytes := r.bytes, what := r }

/-- Two records are equal (R178). -/
def Seen.same {α : Type} (a b : Seen α) : Bool := a.good && b.good && a.bytes == b.bytes

/-- Offset of the first difference of two byte lists, a missing byte counting as one. -/
def firstDiff : List Byte → List Byte → Nat → Option Nat
  | [], [], _ => none
  | a :: as, b :: bs, o => if a = b then firstDiff as bs (o + 1) else some o
  | _, _, o => some o

/-- The first differing offset of two records: 56 where a CRC failed (R178). -/
def Seen.diff {α : Type} (a b : Seen α) : Option Nat := if a.good && b.good then firstDiff a.bytes b.bytes 0 else some 56

/-- The first differing offset among records, 0xFFFF if no two differ or it lies beyond. -/
def diffPos {α : Type} : List (Seen α) → Nat
  | [] => 0xFFFF
  | r :: rs => min (diffPos rs) (rs.foldl (fun m q => min m ((r.diff q).getD 0xFFFF)) 0xFFFF)

/-- The first equal pair, in order of arrival of the second. -/
def equalPair {α : Type} (rs : List (Seen α)) : Option (Seen α × Seen α) :=
  (rs.zipIdx.findSome? fun (b, i) => ((rs.take i).find? fun a => a.same b).map fun a => (a, b))

/-! ### Registers of both Anvils -/

/-- The verdict of the last non-agreeing vote (ANV_LASTMIS). -/
def lastMis (task lane kind pos : Nat) : Nat := task % 64 + lane % 4 * 256 + kind % 8 * 1024 + pos % 65536 * 65536

/-- Show a non-agreeing verdict in both Anvils and count it. -/
def State.showVerdict (s : State) (v : Nat) (f : Field) : State :=
  let t := (s.setReg ANX_LASTMIS (BitVec.ofNat 32 v)).setReg ANY_LASTMIS (BitVec.ofNat 32 v)
  ((t.bumpAnvils ANX_MISCNT ANY_MISCNT 1).flagAnvils f).irq lineAnvil

/-- Discard a record: counted, and flagged where R194 applies. -/
def State.stale (s : State) (flagged : Bool) : State :=
  let t := s.bumpAnvils ANX_STALE_CNT ANY_STALE_CNT 1
  if flagged then t.flagAnvils ANX_STATUS_STALE else t

/-! ### Publication (R183, R110) -/

/-- The runtime emits the events of a published cycle, those of one lane, in order (R110). -/
def State.emitTevents (s : State) (n lane : Nat) : State :=
  let es := (s.task n).tevents.filter fun e => e.1 == lane
  (s.forEach es fun e t => t.event (0x80 + n) e.2.1 sevInfo e.2.2).modTask n fun k => { k with tevents := [] }

/-- Whether a vote on a task may publish: after a comparator fault only an STD task with the verified STDCONT at 1. -/
def State.mayPublish (s : State) (n : Nat) : Bool :=
  if s.isSet ANX_STATUS ANX_STATUS_CMPFAULT then !s.isSafe n && s.anvils.verX.stdcont else true

/-- Publish an image of the open cycle of a task, if that cycle is still to be published. -/
def State.publish (s : State) (n release : Nat) (image : List Byte) : State × Bool :=
  match (s.task n).cycle with
  | none => (s, false)
  | some c =>
    if c.published ∨ c.locked.frelease.toNat ≠ release ∨ !s.mayPublish n then (s, false)
    else
      let t := ((s.publishImage n (!placeVoted c.place) image).putFld (FRM_TSTAT n) FRM_TSTAT_CARRY 0).modTask n fun k =>
        { k with cycle := some { c with published := true, carried := false } }
      (t.setOpenOn n c.openOn, true)

/-! ### Comparator faults (R199, R200) -/

/-- STD tasks do not continue: their cycles end and their outputs take the overrun column without carry. -/
def State.stopStd (s : State) : State :=
  s.forEach (s.taskNumbers.filter fun n => !s.isSafe n) fun n t =>
    let policy := match (t.task n).cycle with
      | some c => c.policy
      | none => t.fld (FRM_TCFG n) FRM_TCFG_POLICY
    (t.closeCycle n).overrunOutputs n policy

/-- A comparator fault: both blocks set CMPFAULT, and the module takes the steps of R187 without fences. -/
def State.comparatorFault (s : State) : State :=
  if s.isSet ANX_STATUS ANX_STATUS_CMPFAULT then s
  else
    let t := ((s.flagAnvils ANX_STATUS_CMPFAULT).event (srcOf ANX_STATUS) 0x0103 sevCritical [0] true).irq lineAnvil
    let t := t.safeFailure [] 0
    if t.anvils.verX.stdcont then t else t.stopStd

/-! ### The vote (R181, R182) -/

/-- What one look at a vote decides. -/
inductive Verdict (α : Type) where
  /-- Nothing yet. -/
  | wait
  /-- Two equal records; the rest is still to come, or has agreed. -/
  | agree (a b : α) (done : Bool)
  /-- Two equal records, and a third lane odd: its number, whether it is missing, and the offset. -/
  | odd (a b : α) (lane : Nat) (missing : Bool) (pos : Nat)
  /-- No majority, or a disagreement (`pair`). -/
  | none (pair : Bool) (pos : Nat)
  deriving DecidableEq, Repr

/-- The verdict of the records present, with `final` at the close of the skew window. -/
def judge {α : Type} (voters : List Nat) (rs : List (Seen α)) (final : Bool) : Verdict α :=
  let rs := rs.filter fun r => voters.contains r.lane
  match equalPair rs with
  | some (a, b) =>
    match voters.filter fun l => l != a.lane && l != b.lane with
    | [] => .agree a.what b.what true
    | l :: _ =>
      match rs.find? fun r => r.lane == l with
      | some r => if a.same r then .agree a.what b.what true else .odd a.what b.what l false ((a.diff r).getD 0xFFFF)
      | none => if final then .odd a.what b.what l true 0xFFFF else .agree a.what b.what false
  | none =>
    if rs.isEmpty ∨ voters.length < 2 then .wait
    else if rs.length = voters.length ∨ final then .none (voters.length == 2) (diffPos rs)
    else .wait

/-- The verdict on missing or unequal lanes of a carried cycle is taken when its window closes (R180). -/
def Verdict.defer {α : Type} : Verdict α → Verdict α
  | .odd a b _ _ _ => .agree a b false
  | .none _ _ => .wait
  | v => v

/-- What of a verdict the two Anvils compare: the row, the odd lane and the first differing offset (R182). -/
def Verdict.key {α : Type} : Verdict α → Nat × Nat × Nat
  | .wait => (0, 0, 0)
  | .agree _ _ done => (1 + bit done, 0, 0)
  | .odd _ _ lane missing pos => (3 + bit missing, lane, pos)
  | .none pair pos => (5 + bit pair, 0, pos)

/-- The verdict of one Anvil on a vote. -/
def State.verdict (s : State) (y : Bool) (v : Vote) (final : Bool) : Verdict Record :=
  let row := judge (s.voters (placeTriad v.place)) (v.records.map (Record.seen y)) final
  if v.carried && !final then row.defer else row

/-- The deciding pair acts: publication, or a task fault (R181). Records after the deadline, and records of a closed
epoch, act on nothing but lane health (R180, R194). -/
def State.decideVote (s : State) (n : Nat) (v : Vote) (a b : Record) (old : Bool) : State × Vote :=
  if !v.decided.isEmpty then (s, v)
  else
    let v := { v with decided := [a.lane, b.lane] }
    if a.fault then
      let t := (s.countTaskFault n b.cause b.tval b.call v.release b.epoch)
      (if old || !(a.onTime && b.onTime) then t else t.endFaulted n, v)
    else if old || !(a.onTime && b.onTime) then (s, v)
    else match s.publish n v.release b.image with
      | (t, p) => (t, { v with published := p })

/-- Keep the vote of a task, that of the open epoch or that of the closed one. -/
def State.setVote (s : State) (n : Nat) (old : Bool) (v : Vote) : State :=
  s.modTask n fun k => if old then { k with oldVote := some v } else { k with vote := some v }

/-- The vote has ended: the events of a published cycle follow those of the vote. -/
def State.endVote (s : State) (n : Nat) (old : Bool) (v : Vote) : State :=
  let t := s.setVote n old { v with judged := true }
  if v.published then t.emitTevents n (v.decided.foldl min 3) else t

/-- An odd lane: both Anvils show it, it is recorded, and the lane is fenced. -/
def State.oddVerdict (s : State) (n lane kind pos : Nat) (missing : Bool) : State :=
  let m := lastMis n lane kind pos
  let t := (s.showVerdict m ANX_STATUS_MISMATCH).event (srcOf ANX_STATUS) 0x0101 sevFault [n, lane, pos] true
  t.fenceOdd lane (if missing then 2 else 1) n

/-- No majority or a disagreement: a module SAFE failure that fences every lane of the vote. -/
def State.noMajority (s : State) (n pos : Nat) (pair : Bool) (voters : List Nat) : State :=
  let t := (s.showVerdict (lastMis n 3 (if pair then 4 else 3) pos) ANX_STATUS_NOMAJ).event (srcOf ANX_STATUS) 0x0102
    sevCritical [n] true
  t.safeFailure voters n

/-- Look at a vote and act on what is decided. Each Anvil reaches its verdict on the records as they have reached it, and an
unequal verdict is a comparator fault (R182). A vote that a comparator fault bars from publishing ends without a verdict on
lanes: R199 and R200 do not say whether it is still judged for lane health (DESIGN CHOICE, log entry 115). -/
def State.evalVote (s : State) (n : Nat) (old final : Bool) : State :=
  match (if old then (s.task n).oldVote else (s.task n).vote) with
  | none => s
  | some v =>
    if v.judged then s
    else
      let voters := s.voters (placeTriad v.place)
      let row := s.verdict false v final
      let s := if row.key != (s.verdict true v final).key then (s.flagAnvils ANX_STATUS_XYDIS).comparatorFault else s
      if row != .wait && !s.mayPublish n then s.endVote n old v
      else match row with
        | .wait => s
        | .agree a b done =>
          match s.decideVote n v a b old with
          | (t, w) => if done then t.endVote n old w else t.setVote n old w
        | .odd a b l missing pos =>
          match s.decideVote n v a b old with
          | (t, w) =>
            let t := t.setVote n old { w with judged := true }
            let t := if 3 ≤ voters.length then t.oddVerdict n l (if a.fault then 5 else if missing then 2 else 1) pos missing
              else t.noMajority n pos true voters
            t.endVote n old w
        | .none pair pos => ((s.setVote n old { v with judged := true }).noMajority n pos pair voters).endVote n old v

/-- Look at every open vote once. -/
def State.lookVotes (s : State) : State :=
  s.forEach allTasks fun n t => (t.evalVote n false false).evalVote n true false

/-- After a fence the votes still open go on with the remaining lanes (R184): at most three lanes can be fenced. -/
def State.settle (s : State) : State := s.lookVotes.lookVotes.lookVotes

/-! ### Arrival of a record (R172, R179, R194) -/

/-- Take a record into a vote, opening the vote at the first one. -/
def addRecord (v : Option Vote) (release place frame : Nat) (carried : Bool) (r : Record) : Vote :=
  match v with
  | some w => { w with records := w.records ++ [r] }
  | none => { release := release, place := place, records := [r], decided := [], published := false, judged := false,
              frame := frame, carried := carried }

/-- A record of a free placement passes without a vote (R17, R165). -/
def State.freeRecord (s : State) (n place : Nat) (r : Record) : State :=
  let s := s.modTask n fun k => { k with closedRelease := r.release }
  if !(r.okX && r.okY) || !r.onTime then s
  else if r.fault then (s.countTaskFault n r.cause r.tval r.call r.release r.epoch).endFaulted n
  else if s.isSafe n then s.evRefused (srcOf ANX_STATUS) n place
  else match s.publish n r.release r.image with
    | (t, true) => t.emitTevents n r.lane
    | (t, false) => t

/-- Whether the vote of a task's cycle goes on over the present close phase: its cycle was carried in this frame (R180). -/
def State.windowStays (s : State) (n : Nat) : Bool :=
  ((s.task n).cycle.elim false fun c => c.carried && c.frame == s.frameCount) ||
    (s.task n).vote.elim false fun v => v.carried && v.frame == s.frameCount && !v.judged

/-- A record arrives: it is voted, only compared, or discarded. -/
def State.sortRecord (s : State) (c : Fin 12) (r : Record) : State :=
  let n := r.task
  let k := s.task n
  let place := match k.cycle with
    | some cy => cy.place
    | none => k.place
  let windowClosed := decide (r.release ≤ k.closedRelease) ||
    (s.frame.inClose && !s.windowStays n)
  let carried := k.cycle.elim false (·.carried)
  let frame := k.cycle.elim s.frameCount (·.frame)
  let voter := if placeVoted place then triadOf c == placeTriad place && (s.voters (placeTriad place)).contains (laneOf c)
    else placeLane place == laneOf c && placeTriad place == triadOf c
  if r.epoch = s.openEpoch n then
    if !voter then s.stale false
    else if windowClosed || r.release != k.lastRelease then s.stale true
    else if placeVoted place then
      ((s.setVote n false (addRecord (k.vote.filter (·.release == r.release)) r.release place frame carried r)).evalVote n
        false false).settle
    else s.freeRecord n place r
  else if r.epoch = s.closedEpoch n ∧ r.release ≤ k.switchRelease ∧ placeVoted place then
    if !voter then s.stale false
    else if windowClosed then s.stale true
    else ((s.setVote n true (addRecord (k.oldVote.filter (·.release == r.release)) r.release place frame carried r)).evalVote n
        true false).settle
  else (s.stale true).evRefused (srcOf ANX_STATUS) n r.epoch

/-- The oldest record that a core has under way. -/
def State.takeRecord (s : State) (c : Fin 12) : Option (Record × State) :=
  match s.anvils.flight.find? fun e => e.1 == c with
  | none => none
  | some e => some (e.2, { s with anvils := { s.anvils with flight := s.anvils.flight.erase e } })

/-- The oldest record of a core arrives at the Anvils. `whole` tells for each of them whether it arrives as it was sent; its
CRC then checks (R178). -/
def State.deliverRecord (s : State) (c : Fin 12) (wholeX wholeY : Bool) : State :=
  match s.takeRecord c with
  | none => s
  | some (r, t) =>
    let good := r.crc == r.checksum
    t.sortRecord c { r with okX := wholeX && good, okY := wholeY && good }

/-! ### Closing a skew window (R179, R180, R162) -/

/-- The lanes of a published cycle that are still open when its window closes have no time left: their cycle ends with
the fence that the verdict on a missing record brings. -/
def State.closeWindow (s : State) (n : Nat) : State :=
  let s := (s.evalVote n false true).evalVote n true true
  (s.modTask n fun k => { k with closedRelease := k.lastRelease }).settle

/-! ### Self-checks (R195 to R198) -/

/-- The CRC of a timing set (R197). -/
def timingCrc (skew cfg : Nat) : Nat := crc32 (leBytes 4 skew ++ leBytes 4 cfg)

/-- Whether a verified set passes its own check. -/
def VerifiedSet.good (v : VerifiedSet) : Bool := v.crc == timingCrc v.skew (bit v.stdcont)

/-- Each Anvil copies the deadline of a task from FRM_TDLn at its release (R195). -/
def State.verifyDeadline (s : State) (n : Nat) : State :=
  let d := s.fld (FRM_TDL n) FRM_TDL_DEADLINE
  let put (v : VerifiedSet) : VerifiedSet := { v with deadlines := v.deadlines.setIfInBounds n d }
  { s with anvils := { s.anvils with verX := put s.anvils.verX, verY := put s.anvils.verY } }

/-- The epochs of every task, the part of a verified set that ANV_EPOCHn shows (R195), are equal in both Anvils. -/
def State.epochsAgree (s : State) : Bool := allTasks.all fun n => s.reg (ANX_EPOCH n) == s.reg (ANY_EPOCH n)

/-- The check of the verified sets, then of the register copies (R196). `upset`: a set has been damaged. -/
def State.timingCheck (s : State) (upset : Bool) : State × Bool :=
  let bad := upset || !s.anvils.verX.good || !s.anvils.verY.good || s.anvils.verX != s.anvils.verY || !s.epochsAgree
  let s := if bad then (s.flagAnvils ANX_STATUS_TIMEFAIL).comparatorFault else s
  let tx := s.isSet ANX_TCTL ANX_TCTL_TEN
  let ty := s.isSet ANY_TCTL ANY_TCTL_TEN
  let skew := s.fld ANX_SKEW ANX_SKEW_SKEW
  let cfg := s.fld ANX_CFG ANX_CFG_STDCONT
  let consistent := s.reg ANX_SKEW == s.reg ANY_SKEW && s.reg ANX_CFG == s.reg ANY_CFG && s.reg ANX_TCRC == s.reg ANY_TCRC &&
    (s.reg ANX_TCRC).toNat == timingCrc skew cfg
  let s :=
    if tx && ty && consistent then
      { s with anvils := { s.anvils with verNext := some (skew, cfg == 1, (s.reg ANX_TCRC).toNat) } }
    else if tx || ty then
      ((s.flagAnvils ANX_STATUS_CFG_SKEW).evGroup (srcOf ANX_STATUS) 0).evGroup (srcOf ANY_STATUS) 0
    else s
  (s, !bad)

/-- A strike record of frame k (R198): KIND bit 6, a 64-byte image, and the pattern derived from k. The pattern is byte i =
k + i modulo 256; the rule leaves it open and no state shows it (DESIGN CHOICE, log entry 116). -/
def strikeBytes (k : Nat) : List Byte :=
  let pattern (n : Nat) : List Byte := (List.range n).map fun i => BitVec.ofNat 8 (k + i)
  leBytes 1 0x40 ++ leBytes 3 0 ++ leBytes 4 64 ++ leBytes 8 k ++ pattern 16 ++ leBytes 32 0 ++ pattern 64

/-- The offset of strike position p in a record. -/
def strikeOffset (p : Nat) : Nat := if p < 128 then 16 + p / 8 else 64 + (p - 128) / 8

/-- The record in which bit p is inverted. -/
def strikeFlipped (k p : Nat) : List Byte :=
  (strikeBytes k).set (strikeOffset p) ((strikeBytes k).getD (strikeOffset p) 0 ^^^ BitVec.ofNat 8 (2 ^ (p % 8)))

/-- A dummy record of a lane; its CRC is computed over its content after the inversion, so that it checks. -/
def strikeSeen (k lane : Nat) (flipped : Bool) : Seen Unit :=
  { lane := lane, good := true, bytes := if flipped then strikeFlipped k (k % 640) else strikeBytes k, what := () }

/-- The TRIAD vote of the strike test: the record of lane k mod 3 is struck. -/
def strikeTriad (k : Nat) : Verdict Unit := judge allLanes (allLanes.map fun l => strikeSeen k l (l == k % 3)) true

/-- The PAIR vote of the strike test: the second record is struck. -/
def strikePair (k : Nat) : Verdict Unit :=
  let a := (k % 3 + 1) % 3
  let b := (k % 3 + 2) % 3
  judge [a, b] [strikeSeen k a false, strikeSeen k b true] true

/-- The verdicts that the strike test of frame k must give: Majority with the struck lane odd, and Disagreement, both at the
offset of the struck bit. -/
def strikeExpected (k : Nat) : Verdict Unit × Verdict Unit :=
  (.odd () () (k % 3) false (strikeOffset (k % 640)), .none true (strikeOffset (k % 640)))

/-- Both checkers judge the verdicts that an Anvil's logic gives in the strike test; logic that does not work gives none. -/
def strikePasses (k : Nat) (works : Bool) : Bool :=
  (if works then (strikeTriad k, strikePair k) else (.wait, .wait)) == strikeExpected k

/-- The strike test of frame k (R198): `okX` and `okY` tell whether the verdict logic and the checkers of each Anvil work. -/
def State.strikeTest (s : State) (k : Nat) (okX okY : Bool) : State × Bool :=
  let x := strikePasses k okX
  let y := strikePasses k okY
  let v (ok : Bool) : Word := BitVec.ofNat 32 (k % 640 + k % 3 * 1024 + (if ok then 0x80000000 else 0))
  let s := (s.setReg ANX_STRIKE (v x)).setReg ANY_STRIKE (v y)
  let s := if x then s else s.flag ANX_STATUS ANX_STATUS_STRIKEFAIL
  let s := if y then s else s.flag ANY_STATUS ANY_STATUS_STRIKEFAIL
  (if x && y then s else s.comparatorFault, x && y)

/-- The Anvils in the close phase: windows close, then both checks (R179, R196, R198, R201). -/
def State.anvilClose (s : State) (upset okX okY : Bool) : State :=
  let s := { s with frame := { s.frame with inClose := true } }
  let s := s.forEach (allTasks.filter fun n => !s.windowStays n) fun n t => t.closeWindow n
  match s.timingCheck upset with
  | (s, a) =>
    match s.strikeTest s.frameCount okX okY with
    | (s, b) => { s with anvils := { s.anvils with checked := s.anvils.checked || (a && b) }, cpl := { s.cpl with strike := b } }

/-! ### What the Anvils do at a tick -/

/-- The verified sets that the last check found act from here on, and no lane has been named in the new frame. -/
def State.anvilTick (s : State) : State :=
  let a := match s.anvils.verNext with
    | some (skew, stdcont, crc) =>
      let put (v : VerifiedSet) : VerifiedSet := { v with skew := skew, stdcont := stdcont, crc := crc }
      { s.anvils with verX := put s.anvils.verX, verY := put s.anvils.verY, verNext := none }
    | none => s.anvils
  { s with anvils := { a with named := none } }

/-- ANV_EPRST (R193): the command acts at the next tick. -/
def State.issueEprst (s : State) (n : Nat) : State :=
  let s := (s.flag ANX_EPRST ANX_EPRST_GO).flag ANY_EPRST ANY_EPRST_GO
  { s with frame := { s.frame with epochResets := s.frame.epochResets ++ [n] } }

/-- Pending epoch resets act, or are refused when the task has an open or carried cycle. -/
def State.eprstTick (s : State) : State :=
  let s := s.forEach s.frame.epochResets fun n t =>
    if t.cycleOpen n then t.flagAnvils ANX_STATUS_EPREF else t.resetEpochs n
  let s := (s.putFld ANX_EPRST ANX_EPRST_GO 0).putFld ANY_EPRST ANY_EPRST_GO 0
  { s with frame := { s.frame with epochResets := [] } }

end Sys2Proof.Machine
end

