-- ==== Sys2Proof/Machine/Frame.lean ====
section
/-!
DEFINITION. The commands of the frame scheduler, the Anvils and the LANE block inside a frame (06_tasks_frame.md,
07_lanes_anvil.md). The tick and the close phase stand in Tick.lean.
-/

namespace Sys2Proof.Machine

/-! ### The tick generator (R147, R148, R150) -/

/-- T_frame in µs. -/
def State.tFrame (s : State) : Nat := s.fld FRM_ACTIVE FRM_ACTIVE_ACTPERIOD
/-- T_phase in µs. -/
def State.tPhase (s : State) : Nat := s.fld FRM_ACTIVE FRM_ACTIVE_ACTPHASE
/-- One microsecond in the clock's units of 2^-16 ns. -/
def clockUs : Nat := 1000 * 65536
/-- The grid instant of a frame count, in the clock's units. -/
def State.grid (s : State) (k : Nat) : Nat := (k * s.tFrame + s.tPhase) * clockUs

/-- FRM_STATUS.PPEND: the stored and the active values differ while RUN is 1. -/
def State.refreshPpend (s : State) : State :=
  s.putFld FRM_STATUS FRM_STATUS_PPEND
    (bit (s.isSet FRM_CTRL FRM_CTRL_RUN &&
      (s.fld FRM_PERIOD FRM_PERIOD_PERIOD != s.tFrame || s.fld FRM_PHASE FRM_PHASE_PHASE != s.tPhase)))

/-- The first frame count whose grid instant is not below a clock value. -/
def State.firstTick (s : State) (t : Nat) : Nat :=
  let f := s.tFrame * clockUs
  (t - s.tPhase * clockUs + f - 1) / f

/-- FRM_CTRL.RUN changes from 0 to 1 (R148). -/
def State.frmStart (s : State) : State :=
  if s.isSet FRM_CTRL FRM_CTRL_RUN then s
  else
    let period := clampNat 250 16000 (s.fld FRM_PERIOD FRM_PERIOD_PERIOD)
    let ph := s.fld FRM_PHASE FRM_PHASE_PHASE
    let s := s.flag FRM_CTRL FRM_CTRL_RUN
    let s := (s.putFld FRM_ACTIVE FRM_ACTIVE_ACTPERIOD period).putFld FRM_ACTIVE FRM_ACTIVE_ACTPHASE
      (if ph < period then ph else 0)
    ({ s with frame := { s.frame with nextTick := s.firstTick (s.time.clock + 100 * clockUs) } }).refreshPpend

/-- FRM_CTRL.RUN changes from 1 to 0 (R150). A cycle carried in this frame has its deadline of the frame behind it: it ends. -/
def State.frmStop (s : State) : State :=
  let s := (s.putFld FRM_CTRL FRM_CTRL_RUN 0).refreshPpend
  s.forEach (s.tasksWith fun _ c => c.carried && c.frame == s.frameCount) fun n t => t.closeCycle n

/-- FRM_START. -/
def execFrmStart (s : State) : Host.Outcome State Fault Refusal := .next s.frmStart

/-- FRM_STOP. -/
def execFrmStop (s : State) : Host.Outcome State Fault Refusal := .next s.frmStop

/-! ### The snapshot copier (R123, R156) -/

/-- The cycles whose copies are to be made, in the order of the copier. -/
def State.copyQueue (s : State) : List Nat :=
  (s.tasksWith fun _ c => !c.copied).mergeSort fun a b =>
    match (s.task a).cycle, (s.task b).cycle with
    | some x, some y => decide (x.prio < y.prio) || (x.prio == y.prio && decide (a ≤ b))
    | _, _ => true

/-- The point of a slice that a snapshot copy writes: the bank's value under forces; where the bank cannot be read, the
previous snapshot value with tag S. -/
def State.snapPoint (s : State) (bank lane : Nat) (x : Slice) (i off : Nat) : Point :=
  let pa := cellAddr bank x.analog i
  let p := if s.hasUe pa then { (s.cellAt x.analog (laneImage lane + x.area + off)) with tag := tagS } else s.cellAt x.analog pa
  s.forcedInput x.analog i p

/-- Copy one input slice into the snapshot area of each lane. The answer is the OR of the tags. -/
def State.snapSlice (s : State) (bank : Nat) (lanes : List Nat) (x : Slice) : State × Nat :=
  let s := s.reportRange (cellAddr bank x.analog x.start) x.bytes
  let ps := x.points.map fun (i, o) => (o, s.snapPoint bank (lanes.headD 0) x i o)
  (s.forEach lanes fun l t => t.forEach ps fun (o, p) u => u.putCell x.analog (laneImage l + x.area + o) p,
    ps.foldl (fun t p => t ||| p.2.tag) 0)

/-- Copy input slices one after another. -/
def State.snapSlices (s : State) (bank : Nat) (lanes : List Nat) : List Slice → State × Nat
  | [] => (s, 0)
  | x :: xs =>
    match s.snapSlice bank lanes x with
    | (t, a) =>
      match t.snapSlices bank lanes xs with
      | (u, b) => (u, a ||| b)

/-- Copy the voted copy into the output areas of each lane. -/
def State.copyVoted (s : State) (lanes : List Nat) : Nat → List Slice → State
  | _, [] => s
  | pa, x :: xs =>
    let s := s.reportRange pa x.bytes
    let bs := s.bytes pa x.bytes
    (s.forEach lanes fun l t => t.writeRun (laneImage l + x.area) bs).copyVoted lanes (pa + x.bytes) xs

/-- The copy of one task completes: snapshot, output areas, SUBST, and its cores may start. -/
def State.snapshotTask (s : State) (n : Nat) : State :=
  match (s.task n).cycle, s.taskProg n with
  | some cy, some tp =>
    let lanes := s.placeLanes cy.place
    match s.snapSlices (bankBase (s.frameCount + 1)) lanes (s.inSlices n) with
    | (t, tags) =>
      let t := t.copyVoted lanes tp.votedCopy (s.outSlices n)
      let subst : DWord := if tags &&& (tagS + tagE) ≠ 0 then 0x10 else 0
      t.modTask n fun k =>
        { k with cycle := some { cy with copied := true, locked := { cy.locked with tstate := cy.locked.tstate ||| subst } } }
  | _, _ => s

/-- SNAPSHOT_COPY_COMPLETE: the next task of the copier's order; `ns` is the time since the tick. After a tick at which no copy is
made FRM_SNAPEND keeps the value of the last copy (DESIGN CHOICE, log entry 117). -/
def execSnapshotCopyComplete (ns : BitVec 24) (s : State) : Host.Outcome State Fault Refusal :=
  .next (match s.copyQueue with
    | [] => s
    | n :: _ => ((s.snapshotTask n).putFld FRM_SNAPEND FRM_SNAPEND_SNAPEND ns.toNat).dispatchAll)

/-! ### Deadlines (R162, R164, R180) -/

/-- An overrun is counted, flagged, recorded and signalled to the cores of the placement. -/
def State.countOverrun (s : State) (n : Nat) (cy : Cycle) : State :=
  let s := s.fullSpeed n
  let s := s.forEach (s.placeCores cy.place) fun c t => t.raiseLine lineDeadline c
  let s := (((s.bump FRM_OVRCNT).flag (FRM_TSTAT n) FRM_TSTAT_OVR).flag FRM_STATUS FRM_STATUS_OVR).event 0x01 0x0101 sevWarning [n]
  s.modTask n fun k => { k with prevOvr := true }

/-- The first deadline of a HOLD_ONE cycle: it is carried and its outputs are held with S. -/
def State.carry (s : State) (n : Nat) (cy : Cycle) : State :=
  ((s.flag (FRM_TSTAT n) FRM_TSTAT_CARRY).modTask n fun k =>
    { k with cycle := some { cy with carried := true }, vote := k.vote.map fun v => { v with carried := true } }).holdOutputs n

/-- A cycle overruns. -/
def State.overrun (s : State) (n : Nat) (cy : Cycle) : State :=
  let s := s.countOverrun n cy
  if cy.policy = polHoldOne ∧ !cy.carried ∧ s.isSet FRM_CTRL FRM_CTRL_RUN then s.carry n cy
  else if cy.carried then (s.closeCycle n).substitute n
  else (s.closeCycle n).overrunOutputs n cy.policy

/-- The deadline of a task passes. -/
def State.deadline (s : State) (n : Nat) : State :=
  match (s.task n).cycle with
  | none => s
  | some cy =>
    if cy.published then s.modTask n fun k => { k with cycle := some { cy with late := true } }
    else if cy.carried ∧ cy.frame = s.frameCount then s
    else s.overrun n cy

/-- DEADLINE. -/
def execDeadline (task : Fin 64) (s : State) : Host.Outcome State Fault Refusal :=
  .next (s.deadline task.val).dispatchAll

/-! ### Records and windows -/

/-- Whether the oldest record that a core has under way is a fault report. -/
def State.headIsFault (s : State) (c : Fin 12) : Option Bool := (s.takeRecord c).map fun r => r.1.fault

/-- CHECKPOINT_RECORD: the oldest record of a core, a checkpoint, arrives at the Anvils; its CRC checks at Anvil X, at Anvil Y. -/
def execCheckpointRecord (core : Fin 12) (crcX crcY : Bool) (s : State) : Host.Outcome State Fault Refusal :=
  .next (if s.headIsFault core = some false then (s.deliverRecord core crcX crcY).dispatchAll else s)

/-- TASK_FAULT_REPORT: the oldest record of a core, a fault report, arrives at the Anvils; its CRC checks at Anvil X, at
Anvil Y. -/
def execTaskFaultReport (core : Fin 12) (crcX crcY : Bool) (s : State) : Host.Outcome State Fault Refusal :=
  .next (if s.headIsFault core = some true then (s.deliverRecord core crcX crcY).dispatchAll else s)

/-- SKEW_WINDOW_CLOSE: a window that a first record has opened, and that is open still, closes (R179). `agree`: no fault
inside an Anvil makes its verdict differ from the other's at this close (R182). -/
def execSkewWindowClose (task : Fin 64) (agree : Bool) (s : State) : Host.Outcome State Fault Refusal :=
  .next (if voteRecords (s.task task.val).vote + voteRecords (s.task task.val).oldVote = 0 then s
    else (((s.when (!agree) fun t => (t.flagAnvils ANX_STATUS_XYDIS).comparatorFault).closeWindow task.val)).dispatchAll)

/-! ### Quench tests and state copies -/

/-- QUENCH_TEST_START: every core of a fenced lane has stopped at the fence. -/
def execQuenchTestStart (lane : Fin 3) (s : State) : Host.Outcome State Fault Refusal :=
  .next (if s.laneState lane.val = lsFenced then s.setLaneState lane.val lsQuench else s)

/-- QUENCH_TEST_END. -/
def execQuenchTestEnd (lane : Fin 3) (pass : Bool) (s : State) : Host.Outcome State Fault Refusal :=
  .next (if s.laneState lane.val = lsQuench then s.quenchEnd lane.val pass else s)

/-- Whether some copy runs. -/
def State.copyRuns (s : State) : Bool :=
  allLanes.any (fun l => (s.lane l).copying.isSome) || allTriads.any (fun t => (s.triad t).joinRuns) ||
    allTasks.any fun n => (s.task n).placeCopy == 2

/-- Whether a task's cycle is carried. -/
def State.taskCarries (s : State) (n : Nat) : Bool := (s.task n).cycle.elim false (·.carried)

/-- The copy of a lane that joins a triad (R174 step 2, R184): from the voting lanes. -/
def State.joinCopy (s : State) (t : Nat) : State :=
  match (s.triad t).joining with
  | none => s
  | some l =>
    if !(s.triad t).joinRuns then s
    else match (s.modTriad t fun k => { k with joinRuns := false }).copyTasks (s.voters t) [l] (s.votedOn t) with
      | (u, true) => u.modTriad t fun k => { k with joinCopied := true }
      | (u, false) => u.evState srcLane t 2 0

/-- The copy of a task that changes its placement (R176): from the lowest lane of the old placement into each lane it
lacks. -/
def State.placeCopied (s : State) (n : Nat) : State :=
  let old := s.placeLanes (s.task n).place
  let new := (s.placeLanes (s.fld (FRM_TCFG n) FRM_TCFG_PLACE)).filter fun l => !old.contains l
  match s.copyTasks old new [n] with
  | (u, true) => u.modTask n fun k => { k with placeCopy := 3 }
  | (u, false) => (u.evState srcLane n 2 0).modTask n fun k => { k with placeCopy := 1 }

/-- REJOIN_COPY_START: a state copy starts when its conditions hold. -/
def execRejoinCopyStart (job : CopyJob) (s : State) : Host.Outcome State Fault Refusal :=
  .next (if s.copyRuns then s
    else match job with
      | .rejoin l =>
        match s.nextCopy l.val with
        | some t =>
          if s.laneState l.val = lsRejoin ∧ !s.triadCarries t ∧ !(s.voters t).isEmpty then s.modLane l.val fun k => { k with copying := some t } else s
        | none => s
      | .join t =>
        if (s.triad t.val).joining.isSome ∧ !(s.triad t.val).joinCopied ∧ !s.triadCarries t.val then
          (s.setTriadState t.val (if (s.triad t.val).lost.isSome then 3 else 2)).modTriad t.val fun k => { k with joinRuns := true }
        else s
      | .place n => if (s.task n.val).placeCopy = 1 ∧ !s.taskCarries n.val then
          s.modTask n.val fun k => { k with placeCopy := 2 } else s)

/-- REJOIN_COPY_END: a state copy completes, or is abandoned when no source could be read. -/
def execRejoinCopyEnd (job : CopyJob) (s : State) : Host.Outcome State Fault Refusal :=
  .next (match job with
    | .rejoin l =>
      match (s.lane l.val).copying with
      | some t => s.rejoinCopied l.val t
      | none => s
    | .join t => s.joinCopy t.val
    | .place n => if (s.task n.val).placeCopy = 2 then s.placeCopied n.val else s)

/-! ### Register commands -/

/-- FRM_TSTATn.RESTART: no effect unless the task is stopped (R166). -/
def State.taskRestart (s : State) (n : Nat) : State :=
  if s.isSet (FRM_TSTAT n) FRM_TSTAT_STOPPED then s.flag (FRM_TSTAT n) FRM_TSTAT_RESTART else s

/-- LANE_MODEt.GO; a request in progress goes on (R43). -/
def State.modeGo (s : State) (t : Nat) : State := if s.isSet (LANE_MODE t) LANE_MODE_GO then s else s.modeRequest t

/-- MODE_REQUEST: MODE and ODD are written and GO is issued. -/
def execModeRequest (triad : Fin 4) (mode odd : BitVec 2) (s : State) : Host.Outcome State Fault Refusal :=
  let a := LANE_MODE triad.val
  .next (((s.putFld a LANE_MODE_MODE mode.toNat).putFld a LANE_MODE_ODD odd.toNat).modeGo triad.val)

/-- COMMANDED_QUENCH: LANE is written and GO is issued. -/
def execCommandedQuench (lane : BitVec 2) (s : State) : Host.Outcome State Fault Refusal :=
  .next ((s.putFld LANE_QUENCH LANE_QUENCH_LANE lane.toNat).commandQuench).settle

/-- ANV_EPRST.GO with the task in a block's TASK field; a command in progress goes on (R43). -/
def State.eprstGo (s : State) (n : Nat) : State := if s.isSet ANX_EPRST ANX_EPRST_GO then s else s.issueEprst n

/-- EPOCH_RESET: a write to ANV_EPRST acts on both Anvils. -/
def execEpochReset (task : Fin 64) (s : State) : Host.Outcome State Fault Refusal :=
  .next (((s.putFld ANX_EPRST ANX_EPRST_TASK task.val).putFld ANY_EPRST ANY_EPRST_TASK task.val).eprstGo task.val)

end Sys2Proof.Machine
end

