-- ==== Sys2Proof/Machine/Time.lean ====
section
/-!
DEFINITION. The time base (11_time.md): states and corrections, commanded steps, time-stamps, and the PTP subset.
Times and offsets are in units of 2^-16 ns.
-/

namespace Sys2Proof.Machine

/-- The SOURCE of the time base. -/
def srcTime : Nat := srcOf TIME_STATUS

/-- Change what the time base holds. -/
def State.modTime (s : State) (g : TimeState → TimeState) : State := { s with time := g s.time }

/-- States of R284. -/
def tsFree : Nat := 0
def tsAcquiring : Nat := 1
def tsLocked : Nat := 2
def tsHoldover : Nat := 3

/-- TIME_STATUS.STATE. -/
def State.timeState (s : State) : Nat := s.fld TIME_STATUS TIME_STATUS_STATE

/-- Enter a state; the counts of R284 start anew, in FREE the clock runs at R = 0, and a change raises line RING (R167). -/
def State.setTimeState (s : State) (st : Nat) : State :=
  let s := s.when (s.timeState != st) fun t => t.irq lineRing
  let s := (s.putFld TIME_STATUS TIME_STATUS_STATE st).modTime fun k => { k with within := 0, beyond := 0 }
  if st = tsFree then (s.setReg TIME_RATE 0).modTime fun k => { k with slewLeft := 0 } else s

/-- A 16-bit field as a signed number. -/
def signed16 (x : Nat) : Int := (BitVec.ofNat 16 x).toInt

/-- A received frame's start of frame at the MDI (R289): 1/16 ns is 4096 units. -/
def State.stampIn (s : State) (p : Nat) (raw : Int) : Int :=
  raw - ((s.fld (TIME_FLAT p) TIME_FLAT_FIN : Nat) + signed16 (s.fld (TIME_ULAT p) TIME_ULAT_UIN)) * 4096

/-- A sent frame's start of frame at the MDI (R289). -/
def State.stampOut (s : State) (p : Nat) (raw : Int) : Int :=
  raw + ((s.fld (TIME_FLAT p) TIME_FLAT_FOUT : Nat) + signed16 (s.fld (TIME_ULAT p) TIME_ULAT_UOUT)) * 4096

/-- A signed number of 32 bits, saturating. -/
def satWord (x : Int) : Word := BitVec.ofInt 32 (max (-(2 ^ 31)) (min (2 ^ 31 - 1) x))

/-! ### Corrections (R283, R285, R286, R287) -/

/-- A step of the clock counts in the correction sum; what PTP has stamped before it is discarded (R288). -/
def State.stepClock (s : State) (d : Int) : State :=
  s.modTime fun k =>
    { k with clock := (k.clock + d).toNat, corr := k.corr + d, stepped := true,
             ports := k.ports.map fun p => { p with sync := none, asked := none } }

/-- States of a ring (R261). -/
def ringColdstart : Nat := 2
def ringRun : Nat := 3
/-- SOPn_STATE.RSTATE. -/
def State.ringState (s : State) (n : Nat) : Nat := s.fld (SOP_STATE n) SOP_STATE_RSTATE
/-- The rings. -/
def allRings : List Nat := [0, 1, 2, 3, 4, 5]

/-- Whether the servo may step the clock by itself (R286), the offset apart. -/
def State.mayStep (s : State) : Bool :=
  s.isSet TIME_CTRL TIME_CTRL_AUTOSTEP && s.timeState == tsAcquiring &&
    allRings.all fun n => s.ringState n != ringColdstart && s.ringState n != ringRun

/-- TIME_STEPTH. -/
def State.stepThreshold (s : State) : Int := (max 1 (s.fld TIME_STEPTH TIME_STEPTH_STEPTH) : Nat) * (clockUs : Int)

/-- The servo takes an offset: it steps, or it slews (R285, R286). -/
def State.servo (s : State) (offset : Int) : State :=
  let big := decide (s.stepThreshold < (offset.natAbs : Int))
  if big ∧ s.mayStep then (s.stepClock (-offset)).modTime fun k => { k with slewLeft := 0, bigRaised := false, stepped := false }
  else
    let s := s.modTime fun k => { k with slewLeft := -offset }
    if big then
      let s := s.flag TIME_STATUS TIME_STATUS_BIGOFF
      if s.time.bigRaised then s
      else (s.evLimit srcTime TIME_STEPTH (satWord (offset / 65536)).toNat (s.fld TIME_STEPTH TIME_STEPTH_STEPTH)).modTime
        fun k => { k with bigRaised := true }
    else s.modTime fun k => { k with bigRaised := false }

/-- A lock is lost (R284). -/
def State.lockLoss (s : State) : State := (s.flag TIME_STATUS TIME_STATUS_LOCKLOSS).irq lineRing

/-- What a ring controller holds. -/
def State.ring (s : State) (n : Nat) : Ring := if h : n < 6 then s.rings[n] else Ring.reset
/-- Change what a ring controller holds. -/
def State.modRing (s : State) (n : Nat) (g : Ring → Ring) : State :=
  if h : n < 6 then { s with rings := s.rings.set n (g s.rings[n]) } else s

/-- The counts of Sync intervals and the changes of state that they cause (R284). -/
def State.judgeOffset (s : State) (offset : Int) : State :=
  let us : Int := clockUs
  let w := if offset.natAbs ≤ us then s.time.within + 1 else 0
  let b := if 10 * us < offset.natAbs then s.time.beyond + 1 else 0
  let s := s.modTime fun k => { k with within := w, beyond := b }
  if s.timeState = tsAcquiring ∧ 8 ≤ w then (s.setTimeState tsLocked).modTime fun k => { k with wasLocked := true }
  else if s.timeState = tsLocked ∧ 4 ≤ b then (s.setTimeState tsAcquiring).lockLoss
  else s

/-- The greatest slew of one frame: at most a sixteenth of the guard interval in use of each running ring (R285, R244). -/
def State.slewLimit (s : State) : Nat :=
  let own := clampNat 1 500 (s.fld TIME_SLEW TIME_SLEW_SLEW) * s.tFrame * clockUs / 1000000
  (allRings.filter fun n => s.ringState n == ringRun).foldl
    (fun m n => min m ((s.ring n).guard * 8 * 65536 / 16)) own

/-- The slew and the rate change that the servo makes in a frame. -/
def State.slewTick (s : State) : State :=
  if s.timeState = tsAcquiring ∨ s.timeState = tsLocked then
    let left := s.time.slewLeft
    let lim := s.slewLimit
    let m := if lim ≤ left.natAbs then lim else Config.servoSlew s.free % (left.natAbs + 1)
    let d : Int := if left < 0 then -(m : Int) else m
    let r := max (-109951) (min 109951 (Config.servoRate (s.free + 1)))
    let s := { s with free := s.free + 2 }
    (s.setReg TIME_RATE (s.reg TIME_RATE + BitVec.ofInt 32 r)).modTime fun k =>
      { k with slewLeft := left - d, corr := k.corr + d }
  else s

/-- TIME_STEPCMD.GO (R287, R288). -/
def State.stepCommand (s : State) : State :=
  if s.isSet TIME_STEPCMD TIME_STEPCMD_GO then s
  else
    let v := (s.reg TIME_STEPV).toInt
    let close : Int := s.frame.close * 1000
    let frame : Int := s.tFrame * 1000
    if v = 0 ∨ close < 2 * v ∨ 4 * v < -frame then (s.flag TIME_STATUS TIME_STATUS_STEPREF).irq lineRing
    else ((s.flag TIME_STEPCMD TIME_STEPCMD_GO).flag TIME_STATUS TIME_STATUS_STEPPEND).modTime fun k =>
      { k with step := some (v, s.frameCount + 3) }

/-- The announced step acts at its tick. -/
def State.stepAct (s : State) : State :=
  match s.time.step with
  | some (v, f) =>
    if f ≤ s.frameCount then
      let s := ((s.stepClock (v * 65536)).bump TIME_STEPCNT).flag TIME_STATUS TIME_STATUS_STEPDONE |>.irq lineRing
      ((s.putFld TIME_STEPCMD TIME_STEPCMD_GO 0).putFld TIME_STATUS TIME_STATUS_STEPPEND 0).modTime fun k =>
        { k with step := none }
    else s
  | none => s

/-- TIME_CAPT.GO (R282): the clock stands somewhere inside the present frame. -/
def State.clockCapture (s : State) : State :=
  let t := s.time.clock + Config.instant s.free
  let ns := t / 65536
  let sec := ns / 1000000000
  ((((s.tickFree.setReg TIME_CSECL (BitVec.ofNat 32 sec)).setReg TIME_CSECH (BitVec.ofNat 32 (sec / 0x100000000 % 65536))).setReg
    TIME_CNS (BitVec.ofNat 32 (ns % 1000000000))).setReg TIME_CFRAC (BitVec.ofNat 32 (t % 65536)))

/-- The log of sums with the sum that a tick copied. It keeps the last 1,024 changes (DESIGN CHOICE, log entry 135). -/
def logCorr (l : List (Nat × Int)) (k : Nat) (c : Int) : List (Nat × Int) :=
  if (l.headD (0, 0)).2 = c then l else ((k, c) :: l).take 1024

/-- The sum that the tick of a frame copied. -/
def corrAt (l : List (Nat × Int)) (k : Nat) : Int := ((l.find? fun e => decide (e.1 ≤ k)).getD (0, 0)).2

/-- The correction sum is copied at a tick (R283). -/
def State.copyCorrection (s : State) (k : Nat) : State :=
  let c := (BitVec.ofInt 64 s.time.corr).toNat
  let s := { s with time := { s.time with corrLog := logCorr s.time.corrLog k s.time.corr } }
  ((s.setReg TIME_CTICKL (BitVec.ofNat 32 c)).setReg TIME_CTICKH (BitVec.ofNat 32 (c / 0x100000000))).setReg TIME_CTICKF
    (BitVec.ofNat 32 k)

/-! ### PTP ports and the best master (R294) -/

/-- TIME_PTPCFG.MODE. -/
def State.ptpMode (s : State) : Nat := s.fld TIME_PTPCFG TIME_PTPCFG_MODE

/-- The PTP ports in use: in modes 1 and 2 the lowest enabled one. -/
def State.ptpPorts (s : State) : List Nat :=
  let en := [0, 1, 2, 3].filter fun p => bitAt (s.fld TIME_PTPCFG TIME_PTPCFG_PORTEN) p
  if s.ptpMode = 0 then [] else if s.ptpMode = 3 then en else en.take 1

/-- domainNumber. -/
def State.ptpDomain (s : State) : Nat :=
  let d := s.fld TIME_PTPCFG TIME_PTPCFG_DOMAIN
  if 128 ≤ d then 0 else d

/-- What the time base holds of a port. -/
def State.ptpPort (s : State) (p : Nat) : PtpPort := if h : p < 4 then s.time.ports[p] else PtpPort.reset

/-- Change what the time base holds of a port. -/
def State.modPort (s : State) (p : Nat) (g : PtpPort → PtpPort) : State :=
  if h : p < 4 then s.modTime fun k => { k with ports := k.ports.set p (g k.ports[p]) } else s

/-- The slave port. -/
def State.slavePort (s : State) : Option Nat := s.ptpPorts.find? fun p => (s.ptpPort p).role == .slave

/-- The first difference of two lists decides: whether the first is smaller. -/
def lexLess : List Nat → List Nat → Bool
  | a :: as, b :: bs => decide (a < b) || (a == b && lexLess as bs)
  | _, _ => false

/-- What a comparison of two data sets says of the first (default BMCA of IEEE 1588-2019): better or not, and whether only
by topology. -/
structure PtpOrder where
  better : Bool
  topology : Bool
  deriving DecidableEq, Repr

/-- The comparison of two data sets, each with the port that received it. -/
def ptpCompare (a : PtpMaster) (aPort : Nat) (b : PtpMaster) (bPort : Nat) : PtpOrder :=
  let own := Config.clockIdentity
  if a.identity ≠ b.identity then
    ⟨lexLess [a.priority1, a.clockClass, a.accuracy, a.variance, a.priority2, a.identity]
      [b.priority1, b.clockClass, b.accuracy, b.variance, b.priority2, b.identity], false⟩
  else if b.stepsRemoved + 1 < a.stepsRemoved then ⟨false, false⟩
  else if a.stepsRemoved + 1 < b.stepsRemoved then ⟨true, false⟩
  else if b.stepsRemoved < a.stepsRemoved then ⟨false, decide (a.sender < own)⟩
  else if a.stepsRemoved < b.stepsRemoved then ⟨true, decide (b.sender < own)⟩
  else ⟨lexLess [a.sender, a.senderPort, aPort] [b.sender, b.senderPort, bPort], true⟩

/-- Whether one data set is better than another heard on the same port. -/
def ptpBetter (a b : PtpMaster) : Bool := (ptpCompare a 0 b 0).better

/-- Whether two Announces come from one sender. -/
def sameSender (a b : PtpMaster) : Bool := a.sender == b.sender && a.senderPort == b.senderPort

/-- The best of the masters that a port may choose: heard twice, and fewer than 255 steps away. -/
def PtpPort.qualified (p : PtpPort) : Option PtpMaster :=
  (p.masters.filter fun m => decide (2 ≤ m.2) && decide (m.1.stepsRemoved < 255)).foldl (fun a m =>
    match a with
    | none => some m.1
    | some b => if ptpBetter m.1 b then some m.1 else a) none

/-- The parent: the best master of the slave port. -/
def State.parent (s : State) : Option PtpMaster := s.slavePort.bind fun p => (s.ptpPort p).qualified

/-- clockClass the module announces and carries on its rings: that of the source while it follows one, 7 in HOLDOVER. -/
def State.clockClass (s : State) : Nat :=
  if s.timeState = tsHoldover ∧ s.time.wasLocked then 7
  else match s.parent with
    | some m => m.clockClass
    | none => s.fld TIME_PTPPRI TIME_PTPPRI_CLOCKCLASS

/-- stepsRemoved of the module. -/
def State.stepsRemoved (s : State) : Nat :=
  match s.parent with
  | some m => m.stepsRemoved + 1
  | none => 0

/-- The module's own data set, as a master announces it: clockClass 7 in HOLDOVER after a lock. -/
def State.ownMaster (s : State) : PtpMaster where
  identity := Config.clockIdentity
  priority1 := s.fld TIME_PTPPRI TIME_PTPPRI_PRIORITY1
  clockClass := if s.timeState = tsHoldover ∧ s.time.wasLocked then 7 else s.fld TIME_PTPPRI TIME_PTPPRI_CLOCKCLASS
  accuracy := Config.clockAccuracy
  variance := Config.clockVariance
  priority2 := s.fld TIME_PTPPRI TIME_PTPPRI_PRIORITY2
  stepsRemoved := 0
  sender := Config.clockIdentity
  senderPort := 0
  utcOffset := signed16 (s.fld TIME_UTC TIME_UTC_UTC)

/-- The module's data set in the state decision: its clockClass is the configured one also in HOLDOVER, so that a returning
source can be selected (R284; DEDUCED, log entry 113). -/
def State.decisionSet (s : State) : PtpMaster :=
  { s.ownMaster with clockClass := s.fld TIME_PTPPRI TIME_PTPPRI_CLOCKCLASS }

/-- The port that hears the best master, with that master. -/
def State.bestPort (s : State) : Option (Nat × PtpMaster) :=
  s.ptpPorts.foldl (fun a p =>
    match (s.ptpPort p).qualified, a with
    | none, _ => a
    | some m, none => some (p, m)
    | some m, some b => if (ptpCompare m p b.2 b.1).better then some (p, m) else a) none

/-- The state decision of a port (the default BMCA). -/
def State.portRole (s : State) (p : Nat) : PtpRole :=
  if !s.ptpPorts.contains p then .disabled
  else
    let own := s.decisionSet
    let here := (s.ptpPort p).qualified
    match s.bestPort with
    | none => if s.ptpMode = 1 then .listening else .master
    | some (b, best) =>
      if s.ptpMode = 1 then (if p = b then .slave else .listening)
      else if own.clockClass < 128 then
        (match here with
          | some m => if (ptpCompare own 0 m p).better then .master else .passive
          | none => .master)
      else if (ptpCompare own 0 best b).better then .master
      else if p = b then .slave
      else match here with
        | some m => if (ptpCompare best b m p).topology then .passive else .master
        | none => .master

/-- Every port takes the role of the state decision. -/
def State.decideRoles (s : State) : State := s.forEach [0, 1, 2, 3] fun p t => t.modPort p fun k => { k with role := s.portRole p }

/-- The source is followed, once a parent is selected; `fresh`: another one than before (R284). -/
def State.followParent (s : State) (fresh : Bool) : State :=
  match s.parent with
  | none => s
  | some m =>
    let s := ((s.setReg TIME_GMIDL (BitVec.ofNat 32 m.identity)).setReg TIME_GMIDH (BitVec.ofNat 32 (m.identity / 0x100000000))).setReg
      TIME_UTC (BitVec.ofInt 32 m.utcOffset &&& 0xFFFF)
    s.when (s.isSet TIME_CTRL TIME_CTRL_SRC && (fresh || s.timeState == tsFree || s.timeState == tsHoldover)) fun t =>
      t.setTimeState tsAcquiring

/-- Decide the roles anew and follow the parent that results. -/
def State.reselect (s : State) : State :=
  let t := s.decideRoles
  let fresh : Bool := match s.parent, t.parent with
    | some a, some b => !sameSender a b
    | none, some _ => true
    | _, none => false
  t.followParent fresh

/-- A port's state machine restarts (TIME_PTPCFG.PORTEN, MODE). -/
def State.restartPort (s : State) (p : Nat) : State := s.modPort p fun _ => PtpPort.reset

/-- The source is lost (R284): its port forgets the parent, and another master that it hears may be followed. -/
def State.sourceLoss (s : State) : State :=
  let s := (match s.slavePort, s.parent with
    | some p, some m => s.modPort p fun k =>
        { k with masters := k.masters.filter fun e => !sameSender e.1 m, sync := none, asked := none }
    | _, _ => s).decideRoles
  let s := if s.timeState = tsLocked then
      ((((s.setTimeState tsHoldover).lockLoss).bump TIME_LOSSCNT).evState srcTime TIME_STATUS tsLocked tsHoldover).modTime fun k =>
        { k with slewLeft := 0 }
    else if s.timeState = tsAcquiring then s.setTimeState tsFree
    else s
  s.followParent false

/-- TIME_CTRL.SRC is 0: FREE. -/
def State.sourceOff (s : State) : State := if s.isSet TIME_CTRL TIME_CTRL_SRC then s else s.setTimeState tsFree

/-! ### Commands -/

/-- A Sync arrives with its origin time and the raw time of its arrival (R285, R286, R288). -/
def State.ptpSync (s : State) (port domain sender senderPort : Nat) (origin raw : Int) : State :=
  s.arrive port fun s => if !s.isSet TIME_CTRL TIME_CTRL_SRC then s.sourceOff
    else if s.slavePort = some port ∧ domain = s.ptpDomain ∧
        s.parent.any (fun m => m.sender == sender && m.senderPort == senderPort) then
      let t2 := s.stampIn (12 + port) raw
      let offset := t2 - origin - (s.ptpPort port).pathDelay
      let s := (s.followParent false).modPort port fun k => { k with sync := some (origin, t2) }
      if s.time.stepped then s.modTime fun k => { k with stepped := false }
      else ((s.setReg TIME_OFFS (satWord (offset / 65536))).judgeOffset offset).servo offset
    else s

/-- An Announce is heard on a port: each sender is kept with the number of its Announces. -/
def State.heardAnnounce (s : State) (p : Nat) (m : PtpMaster) : State :=
  (s.modPort p fun k =>
    { k with masters := match k.masters.find? fun e => sameSender e.1 m with
        | some e => (m, e.2 + 1) :: k.masters.filter fun e => !sameSender e.1 m
        | none => (m, 1) :: k.masters }).reselect

/-- The answer to a delay request completes a measurement of the path delay. -/
def State.pathDelayDone (s : State) (p : Nat) (d : Int → Option Int) : State :=
  s.modPort p fun k => match k.asked.bind d with
    | some x => { k with pathDelay := x / 2, asked := none }
    | none => k

/-- Send a PTP message. -/
def State.sendPtp (s : State) (p : Nat) (m : PtpOut) : State :=
  s.sendOn p (.ptp p s.ptpDomain (bitAt (s.fld TIME_PTPCFG TIME_PTPCFG_UDP) p) m)

/-- Whether a port measures peer to peer. -/
def State.peerToPeer (s : State) (p : Nat) : Bool := bitAt (s.fld TIME_PTPCFG TIME_PTPCFG_P2P) p

/-- A received message other than Sync (R294). -/
def State.ptpMessage (s : State) (p : Nat) (m : PtpMsg) : State :=
  match m with
  | .announce m => s.heardAnnounce p m
  | .delayReq r rp q raw =>
    if (s.ptpPort p).role = .master ∧ !s.peerToPeer p then s.sendPtp p
      (.delayResp r rp q (clampNat 0 5 (s.fld TIME_PTPINT TIME_PTPINT_LOGMINDELAY) : Nat) (s.stampIn (12 + p) raw)) else s
  | .delayResp t4 =>
    if s.peerToPeer p then s
    else match (s.ptpPort p).sync with
      | some (t1, t2) => s.pathDelayDone p fun t3 => some ((t2 - t1) + (t4 - t3))
      | none => s
  | .pdelayReq r rp q raw sent =>
    if s.peerToPeer p then s.sendPtp p (.pdelayResp r rp q (s.stampIn (12 + p) raw) (s.stampOut (12 + p) sent)) else s
  | .pdelayResp t2 t3 raw =>
    if s.peerToPeer p then s.pathDelayDone p fun t1 => some ((s.stampIn (12 + p) raw - t1) - (t3 - t2)) else s

/-- PTP_MESSAGE. -/
def execPtpMessage (port : Fin 4) (domain : Nat) (m : PtpMsg) (s : State) : Host.Outcome State Fault Refusal :=
  .next (s.arrive port.val fun s => if s.ptpPorts.contains port.val ∧ domain = s.ptpDomain then s.ptpMessage port.val m else s)

/-- PTP_SOURCE_LOSS. -/
def execPtpSourceLoss (s : State) : Host.Outcome State Fault Refusal := .next s.sourceLoss

/-- STEP_COMMAND. -/
def execStepCommand (s : State) : Host.Outcome State Fault Refusal := .next s.stepCommand

/-- CLOCK_CAPTURE. -/
def execClockCapture (s : State) : Host.Outcome State Fault Refusal := .next s.clockCapture

/-- A signed field of 4 bits, limited. -/
def logInterval (lo hi : Int) (x : Nat) : Int := max lo (min hi (BitVec.ofNat 4 x).toInt)

/-- What a port sends of its own accord, `raw` the raw time of its departure. -/
def State.ptpSend (s : State) (p : Nat) (kind : PtpKind) (raw : Int) : State :=
  let k := s.ptpPort p
  let t := s.stampOut (12 + p) raw
  let next (s : State) : State := s.modPort p fun k => { k with seq := k.seq + 1 }
  match kind with
  | .sync =>
    if k.role = .master then
      (s.sendPtp p (.sync k.seq (logInterval (-1) 1 (s.fld TIME_PTPINT TIME_PTPINT_LOGSYNC)) t)) |> next
    else s
  | .announce =>
    if k.role = .master then
      let own := s.ownMaster
      let m := { (s.parent.getD own) with stepsRemoved := s.stepsRemoved, sender := own.identity, senderPort := p + 1,
                                          utcOffset := own.utcOffset }
      (s.sendPtp p (.announce k.seq (clampNat 0 4 (s.fld TIME_PTPINT TIME_PTPINT_LOGANN) : Nat) m)) |> next
    else s
  | .delayReq =>
    if k.role = .slave ∧ !s.peerToPeer p then
      next ((s.sendPtp p (.delayReq k.seq t)).modPort p
        fun k => { k with asked := some t })
    else s
  | .pdelayReq =>
    if s.peerToPeer p then
      next ((s.sendPtp p (.pdelayReq k.seq t)).modPort p fun k => { k with asked := some t })
    else s

/-- PTP_MESSAGE_SEND. -/
def execPtpMessageSend (port : Fin 4) (kind : PtpKind) (raw : Int) (s : State) : Host.Outcome State Fault Refusal :=
  .next (if s.ptpPorts.contains port.val then s.ptpSend port.val kind raw else s)

end Sys2Proof.Machine
end

