-- ==== Sys2Proof/Machine/Queues.lean ====
section
/-!
DEFINITION. The queue blocks (13_queues.md): banks, hand-over and end marks. What crosses between the clocks is exact
here: a view lags only by commands that have not come yet (R331).
-/

namespace Sys2Proof.Machine

/-- The number of an instance. -/
def queueIndex : QueueId → Fin 32
  | .ring n west => ⟨2 * n.val + bit west, by have := n.isLt; cases west <;> simp [bit] <;> omega⟩
  | .bridge n => ⟨12 + n.val, by omega⟩
  | .coupler l => ⟨28 + l.val, by omega⟩

/-- Q_CFG of an instance (R335). -/
def queueCfg : QueueId → Nat
  | .ring n west => if west then SOP_QW_CFG n else SOP_QE_CFG n
  | .bridge n => BRG_Q_CFG n
  | .coupler l => CPL_Q_CFG l
/-- Q_STATUS, Q_DROP and Q_TOUT stand 4, 8 and 12 bytes above Q_CFG. -/
def queueStatus (q : QueueId) : Nat := queueCfg q + 4
def queueDrop (q : QueueId) : Nat := queueCfg q + 8
def queueTout (q : QueueId) : Nat := queueCfg q + 12

/-- Bank size (R325). -/
def queueSize : QueueId → Nat
  | .coupler _ => 8192
  | _ => 2048
/-- Largest packet with its descriptor (R325). -/
def queueLargest : QueueId → Nat
  | .ring _ _ => 1526
  | .bridge _ => 1488
  | .coupler _ => 4104
/-- Whether the writer can be paused. -/
def queueStallable : QueueId → Bool
  | .coupler _ => true
  | _ => false

/-- The instance. -/
def State.queue (s : State) (q : QueueId) : Queue := s.queues[queueIndex q]
/-- Change the instance. -/
def State.modQueue (s : State) (q : QueueId) (g : Queue → Queue) : State :=
  { s with queues := s.queues.set (queueIndex q).val (g (s.queue q)) }

/-- Bank states (R326). -/
def bankEmpty : Nat := 0
def bankFilling : Nat := 1
def bankReady : Nat := 3
def bankDraining : Nat := 2

/-- The field of Q_STATUS that shows a bank. -/
def bankField (b : Fin 2) : Field := if b = 0 then SOP_QE_STATUS_BANKA else SOP_QE_STATUS_BANKB
/-- State of a bank. -/
def State.bankState (s : State) (q : QueueId) (b : Fin 2) : Nat := s.fld (queueStatus q) (bankField b)
/-- Set the state of a bank. -/
def State.setBank (s : State) (q : QueueId) (b : Fin 2) (v : Nat) : State := s.putFld (queueStatus q) (bankField b) v

/-- Change a bank's content. -/
def Queue.modBank (k : Queue) (b : Fin 2) (g : QBank → QBank) : Queue := { k with banks := k.banks.set b.val (g k.banks[b]) }

/-- The other bank. -/
def otherBank (b : Fin 2) : Fin 2 := if b = 0 then 1 else 0

/-- The bank the writer appends to. -/
def State.fillingBank (s : State) (q : QueueId) : Option (Fin 2) :=
  ([0, 1] : List (Fin 2)).find? fun b => s.bankState q b == bankFilling && !((s.queue q).banks[b]).closed

/-- A bank is handed over (R327). -/
def State.handOverBank (s : State) (q : QueueId) (b : Fin 2) : State :=
  (s.setBank q b bankReady).modQueue q fun k => { k with handed := k.handed ++ [b] }

/-- Append a packet to a bank; the first packet of a bank that reaches THRESH hands it over at once. -/
def State.appendPacket (s : State) (q : QueueId) (b : Fin 2) (p : Packet) : State :=
  let first := ((s.queue q).banks[b]).packets.isEmpty
  let th := 16 * s.fld (queueCfg q) SOP_QE_CFG_THRESH
  let s := s.modQueue q fun k => k.modBank b fun x =>
    { x with packets := x.packets ++ [p], used := x.used + p.size + 8 }
  if first ∧ th ≠ 0 ∧ th ≤ p.size then s.handOverBank q b else s

/-- A packet arrives at a queue: the writer needs a bank (R326, R330). -/
def State.enqueue (s : State) (q : QueueId) (p : Packet) : State :=
  match s.fillingBank q with
  | some b => s.appendPacket q b p
  | none =>
    let b := (s.queue q).next
    if s.bankState q b = bankEmpty then
      ((s.setBank q b bankFilling).modQueue q fun k => { k with next := otherBank b }).appendPacket q b p
    else (s.flag (queueStatus q) SOP_QE_STATUS_STALL).modQueue q fun k => { k with waiting := k.waiting ++ [p] }

/-- The bank that holds a packet still being written. -/
def State.writingBank (s : State) (q : QueueId) : Option (Fin 2) :=
  ([0, 1] : List (Fin 2)).find? fun b => ((s.queue q).banks[b]).packets.any fun p => p.good.isNone

/-- Put the end mark on the packets still being written. -/
def markPackets (good : Bool) (l : List Packet) : List Packet :=
  l.map fun p => if p.good.isNone then { p with good := some good } else p

/-- A packet's end: the bank closes, or is full (R327). -/
def State.endInBank (s : State) (q : QueueId) (b : Fin 2) (good : Bool) : State :=
  let s := s.modQueue q fun k => k.modBank b fun x => { x with packets := markPackets good x.packets }
  if s.bankState q b = bankFilling then
    if queueSize q < ((s.queue q).banks[b]).used + queueLargest q then
      (s.handOverBank q b).modQueue q fun k => k.modBank b fun x => { x with closed := true }
    else s
  else s.modQueue q fun k => k.modBank b fun x => { x with closed := true }

/-- The packet that a withheld handshake has kept ends: a writer that cannot be paused truncates it beyond 256 bytes
(R330). -/
def State.endWaiting (s : State) (q : QueueId) (good : Bool) : State :=
  let k := s.queue q
  if !queueStallable q ∧ 256 < (k.waiting.map Packet.size).foldl (· + ·) 0 then
    let s := s.modQueue q fun k => { k with waiting := k.waiting.filter fun p => p.good.isSome }
    (((s.flag (queueStatus q) SOP_QE_STATUS_OVF).flag (queueStatus q) SOP_QE_STATUS_BAD).bump (queueDrop q)).evLimit
      (srcOf (queueCfg q)) (queueStatus q % 0x10000) 257 256
  else
    (s.when (!good) fun t => t.flag (queueStatus q) SOP_QE_STATUS_BAD).modQueue q fun k =>
      { k with waiting := markPackets good k.waiting }

/-- The end mark of the packet being written. -/
def State.endPacket (s : State) (q : QueueId) (good : Bool) : State :=
  match s.writingBank q with
  | some b => (s.when (!good) fun t => t.flag (queueStatus q) SOP_QE_STATUS_BAD).endInBank q b good
  | none => if (s.queue q).waiting.any (fun p => p.good.isNone) then s.endWaiting q good else s

/-- An uncorrectable error in bank storage (R334). -/
def State.queueEcc (s : State) (q : QueueId) : State :=
  (s.flag (queueStatus q) SOP_QE_STATUS_ECC).event (srcOf (queueCfg q)) 3 sevFault
    [(Config.paramCode 1 (queueIndex q).val).toNat]

/-- Whether the frame check sequence of an Ethernet frame, its last four bytes, is right. A frame of another size than 64 to
1,518 bytes is no frame of R229 and fails like one (DEDUCED, log entry 121). -/
def fcsGood (f : List Byte) : Bool := decide (64 ≤ f.length) && decide (f.length ≤ 1518) && ofLe (f.drop (f.length - 4)) == crc32 (f.take (f.length - 4))

/-- The packet being written, and whether its frame check is good as its bytes tell. -/
def State.openPacket (s : State) (q : QueueId) : Option Packet :=
  ((s.queue q).banks.toList.flatMap QBank.packets ++ (s.queue q).waiting).find? fun p => p.good.isNone

/-- QUEUE_PACKET_END: a ring packet is the one being written, and its frame check decides; a bridge or coupler packet,
of `size` bytes, arrives with its end. -/
def execQueuePacketEnd (q : QueueId) (size : Nat) (how : PacketEnd) (s : State) : Host.Outcome State Fault Refusal :=
  .next (
    let s := match q with
      | .ring _ _ => s
      | _ => s.enqueue q { data := [], size := size, start := 0, good := none }
    match s.openPacket q with
    | none => s
    | some p =>
      let fcs := match q with
        | .ring n _ =>
          if fcsGood p.data then (s, true) else (s.bump (SOP_FCSERR n), false)
        | _ => (s, true)
      let s := fcs.1
      match how with
      | .good => s.endPacket q fcs.2
      | .ecc => (s.endPacket q false).queueEcc q
      | .badCheck | .cut | .linkLost => s.endPacket q false)

/-- QUEUE_TAIL_TIMEOUT (R327). -/
def execQueueTailTimeout (q : QueueId) (s : State) : Host.Outcome State Fault Refusal :=
  .next (match s.fillingBank q with
    | none => s
    | some b =>
      let ps := ((s.queue q).banks[b]).packets
      if ps.any fun p => p.good.isSome then
        ((s.handOverBank q b).bump (queueTout q)).modQueue q fun k => k.modBank b fun x =>
          { x with closed := ps.all fun p => p.good.isSome }
      else s)

/-- Discard the BAD packets at the front: each counts, and its place in the order is consumed (R329). -/
def dropBad : List Packet → Nat × List Packet
  | [] => (0, [])
  | p :: ps => if p.good = some false then ((dropBad ps).1 + 1, (dropBad ps).2) else (0, p :: ps)

/-- The reader looks at the next packet: what it is, and the state with the BAD packets before it discarded. -/
def State.headPacket (s : State) (q : QueueId) : State × Option Packet :=
  match (s.queue q).handed with
  | [] => (s, none)
  | b :: _ =>
    match dropBad ((s.queue q).banks[b]).packets with
    | (n, ps) =>
      (((s.setBank q b bankDraining).bumpBy (queueDrop q) n).modQueue q fun k => k.modBank b fun x => { x with packets := ps },
        ps.head?.filter fun p => p.good == some true)

/-- The reader consumes the next packet. -/
def State.popPacket (s : State) (q : QueueId) : State :=
  match (s.queue q).handed with
  | [] => s
  | b :: _ => s.modQueue q fun k => k.modBank b fun x => { x with packets := x.packets.tail }

/-- Packets that waited for a bank enter it. -/
def State.refill (s : State) (q : QueueId) : State :=
  let ws := (s.queue q).waiting
  let s := s.modQueue q fun k => { k with waiting := [] }
  s.forEach ws fun p t =>
    let t := t.enqueue q { p with good := none }
    match p.good, t.writingBank q with
    | some g, some b => t.endInBank q b g
    | _, _ => t

/-- QUEUE_BANK_DRAINED: the reader has consumed every packet of a closed bank. The packets of a ring are consumed by
the commands that read them; those of a bridge or a coupler instance are consumed with this command. -/
def execQueueBankDrained (q : QueueId) (s : State) : Host.Outcome State Fault Refusal :=
  .next (
    match s.headPacket q with
    | (t, _) =>
      match (t.queue q).handed with
      | [] => s
      | b :: rest =>
        let ps := ((t.queue q).banks[b]).packets
        let done : Bool := match q with
          | .ring _ _ => ps.isEmpty
          | _ => true
        if ((t.queue q).banks[b]).closed ∧ done then
          ((t.bumpBy (queueDrop q) (ps.filter fun p => p.good == some false).length).setBank q b bankEmpty |>.modQueue q fun k =>
            { (k.modBank b fun _ => { packets := [], used := 0, closed := false }) with handed := rest }).refill q
        else t)

/-- An instance is emptied; packets discarded are not counted (R333). -/
def State.emptyQueue (s : State) (q : QueueId) : State :=
  ((s.setBank q 0 bankEmpty).setBank q 1 bankEmpty).modQueue q fun _ => Queue.reset

end Sys2Proof.Machine
end

