-- ==== Sys2Proof/Machine/Rings.lean ====
section
/-!
DEFINITION. The ring controllers: groups, positions and windows, frames as bytes, input and output blocks
(09_sopin_ring.md, 10_ring_healing_stations.md). Instants inside a frame are in units of 2^-16 ns after its tick; slot
starts, lengths, positions and guards are in units of 8 ns, as the registers hold them.
-/

namespace Sys2Proof.Machine

/-- One 8 ns unit of the ring's grid. -/
def unit8 : Int := 524288

/-- The SOURCE of a ring controller. -/
def srcSop (n : Nat) : Nat := srcOf (SOP_STATUS n)


/-- What the controller holds of a station. -/
def State.station (s : State) (n id : Nat) : Station := sparseGet (fun _ => Station.reset) (s.ring n).stations id
/-- Change what the controller holds of a station. -/
def State.modStation (s : State) (n id : Nat) (g : Station → Station) : State :=
  s.modRing n fun k => { k with stations := sparseSet (fun _ => Station.reset) k.stations id (g (sparseGet (fun _ => Station.reset) k.stations id)) }

/-- States of SOPn_STAid.STATE. -/
def staAbsent : Nat := 0
def staIdent : Nat := 1
def staLoading : Nat := 2
def staActive : Nat := 3
def staRejected : Nat := 4
def staDropped : Nat := 5

/-- SOPn_STAid.STATE. -/
def State.sta (s : State) (n id : Nat) : Nat := s.fld (SOP_STA n id) SOP_STA_STATE
/-- Set SOPn_STAid.STATE. -/
def State.setSta (s : State) (n id v : Nat) : State := s.putFld (SOP_STA n id) SOP_STA_STATE v

/-- Slot types (R240). -/
def slSync : Nat := 0
def slOut : Nat := 1
def slIn : Nat := 2
def slMgmt : Nat := 3
def slMrsp : Nat := 4
def slClaim : Nat := 5
/-- TYPE of a cold-start frame (R233). -/
def typCstart : Nat := 6

/-- Station IDs. -/
def allIds : List Nat := (List.range 254).map (· + 1)

/-! ### The consist (R259) -/

/-- A consist entry is enabled. -/
def State.conEnabled (s : State) (n id : Nat) : Bool := s.isSet (SOP_CON_W0 n id) SOP_CON_W0_EN

/-- A consist entry meets its rule. -/
def State.conRule (s : State) (n id : Nat) : Bool :=
  let g := s.fld (SOP_CON_W0 n id) SOP_CON_W0_GEN
  g == s.fld (SOP_CON_W1 n id) SOP_CON_W1_GEN && g == s.fld (SOP_CON_W2 n id) SOP_CON_W2_GEN &&
    g == s.fld (SOP_CON_W3 n id) SOP_CON_W3_GEN && s.isSet (SOP_CON_W0 n id) SOP_CON_W0_TYPE &&
    s.isSet (SOP_CON_W3 n id) SOP_CON_W3_SETUPMAX && s.isSet (SOP_CON_W3 n id) SOP_CON_W3_WDMAX &&
    (!s.isSet (SOP_CON_W0 n id) SOP_CON_W0_CSIDX || (s.reg (SOP_CON_W2 n id)).getLsbD 1)

/-- The ID is in the consist: enabled and consistent. -/
def State.inConsist (s : State) (n id : Nat) : Bool :=
  decide (1 ≤ id) && decide (id ≤ 254) && s.conEnabled n id && s.conRule n id

/-- A use of a consist entry: an inconsistent one sets CFG_SKEW and records an event. -/
def State.useConsist (s : State) (n id : Nat) : State :=
  if s.conEnabled n id && !s.conRule n id then (s.flag (SOP_STATUS n) SOP_STATUS_CFG_SKEW).evGroup (srcSop n) id else s

/-! ### Positions (R231, R279, R397) -/

/-- The loop delay that counts: measured, or the design value in a broken start (R270). -/
def State.loopC (s : State) (n : Nat) : Nat :=
  if s.isSet (SOP_LOOP n) SOP_LOOP_VALID then s.fld (SOP_LOOP n) SOP_LOOP_C else s.fld (SOP_CNOM n) SOP_CNOM_CNOM

/-- The position of a station in effect. -/
def State.position (s : State) (n id : Nat) : Option Nat :=
  if s.isSet (SOP_PNOM n id) SOP_PNOM_VALID then some (s.fld (SOP_PNOM n id) SOP_PNOM_PNOM)
  else if s.isSet (SOP_STA n id) SOP_STA_POSVALID then some (s.fld (SOP_STA n id) SOP_STA_POS)
  else none

/-- The position that R268 uses: the measured one where there is one. -/
def State.knownPosition (s : State) (n id : Nat) : Option Nat :=
  if s.isSet (SOP_STA n id) SOP_STA_POSVALID then some (s.fld (SOP_STA n id) SOP_STA_POS) else s.position n id

/-- Whether a ring is dual-homed, in a member of a pair (R395). -/
def State.dualHomed (s : State) (n : Nat) : Bool := s.cpl.member && bitAt (CPL_CFG_DHRINGS.get s.cpl.cfg) n
/-- The module is the ALTERNATE. -/
def State.alternate (s : State) : Bool := CPL_CFG_ROLE.get s.cpl.cfg != 0
/-- d_H in 2^-16 ns: measured, or its design value (R397). -/
def State.hopDelay (s : State) (n : Nat) : Int :=
  ((if s.isSet (CPL_HOP n) CPL_HOP_VALID then s.fld (CPL_HOP n) CPL_HOP_HMEAS else s.fld (CPL_HOP n) CPL_HOP_HNOM) : Nat) * 65536
/-- 0.512 µs. -/
def forwardDelay : Int := 64 * unit8
/-- H of R397 where it shifts this module's times: 0 but for the ALTERNATE on a dual-homed ring. -/
def State.hopShift (s : State) (n : Nat) : Int :=
  if s.dualHomed n && s.alternate then s.hopDelay n + forwardDelay else 0

/-- When a frame of slot start S of a sender at position p starts at port nE or nW. -/
def State.stationTime (s : State) (n : Nat) (start p : Nat) (west : Bool) : Int :=
  if west then ((start : Int) + s.loopC n - p) * unit8 - s.hopShift n else ((start : Int) + p) * unit8 + s.hopShift n

/-- When a frame of node 0 starts at port nE or nW: its own copies, or at a standby those of the active module. -/
def State.moduleTime (s : State) (n : Nat) (start : Nat) (west : Bool) : Int :=
  let back := ((start : Int) + s.loopC n) * unit8
  if s.dualHomed n && s.standby then
    (match s.alternate, west with
      | true, true => back - s.hopShift n
      | true, false => (start : Int) * unit8 + s.hopDelay n
      | false, true => (start : Int) * unit8 - forwardDelay
      | false, false => back)
  else if west then back - s.hopShift n else back + s.hopShift n

/-- G in use. -/
def State.gUse (s : State) (n : Nat) : Int := (s.ring n).guard * unit8

/-- The smallest and largest position of an enabled consist station, as far as the module holds them. -/
def State.positionSpan (s : State) (n : Nat) : Option (Nat × Nat) :=
  (allIds.filterMap fun id => if s.inConsist n id then s.position n id else none).foldl (fun a p =>
    match a with
    | none => some (p, p)
    | some (l, h) => some (min l p, max h p)) none

/-- The grantee of a slot in this frame. -/
def State.granteeOf (s : State) (n slot : Nat) : Option Nat := (s.ring n).grants.lookup slot

/-- The sender that a slot belongs to in this frame (R246). -/
def State.slotSender (s : State) (n : Nat) (u : SlotUse) : Option Nat := if u.owner = 255 then s.granteeOf n u.index else some u.owner

/-- The earliest and the latest expected start of frame of a slot at a port. -/
def State.expected (s : State) (n : Nat) (u : SlotUse) (west : Bool) : Option (Int × Int) :=
  (s.slotSender n u).bind fun o =>
    if o = 0 then some (s.moduleTime n u.start west, s.moduleTime n u.start west)
    else match s.position n o with
      | some p => some (s.stationTime n u.start p west, s.stationTime n u.start p west)
      | none =>
        if u.owner != 255 then none
        else match s.positionSpan n with
          | some (l, h) =>
            let a := s.stationTime n u.start l west
            let b := s.stationTime n u.start h west
            some (min a b, max a b)
          | none => some ((u.start : Int) * unit8, s.moduleTime n u.start true)

/-- Whether a start of frame lies in the acceptance window of a slot (R246). -/
def State.inWindow (s : State) (n : Nat) (u : SlotUse) (west : Bool) (t : Int) : Bool :=
  u.ok && (match s.expected n u west with
    | some (a, b) => decide (2 * a - s.gUse n ≤ 2 * t) && decide (2 * t ≤ 2 * b + s.gUse n)
    | none => false)

/-! ### The IDT (R121, R122) -/

/-- Address of an IDT entry. -/
def idtAddr (i : Nat) : Nat := 0x10000000 + 16 * i

/-- Every field of an IDT entry in its range, and CHK. -/
def idtRule (bs : List Byte) : Bool :=
  let w := ofLe bs
  let an := w.testBit 12
  let count := bitsAt w 64 13
  decide (1 ≤ bitsAt w 0 8) && decide (bitsAt w 0 8 ≤ 254) && decide (bitsAt w 8 3 ≤ 5) && !w.testBit 13 && bitsAt w 15 17 == 0 &&
    bitsAt w 49 15 == 0 && decide (1 ≤ count) && decide (count ≤ if an then 512 else 4096) && bitsAt w 77 3 == 0 &&
    decide (bitsAt w 96 3 ≤ 2) && bitsAt w 99 13 == 0 && decide (bitsAt w 32 17 + count ≤ kindPoints an) &&
    bitsAt w 112 16 == crc16 (bs.take 14)

/-- A slot reads an IDT entry. The answer tells how the entry stands: 0 good, 1 disabled, 2 inconsistent. -/
def State.readIdt (s : State) (n typ owner dst i : Nat) : IoBlock × Nat :=
  let bs := s.bytes (idtAddr i) 16
  let w := ofLe bs
  let st := bitsAt w 0 8
  let out := w.testBit 11
  let agrees := bitsAt w 8 3 == n && (if typ = slIn then !out && st == owner else out && (dst == 255 || dst == st))
  let good := !s.rangeUe (idtAddr i) 16 && idtRule bs && agrees
  ({ index := i, ok := w.testBit 14 && good, station := st, output := out, analog := w.testBit 12,
     start := bitsAt w 32 17, count := bitsAt w 64 13, payoff := bitsAt w 80 16, policy := bitsAt w 96 3 },
    if s.rangeUe (idtAddr i) 16 then 2 else if !w.testBit 14 then 1 else if good then 0 else 2)

/-- A use of an IDT entry: an inconsistent one is flagged, counted, and recorded. -/
def State.useIdt (s : State) (n typ owner dst i : Nat) : State × IoBlock :=
  match s.readIdt n typ owner dst i with
  | (b, k) =>
    let s := s.reportRange (idtAddr i) 16
    (if k = 2 then
      (((s.flag IMG_STATUS IMG_STATUS_CFG_SKEW).bump IMG_IDTBAD).setReg IMG_IDTLAST (BitVec.ofNat 32 (i % 32768))).evGroup
        (srcOf IMG_STATUS) i
    else s, b)

/-- The IDT entries of a slot, those that the table holds. -/
def idtRange (first num : Nat) : List Nat := (List.range num).filterMap fun i => if first + i < 32768 then some (first + i) else none

/-- A slot uses its IDT entries in order. -/
def State.useIdts (s : State) (n typ owner dst : Nat) : List Nat → State × List IoBlock
  | [] => (s, [])
  | i :: is =>
    match s.useIdt n typ owner dst i with
    | (t, b) =>
      match t.useIdts n typ owner dst is with
      | (u, bs) => (u, b :: bs)

/-! ### Input blocks -/

/-- The points of a block that exist. -/
def IoBlock.points (b : IoBlock) : List Nat :=
  (List.range b.count).filterMap fun j => if b.start + j < kindPoints b.analog then some (b.start + j) else none

/-- The last value a point received with tag V or F (POLICY HOLD, R121): a payload carries tag V or S only. -/
def State.heldValue (s : State) (analog : Bool) (i : Nat) : Nat := sparseGet (fun _ => 0) s.held (2 * i + bit analog)
/-- Keep the last value received with tag V. -/
def State.setHeld (s : State) (analog : Bool) (i v : Nat) : State :=
  { s with held := sparseSet (fun _ => 0) s.held (2 * i + bit analog) v }

/-- Every point of a block takes a value in a bank. -/
def State.fillBlock (s : State) (bank : Nat) (b : IoBlock) (f : Nat → Point) : State :=
  s.forEach b.points fun i t => t.putPoint bank b.analog i (f i)

/-- The safe side of an input entry: HOLD with tag S plus E (R122). -/
def State.fillSafe (s : State) (bank : Nat) (b : IoBlock) : State :=
  s.fillBlock bank b fun i => { value := s.heldValue b.analog i, tag := tagS + tagE }

/-- Hardware reads a block's cells in a full image: each word that it cannot read is reported (R112, log entry 15). -/
def State.meetBlock (s : State) (base : Nat) (b : IoBlock) : State := s.meetPoints base b.analog b.start b.points.length

/-- A late input: the values of the bank before, with S (R21). -/
def State.fillLate (s : State) (bank prev : Nat) (b : IoBlock) : State :=
  (s.meetBlock prev b).fillBlock bank b fun i => { value := (s.point prev b.analog i).value, tag := tagS }

/-- A dropped station's block: the value of its POLICY with S plus E (R275). -/
def State.fillDropped (s : State) (bank : Nat) (b : IoBlock) : State :=
  (s.when (decide (2 ≤ b.policy)) fun t => t.meetBlock subBase b).fillBlock bank b fun i =>
    { value := if b.policy = 0 then s.heldValue b.analog i
               else if b.policy = 1 then 0 else (s.point subBase b.analog i).value,
      tag := tagS + tagE }

/-- Bit i of packed bytes, bit 0 of each byte first. -/
def packedBit (bs : List Byte) (i : Nat) : Bool := (bs.getD (i / 8) 0).getLsbD (i % 8)

/-- The j-th point of an input block as a payload carries it (R239). -/
def blockPoint (b : IoBlock) (payload : List Byte) (j : Nat) : Point :=
  let bs := payload.drop b.payoff
  if b.analog then
    { value := ofLe ((bs.drop (4 * j)).take 4), tag := if packedBit (bs.drop (4 * b.count)) j then tagS else 0 }
  else
    { value := bit (packedBit bs j), tag := if packedBit (bs.drop ((b.count + 7) / 8)) j then tagS else 0 }

/-- An accepted frame's input block goes into the filling bank (R250). -/
def State.fillInput (s : State) (bank : Nat) (payload : List Byte) (b : IoBlock) : State :=
  s.forEach (List.range b.count) fun j t =>
    let p := blockPoint b payload j
    let t := t.putPoint bank b.analog (b.start + j) p
    if p.tag = 0 then t.setHeld b.analog (b.start + j) p.value else t

/-! ### Output blocks (R239) -/

/-- Pack bits into bytes, bit 0 first. -/
def packBits (bs : List Bool) : List Byte :=
  (List.range ((bs.length + 7) / 8)).map fun k =>
    BitVec.ofNat 8 ((List.range 8).foldl (fun a j => a + bit (bs.getD (8 * k + j) false) * 2 ^ j) 0)

/-- Pack nibbles into bytes, the lower nibble first. -/
def packNibbles (xs : List Nat) : List Byte :=
  (List.range ((xs.length + 1) / 2)).map fun k => BitVec.ofNat 8 (xs.getD (2 * k) 0 + 16 * xs.getD (2 * k + 1) 0)

/-- An output block as bytes: values, then tags. -/
def blockBytes (analog : Bool) (ps : List Point) : List Byte :=
  (if analog then ps.flatMap fun p => leBytes 4 p.value else packBits (ps.map fun p => p.value % 2 == 1)) ++
    packNibbles (ps.map Point.tag)

/-- The not-transmitted form of a block: value bytes 0, every tag nibble 0xF. -/
def blankBlock (b : IoBlock) : List Byte :=
  List.replicate (if b.analog then 4 * b.count else (b.count + 7) / 8) 0 ++ packNibbles (List.replicate b.count 15)

/-- A point of the published image as an output block carries it: one that cannot be read goes out as the substitute with
S (R123). -/
def State.outPoint (s : State) (analog : Bool) (i : Nat) : Point :=
  if s.hasUe (cellAddr pubBase analog i) then { value := (s.point subBase analog i).value, tag := tagS }
  else s.point pubBase analog i

/-- The points of an output block, in order. Each published word that cannot be read is one case, and is reported once; a
substitute that is used and cannot be read is reported too (R112, R123). -/
def State.outValues (s : State) (b : IoBlock) : State × List Point :=
  let lost := b.points.filter fun i => s.hasUe (cellAddr pubBase b.analog i)
  let t := s.reportRange (cellAddr pubBase b.analog b.start) (b.count * cellSize b.analog)
  (t.forEach ((lost.map fun i => cellAddr subBase b.analog i / 8 * 8).eraseDups) fun a u => u.reportRange a 8,
    b.points.map (s.outPoint b.analog))

/-- Put bytes into a payload at an offset. -/
def putAt (pl : List Byte) (off : Nat) (bs : List Byte) : List Byte :=
  let pl := pl ++ List.replicate (off + bs.length - pl.length) 0
  pl.take off ++ bs ++ pl.drop (off + bs.length)

/-- Whether the output block of an entry is transmitted (R122, R276). -/
def State.transmits (s : State) (n : Nat) (b : IoBlock) : Bool := b.ok && s.sta n b.station != staDropped

/-- The blocks that are transmitted go into a payload. -/
def State.outBlocks (s : State) : List IoBlock → List Byte → State × List Byte
  | [], pl => (s, pl)
  | b :: bs, pl =>
    match s.outValues b with
    | (t, ps) => t.outBlocks bs (putAt pl b.payoff (blockBytes b.analog ps))

/-- A block of a DROPPED station is not transmitted: it counts (R276). -/
def State.countDiscard (s : State) (n : Nat) (b : IoBlock) : State :=
  (s.bump (SOP_OUTDISC n)).modRing n fun k =>
    { k with discards := k.discards.map fun d => if d.1 = b.station then (d.1, d.2 + 1) else d }

/-- The largest payload, and the frames that carry it (R229, R232). -/
def maxPayload : Nat := 1498
def maxFrame : Nat := 1518

/-- The output blocks of a slot: payload, and whether a block is transmitted (R239, R276). The blocks that are not transmitted
are written first, so that the place which an inconsistent entry names takes nothing from a transmitted one, and what lies
beyond byte 1,497 is not sent (DESIGN CHOICE, log entry 120). -/
def State.outPayload (s : State) (n : Nat) (l : List IoBlock) : State × List Byte × Bool :=
  let sent := l.filter (s.transmits n)
  let s' := s.forEach (l.filter fun b => b.ok && !s.transmits n b) fun b t => t.countDiscard n b
  let blank := (l.filter fun b => b.output && !s.transmits n b).foldl (fun pl b => putAt pl b.payoff (blankBlock b)) []
  match s'.outBlocks sent blank with
  | (t, pl) => (t, pl.take maxPayload, !sent.isEmpty)

/-! ### Frames as bytes (R232) -/

/-- Bytes 0 to 13 of a header. -/
def headerBytes (typ ring : Nat) (west : Bool) (src dst slot plen fcnt stat : Nat) : List Byte :=
  leBytes 1 (16 + typ) ++ leBytes 1 (ring + 8 * bit west) ++ leBytes 1 src ++ leBytes 1 dst ++ leBytes 2 slot ++
    leBytes 2 plen ++ leBytes 4 fcnt ++ leBytes 2 stat

/-- A whole frame: header with its CRC, payload padded to 44 bytes, FCS. -/
def frameBytes (typ ring : Nat) (west : Bool) (src dst slot fcnt stat : Nat) (payload : List Byte) : List Byte :=
  let h := headerBytes typ ring west src dst slot payload.length fcnt stat
  let f := h ++ leBytes 2 (crc16 h) ++ payload ++ List.replicate (44 - payload.length) 0
  f ++ leBytes 4 (crc32 f)

/-- The header fields of a received frame. -/
structure RingHeader where
  typ : Nat
  ring : Nat
  west : Bool
  src : Nat
  dst : Nat
  slot : Nat
  plen : Nat
  fcnt : Nat
  stat : Nat

/-- Read a header. -/
def ringHeader (f : List Byte) : RingHeader :=
  let w := ofLe (f.take 14)
  { typ := bitsAt w 0 4, ring := bitsAt w 8 3, west := w.testBit 11, src := bitsAt w 16 8, dst := bitsAt w 24 8,
    slot := bitsAt w 32 10, plen := bitsAt w 48 16, fcnt := bitsAt w 64 32, stat := bitsAt w 96 16 }

/-- SRC and DST that a TYPE allows (R233). -/
def headerRoute (typ src dst : Nat) : Bool :=
  let station (x : Nat) : Bool := decide (1 ≤ x) && decide (x ≤ 254)
  match typ with
  | 0 | 6 => decide (src ≤ 254) && dst == 255
  | 1 | 3 => src == 0 && dst != 0
  | 2 | 4 | 5 => station src && dst == 0
  | _ => false

/-- Whether a header is valid at a node of a ring (R234). The bits that must be 0 are those of RD, of SLOT, of the status word
(R235, R236), and SLOT in a CSTART. -/
def headerValid (n : Nat) (f : List Byte) : Bool :=
  let w := ofLe (f.take 14)
  let h := ringHeader f
  decide (16 ≤ f.length) && bitsAt w 4 4 == 1 && h.ring == n && bitsAt w 12 4 == 0 && bitsAt w 42 6 == 0 &&
    decide (h.plen ≤ maxPayload) && h.stat / (if h.src = 0 then 32 else 16) == 0 && (h.typ != typCstart || h.slot == 0) &&
    ofLe ((f.drop 14).take 2) == crc16 (f.take 14) && headerRoute h.typ h.src h.dst

/-- The payload of a frame. -/
def framePayload (f : List Byte) : List Byte := (f.take (f.length - 4)).drop 16

/-- Whether the module may send on a ring: it is not a standby, and the ring does not only listen. -/
def State.ringSends (s : State) (n : Nat) : Bool := !s.standby && !s.isSet (SOP_CTRL n) SOP_CTRL_LISTENONLY

/-- Send a frame as its two copies, each at its own instant; a copy that is cut keeps its first `room` bytes (R230, R248). -/
def State.sendCopies (s : State) (n typ dst slot fcnt stat room : Nat) (east west : Int) (payload : List Byte) : State :=
  let f (w : Bool) := (frameBytes typ n w 0 dst slot fcnt stat payload).take room
  (s.send (.ring n false east (f false))).send (.ring n true west (f true))

/-- Send a frame of a slot at an instant (R397). -/
def State.sendFrame (s : State) (n typ dst slot fcnt stat room : Nat) (t : Int) (payload : List Byte) : State :=
  s.sendCopies n typ dst slot fcnt stat room (t - s.hopShift n) (t + s.hopShift n) payload

/-- Bits [31:0] of the frame count. -/
def State.fcnt (s : State) : Nat := s.frameCount % 0x100000000

/-- The time-base status of a SYNC, as it stands (R291). -/
def State.timeStatus (s : State) : List Byte :=
  let pend := s.time.step.filter fun x => decide (s.frameCount < x.2)
  leBytes 1 (s.timeState + (if pend.isSome then 4 else 0)) ++ leBytes 1 s.clockClass ++
    leBytes 2 (s.fld TIME_UTC TIME_UTC_UTC) ++ leBytes 4 (pend.elim 0 (·.2 % 0x100000000)) ++
    leBytes 4 (pend.elim 0 fun x => (BitVec.ofInt 32 x.1).toNat) ++ leBytes 2 (s.stepsRemoved + 1) ++ leBytes 2 0

/-- The time-base status is sampled at the tick that opens the frame (R291). -/
def State.sampleTb (s : State) : State := s.modTime fun k => { k with tb := s.timeStatus }

/-- The payload of the SYNC of a frame (R237). -/
def State.syncPayload (s : State) (n : Nat) : List Byte :=
  let t := s.grid s.frameCount
  let ns := t / 65536
  leBytes 6 (ns / 1000000000) ++ leBytes 4 (ns % 1000000000) ++ leBytes 2 (t % 65536) ++ leBytes 4 (s.tFrame * 1000) ++
    leBytes 2 (s.ring n).guardNext ++ leBytes 2 (s.loopC n) ++ leBytes 4 (s.ring n).schedid.toNat ++
    leBytes 2 (s.ring n).nslot ++ leBytes 2 0 ++ s.time.tb

/-! ### Slot entries (R240, R241) -/

/-- The frame period in µs: that of the running generator, or the one that it will start with (R148). -/
def State.framePeriod (s : State) : Nat :=
  if s.isSet FRM_CTRL FRM_CTRL_RUN then s.tFrame else clampNat 250 16000 (s.fld FRM_PERIOD FRM_PERIOD_PERIOD)

/-- G as SOPn_GUARD sets it, within the limits of R244. -/
def State.guardSet (s : State) (n : Nat) : Nat :=
  clampNat (max 50 ((s.framePeriod * 125 * 50 + 999999) / 1000000)) 1000 (s.fld (SOP_GUARD n) SOP_GUARD_GUARD)

/-- NSLOT as the tick samples it. -/
def State.nslotSet (s : State) (n : Nat) : Nat := clampNat 1 1024 (s.fld (SOP_NSLOT n) SOP_NSLOT_NSLOT)

/-- START of an entry. -/
def State.slotStart (s : State) (n i : Nat) : Nat := s.fld (SOP_SLOT_W0 n i) SOP_SLOT_W0_START
/-- LEN of an entry. -/
def State.slotLen (s : State) (n i : Nat) : Nat := s.fld (SOP_SLOT_W1 n i) SOP_SLOT_W1_LEN
/-- An entry is enabled. -/
def State.slotEnabled (s : State) (n i : Nat) : Bool := s.isSet (SOP_SLOT_W0 n i) SOP_SLOT_W0_EN
/-- TYPE, OWNER, DST of an entry. -/
def State.slotType (s : State) (n i : Nat) : Nat := s.fld (SOP_SLOT_W0 n i) SOP_SLOT_W0_TYPE
def State.slotOwner (s : State) (n i : Nat) : Nat := s.fld (SOP_SLOT_W1 n i) SOP_SLOT_W1_OWNER
def State.slotDst (s : State) (n i : Nat) : Nat := s.fld (SOP_SLOT_W3 n i) SOP_SLOT_W3_DST

/-- The previous enabled entry. -/
def State.prevSlot (s : State) (n i : Nat) : Option Nat := (List.range i).reverse.find? fun j => s.slotEnabled n j

/-- The relational rule of an entry and its GEN fields, for a guard interval and a frame; for entry 0 there is no entry
before. -/
def State.slotRuleIn (s : State) (n i g frame : Nat) : Bool :=
  let start := s.slotStart n i
  let len := s.slotLen n i
  let typ := s.slotType n i
  let own := s.slotOwner n i
  let dst := s.slotDst n i
  let gen := s.fld (SOP_SLOT_W0 n i) SOP_SLOT_W0_GEN
  gen == s.fld (SOP_SLOT_W1 n i) SOP_SLOT_W1_GEN && gen == s.fld (SOP_SLOT_W2 n i) SOP_SLOT_W2_GEN &&
    gen == s.fld (SOP_SLOT_W3 n i) SOP_SLOT_W3_GEN && decide (84 ≤ len) && decide (start + len + g ≤ frame) &&
    (match s.prevSlot n i with
      | some j => decide (s.slotStart n j + s.slotLen n j + g ≤ start)
      | none => true) &&
    (i != 0 || typ == slSync) && decide (typ ≤ slClaim) &&
    (if typ = slIn then s.inConsist n own else if typ = slMrsp ∨ typ = slClaim then own == 255 else own == 0) &&
    (if typ = slIn ∨ typ = slMrsp ∨ typ = slClaim then dst == 0 else typ != slSync || dst == 255) &&
    (typ == slIn || typ == slOut || s.fld (SOP_SLOT_W2 n i) SOP_SLOT_W2_IDTNUM == 0)

/-- The relational rule of an entry in the ring that runs. -/
def State.slotRule (s : State) (n i : Nat) : Bool := s.slotRuleIn n i (s.ring n).guard (s.tFrame * 125)

/-- The IDT entries that an entry names. -/
def State.slotIdts (s : State) (n i : Nat) : List Nat :=
  idtRange (s.fld (SOP_SLOT_W2 n i) SOP_SLOT_W2_IDTFIRST) (s.fld (SOP_SLOT_W2 n i) SOP_SLOT_W2_IDTNUM)

/-- The input blocks of a station, as the enabled entries of the table name them. -/
def State.stationBlocks (s : State) (n id : Nat) : List IoBlock :=
  ((List.range (s.ring n).nslot).filter fun i => s.slotEnabled n i && s.slotType n i == slIn && s.slotOwner n i == id).flatMap fun i =>
    ((s.slotIdts n i).map fun j => (s.readIdt n slIn id 0 j).1).filter (·.ok)

end Sys2Proof.Machine
end

