-- ==== Sys2Proof/Machine/Schedule.lean ====
section
/-!
DEFINITION. The schedule rules (R240, R242, R243, R280, R398), which the loader applies at load and the runtime at every schedule
change, and what a late station's entries are (R272).

A check is made for a loop delay `c` and for the positions that a station may have: the one that `pos` gives it, or, where it
gives none, every one from 0 to `c` (DESIGN CHOICE, log entry 124).
-/

namespace Sys2Proof.Machine

/-- No two members of a list meet. -/
def allApart {α : Type} (meets : α → α → Bool) : List α → Bool
  | [] => true
  | x :: xs => (xs.all fun y => !meets x y) && allApart meets xs

/-- Two ranges, each a first number and the number beyond its last, meet. -/
def rangesMeet (x y : Nat × Nat) : Bool := decide (x.1 < y.2) && decide (y.1 < x.2)

/-- Enabled entries of the table in use. -/
def State.enabledSlots (s : State) (n : Nat) : List Nat := (List.range (s.nslotSet n)).filter fun i => s.slotEnabled n i

/-- H in units of 8 ns for a schedule check: 0 for a ring that is not dual-homed. -/
def State.hopUnits (s : State) (n : Nat) : Nat :=
  if s.dualHomed n then (s.fld (CPL_HOP n) CPL_HOP_HNOM + 7) / 8 + 64 else 0

/-- The smallest and the largest position that a station may have. -/
def posSpan (c : Nat) (pos : Nat → Option Nat) (id : Nat) : Nat × Nat := (pos id).elim (0, c) fun p => (p, p)

/-- The positions that the sender of an entry may have: one span for each station that may own or be granted it, none for the
module. -/
def State.slotSpans (s : State) (n c : Nat) (pos : Nat → Option Nat) (i : Nat) : List (Nat × Nat) :=
  let own := s.slotOwner n i
  if own = 0 then [] else if own = 255 then (allIds.filter (s.inConsist n)).map (posSpan c pos) else [posSpan c pos own]

/-- A^E of an entry, or A^W, from its smallest to its largest value: one pair for each station that may send in it (R242). -/
def State.linkTimes (s : State) (n c : Nat) (pos : Nat → Option Nat) (west : Bool) (i : Nat) : List (Int × Int) :=
  let a : Int := s.slotStart n i
  if s.slotOwner n i = 0 then (if west then [(a + c, a + c)] else [(a, a)])
  else (s.slotSpans n c pos i).map fun p => if west then (a + p.1, a + p.2) else (a - p.2, a - p.1)

/-- One of two entries leaves the link at least G before the other reaches it. -/
def State.linkApart (s : State) (n i j : Nat) (g : Int) (x y : Int × Int) : Bool :=
  decide (x.2 + s.slotLen n i + g ≤ y.1) || decide (y.2 + s.slotLen n j + g ≤ x.1)

/-- The separation of R242 between two entries, in both directions. Entries of one sender keep their distance at any position. -/
def State.slotsApart (s : State) (n c : Nat) (pos : Nat → Option Nat) (i j : Nat) : Bool :=
  let g : Int := s.guardSet n
  let own := s.slotOwner n i
  if own = s.slotOwner n j ∧ own ≠ 255 then
    s.linkApart n i j g (s.slotStart n i, s.slotStart n i) (s.slotStart n j, s.slotStart n j)
  else [false, true].all fun w =>
    (s.linkTimes n c pos w i).all fun x => (s.linkTimes n c pos w j).all fun y => s.linkApart n i j g x y

/-- The IDT entries of a slot entry, as it would use them. -/
def State.slotBlocks (s : State) (n i : Nat) : List IoBlock :=
  ((s.slotIdts n i).map fun j => (s.readIdt n (s.slotType n i) (s.slotOwner n i) (s.slotDst n i) j).1).filter (·.ok)

/-- Bytes of a block in a payload (R239). -/
def IoBlock.bytes (b : IoBlock) : Nat :=
  (if b.analog then 4 * b.count else (b.count + 7) / 8) + (if b.output then (b.count + 1) / 2 else (b.count + 7) / 8)

/-- The blocks of an entry end by byte 1,497, and no two overlap (R239). -/
def State.blocksFit (s : State) (n i : Nat) : Bool :=
  let l := (s.slotBlocks n i).map fun b => (b.payoff, b.payoff + b.bytes)
  (l.all fun r => decide (r.2 ≤ maxPayload)) && allApart rangesMeet l

/-- The tasks whose output points a slot carries. -/
def State.slotTasks (s : State) (n i : Nat) : List Nat :=
  let bs := s.slotBlocks n i
  s.taskNumbers.filter fun t => (s.outSlices t).any fun x => bs.any fun b =>
    b.analog == x.analog && decide (b.start < x.start + x.count) && decide (x.start < b.start + b.count)

/-- The limits of one entry inside the frame (R152, R243, R280, R398). -/
def State.slotFits (s : State) (n c : Nat) (pos : Nat → Option Nat) (i : Nat) : Bool :=
  let t := s.framePeriod * 125
  let g := s.guardSet n
  let h := s.hopUnits n
  let a := s.slotStart n i
  let l := s.slotLen n i
  let reach (p : Nat × Nat) : Nat := max (p.2 + h) (c - p.1)
  let typ := s.slotType n i
  (if s.slotOwner n i = 0 then decide (a + c + h + l + g ≤ t)
    else (s.slotSpans n c pos i).all fun p => decide (a + reach p + l + g ≤ t) &&
      (typ != slIn || decide (a + reach p + l + 125 ≤ t))) &&
  (typ != slOut ||
    (((s.slotTasks n i).all fun k => decide ((s.fld (FRM_TDL k) FRM_TDL_DEADLINE + 5) * 125 + g ≤ a)) &&
      (s.slotBlocks n i).all fun b =>
        decide (a + reach (posSpan c pos b.station) + l + s.fld (SOP_CON_W3 n b.station) SOP_CON_W3_SETUPMAX ≤ t)))

/-- A schedule is valid. -/
def State.scheduleValid (s : State) (n c : Nat) (pos : Nat → Option Nat) : Bool :=
  let l := s.enabledSlots n
  (l.all fun i => s.slotRuleIn n i (s.guardSet n) (s.framePeriod * 125) && s.slotFits n c pos i && s.blocksFit n i) &&
    allApart (fun i j => !s.slotsApart n c pos i j) l

/-! ### Late stations (R271, R272) -/

/-- A late station: in the consist, and it owns no enabled IN slot. -/
def State.isLate (s : State) (n id : Nat) : Bool :=
  s.inConsist n id && !(s.enabledSlots n).any fun i => s.slotType n i == slIn && s.slotOwner n i == id

/-- The spare entries of a late station. -/
def State.spareSlots (s : State) (n id : Nat) : List Nat :=
  (List.range (s.nslotSet n)).filter fun i => !s.slotEnabled n i &&
    ((s.slotType n i == slIn && s.slotOwner n i == id) || (s.slotType n i == slOut && s.slotDst n i == id && s.slotLen n i != 0))

/-- A disabled entry is enabled by the sequence of R50: the words take a new GEN, and EN is set. -/
def State.enableSlot (s : State) (n i : Nat) : State :=
  let g := s.fld (SOP_SLOT_W0 n i) SOP_SLOT_W0_GEN + 1
  ((((s.putFld (SOP_SLOT_W1 n i) SOP_SLOT_W1_GEN g).putFld (SOP_SLOT_W2 n i) SOP_SLOT_W2_GEN g).putFld (SOP_SLOT_W3 n i)
    SOP_SLOT_W3_GEN g).putFld (SOP_SLOT_W0 n i) SOP_SLOT_W0_GEN g).flag (SOP_SLOT_W0 n i) SOP_SLOT_W0_EN

/-- The state with the spare entries enabled. -/
def State.enableSlots (s : State) (n : Nat) (is : List Nat) : State := s.forEach is fun i t => t.enableSlot n i

/-! ### The loader's checks of a ring (R251, R259, R272, R279, R398) -/

/-- The loop delay that the loader uses: CNOM, or the measured one while there is no CNOM. -/
def State.designC (s : State) (n : Nat) : Nat :=
  if s.isSet (SOP_CNOM n) SOP_CNOM_CNOM then s.fld (SOP_CNOM n) SOP_CNOM_CNOM else s.loopC n

/-- Each value is above the one before. -/
def ascending : List Nat → Bool
  | a :: b :: l => decide (a < b) && ascending (b :: l)
  | _ => true

/-- Cold-start indexes of the consist rise with the ID (R251, R259). -/
def State.indexesRise (s : State) (n : Nat) : Bool :=
  ascending (((allIds.filter (s.conEnabled n)).map fun id => s.fld (SOP_CON_W0 n id) SOP_CON_W0_CSIDX).filter (· != 0))

/-- The loader's checks of a ring: the consist, d_H, and the schedule at the design positions with the spare entries of late
stations as if they were enabled. -/
def State.ringLoads (s : State) (n : Nat) : Bool :=
  let t := s.enableSlots n ((allIds.filter (s.isLate n)).flatMap (s.spareSlots n))
  s.indexesRise n && (!s.dualHomed n || decide (s.fld (CPL_HOP n) CPL_HOP_HNOM ≤ 200)) &&
    t.scheduleValid n (s.designC n) fun id => some (s.fld (SOP_PNOM n id) SOP_PNOM_PNOM)

/-- The check at a schedule change of a running ring: the positions in effect (R272, R279). -/
def State.runningValid (s : State) (n : Nat) : Bool := s.scheduleValid n (s.loopC n) (s.position n)

end Sys2Proof.Machine
end

