-- ==== Sys2Proof/Machine/Way.lean ====
section
/-!
DEFINITION. Accepted work: the waybill journal, its streams and its job queues (18_accepted_work.md). The bytes of an entry
stand in MRAM; the headers of the entries that are not free stand in State, as the journal holds them.
-/

namespace Sys2Proof.Machine

/-- The SOURCE of the journal. -/
def srcWay : Nat := srcOf WAY_STATUS

/-- Change what the bridge and the journal hold. -/
def State.modBridge (s : State) (g : Bridge → Bridge) : State := { s with bridge := g s.bridge }

/-- STATE bits of an entry. -/
def wayAcc : Nat := 1
def wayCmt : Nat := 2
def wayDlv : Nat := 4
def wayDisc : Nat := 8
/-- Kinds of an entry. -/
def wayJob : Nat := 1
def wayWrite : Nat := 2
def wayMbx : Nat := 3
def waySafe : Nat := 4
def wayStreams : Nat := 7
def wayPad : Nat := 8

/-- The log: lines, and lines of a segment (R418). -/
def wayLines : Nat := 12224
def waySegment : Nat := 1528
/-- Address of a log line. -/
def lineAddr (l : Nat) : Nat := 0x20301000 + 64 * l

/-- The item has been delivered or discarded. -/
def WayEntry.over (e : WayEntry) : Bool := bitAt e.state 2 || bitAt e.state 3
/-- The entry carries CMT. -/
def WayEntry.cmt (e : WayEntry) : Bool := bitAt e.state 1
/-- The item is committed (R413): an unpaired module's at acceptance. -/
def State.committed (s : State) (e : WayEntry) : Bool := e.cmt || !s.cpl.member
/-- The entry is free (R420). -/
def State.entryFree (s : State) (e : WayEntry) : Bool := e.over && s.committed e

/-- Lines of an entry. -/
def linesFor (plen : Nat) : Nat := (32 + plen + 63) / 64

/-- The bytes of an entry (R419). -/
def entryBytes (pass : Nat) (e : WayEntry) : List Byte :=
  let h := leBytes 1 e.kind ++ leBytes 1 e.stream ++ leBytes 1 e.lines
  let r := leBytes 4 e.seq ++ leBytes 4 pass ++ leBytes 4 e.facc ++ leBytes 4 e.key ++ leBytes 4 e.key2 ++
    leBytes 4 e.payload.length
  h ++ leBytes 1 e.state ++ r ++ leBytes 4 (crc32 (h ++ leBytes 1 0 ++ r ++ e.payload)) ++ e.payload

/-- Write an entry's bytes into MRAM. -/
def State.writeEntry (s : State) (e : WayEntry) : State := s.writeRun (lineAddr e.line) (entryBytes s.bridge.pass e)

/-- NEXT of a stream. -/
def State.wayNext (s : State) (st : Nat) : Nat := (s.reg (WAY_NEXT st)).toNat
/-- Next QSEQ of a queue. -/
def State.queueNext (s : State) (q : Nat) : Nat := (s.reg (WAY_JQ_QNEXT q)).toNat

/-- The payload of a STREAMS entry: NEXT of every stream, next QSEQ of every queue. -/
def State.streamsPayload (s : State) : List Byte :=
  ((List.range 48).flatMap fun i => leBytes 4 (s.wayNext i)) ++ (List.range 16).flatMap fun q => leBytes 4 (s.queueNext q)

/-- A line belongs to a segment whose entries are all free. -/
def State.segmentFree (s : State) (g : Nat) : Bool := !s.bridge.entries.any fun e => e.line / waySegment == g

/-- Segments that could be entered one after another, from one up. -/
def State.freeAhead (s : State) : Nat → Nat → Nat
  | 0, _ => 0
  | n + 1, g => if s.segmentFree (g % 8) then s.freeAhead n (g + 1) + 1 else 0

/-- WAY_FREE: lines that remain in the open segment and in the segments that may be entered after it. -/
def State.freeLines (s : State) : Nat :=
  let seg := s.bridge.line / waySegment
  (waySegment - s.bridge.line % waySegment) % waySegment + waySegment *
    (if s.bridge.line % waySegment = 0 then s.freeAhead 8 seg else s.freeAhead 7 (seg + 1))

/-- Show WAY_FREE. -/
def State.refreshFree (s : State) : State := s.putFld WAY_FREE WAY_FREE_FREE s.freeLines

/-- Move the write point. -/
def State.advanceLine (s : State) (n : Nat) : State :=
  s.modBridge fun k => { k with line := (k.line + n) % wayLines, pass := if wayLines ≤ k.line + n then k.pass + 1 else k.pass,
                                written := k.written + n }

/-- An entry of the journal itself: STREAMS or PAD. -/
def State.ownEntry (s : State) (kind lines : Nat) (payload : List Byte) : State :=
  (s.writeEntry { kind := kind, stream := 0xFF, seq := 0, facc := s.fcnt, key := 0, key2 := 0, payload := payload,
                  line := s.bridge.line, lines := lines, state := wayAcc, held := false, shown := false, remote := false }).advanceLine lines

/-- Make room for an entry of n lines: fill the rest of a segment that is too short, and write the STREAMS entry of a
segment that is entered. None when the segment may not be entered, or the frame's limit of 512 lines would be exceeded. -/
def State.makeRoom (s : State) (n : Nat) : Option State :=
  let inSeg := s.bridge.line % waySegment
  let rest := waySegment - inSeg
  let fits (t : State) (k : Nat) : Option State := if t.bridge.written + k ≤ 512 then some t else none
  if inSeg ≠ 0 ∧ n ≤ rest then fits s n
  else
    let seg := (s.bridge.line / waySegment + bit (inSeg != 0)) % 8
    if !s.segmentFree seg then none
    else
      let pad := if inSeg = 0 then 0 else rest
      if s.bridge.written + pad + 5 + n ≤ 512 then
        let s := if pad = 0 then s else s.ownEntry wayPad pad []
        some (s.ownEntry wayStreams 5 s.streamsPayload)
      else none

/-- RCPT of a stream: below the first item that is not committed (R413). -/
def State.refreshReceipt (s : State) (st : Nat) : State :=
  let v := match s.bridge.entries.find? fun e => e.stream == st && !s.committed e with
    | some e => e.seq
    | none => s.wayNext st
  s.setReg (WAY_RCPT st) (BitVec.ofNat 32 v - 1)

/-- A refusal with BUSY (R412). -/
def State.wayBusy (s : State) : State := (s.bump WAY_BUSYCNT).flag WAY_STATUS WAY_STATUS_FULL

/-- Drop the headers of entries that are free. -/
def State.dropFree (s : State) : State :=
  (s.modBridge fun k => { k with entries := k.entries.filter fun e => !s.entryFree e }).refreshFree

/-- Accept an item: its entry is written with ACC (R412). None is a refusal with BUSY. -/
def State.journalItem (s : State) (kind st seq key key2 : Nat) (payload : List Byte) (remote : Bool := false) : Option State :=
  let n := linesFor payload.length
  if s.isSet WAY_STATUS WAY_STATUS_REPLAY || s.update.journalTrial || s.quietFrame then none
  else (s.makeRoom n).map fun s =>
    let e : WayEntry :=
      { kind := kind, stream := st, seq := seq, facc := s.frameCount, key := key, key2 := key2, payload := payload,
        line := s.bridge.line, lines := n, state := wayAcc, held := false, shown := false, remote := remote }
    (((((((s.writeEntry { e with facc := s.fcnt }).advanceLine n).modBridge fun k => { k with entries := k.entries ++ [e] }).bump
      WAY_ACCCNT).setReg (WAY_NEXT st) (BitVec.ofNat 32 (seq + 1))).refreshReceipt st).refreshFree.copyItem 5 e.line).copyItem 8 (WAY_NEXT st)

/-- Set STATE bits of an entry, in the header the journal holds and in MRAM; a word that cannot be read is written
whole (R419). -/
def State.markEntry (s : State) (e : WayEntry) (bits : Nat) : State :=
  let st := e.state ||| bits
  let s := s.modBridge fun k => { k with entries := k.entries.map fun x => if x.line = e.line then { x with state := st } else x }
  let pa := lineAddr e.line
  let w := ofLe (leBytes 1 e.kind ++ leBytes 1 e.stream ++ leBytes 1 e.lines ++ leBytes 1 st ++ leBytes 4 e.seq)
  let s := if s.hasUe pa then ((s.reportUe pa).writeWord pa (BitVec.ofNat 64 w)).healUe pa else s.writeByte (pa + 3) (BitVec.ofNat 8 st)
  ((s.refreshReceipt e.stream).dropFree).copyItem 5 e.line

/-- An entry by its first line. -/
def State.entryAt (s : State) (line : Nat) : Option WayEntry := s.bridge.entries.find? fun e => e.line == line

/-- Set STATE bits of the entry at a line. -/
def State.markLine (s : State) (line bits : Nat) : State :=
  match s.entryAt line with
  | some e => s.markEntry e bits
  | none => s

/-- Whether R414 lets an item be delivered now. -/
def State.mayDeliver (s : State) (e : WayEntry) : Bool := decide (e.facc < s.frameCount) && (!e.held || e.cmt)

/-- R414 lets an item of a list be delivered now: it, and every item of its stream before it in the list. -/
def State.inTurn (s : State) (l : List WayEntry) (e : WayEntry) : Bool :=
  s.mayDeliver e && ((l.takeWhile fun x => x.line != e.line).filter fun x => x.stream == e.stream).all s.mayDeliver

/-- The items whose entries begin on these lines are committed (R413). -/
def State.commitLines (s : State) (ls : List Nat) : State :=
  s.forEach (s.bridge.entries.filter fun e => !e.cmt && ls.contains e.line) fun e t => t.markEntry e wayCmt

/-- At the close phase: whether the delivery of this frame's items waits for their commit (R414). -/
def State.wayClose (s : State) (ready : Bool) : State :=
  s.modBridge fun k => { k with entries := k.entries.map fun e => if e.facc = s.frameCount then { e with held := ready } else e }

/-! ### Job queues (R416, R417) -/

/-- The queue group is enabled. -/
def State.jqEnabled (s : State) (q : Nat) : Bool := s.isSet (WAY_JQ_W0 q) WAY_JQ_W0_EN

/-- Fields of a queue group. -/
def State.jqWin (s : State) (q : Nat) : Nat := s.fld (WAY_JQ_W0 q) WAY_JQ_W0_WIN
def State.jqSlots (s : State) (q : Nat) : Nat := s.fld (WAY_JQ_W0 q) WAY_JQ_W0_NSLOT
def State.jqWords (s : State) (q : Nat) : Nat := s.fld (WAY_JQ_W0 q) WAY_JQ_W0_SW
def State.jqCons (s : State) (q : Nat) : Nat := s.fld (WAY_JQ_W1 q) WAY_JQ_W1_CONS

/-- The relational rule of a queue group, with its GEN fields. -/
def State.jqRule (s : State) (q : Nat) : Bool :=
  let size := s.jqSlots q * s.jqWords q
  s.fld (WAY_JQ_W0 q) WAY_JQ_W0_GEN == s.fld (WAY_JQ_W1 q) WAY_JQ_W1_GEN && decide (1 ≤ s.jqSlots q) && decide (s.jqSlots q ≤ 16) &&
    decide (4 ≤ s.jqWords q) && decide (s.jqWin q + size ≤ 16384) &&
    (decide (s.jqCons q < s.jqWin q) || decide (s.jqWin q + size ≤ s.jqCons q))

/-- The group can be used. -/
def State.jqGood (s : State) (q : Nat) : Bool := s.jqEnabled q && s.jqRule q

/-- A use of a queue group: an inconsistent one is flagged and recorded. -/
def State.useJq (s : State) (q : Nat) : State :=
  if s.jqEnabled q && !s.jqRule q then (s.flag WAY_STATUS WAY_STATUS_CFG_SKEW).evGroup srcWay q else s

/-- A cell is a declared host cell of the program. -/
def State.isHostCell (s : State) (analog : Bool) (i : Nat) : Bool :=
  s.program.hostCells.any fun c => c.1 == analog && decide (c.2.1 ≤ i) && decide (i < c.2.1 + c.2.2)

/-- The bridge reads a point of a full image through its context (R138): an access fault is none, an uncorrectable error none
inside. -/
def State.bridgePoint (s : State) (base : Nat) (analog : Bool) (i : Nat) : State × Option (Option Point) :=
  match s.unitAddr bridgeCtx .load (cellAddr base analog i) with
  | (t, none) => (t, none)
  | (t, some pa) => if t.hasUe pa then (t.reportUe pa, some none) else (t, some (some (t.cellAt analog pa)))

/-- The bridge writes a point of a full image; the answer tells whether its context permits it. -/
def State.bridgePut (s : State) (base : Nat) (analog : Bool) (i : Nat) (p : Point) : State × Bool :=
  match s.unitAddr bridgeCtx .store (cellAddr base analog i) with
  | (t, none) => (t, false)
  | (t, some pa) => (t.putCell analog pa p, true)

/-- Write an analog word with tag V into a bank. -/
def State.putWord (s : State) (bank i v : Nat) : State := (s.bridgePut bank true i { value := v, tag := 0 }).1

/-- The jobs of a queue that are not over and that R414 lets be delivered, lowest QSEQ first. -/
def State.openJobs (s : State) (q : Nat) : List WayEntry :=
  let jobs := s.bridge.entries.filter fun e => e.kind == wayJob && e.key2 == q && !e.over
  jobs.filter (s.inTurn jobs)

/-- The words of a job slot. -/
def jobWords (sw : Nat) (e : WayEntry) : List Nat :=
  let ws := (List.range (e.payload.length / 4)).map fun i => ofLe ((e.payload.drop (4 * i)).take 4)
  ([e.key, 0x80000000 + e.stream * 65536 + ws.length, e.seq] ++ ws ++ List.replicate sw 0).take sw

/-- The window of a queue is written into a bank (R416), or all 0 on the safe side (R417). -/
def State.jobWindow (s : State) (bank q : Nat) : State :=
  let good := s.jqGood q
  let s := s.useJq q
  if good then
    let jobs := (s.openJobs q).take (s.jqSlots q)
    let words := (jobs.flatMap (jobWords (s.jqWords q))) ++ List.replicate (s.jqSlots q * s.jqWords q) 0
    let s := s.forEach (List.range (s.jqSlots q * s.jqWords q)) fun i t => t.putWord bank (s.jqWin q + i) (words.getD i 0)
    let show' (e : WayEntry) : WayEntry := if jobs.any (fun j => j.line == e.line) then { e with shown := true } else e
    s.modBridge fun k => { k with entries := k.entries.map show' }
  else
    let n := clampNat 1 16 (s.jqSlots q) * clampNat 4 63 (s.jqWords q)
    s.forEach (List.range n) fun i t =>
      let a := s.jqWin q + i
      if a < 16384 ∧ t.isHostCell true a then t.putWord bank a 0 else t

/-- Every job window into a bank. -/
def State.jobWindows (s : State) (bank : Nat) : State := s.forEach (List.range 16) fun q t => t.jobWindow bank q

/-- CONS of a queue is read at a tick: the shown jobs it covers are delivered. -/
def State.readCons (s : State) (q : Nat) : State :=
  let good := s.jqGood q
  let s := s.useJq q
  if !good then s
  else match s.bridgePoint pubBase true (s.jqCons q) with
    | (t, none) => t
    | (t, some none) => t
    | (t, some (some p)) =>
      if p.tag ≠ 0 then t
      else t.forEach (t.bridge.entries.filter fun e => e.kind == wayJob && e.key2 == q && !e.over && e.shown &&
          decide ((BitVec.ofNat 32 p.value - BitVec.ofNat 32 e.key).toNat < 0x80000000)) fun e u => u.markEntry e wayDlv

/-- Mailbox messages of the journal are posted at a tick (R436). One whose channel is disabled or bound to another sender waits, as
for a channel that is not EMPTY (DESIGN CHOICE, log entry 151). -/
def State.deliverMessages (s : State) : State :=
  s.forEach (s.bridge.entries.filter fun e => e.kind == wayMbx && !e.over) fun e t =>
    let c := e.key % 32
    let first := (t.bridge.entries.find? fun x => x.kind == wayMbx && x.stream == e.stream && x.key == e.key && !x.over)
    if t.mayDeliver e && (t.mbxCheck (some (0x10 + e.stream)) c true [mbxEmpty]).isNone && first.any (fun x => x.line == e.line) then
      let words := (List.range ((e.payload.length - 4) / 4)).map fun i => BitVec.ofNat 32 (ofLe ((e.payload.drop (4 + 4 * i)).take 4))
      (t.mbxHostPost e.stream c e.seq (ofLe (e.payload.take 2)) words).markEntry e wayDlv
    else t

/-! ### Purge and replay (R421, R423) -/

/-- Every byte of the log is cleared. -/
def State.clearLog (s : State) : State :=
  { s with mem := s.mem.filter fun c => !(decide (lineAddr 0 ≤ c.1) && decide (c.1 < lineAddr wayLines)) }

/-- A purge acts at a tick. The record of the frame that ends there carries it when it was due as that record closed, and the next one
otherwise (R423). -/
def State.purgeJournal (s : State) : State :=
  let s := s.clearLog
  let s := (((s.forEach (List.range 48) fun i t => (t.setReg (WAY_NEXT i) 1).setReg (WAY_RCPT i) 0).forEach (List.range 16)
    fun q t => t.setReg (WAY_JQ_QNEXT q) 1).setReg WAY_PURGES (s.reg WAY_PURGES + 1)).flag WAY_STATUS WAY_STATUS_PURGED
  let s := s.modBridge fun k => { k with
    entries := [], line := 0, pass := k.pass + 1, safeWords := [],
    channels := k.channels.map fun c => { c with failures := [], full := false },
    streams := k.streams.filterMap fun x => if x.channel < 16 then
      some { x with fenced := false, work := x.work.filter fun w => match w with
        | .write _ _ _ _ (some _) => false
        | _ => true } else some x }
  let s := s.forEach (List.range 16) fun n t => ((t.setReg (BRG_CH_FSEQ n) 0).setReg (BRG_CH_FINFO n) 0).setReg (BRG_CH_STATE n)
    (t.reg (BRG_CH_STATE n) &&& 0x00C00000)
  let n := (s.reg WAY_PURGES).toNat
  let cb := leBytes 4 1 ++ leBytes 4 n
  let cb := cb ++ leBytes 4 (crc32 cb)
  let s := (((s.writeRun 0x20300000 cb).writeRun 0x20300800 cb).putFld WAY_CMD WAY_CMD_PURGE 0).refreshFree
  if s.cpl.purgeSent then { s with cpl := { s.cpl with purgeSent := false } } else s.copyItem 5 wayLines

/-- WAY_CMD.PURGE. -/
def State.purgeGo (s : State) : State := s.flag WAY_CMD WAY_CMD_PURGE

/-- WAY_PURGE. -/
def execWayPurge (s : State) : Host.Outcome State Fault Refusal := .next s.purgeGo

/-- What a line of the log holds, if a valid entry begins on it: its header, and PASS. -/
def State.entryOn (s : State) (line : Nat) : Option (WayEntry × Nat) :=
  let pa := lineAddr line
  let h := s.bytes pa 32
  let kind := ofLe (h.take 1)
  let lines := ofLe ((h.drop 2).take 1)
  let plen := ofLe ((h.drop 24).take 4)
  let body := s.bytes (pa + 32) (if plen ≤ 288 then plen else 0)
  if decide (1 ≤ kind) && decide (kind ≤ 8) && decide (1 ≤ lines) && decide (lines ≤ 5) && decide (plen ≤ 288) &&
      !s.rangeUe pa (32 + plen) && ofLe (h.drop 28) == crc32 (h.take 3 ++ [0] ++ (h.drop 4).take 24 ++ body) then
    some ({ kind := kind, stream := ofLe ((h.drop 1).take 1), seq := ofLe ((h.drop 4).take 4), facc := ofLe ((h.drop 12).take 4),
            key := ofLe ((h.drop 16).take 4), key2 := ofLe ((h.drop 20).take 4), payload := body, line := line, lines := lines,
            state := ofLe ((h.drop 3).take 1), held := false, shown := false, remote := false }, ofLe ((h.drop 8).take 4))
  else none

/-- Walk a segment from a line, for at most a number of lines: valid entries with their PASS, and lines on which an entry
fails its CRC. -/
def State.walkSegment (s : State) : Nat → Nat → Nat → List (WayEntry × Nat) × List Nat
  | 0, _, _ => ([], [])
  | n + 1, line, stop =>
    if stop ≤ line then ([], [])
    else match s.entryOn line with
      | some e =>
        match s.walkSegment n (line + e.1.lines) stop with
        | (es, bad) => (e :: es, bad)
      | none =>
        match s.walkSegment n (line + 1) stop with
        | (es, bad) => (es, if s.readByte (lineAddr line) = 0 then bad else line :: bad)

/-- The whole log. -/
def State.walkLog (s : State) : List (WayEntry × Nat) × List Nat :=
  (List.range 8).foldl (fun a g =>
    match s.walkSegment waySegment (waySegment * g) (waySegment * (g + 1)) with
    | (es, bad) => (a.1 ++ es, a.2 ++ bad)) ([], [])

/-- The newest of entries, by PASS and then position. -/
def newest (es : List (WayEntry × Nat)) : Option (WayEntry × Nat) :=
  es.foldl (fun a e => match a with
    | none => some e
    | some b => if b.2 < e.2 ∨ (b.2 = e.2 ∧ b.1.line < e.1.line) then some e else a) none

/-- The larger of two counters modulo 2^32. -/
def laterSeq (a b : Nat) : Nat := if (BitVec.ofNat 32 b - BitVec.ofNat 32 a).toNat < 0x80000000 then b else a

/-- The words that bytes spell. -/
def payloadWords (pl : List Byte) : List Word :=
  (List.range (pl.length / 4)).map fun i => BitVec.ofNat 32 (ofLe ((pl.drop (4 * i)).take 4))

/-- Replay (R421), steps 1 to 3, and the headers of the entries that step 4 delivers again. -/
def State.replay (s : State) : State :=
  match s.walkLog with
  | (es, bad) =>
    let last := newest es
    let point := last.elim 0 fun e => e.1.line + e.1.lines
    let segEnd := (point / waySegment + bit (point % waySegment != 0)) * waySegment
    let bad := bad.filter fun l => !(decide (point ≤ l) && decide (l < segEnd))
    let s := s.forEach bad fun l t =>
      ((t.bump WAY_BADENT).flag WAY_STATUS WAY_STATUS_BADENT).evState srcWay (WAY_BADENT % 65536) l 1
    let start := newest (es.filter fun e => e.1.kind == wayStreams)
    let base (i : Nat) : Nat := start.elim 1 fun e => ofLe ((e.1.payload.drop (4 * i)).take 4)
    let after := es.filter fun e => start.elim true fun b => decide (b.2 < e.2) || (b.2 == e.2 && decide (b.1.line < e.1.line))
    let s := s.forEach (List.range 48) fun i t =>
      t.setReg (WAY_NEXT i) (BitVec.ofNat 32 ((after.filter fun e => e.1.stream == i).foldl (fun a e => laterSeq a (e.1.seq + 1)) (base i)))
    let s := s.forEach (List.range 16) fun q t =>
      t.setReg (WAY_JQ_QNEXT q) (BitVec.ofNat 32 ((after.filter fun e => e.1.kind == wayJob && e.1.key2 == q).foldl
        (fun a e => laterSeq a (e.1.key + 1)) (base (48 + q))))
    let order := (es.filter fun e => decide (e.1.kind ≤ 4) && bitAt e.1.state 0 && !s.entryFree e.1).mergeSort fun a b =>
      decide (a.2 < b.2) || (a.2 == b.2 && decide (a.1.line ≤ b.1.line))
    let s := s.modBridge fun k => { k with
      entries := order.map (·.1), line := point % wayLines,
      pass := last.elim 0 fun e => if wayLines ≤ point then e.2 + 1 else e.2,
      safeWords := (List.range 32).filterMap fun c =>
        (newest (es.filter fun e => e.1.kind == waySafe && e.1.stream == 16 + c)).map fun e => (c, payloadWords e.1.payload) }
    let s := s.forEach (List.range 48) fun i t => t.refreshReceipt i
    -- a message whose channel still holds it is not posted again (R436)
    (s.forEach (s.bridge.entries.filter fun e => e.kind == wayMbx && !e.over) fun e t =>
      let c := e.key % 32
      if t.mbxState c ≠ mbxEmpty ∧ (t.reg (MBX_HSEQ c)).toNat = e.seq then t.markEntry e wayDlv else t).refreshFree

end Sys2Proof.Machine
end

