-- ==== Sys2Proof/Machine/Signals.lean ====
section
/-!
DEFINITION. The Signal Map Table: its entries, the conversions of R306 and R307, and image signals (12_bridge_lap.md).
-/

namespace Sys2Proof.Machine

/-- The SOURCE of the bridge. -/
def srcBrg : Nat := srcOf BRG_STATUS

/-- Word w of entry i. -/
def State.smapWord (s : State) (i w : Nat) : Nat := (sparseGet (fun _ => 0) s.smap (4 * i + w)).toNat

/-- An entry of the Signal Map Table (R303). -/
structure Signal where
  kind : Nat
  dir : Nat
  se : Bool
  cmt : Bool
  rnd : Nat
  index : Nat
  station : Nat
  ring : Nat
  sgn : Bool
  hfmt : Nat
  lsb : Nat
  src : Bool
  width : Nat
  mul : Int
  shift : Nat
  off : Int
  deriving DecidableEq, Repr

/-- Kinds of a signal. -/
def kindDig : Nat := 0
def kindAna : Nat := 1
def kindRem : Nat := 2

/-- The fields of an entry. -/
def State.signal (s : State) (i : Nat) : Signal :=
  let w0 := s.smapWord i 0
  let w1 := s.smapWord i 1
  { kind := bitsAt w0 25 2, dir := bitsAt w0 23 2, se := bitAt w0 22, cmt := bitAt w0 21, rnd := bitsAt w0 17 3,
    index := bitsAt w0 0 17, station := bitsAt w1 20 8, ring := bitsAt w1 17 3, sgn := bitAt w1 16, hfmt := bitsAt w1 13 3,
    lsb := bitsAt w1 8 5, src := bitAt w1 6, width := bitsAt w1 0 6,
    mul := (BitVec.ofNat 28 (s.smapWord i 2)).toInt, shift := bitsAt (s.smapWord i 3) 23 5,
    off := (BitVec.ofNat 23 (s.smapWord i 3)).toInt }

/-- An entry is enabled. -/
def State.signalEnabled (s : State) (i : Nat) : Bool := bitAt (s.smapWord i 0) 27

/-- The rules of R304. -/
def Signal.rule (g : Signal) : Bool :=
  decide (g.kind ≤ 2) && decide (g.dir ≤ 2) && decide (g.rnd ≤ 3) && decide (g.hfmt ≤ 5) && decide (1 ≤ g.width) &&
    decide (g.width ≤ 32) && decide (g.lsb + g.width ≤ 32) &&
    (g.kind != kindDig || (g.width == 1 && g.lsb == 0 && !g.sgn && g.hfmt == 0 && decide (g.mul = 1) && g.shift == 0 &&
      decide (g.off = 0) && g.station == 0 && g.ring == 0)) &&
    (g.kind != kindAna || (bitsAt g.index 14 3 == 0 && g.station == 0 && g.ring == 0)) &&
    (g.kind != kindRem || (!bitAt g.index 16 && decide (1 ≤ g.station) && decide (g.station ≤ 254) && decide (g.ring ≤ 5) && !g.src)) &&
    (g.hfmt != 5 || (g.width == 32 && g.lsb == 0 && decide (g.mul = 1) && g.shift == 0 && decide (g.off = 0))) &&
    (g.dir == 0 || (decide (g.mul ≠ 0) && !g.src))

/-- The entry is consistent: GEN equal and every rule holds. -/
def State.signalGood (s : State) (i : Nat) : Bool :=
  let gen (w : Nat) := bitsAt (s.smapWord i w) 28 4
  gen 0 == gen 1 && gen 0 == gen 2 && gen 0 == gen 3 && (s.signal i).rule

/-- A use of an entry by an item (R303, R304). `ue`: the read of the entry meets an uncorrectable error. -/
def State.useSignal (s : State) (i : Nat) (ue : Bool) : State × Option Signal :=
  let bad (t : State) : State :=
    (((t.flag SMAP_STATUS SMAP_STATUS_CFG_SKEW).bump SMAP_BAD).setReg SMAP_LAST (BitVec.ofNat 32 (i % 16384))).evGroup
      (srcOf SMAP_STATUS) i
  if ue then (bad (s.flag SMAP_STATUS SMAP_STATUS_UE), none)
  else if !s.signalEnabled i then (s, none)
  else if s.signalGood i then (s, some (s.signal i))
  else (bad s, none)

/-! ### Conversions (R306, R307) -/

/-- A fraction rounded by RND: 0 nearest, ties to even; 1 toward zero; 2 toward −∞; 3 nearest, ties away from zero. The
denominator is positive. -/
def roundRnd (rnd : Nat) (n d : Int) : Int :=
  let fl := n / d
  let r := n % d
  match rnd with
  | 1 => if n < 0 ∧ r ≠ 0 then fl + 1 else fl
  | 2 => fl
  | 3 => if 2 * r = d then (if n < 0 then fl else fl + 1) else if d < 2 * r then fl + 1 else fl
  | _ => if 2 * r = d then (if fl % 2 = 0 then fl else fl + 1) else if d < 2 * r then fl + 1 else fl

/-- The range of a host format. -/
def formatRange : Nat → Int × Int
  | 0 => (0, 1)
  | 1 => (0, 65535)
  | 2 => (-32768, 32767)
  | 3 => (0, 2 ^ 32 - 1)
  | _ => (-(2 ^ 31), 2 ^ 31 - 1)

/-- A number as a value of its host format. -/
def saturateTo (hfmt : Nat) (q : Int) : Int :=
  if hfmt = 0 then (if q = 0 then 0 else 1) else max (formatRange hfmt).1 (min (formatRange hfmt).2 q)

/-- A stored word as the host value, with the tag (R306). -/
def Signal.toHost (g : Signal) (word tag : Nat) : Word × Nat :=
  if g.hfmt = 5 then (BitVec.ofNat 32 word, tag)
  else
    let u := bitsAt word g.lsb g.width
    let raw : Int := if g.sgn ∧ bitAt u (g.width - 1) then (u : Int) - 2 ^ g.width else u
    let q := roundRnd g.rnd (raw * g.mul) (2 ^ g.shift) + g.off
    let h := saturateTo g.hfmt q
    (BitVec.ofInt 32 h, if h = q then tag else tag ||| tagS)

/-- A host word as a value of its format; none fails with RANGE. -/
def hostValue (hfmt : Nat) (w : Word) : Option Int :=
  let v : Int := if hfmt = 2 ∨ hfmt = 4 then w.toInt else w.toNat
  if (formatRange hfmt).1 ≤ v ∧ v ≤ (formatRange hfmt).2 then some v else none

/-- The field value that a host word writes; none fails with RANGE (R307). -/
def Signal.toField (g : Signal) (w : Word) : Option Nat :=
  if g.hfmt = 5 then some w.toNat
  else
    (hostValue g.hfmt w).bind fun h =>
      let n := (h - g.off) * 2 ^ g.shift
      let v := if g.mul < 0 then roundRnd g.rnd (-n) (-g.mul) else if g.mul = 0 then 0 else roundRnd g.rnd n g.mul
      let lo : Int := if g.sgn then -(2 ^ (g.width - 1)) else 0
      let hi : Int := if g.sgn then 2 ^ (g.width - 1) else 2 ^ g.width
      if lo ≤ v ∧ v < hi then some (v % 2 ^ g.width).toNat else none

/-! ### Item status (R299) -/

def itOk : Nat := 0
def itPending : Nat := 1
def itStale : Nat := 2
def itHeld : Nat := 3
def itFenced : Nat := 4
def itStation : Nat := 5
def itNotMapped : Nat := 6
def itAccess : Nat := 7
def itDuplicate : Nat := 8
def itRange : Nat := 9
def itBusy : Nat := 10
def itUnreadable : Nat := 11

/-- An item of a READ response. -/
structure ReadItem where
  value : Word
  tag : Nat
  status : Nat
  deriving DecidableEq, Repr

/-- An item without a value. -/
def noValue (status : Nat) : ReadItem := { value := 0, tag := 0, status := status }

/-- A read of an image signal (R308). An access that the bridge's context does not permit fails with ACCESS (R33, R138). -/
def State.readImage (s : State) (g : Signal) : State × ReadItem :=
  match s.bridgePoint (if g.src then pubBase else bankBase (s.frameCount + 1)) (g.kind == kindAna) g.index with
  | (t, none) => (t, noValue itAccess)
  | (t, some none) => (t, noValue itUnreadable)
  | (t, some (some p)) => (t, { value := (g.toHost p.value p.tag).1, tag := (g.toHost p.value p.tag).2, status := itOk })

/-- A write of an image signal into a host cell of the bank being filled (R309). The answer is the item status. -/
def State.writeImage (s : State) (g : Signal) (w : Word) : State × Nat :=
  let an := g.kind == kindAna
  match g.toField w with
  | none => (s, itRange)
  | some v =>
    if 1024 ≤ s.bridge.writes then (s, itBusy)
    else match s.bridgePoint (bankBase s.frameCount) an g.index with
      | (t, none) => (t, itAccess)
      | (t, some none) => (t, itUnreadable)
      | (t, some (some p)) =>
        let x := if an then ((⟨g.lsb, g.width⟩ : Field).put v (BitVec.ofNat 32 p.value)).toNat else v
        match t.bridgePut (bankBase s.frameCount) an g.index { value := x, tag := 0 } with
        | (u, false) => (u, itAccess)
        | (u, true) =>
          ((u.modBridge fun k =>
            { k with cells := if k.cells.contains (an, g.index) then k.cells else k.cells ++ [(an, g.index)],
                     writes := k.writes + 1 }).copyItem 4 (2 * g.index + bit an), itOk)

/-- At a tick every host cell written in the ended frame is written into the new filling bank as well (R309). -/
def State.carryCells (s : State) : State :=
  (s.forEach s.bridge.cells fun (an, i) t =>
    match t.bridgePoint (bankBase (t.frameCount + 1)) an i with
    | (u, some (some p)) => (u.bridgePut (bankBase u.frameCount) an i p).1
    | (u, _) => u).modBridge fun k => { k with cells := [], writes := 0, written := 0 }

/-- Count a discarded write of a channel (R317, R415). -/
def State.countDisc (s : State) (ch k : Nat) : State := (s.bumpBy (BRG_CH_FDISC ch) k).bumpBy BRG_FENCEDISC k

/-- A COMMITTED image item is refused at its delivery: its outcome is discarded (R415). -/
def State.discardItem (s : State) (e : WayEntry) : State :=
  ((s.markEntry e wayDisc).countDisc e.stream 1).event srcBrg 4 sevInfo
    [(Config.paramCode 2 e.stream).toNat, e.seq, e.key]

/-- Deliver a COMMITTED image item (R415). Nothing is done once the frame's limit is reached. -/
def State.deliverWrite (s : State) (e : WayEntry) : State :=
  if 1024 ≤ s.bridge.writes then s
  else match s.useSignal e.key false with
    | (t, none) => t.discardItem e
    | (t, some g) =>
      if g.dir = 0 ∨ g.kind = kindRem then t.discardItem e
      else match t.writeImage g (BitVec.ofNat 32 e.key2) with
        | (u, st) => if st = itOk then u.markEntry e wayDlv else u.discardItem e

/-- Deliver the COMMITTED image items that may be, in the order of the journal. -/
def State.deliverWrites (s : State) : State :=
  s.forEach (s.bridge.entries.filter fun e => e.kind == wayWrite && !e.remote && !e.over) fun e t =>
    if t.mayDeliver e then t.deliverWrite e else t

end Sys2Proof.Machine
end

