-- ==== Sys2Proof/Machine/Load.lean ====
section
/-!
DEFINITION. The load checks of a program, from flash or in a change package, as far as the program and the module's registers
decide them (R222). What they cannot decide (the signature, the image header) is a finding of the command.
-/

namespace Sys2Proof.Machine

/-- What a program says of a task. -/
def Program.task (p : Program) (n : Nat) : Option TaskProg := (p.tasks.find? fun t => t.1 == n).map (·.2)

/-- Two programs say the same of a task's code, group, slices and data layout. -/
def TaskProg.same (a b : TaskProg) : Bool :=
  a.code == b.code && a.kCode == b.kCode && a.group == b.group && a.slices == b.slices && a.laneData == b.laneData &&
    a.retained == b.retained && a.layoutId == b.layoutId

/-- The tasks that a change affects (R221). -/
def affectedTasks (old new : Program) : List Nat := allTasks.filter fun n =>
  match old.task n, new.task n with
  | some a, some b => !a.same b
  | none, none => false
  | _, _ => true

/-- The runtime writes the groups of tasks as a program defines them (R50). -/
def State.writeGroups (s : State) (p : Program) (ns : List Nat) : State :=
  s.forEach ns fun n t =>
    let t := match p.task n with
      | some tp =>
        (((t.loadReg (FRM_TDEF n) tp.group.1).loadReg (FRM_TCFG n) tp.group.2.1).loadReg (FRM_TDL n) tp.group.2.2).showMove n
      | none => t.putFld (FRM_TCFG n) FRM_TCFG_EN 0
    ((t.copyItem 8 (FRM_TDEF n)).copyItem 8 (FRM_TCFG n)).copyItem 8 (FRM_TDL n)

/-! ### Slice tables and lane areas (R119, R120) -/

/-- Points and bytes of a slice. -/
def Slice.pointRange (x : Slice) : Nat × Nat := (x.start, x.start + x.count)
def Slice.byteRange (x : Slice) : Nat × Nat := (x.area, x.area + x.bytes)

/-- Two slices name a common point. -/
def Slice.meets (x y : Slice) : Bool := x.analog == y.analog && rangesMeet x.pointRange y.pointRange

/-- One entry of a slice table. -/
def Slice.loads (x : Slice) : Bool :=
  decide (1 ≤ x.count) && decide (x.start + x.count ≤ kindPoints x.analog) && decide (x.area + x.bytes ≤ 0x80000)

/-- Slices of a task in one direction. -/
def TaskProg.slicesOf (t : TaskProg) (output : Bool) : List Slice := t.slices.filter fun x => x.output == output

/-- The slice tables of a program: each table, and output slices of different tasks. -/
def Program.tablesLoad (p : Program) : Bool :=
  (p.tasks.all fun t => t.2.slices.all Slice.loads && allApart Slice.meets t.2.slices) &&
    allApart (fun a b : Nat × TaskProg => (a.2.slicesOf true).any fun x => (b.2.slicesOf true).any x.meets) p.tasks

/-- The snapshot or output area of a task, rounded up to 4 KB; none without slices of that kind. -/
def TaskProg.areaOf (t : TaskProg) (output : Bool) : Option (Nat × Nat) :=
  match t.slicesOf output with
  | [] => none
  | x :: xs =>
    let first := xs.foldl (fun a y => min a y.area) x.area
    let beyond := xs.foldl (fun a y => max a (y.area + y.bytes)) (x.area + x.bytes)
    some (first, first + (beyond - first + 4095) / 4096 * 4096)

/-- Fields of a task's group in the program. -/
def TaskProg.enabled (t : TaskProg) : Bool := FRM_TCFG_EN.get t.group.2.1 != 0
def TaskProg.isSafe (t : TaskProg) : Bool := FRM_TCFG_CLASS.get t.group.2.1 != 0
def TaskProg.place (t : TaskProg) : Nat := FRM_TCFG_PLACE.get t.group.2.1
def TaskProg.deadline (t : TaskProg) : Nat := FRM_TDL_DEADLINE.get t.group.2.2

/-- The lanes of a task's placement with the modes that a program names. -/
def Program.lanesOf (p : Program) (t : TaskProg) : List Nat :=
  if placeVoted t.place then (p.modes[placeTriad t.place]?).elim allLanes fun m => namedVoters m.1 m.2 else [placeLane t.place]

/-- Whether the placement of a task may run it in a lane. -/
def TaskProg.inLane (t : TaskProg) (lane : Nat) : Bool := placeVoted t.place || placeLane t.place == lane

/-- The lane areas of a program: each begins on a 4 KB boundary with its slices apart, and those of a lane lie apart and
fit its region. -/
def Program.areasLoad (p : Program) : Bool :=
  (p.tasks.all fun t => [false, true].all fun d =>
    ((t.2.areaOf d).elim true fun a => a.1 % 4096 == 0) && allApart (fun x y => rangesMeet x.byteRange y.byteRange) (t.2.slicesOf d)) &&
    allLanes.all fun l =>
      let areas := (p.tasks.filter fun t => t.2.inLane l).flatMap fun t => [t.2.areaOf false, t.2.areaOf true].filterMap id
      allApart rangesMeet areas && decide ((areas.map fun a => a.2 - a.1).foldl (· + ·) 0 ≤ 0x80000)

/-! ### Deadlines, placements and bounds (R152, R155, R183, R189) -/

/-- The enabled tasks. -/
def Program.enabledTasks (p : Program) : List TaskProg := (p.tasks.map (·.2)).filter TaskProg.enabled

/-- R152. -/
def State.deadlinesLoad (s : State) (p : Program) : Bool :=
  p.enabledTasks.all fun t => decide (1 ≤ t.deadline) && decide (t.deadline + s.frame.close ≤ s.framePeriod)

/-- R4, R155, with the modes that the program names, for every SAFE task, enabled or not; and no task of a voted placement has
K-level code (R58). -/
def Program.placementsLoad (p : Program) : Bool :=
  !(p.tasks.any fun t => t.2.kCode && placeVoted t.2.place) &&
  (p.tasks.map (·.2)).all fun t => !t.isSafe || (placeVoted t.place && placeLane t.place == 0 && FRM_TCFG_POLICY.get t.group.2.1 != polHoldOne &&
    (match p.modes[placeTriad t.place]? with
    | some m => m.1 == modeTriad || m.1 == modePair
    | none => false))

/-- The bound of R183 on the output of a voted task. -/
def Program.outputsLoad (p : Program) : Bool :=
  p.enabledTasks.all fun t => !placeVoted t.place || decide (((t.slicesOf true).map Slice.bytes).foldl (· + ·) 0 ≤ 32000)

/-- The latest deadline among tasks, in µs. -/
def latestDeadline (l : List TaskProg) : Nat := l.foldl (fun a t => max a t.deadline) 0

/-- Bytes that a copy moves at 8 bytes per ns between the latest deadline with the vote allowance and the tick. -/
def State.gapBytes (s : State) (latest : Nat) : Nat := 8000 * (s.framePeriod - (latest + 5))

/-- The lane state of a task in bytes (R188). -/
def TaskProg.laneState (t : TaskProg) : Nat := ((t.laneData ++ t.retained).map (·.2)).foldl (· + ·) 0

/-- Whether copies, each with the earliest byte time of its frame and its size, all end in this frame (`now`: the byte time
that the copies before them have reached) or, while `more`, the next one. -/
def copiesEnd (frame : Nat) : List (Nat × Nat) → Nat → Bool → Bool
  | [], _, _ => true
  | (first, size) :: xs, now, more =>
    if max first now + size ≤ frame then copiesEnd frame xs (max first now + size) more
    else more && decide (first + size ≤ frame) && copiesEnd frame xs (first + size) false

/-- R189. -/
def State.copiesLoad (s : State) (p : Program) : Bool :=
  let voted := fun t => p.enabledTasks.filter fun x => placeVoted x.place && placeTriad x.place == t
  let copies := (allTriads.filter fun t => !(voted t).isEmpty).map fun t =>
    (8000 * (latestDeadline (voted t) + 5), ((voted t).map TaskProg.laneState).foldl (· + ·) 0)
  (copies.all fun c => decide (c.2 ≤ 8000 * s.framePeriod - c.1)) && copiesEnd (8000 * s.framePeriod) copies 0 true

/-! ### The migration table (R221, R222, R224) -/

/-- The entries cover a range from an address on: each step finds one that holds the address. The first argument bounds the
steps. -/
def covered (es : List (Nat × Nat)) : Nat → Nat → Nat → Bool
  | 0, a, b => decide (b ≤ a)
  | n + 1, a, b =>
    if b ≤ a then true
    else match es.find? fun e => decide (e.1 ≤ a) && decide (a < e.2) with
      | some e => covered es n e.2 b
      | none => false

/-- Base of a task's lane area: the start of its first range. -/
def areaBase (rs : List (Nat × Nat)) : Nat := (rs.headD (0, 0)).1

/-- The ranges of a task's retained variables that entries of a table write. -/
def retainedEntries (ms : List Migration) (n : Nat) (t : TaskProg) : List (Nat × Nat) :=
  (ms.filter fun m => m.task == n && m.space == 1).map fun m =>
    (areaBase t.retained + m.dst, areaBase t.retained + m.dst + m.len)

/-- Every retained variable whose layout changes is covered by the table, and no entry has a reserved OP or SPACE (R221). -/
def migrationCovers (old : Program) (p : Package) : Bool :=
  ((p.forward ++ p.reverse).all fun m => decide (m.op ≤ 2) && decide (m.space ≤ 1)) &&
    p.program.tasks.all fun t => match old.task t.1 with
      | some o =>
        let es := retainedEntries p.forward t.1 t.2
        o.layoutId == t.2.layoutId || o.retained.isEmpty || t.2.retained.all fun r =>
          o.retained.contains r || covered es (es.length + 1) r.1 (r.1 + r.2)
      | none => true

/-- The gap budget of R224: the bytes that the copy writes in each lane. -/
def State.budgetMet (s : State) (p : Package) : Bool :=
  let latest := latestDeadline ((affectedTasks s.program p.program).filterMap s.program.task)
  allLanes.all fun l =>
    let here := p.forward.filter fun m => (p.program.task m.task).elim false fun t => (p.program.lanesOf t).contains l
    decide ((here.map Migration.len).foldl (· + ·) 0 ≤ s.gapBytes latest)

/-! ### Mappings (R136) -/

/-- Ranges of a task's lane areas and variables in a lane. -/
def TaskProg.areasIn (t : TaskProg) (l : Nat) : List (Nat × Nat) :=
  ([t.areaOf false, t.areaOf true].filterMap id).map (fun a => (0x10180000 + 0x80000 * l + a.1, 0x10180000 + 0x80000 * l + a.2)) ++
    (t.laneData.map fun r => (laneDram l + r.1, laneDram l + r.1 + r.2)) ++
    t.retained.map fun r => (laneMram l + r.1, laneMram l + r.1 + r.2)

/-- No task has a mapping that R136 names. -/
def Program.mapsLoad (p : Program) : Bool :=
  p.tasks.all fun t => allLanes.all fun l => !t.2.inLane l || t.2.maps.isEmpty ||
    (let others := (p.tasks.filter fun u => u.1 != t.1).flatMap fun u => u.2.areasIn l
     t.2.maps.all fun m => !m.rejected (placeVoted t.2.place) l others)

/-! ### Rings (R152, R242, R243, R279, R280) -/

/-- The schedules of all rings, with the groups as the program defines them. -/
def State.ringsLoad (s : State) (p : Program) : Bool :=
  let t := ({ s with program := p } : State).writeGroups p allTasks
  allRings.all t.ringLoads

/-! ### Host cells, inputs and channels (R305, R349, R361, R417) -/

/-- A program declares a cell as a host cell. -/
def Program.hostCell (p : Program) (analog : Bool) (i : Nat) : Bool :=
  p.hostCells.any fun c => c.1 == analog && decide (c.2.1 ≤ i) && decide (i < c.2.1 + c.2.2)

/-- A point lies in a slice of an enabled task. -/
def Program.inSlice (p : Program) (output safeOnly : Bool) (analog : Bool) (i : Nat) : Bool :=
  p.enabledTasks.any fun t => (!safeOnly || t.isSafe) && (t.slicesOf output).any fun x => x.holds analog i

/-- Job windows lie in host cells and in no input slice of a SAFE task, and CONS lies in an output slice. -/
def State.windowsLoad (s : State) (p : Program) : Bool :=
  ((List.range 16).filter fun q => s.jqEnabled q && s.jqRule q).all fun q =>
    ((List.range (s.jqSlots q * s.jqWords q)).all fun i =>
      p.hostCell true (s.jqWin q + i) && !p.inSlice false true true (s.jqWin q + i)) && p.inSlice true false true (s.jqCons q)

/-- Entries of the Signal Map Table that a host may write. -/
def State.writableSignals (s : State) : List Signal :=
  (((s.smap.map fun e => e.1 / 4).eraseDups.filter fun i => s.signalEnabled i).map s.signal).filter fun g => g.dir == 1 || g.dir == 2

/-- A point lies in an input block of the Image Descriptor Table whose EN is 1, whether or not a slot names the block (R305). An entry
of which memory lists no byte is not enabled. -/
def State.inInputBlock (s : State) (analog : Bool) (i : Nat) : Bool :=
  ((s.mem.filter fun e => decide (idtAddr 0 ≤ e.1) && decide (e.1 < idtAddr 32768)).map fun e => (e.1 - idtAddr 0) / 16).eraseDups.any fun j =>
    let w := ofLe (s.bytes (idtAddr j) 16)
    w.testBit 14 && !w.testBit 11 && w.testBit 12 == analog && decide (bitsAt w 32 17 ≤ i) && decide (i < bitsAt w 32 17 + bitsAt w 64 13)

/-- A writable image signal lies in a host cell, in no enabled input block and in no input slice of a SAFE task (R305). -/
def State.signalAllowed (s : State) (p : Program) (g : Signal) : Bool :=
  let an := g.kind == kindAna
  g.kind == kindRem || (p.hostCell an g.index && !s.inInputBlock an g.index && !p.inSlice false true an g.index)

/-- Two signals write one bit of a word. -/
def Signal.overlaps (g h : Signal) : Bool :=
  g.kind == h.kind && g.index == h.index && g.ring == h.ring && g.station == h.station &&
    rangesMeet (g.lsb, g.lsb + g.width) (h.lsb, h.lsb + h.width)

/-- Every writable signal is allowed, and no two write one bit. -/
def State.signalsLoad (s : State) (p : Program) : Bool :=
  s.writableSignals.all (s.signalAllowed p) && allApart Signal.overlaps s.writableSignals

/-- The check of R305 for one entry that is about to be enabled. -/
def State.entryAllowed (s : State) (i : Nat) : Bool :=
  let g := s.signal i
  let others := ((s.smap.map fun e => e.1 / 4).eraseDups.filter fun j => j != i && s.signalEnabled j).map s.signal
  (g.dir != 1 && g.dir != 2) ||
    (s.signalAllowed s.program g && !others.any fun h => (h.dir == 1 || h.dir == 2) && g.overlaps h)

/-- Points of enabled inputs are no host cells. -/
def State.inputsLoad (s : State) (p : Program) : Bool :=
  (List.range 16).all fun i => !s.isSet (DIO_DICFG i) DIO_DICFG_EN || !p.hostCell false (s.fld (DIO_DICFG i) DIO_DICFG_POINT)

/-- A backbone channel sends after the deadline and vote of every task that owns a cell it sends. -/
def State.channelsLoad (s : State) (p : Program) : Bool :=
  ((List.range 32).filter fun c => s.isSet (SAF_BCH_W0 c) SAF_BCH_W0_EN).all fun c =>
    let first := s.fld (SAF_BCH_W2 c) SAF_BCH_W2_OUTSTART
    let range := (first, first + s.fld (SAF_BCH_W1 c) SAF_BCH_W1_OUTCOUNT)
    p.enabledTasks.all fun t => !((t.slicesOf true).any fun x => x.analog && rangesMeet x.pointRange range) ||
      decide (t.deadline + 5 ≤ s.fld (SAF_BCH_W2 c) SAF_BCH_W2_SENDOFF)

/-! ### All checks -/

/-- The first load check that a program fails, in the order of this list. -/
def State.programFails (s : State) (p : Program) : Option Nat :=
  if !p.tablesLoad then some 1
  else if !p.areasLoad then some 2
  else if !s.deadlinesLoad p then some 3
  else if !p.placementsLoad then some 4
  else if !p.outputsLoad then some 5
  else if !s.copiesLoad p then some 6
  else if !s.windowsLoad p then some 9
  else if !s.signalsLoad p then some 10
  else if !s.inputsLoad p then some 11
  else if !s.channelsLoad p then some 12
  else if !p.mapsLoad then some 13
  else if !s.ringsLoad p then some 14
  else none

/-- The first load check that a package fails. -/
def State.loadFails (s : State) (p : Package) : Option Nat :=
  match s.programFails p.program with
  | some c => some c
  | none => if !migrationCovers s.program p then some 7 else if !s.budgetMet p then some 8 else none

end Sys2Proof.Machine
end

