-- ==== Sys2Proof/Machine/Modes.lean ====
section
/-!
DEFINITION. The key switch, the operating modes, forces, confirmations and the states of an online change
(08_restart_change_modes.md).
-/

namespace Sys2Proof.Machine

/-- RESULT codes of R322. -/
def resDone : Nat := 0
def resRefused : Nat := 1
def resChallenge : Nat := 2
def resMalformed : Nat := 3
def resState : Nat := 5
def resMismatch : Nat := 6

/-- The outcome of a command: the state, RESULT and the challenge (R322). -/
abbrev Decided := State × Nat × Word

/-- A command that was accepted. -/
def State.accept (s : State) : Decided := (s, resDone, 0)

/-- A command that is refused: an event records it (R213). `item` names the command by its CODE. -/
def State.refuse (s : State) (item result : Nat) : Decided := (s.evRefused srcRuntime item result, result, 0)

/-! ### Key switch (R209) -/

/-- Key positions. -/
def keyRun : Nat := 0
def keyProg : Nat := 1
def keyStop : Nat := 2

/-- SYS_KEY.POS. -/
def State.keyPos (s : State) : Nat := s.fld SYS_KEY SYS_KEY_POS

/-- Whether the key is at PROG. -/
def State.keyAtProg (s : State) : Bool := s.keyPos == keyProg

/-- The position of a contact code KC2:KC1. -/
def keyOf (code : Nat) : Nat := if code = 0 then keyRun else if code = 3 then keyProg else keyStop

/-! ### Confirmation (R218) -/

/-- SYS_CHG.STATE. -/
def State.chg (s : State) : Nat := s.fld SYS_CHG SYS_CHG_STATE
def chgNone : Nat := 0
def chgLoaded : Nat := 1
def chgArmed : Nat := 2
def chgPending : Nat := 3
def chgSwitched : Nat := 4
def chgClosed : Nat := 5
def chgReverse : Nat := 6

/-- The runtime writes SYS_CHG.STATE. -/
def State.setChg (s : State) (v : Nat) : State := s.putFld SYS_CHG SYS_CHG_STATE v

/-- Change what the runtime holds of modes. -/
def State.modModes (s : State) (g : Modes → Modes) : State := { s with modes := g s.modes }

/-- The command a channel left waiting. -/
def State.waitingOf (s : State) (ch : Nat) : Option (Word × Waiting) :=
  (s.modes.waiting.find? fun w => w.1 == ch).map (·.2)

/-- Forget the command a channel left waiting. -/
def State.forgetWaiting (s : State) (ch : Nat) : State :=
  s.modModes fun m => { m with waiting := m.waiting.filter fun w => w.1 != ch }

/-- Cancel a waiting command with an event; an armed switch goes back to LOADED. -/
def State.cancelWaiting (s : State) (ch : Nat) : State :=
  match s.waitingOf ch with
  | none => s
  | some (_, w) =>
    let s := (s.forgetWaiting ch).evState srcRuntime ch 1 0
    if w = .switch ∧ s.chg = chgArmed then s.setChg chgLoaded else s

/-- Leave a command waiting and answer with its challenge. A command that waited on the channel is cancelled first. -/
def State.challenge (s : State) (ch : Nat) (c : Word) (w : Waiting) : Decided :=
  ((s.cancelWaiting ch).modModes fun m => { m with waiting := (ch, c, w) :: m.waiting }, resChallenge, c)

/-- Cancel a pending online change (R225): back to LOADED, or to SWITCHED for a switch in reverse. -/
def State.cancelPending (s : State) (reason : Nat) : State := s.cancelSwitch reason

/-- Cancel the command of the UPD or SEC block that waits for its confirmation; an ARMED package goes back to LOADED. -/
def State.cancelUpd (s : State) : State :=
  match s.update.waiting with
  | none => s
  | some w =>
    let s := ({ s with update := { s.update with waiting := none } } : State).evState srcLoader (UPD_CMD % 65536) 1 0
    if w = .apply ∧ s.fld UPD_SIDING UPD_SIDING_STATE = 2 then s.putFld UPD_SIDING UPD_SIDING_STATE 1 else s

/-- The key has left PROG: waiting commands, confirmed ones that have not acted, and a pending change to a SAFE task are
cancelled (R218, R225). -/
def State.keyLeftProg (s : State) : State :=
  let s := (s.forEach (s.modes.waiting.map (·.1)) fun ch t => t.cancelWaiting ch).cancelUpd
  let s := (s.forEach s.modes.due fun w t => t.evState srcRuntime w.1 1 0).modModes fun m => { m with due := [] }
  if s.isSet SYS_CHG SYS_CHG_SAFECHG then s.cancelPending 2 else s

/-- KEY_POSITION_STABLE (R209): a contact code has been stable for 20 ms. -/
def execKeyPositionStable (code : BitVec 2) (s : State) : Host.Outcome State Fault Refusal :=
  let s := (s.putFld SYS_KEY SYS_KEY_KC1 (code.toNat % 2)).putFld SYS_KEY SYS_KEY_KC2 (code.toNat / 2)
  let old := s.keyPos
  let s := if code = 2 then (s.flag SYS_KEY SYS_KEY_INVALID).evState (srcOf SYS_KEY) 0 old keyStop else s
  let s := s.putFld SYS_KEY SYS_KEY_POS (keyOf code.toNat)
  .next (if old = keyProg ∧ s.keyPos ≠ keyProg then s.keyLeftProg else s)

/-- CONFIRM_TIMEOUT (R218): of a LAP channel, or of the UPD and SEC blocks (16). -/
def execConfirmTimeout (channel : Fin 17) (s : State) : Host.Outcome State Fault Refusal :=
  .next (if channel.val < 16 then s.cancelWaiting channel.val else s.cancelUpd)

/-! ### Mode settings and the effective mode (R211, R212) -/

/-- A write to SYS_MODECFG. Only Bellows writes it at another key position than PROG. -/
def State.modecfgWrite (s : State) (bellows : Bool) (v : Word) : State :=
  if bellows || s.keyAtProg then
    let s := s.setReg SYS_MODECFG (v &&& 0x1B)
    s.modModes fun m => { m with storedCfg := s.reg SYS_MODECFG }
  else s.evRefused (srcOf SYS_MODECFG) (SYS_MODECFG % 65536) 1

/-- MODECFG_WRITE. -/
def execModecfgWrite (who : Initiator) (value : Word) (s : State) : Host.Outcome State Fault Refusal :=
  .next (s.modecfgWrite (who == .bellows) value)

/-- SYS_MODE.REMOTE as it acts. -/
def State.remoteMode (s : State) : Nat := min (s.fld SYS_MODE SYS_MODE_REMOTE) effStop

/-- The effective mode that hardware forms at a tick (R211). -/
def State.formedMode (s : State) : Nat :=
  let auth := s.fld SYS_MODECFG SYS_MODECFG_AUTH
  let key := s.keyPos
  let r := s.remoteMode
  if key = keyStop then effStop
  else if auth = 2 then r
  else if auth = 1 then (if key = keyProg then r else if r = effStop then effStop else effRun)
  else if key = keyProg then effProg else effRun

/-! ### Forces (R215, R218, R220) -/

/-- Whether two entries force the same point in the same direction. -/
def Force.samePoint (a b : Force) : Bool := a.analog == b.analog && a.index == b.index && a.output == b.output

/-- Set one force; an entry for the same point and direction is replaced. -/
def setForce (l : List Force) (f : Force) : List Force := l.filter (fun e => !e.samePoint f) ++ [f]

/-- Whether a point lies in a slice of a SAFE task. -/
def State.safePoint (s : State) (analog : Bool) (i : Nat) : Bool :=
  s.program.tasks.any fun t => t.2.slices.any (fun x => x.holds analog i) && s.isSafe t.1

/-- Keep a new force table; SYS_FORCES shows its length, and a pair copies it. -/
def State.keepForces (s : State) (l : List Force) : State :=
  ((s.modModes fun m => { m with forces := l }).putFld SYS_FORCES SYS_FORCES_NFORCE l.length).copyItem 9 0

/-- The numbers that spell a force list, for its challenge. -/
def forceNumbers (l : List Force) : List Nat := l.flatMap fun f => [f.index, bit f.analog, bit f.output, f.value.toNat]

/-- FORCESET (CODE 5). -/
def State.forceSet (s : State) (ch : Nat) (fs : List Force) : Decided :=
  if fs.any fun f => decide (kindPoints f.analog ≤ f.index) then s.refuse 5 resMalformed
  else if s.eff ≠ effProg then s.refuse 5 resRefused
  else
    let l := fs.foldl setForce s.modes.forces
    if 1024 < l.length then s.refuse 5 resRefused
    else if fs.any fun f => s.safePoint f.analog f.index then
      if s.keyAtProg then s.challenge ch (Config.changeDigest (5 :: forceNumbers fs)) (.forceSet fs) else s.refuse 5 resRefused
    else (s.keepForces l).accept

/-- The table without the entries that a FORCEREL names; none named means all. -/
def releaseForces (l : List Force) (ps : List (Bool × Bool × Nat)) : List Force :=
  if ps.isEmpty then [] else l.filter fun f => !ps.contains (f.analog, f.output, f.index)

/-- FORCEREL (CODE 6): points as kind, direction, index. -/
def State.forceRel (s : State) (ch : Nat) (ps : List (Bool × Bool × Nat)) : Decided :=
  let held := s.eff == effStop && s.fld SYS_MODE SYS_MODE_HOLD == 1
  if s.eff ≠ effProg ∧ !held then s.refuse 6 resRefused
  else
    let named := if ps.isEmpty then s.modes.forces.map fun f => (f.analog, f.output, f.index) else ps
    if named.any fun p => s.safePoint p.1 p.2.2 then
      if s.keyAtProg then
        s.challenge ch (Config.changeDigest (6 :: named.flatMap fun p => [p.2.2, bit p.1, bit p.2.1])) (.forceRel ps)
      else s.refuse 6 resRefused
    else (s.keepForces (releaseForces s.modes.forces ps)).accept

/-- FORCESTART (CODE 7): the hold of R220 ends at the next tick. -/
def State.forceStart (s : State) : Decided :=
  if !s.keyAtProg then s.refuse 7 resRefused
  else if s.fld SYS_MODE SYS_MODE_HOLD ≠ 1 then s.refuse 7 resState
  else (s.putFld SYS_MODE SYS_MODE_HOLD 0).accept

/-! ### Restart commands (R202, R208, R213, R214) -/

/-- Rank of a restart: a later kind overrides an earlier one. -/
def RestartKind.rank : RestartKind → Nat
  | .warm => 0
  | .cold => 1
  | .purge => 2

/-- The kind that results when a command meets a restart in progress. -/
def strongerKind (a : Option RestartKind) (k : RestartKind) : RestartKind :=
  match a with
  | some b => if b.rank < k.rank then k else b
  | none => k

/-- A restart is commanded. In STOP it is performed when STOP is left (R214). -/
def State.commandRestart (s : State) (k : RestartKind) : State :=
  if s.eff = effStop ∧ s.modes.restart = none then
    if k = .warm then s else s.modModes fun m => { m with coldWanted := some (strongerKind m.coldWanted k) }
  else s.modModes fun m => { m with restart := some (strongerKind m.restart k), restartDone := false }

/-- WARMRST and COLDRST (CODE 2 and 3). -/
def State.restartCommand (s : State) (code : Nat) (k : RestartKind) : Decided :=
  if s.modes.restart = some k then s.accept
  else if s.eff = effRun then s.refuse code resRefused
  else (s.commandRestart k).accept

/-- PURGE (CODE 4): only in PROG with the key at PROG, and confirmed. -/
def State.purgeCommand (s : State) (ch : Nat) : Decided :=
  if s.modes.restart = some .purge ∨ s.modes.due.any fun w => w.2 == .purge then s.accept
  else if s.eff ≠ effProg ∨ !s.keyAtProg then s.refuse 4 resRefused
  else s.challenge ch (Config.changeDigest [4]) .purge

/-- MODE (CODE 1): the runtime writes SYS_MODE.REMOTE. -/
def State.modeCommand (s : State) (m : Nat) : Decided :=
  if effStop < m then s.refuse 1 resMalformed else (s.putFld SYS_MODE SYS_MODE_REMOTE m).accept

/-- R213 permits FRM_TSTATn.RESTART. -/
def State.restartPermitted (s : State) (n : Nat) : Bool :=
  if s.isSafe n then s.eff == effProg && s.keyAtProg else s.eff != effStop

/-- FRM_TSTATn.RESTART is written 1 (R166, R213). -/
def State.taskRestartGo (s : State) (n : Nat) : State :=
  if s.restartPermitted n then s.taskRestart n else s.evRefused srcRuntime 0x18 resRefused

/-- TASK_RESTART. -/
def execTaskRestart (task : Fin 64) (s : State) : Host.Outcome State Fault Refusal := .next (s.taskRestartGo task.val)

/-- TASKRESTART (CODE 0x18). -/
def State.taskRestartCommand (s : State) (n : Nat) : Decided :=
  if 64 ≤ n then s.refuse 0x18 resMalformed
  else if s.restartPermitted n then (s.taskRestart n).accept else s.refuse 0x18 resRefused

/-! ### Online change (R221 to R227) -/

/-- Whether an action on an online change is permitted: PROG, and STOP for some. -/
def State.changeAllowed (s : State) (inStop : Bool) : Bool := s.eff == effProg || (inStop && s.eff == effStop)

/-- Bank state of a component in the boot directory (R474). -/
def State.setBankState (s : State) (c b v : Nat) : State :=
  s.putFld (UPD_COMP_STATE c) (if b = 0 then UPD_COMP_STATE_B0 else UPD_COMP_STATE_B1) v

/-- Bank states. -/
def bkEmpty : Nat := 0
def bkValid : Nat := 1
def bkTrial : Nat := 2
def bkConfirmed : Nat := 3
def bkFailed : Nat := 4

/-- The active bank of a component. -/
def State.activeBank (s : State) (c : Nat) : Nat := s.fld (UPD_COMP_STATE c) UPD_COMP_STATE_ACTIVE

/-- Keep what a program bank holds. -/
def State.setProgram (s : State) (b : Nat) (p : Program) : State :=
  if h : b < 2 then { s with update := { s.update with programs := s.update.programs.set b p } } else s

/-- Base of a flash bank of the program (R474). -/
def flashProgram (b : Nat) : Nat := 0x82000000 + 0x4000000 * b

/-- The inactive DRAM bank and the inactive flash bank of the program take a package, or are empty (R222, R226). In flash the
bytes follow a header of 256 bytes (log entry 132). -/
def State.fillProgramBank (s : State) (p : Option Package) : State :=
  let b := 1 - s.activeBank 3
  match p with
  | some k =>
    let s := s.writeProgram k.program (1 - s.progBank)
    let s := s.forEach (k.program.image.filter fun e => decide (e.1 + 256 < 0x4000000)) fun e t =>
      t.writeByte (flashProgram b + 256 + e.1) e.2
    (s.setProgram b k.program).setBankState 3 b bkValid
  | none => (s.setProgram b Program.empty).setBankState 3 b bkEmpty

/-- The check that a package fails: `check` is one that the command has found to fail, 0 for none. -/
def State.failedCheck (s : State) (pkg : Package) (check : Nat) : Option Nat :=
  if check ≠ 0 then some check else (s.loadFails pkg).map fun c => (Config.paramCode 8 c).toNat

/-- The inactive banks hold a package that has passed its checks. -/
def State.holdPackage (s : State) (pkg : Package) : State :=
  (((s.setChange { s.change with package := some pkg }).fillProgramBank (some pkg)).setChg chgLoaded).putFld SYS_CHG
    SYS_CHG_SAFECHG (bit pkg.safe)

/-- The inactive banks are empty, and no online change is under way. -/
def State.dropPackage (s : State) : State :=
  (((s.setChange { s.change with package := none }).fillProgramBank none).setChg chgNone).putFld SYS_CHG SYS_CHG_SAFECHG 0

/-- The runtime checks a package and holds it, or empties the inactive banks; an event names the check that failed (R222). In a
pair the partner gets a copy of a package that passed (R324). -/
def State.takePackage (s : State) (pkg : Package) (check : Nat) : State × Nat :=
  match s.failedCheck pkg check with
  | some c => (s.dropPackage.evRefused srcRuntime 0x10 c, resRefused)
  | none => ((s.holdPackage pkg).copyItem 10 0, resDone)

/-- CHGLOAD (CODE 0x10): the package is checked (R222). -/
def State.chgLoad (s : State) (pkg : Package) (check : Nat) : Decided :=
  if !s.changeAllowed true then s.refuse 0x10 resRefused
  else if s.chg ≠ chgNone ∧ s.chg ≠ chgLoaded then s.refuse 0x10 resState
  else match s.takePackage pkg check with
  | (t, r) => (t, r, 0)

/-- Whether the package in the inactive banks affects a SAFE task. -/
def State.changeSafe (s : State) : Bool := s.change.package.elim false (·.safe)

/-- The challenge of the package in the inactive banks. -/
def State.packageDigest (s : State) : Word := s.change.package.elim 0 (·.digest)

/-- CHGSWITCH (CODE 0x11). -/
def State.chgSwitch (s : State) (ch : Nat) : Decided :=
  if !s.changeAllowed false then s.refuse 0x11 resRefused
  else if s.chg ≠ chgLoaded then s.refuse 0x11 resState
  else if s.changeSafe then
    if s.keyAtProg then s.challenge ch s.packageDigest .switch |> fun (t, r, c) => (t.setChg chgArmed, r, c)
    else s.refuse 0x11 resRefused
  else (s.setChg chgPending).accept

/-- CHGDISCARD (CODE 0x12). -/
def State.chgDiscard (s : State) : Decided :=
  if !s.changeAllowed true then s.refuse 0x12 resRefused
  else if s.chg ≠ chgLoaded then s.refuse 0x12 resState
  else s.dropPackage.accept

/-- The active program becomes the flash-active one, and no online change is under way (R226). -/
def State.commitProgram (s : State) : State :=
  let version := s.change.package.elim (s.reg (UPD_COMP_VER 3)) (·.version)
  let s := s.setChange { s.change with package := none, flash := s.program, convert := none }
  let new := 1 - s.activeBank 3
  let s := ((s.putFld (UPD_COMP_STATE 3) UPD_COMP_STATE_ACTIVE new).setReg (UPD_COMP_VER 3) version).setBankState 3 new bkConfirmed
  (s.setProgram new s.program).dropPackage

/-- CHGCOMMIT (CODE 0x13). -/
def State.chgCommit (s : State) : Decided :=
  if !s.changeAllowed false then s.refuse 0x13 resRefused
  else if s.chg ≠ chgSwitched ∧ s.chg ≠ chgClosed then s.refuse 0x13 resState
  else s.commitProgram.accept

/-- CHGROLLBACK (CODE 0x14). -/
def State.chgRollback (s : State) (ch : Nat) : Decided :=
  if !s.changeAllowed false then s.refuse 0x14 resRefused
  else if s.chg ≠ chgSwitched then s.refuse 0x14 resState
  else if s.changeSafe then
    if s.keyAtProg then s.challenge ch s.packageDigest .rollback else s.refuse 0x14 resRefused
  else (s.setChg chgReverse).accept

/-- What a confirmed command of a channel does. A SWITCH or ROLLBACK acts only from the state it was given in, and then waits for
its tick in SYS_CHG.STATE; every other command acts at the next tick. -/
def State.confirmed (s : State) (ch : Nat) : Waiting → State
  | .switch => if s.chg = chgArmed then s.setChg chgPending else s
  | .rollback => if s.chg = chgSwitched then s.setChg chgReverse else s
  | w => s.modModes fun m => { m with due := m.due ++ [(ch, w)] }

/-- A confirmed command acts at a tick. -/
def State.actConfirmed (s : State) : Waiting → State
  | .purge => s.commandRestart .purge
  | .forceSet fs =>
    let l := fs.foldl setForce s.modes.forces
    if 1024 < l.length then s.evRefused srcRuntime 5 resRefused else s.keepForces l
  | .forceRel ps => s.keepForces (releaseForces s.modes.forces ps)
  | _ => s

/-- The confirmed commands act at a tick, in order. -/
def State.dueTick (s : State) : State :=
  (s.forEach s.modes.due fun w t => t.actConfirmed w.2).modModes fun m => { m with due := [] }

/-- The effective mode permits a confirmation (R213): PROG, or, for the release of forces, STOP while the module is held. -/
def State.confirmAllowed (s : State) : Waiting → Bool
  | .forceRel _ => s.eff == effProg || (s.eff == effStop && s.fld SYS_MODE SYS_MODE_HOLD == 1)
  | _ => s.eff == effProg

/-- CONFIRM (CODE 0x20): the second step of the command that the channel left waiting. -/
def State.confirmCommand (s : State) (ch : Nat) (c : Word) : Decided :=
  match s.waitingOf ch with
  | none => s.refuse 0x20 resMismatch
  | some (want, w) =>
    if c ≠ want ∨ !s.keyAtProg then ((s.cancelWaiting ch), resMismatch, 0)
    else if !s.confirmAllowed w then s.refuse 0x20 resRefused
    else ((s.forgetWaiting ch).confirmed ch w).accept

/-! ### The switch (R224, R225) -/

/-- Whether a triad has a hand-over, or a rejoin copy into it, in progress. -/
def State.triadMoving (s : State) (t : Nat) : Bool :=
  s.fld (LANE_TRIAD t) LANE_TRIAD_STATE != 0 || (s.triad t).request.isSome ||
    allLanes.any fun l => (s.lane l).copying == some t

/-- The first condition of R224. -/
def State.switchReady (s : State) (affected : List Nat) : Bool :=
  affected.all fun n =>
    !s.cycleOpen n && (s.task n).placeCopy == 0 && !s.isSet (FRM_TSTAT n) FRM_TSTAT_PMOVE &&
      !((s.task n).placed && s.triadMoving (placeTriad (s.task n).place))

/-- Copy bytes inside a lane region. -/
def State.moveBytes (s : State) (src dst len : Nat) : State := s.writeRun dst (s.bytes src len)

/-- One entry of a migration table in one lane (R221). -/
def State.migrateEntry (s : State) (old new : Program) (lane : Nat) (m : Migration) : State :=
  let base := if m.space = 0 then laneDram lane else laneMram lane
  let ranges (p : Program) : List (Nat × Nat) :=
    (p.task m.task).elim [] fun t => if m.space = 0 then t.laneData else t.retained
  let dst := areaBase (ranges new) + m.dst
  if m.op = 0 then s.moveBytes (base + areaBase (ranges old) + m.src) (base + dst) m.len
  else if m.op = 2 then s.writeRun (base + dst) (List.replicate m.len 0)
  else if m.op ≠ 1 then s
  else
    let init := ((new.task m.task).elim [] (·.init)).filter fun i =>
      i.1 == (m.space != 0) && decide (dst ≤ i.2.1) && decide (i.2.1 < dst + m.len)
    s.forEach init fun i t => t.writeRun (base + i.2.1) [i.2.2]

/-- The migration copy: every lane of the placement that each task's group in the new program names (R224). -/
def State.migrate (s : State) (old new : Program) (ms : List Migration) : State :=
  s.forEach ms fun m t =>
    t.forEach ((new.task m.task).elim [] fun tp => t.placeLanes tp.place) fun l u => u.migrateEntry old new l m

/-- The program that a pending change switches to, and the table that migrates to it. -/
def State.changeTarget (s : State) : Option (Program × List Migration) :=
  s.change.package.map fun p => (p.program, if s.chg = chgReverse then p.reverse else p.forward)

/-- A deferral of a pending switch; the thousandth cancels it (R224, R225). -/
def State.deferSwitch (s : State) : State :=
  let n := s.change.deferrals + 1
  let s := (s.bump SYS_CHGDEF).setChange { s.change with deferrals := n }
  if 1000 ≤ n then s.cancelPending 3 else s

/-- CHANGE_SWITCH_CHECK (R224, R227): the conditions are checked, and the migration copy is made or the switch is
deferred. -/
def State.switchCheck (s : State) (partnerLoaded : Bool) : State :=
  if (s.chg ≠ chgPending ∧ s.chg ≠ chgReverse) ∨ s.change.copied then s
  else match s.changeTarget with
    | none => s
    | some (p, ms) =>
      let affected := affectedTasks s.program p
      if !s.switchReady affected ∨ (s.cpl.member && !partnerLoaded) then s.deferSwitch
      else
        let s := (s.migrate s.program p ms).writeGroups p affected
        s.setChange { s.change with copied := true }

/-- CHANGE_SWITCH_CHECK. -/
def execChangeSwitchCheck (partnerLoaded : Bool) (s : State) : Host.Outcome State Fault Refusal :=
  .next (s.switchCheck partnerLoaded)

/-- The retained area of a task carries the layout identifier of a program, in every lane of its placement (R205). -/
def State.stampLayout (s : State) (tp : TaskProg) : State :=
  s.forEach (s.placeLanes tp.place) fun l t => t.writeRun (laneMram l + tp.layoutAt) (leBytes 4 tp.layoutId)

/-- The voted copy of a task that both programs have keeps the values of the points that both give it; another point starts from
the substitute image with tag S (R157, R225). `s` holds the old program. -/
def State.carryVoted (s : State) (t : State) (old new : TaskProg) : State :=
  if old.votedCopy = new.votedCopy ∧ old.slices = new.slices then t
  else
    let cells := (new.slicesOf true).flatMap fun x => x.points.map fun p => (x.analog, p.1)
    t.forEach cells fun c u =>
      match votedCell (new.slicesOf true) new.votedCopy c.1 c.2 with
      | none => u
      | some pa => u.putCell c.1 pa (match votedCell (old.slicesOf true) old.votedCopy c.1 c.2 with
        | some from' => s.cellAt c.1 from'
        | none => { value := (s.point subBase c.1 c.2).value, tag := tagS })

/-- The mappings of every task move to the bank of the new program (R134). -/
def State.moveMappings (s : State) (old : Program) : State :=
  (s.forEach s.taskNumbers fun n t => t.loadTask n).flushTasks (old.tasks.map (·.1))

/-- What the switch does to the tasks of the two programs (R225). `before` holds the old one, and `affected` are the tasks that change. -/
def State.switchTasks (s before : State) (old new : Program) (affected : List Nat) : State :=
  let removed := affected.filter fun n => (old.task n).isSome && (new.task n).isNone
  let gone := removed.flatMap fun n => before.outPoints n
  let s := s.forEach s.taskNumbers fun n t =>
    match old.task n, new.task n with
    | some a, some b => before.carryVoted t a b
    | _, _ => t
  let s := s.forEach affected fun n t =>
    match new.task n with
    | some tp => t.stampLayout tp
    | none => t
  let s := s.forEach affected fun n t =>
    match old.task n, new.task n with
    | some _, some _ => t.advanceEpoch n
    | none, some _ => t.startTask n
    | _, none => t
  s.forEach (gone.filter fun p => (s.ownerOf p.1 p.2).isNone) fun p t =>
    t.putPub p.1 p.2 { value := (t.point subBase p.1 p.2).value, tag := tagS }

/-- The switch at tick s: banks, mappings, epochs, new tasks and removed tasks (R225). The old program stays in the inactive
banks, with the tables exchanged for the way back. -/
def State.switchNow (s : State) : State :=
  match s.change.package with
  | none => s
  | some pkg =>
    let old := s.program
    let new := pkg.program
    let back := s.chg == chgReverse
    let before := s
    let s := ({ s with program := new } : State).putFld SYS_CHG SYS_CHG_BANK (1 - s.progBank)
    let s := s.setChange { s.change with package := some { pkg with program := old }, copied := false, deferrals := 0,
                                         convert := if back then none else some (new, pkg.reverse), failedPages := [] }
    let s := (s.moveMappings old).forEach allTasks fun n t => t.modTask n fun k => { k with badPages := [] }
    let s := s.switchTasks before old new (affectedTasks old new)
    let s := s.setChg (if back then chgLoaded else chgSwitched)
    s.putFld SYS_CHG SYS_CHG_AGE 0

/-- ROLLBACK_WINDOW_CLOSE (R226). -/
def execRollbackWindowClose (s : State) : Host.Outcome State Fault Refusal :=
  .next (if s.chg = chgSwitched ∧ 1000 ≤ s.fld SYS_CHG SYS_CHG_AGE then s.setChg chgClosed else s)

end Sys2Proof.Machine
end

