-- ==== Sys2Proof/Machine/Sm3.lean ====
section
/-!
DEFINITION. The hash SM3 and the MAC of LAP (R301, R302). The manual names SM3 by its standard, GB/T 32905, whose algorithm
this file follows (PRESUMED: taken from the standard, log entry 126).
-/

namespace Sys2Proof.Machine

/-- A 32-bit word turned left. -/
def rotl32 (x n : Nat) : Nat := (x * 2 ^ n) % 0x100000000 + x / 2 ^ (32 - n)

/-- The words of a message schedule, newest first, from the sixteen words of a block. -/
def sm3Expand : Nat → List Nat → List Nat
  | n + 1, a :: b :: c :: d :: e :: f :: g :: h :: i :: j :: k :: l :: m :: o :: p :: q :: w =>
    let x := q ^^^ i ^^^ rotl32 c 15
    sm3Expand n (((x ^^^ rotl32 x 15 ^^^ rotl32 x 23) ^^^ rotl32 m 7 ^^^ f)
      :: a :: b :: c :: d :: e :: f :: g :: h :: i :: j :: k :: l :: m :: o :: p :: q :: w)
  | _, w => w

/-- The eight words of the chaining value. -/
structure Sm3Value where
  a : Nat
  b : Nat
  c : Nat
  d : Nat
  e : Nat
  f : Nat
  g : Nat
  h : Nat
  deriving DecidableEq, Repr

/-- One round: the round number, and its words W and W'. -/
def Sm3Value.round (v : Sm3Value) (j w w' : Nat) : Sm3Value :=
  let t := if j < 16 then 0x79CC4519 else 0x7A879D8A
  let s1 := rotl32 ((rotl32 v.a 12 + v.e + rotl32 t (j % 32)) % 0x100000000) 7
  let ff := if j < 16 then v.a ^^^ v.b ^^^ v.c else (v.a &&& v.b) ||| (v.a &&& v.c) ||| (v.b &&& v.c)
  let gg := if j < 16 then v.e ^^^ v.f ^^^ v.g else (v.e &&& v.f) ||| ((0xFFFFFFFF - v.e) &&& v.g)
  let t1 := (ff + v.d + (s1 ^^^ rotl32 v.a 12) + w') % 0x100000000
  let t2 := (gg + v.h + s1 + w) % 0x100000000
  { a := t1, b := v.a, c := rotl32 v.b 9, d := v.c, e := t2 ^^^ rotl32 t2 9 ^^^ rotl32 t2 17, f := v.e, g := rotl32 v.f 19, h := v.g }

/-- Rounds from a number on over a schedule, oldest word first. -/
def Sm3Value.rounds (v : Sm3Value) (j : Nat) : List Nat → Sm3Value
  | w :: x :: y :: z :: t :: rest => (v.round j w (w ^^^ t)).rounds (j + 1) (x :: y :: z :: t :: rest)
  | _ => v

/-- The compression of one block of 64 bytes, given as sixteen words. -/
def Sm3Value.block (v : Sm3Value) (ws : List Nat) : Sm3Value :=
  let u := v.rounds 0 (sm3Expand 52 ws.reverse).reverse
  { a := u.a ^^^ v.a, b := u.b ^^^ v.b, c := u.c ^^^ v.c, d := u.d ^^^ v.d, e := u.e ^^^ v.e, f := u.f ^^^ v.f, g := u.g ^^^ v.g,
    h := u.h ^^^ v.h }

/-- Bytes as words, most significant byte first. -/
def beWords : List Nat → List Nat
  | a :: b :: c :: d :: rest => (a * 0x1000000 + b * 0x10000 + c * 0x100 + d) :: beWords rest
  | _ => []

/-- A word as bytes, most significant byte first. -/
def beBytes (w : Nat) : List Nat := [w / 0x1000000 % 256, w / 0x10000 % 256, w / 0x100 % 256, w % 256]

/-- Blocks one after another; the first argument bounds their number. -/
def Sm3Value.blocks : Nat → Sm3Value → List Nat → Sm3Value
  | 0, v, _ => v
  | n + 1, v, ws => if ws.isEmpty then v else (v.block (ws.take 16)).blocks n (ws.drop 16)

/-- The digest of a message of bytes. -/
def sm3 (m : List Nat) : List Nat :=
  let bits := 8 * m.length
  let padded := m ++ [0x80] ++ List.replicate ((119 - m.length % 64) % 64) 0 ++ beBytes (bits / 0x100000000) ++ beBytes bits
  let iv : Sm3Value :=
    ⟨0x7380166F, 0x4914B2B9, 0x172442D7, 0xDA8A0600, 0xA96F30BC, 0x163138AA, 0xE38DEE4D, 0xB0FB0E4E⟩
  let v := iv.blocks (m.length / 64 + 2) (beWords padded)
  [v.a, v.b, v.c, v.d, v.e, v.f, v.g, v.h].flatMap beBytes

/-- The number in bits [31:0] of a digest, read as a number with the most significant byte first (DESIGN CHOICE, log entry 128). -/
def digestLow (d : List Nat) : Nat := (d.drop 28).foldl (fun a b => 256 * a + b) 0

/-- HMAC with SM3 under a key of at most 64 bytes. -/
def hmacSm3 (key m : List Nat) : List Nat :=
  let block := key ++ List.replicate (64 - key.length) 0
  sm3 (block.map (· ^^^ 0x5C) ++ sm3 (block.map (· ^^^ 0x36) ++ m))

end Sys2Proof.Machine
end

