-- ==== Sys2Proof/Machine/Streams.lean ====
section
/-!
DEFINITION. Streams to stations: commands in MGMT slots, far-side failures and fences, fetches, the orphan-read buffer and
station events (R310 to R320).
-/

namespace Sys2Proof.Machine

/-- What the bridge holds of a channel. -/
def State.lap (s : State) (n : Nat) : LapChannel := if h : n < 16 then s.bridge.channels[n] else LapChannel.reset
/-- Change what the bridge holds of a channel. -/
def State.modLap (s : State) (n : Nat) (g : LapChannel → LapChannel) : State :=
  if h : n < 16 then s.modBridge fun k => { k with channels := k.channels.set n (g k.channels[n]) } else s

/-- The channel number of the bridge's own stream to a station (R319). -/
def ownChannel : Nat := 16

/-- A stream has this key. -/
def RemStream.is (x : RemStream) (ch ring id : Nat) : Bool := x.channel == ch && x.ring == ring && x.station == id

/-- The stream of a channel to a station. -/
def State.stream (s : State) (ch ring id : Nat) : RemStream :=
  (s.bridge.streams.find? fun x => x.is ch ring id).getD
    { channel := ch, ring := ring, station := id, work := [], out := none, answer := 0, fenced := false }

/-- Change the stream of a channel to a station. -/
def State.modStream (s : State) (ch ring id : Nat) (g : RemStream → RemStream) : State :=
  let x := g (s.stream ch ring id)
  (s.modBridge fun k =>
    { k with streams := if k.streams.any fun y => y.is ch ring id then
        k.streams.map fun y => if y.is ch ring id then x else y else k.streams ++ [x] }).copyItem 6 (ch * 65536 + ring * 256 + id)

/-- A write of the channel to the station is not accepted: its stream, or every stream of the channel, is fenced. -/
def State.isFenced (s : State) (ch ring id : Nat) : Bool := (s.stream ch ring id).fenced || (s.lap ch).full

/-! ### Failures (R317, R318) -/

/-- Show a channel's failure list in its registers. -/
def State.showFailures (s : State) (ch : Nat) : State :=
  let l := (s.lap ch).failures
  let fenced := (s.lap ch).full || s.bridge.streams.any fun x => x.channel == ch && x.fenced
  let s := (s.putFld (BRG_CH_STATE ch) BRG_CH_STATE_NFAIL l.length).putFld (BRG_CH_STATE ch) BRG_CH_STATE_FENCED (bit fenced)
  let s := match l with
    | f :: _ =>
      ((((s.setReg (BRG_CH_FSEQ ch) (BitVec.ofNat 32 f.fseq)).putFld (BRG_CH_FINFO ch) BRG_CH_FINFO_STATION f.station).putFld
        (BRG_CH_FINFO ch) BRG_CH_FINFO_RING f.ring).putFld (BRG_CH_FINFO ch) BRG_CH_FINFO_DISC (min f.discards 255)).putFld
        (BRG_CH_FINFO ch) BRG_CH_FINFO_CODE f.code
    | [] => (s.setReg (BRG_CH_FSEQ ch) 0).setReg (BRG_CH_FINFO ch) 0
  s.copyItem 6 (0x1000000 + ch)

/-- SEQ numbers of the COMMITTED writes among work. -/
def committedItems (ws : List RemWork) : List Nat :=
  ws.filterMap fun w => match w with
    | .write _ _ _ _ i => i
    | _ => none

/-- The journal entry of a COMMITTED write of a channel. -/
def State.itemEntry (s : State) (ch seq : Nat) : Option WayEntry :=
  s.bridge.entries.find? fun e => e.kind == wayWrite && e.stream == ch && e.seq == seq && e.remote

/-- Set STATE bits of a COMMITTED write. -/
def State.markItem (s : State) (ch seq bits : Nat) : State :=
  match s.itemEntry ch seq with
  | some e => s.markEntry e bits
  | none => s

/-- Whether work is a write. -/
def RemWork.isWrite : RemWork → Bool
  | .write .. => true
  | _ => false

/-- The writes queued in a stream are discarded: the COMMITTED ones count as delivered. -/
def State.discardWork (s : State) (ch ring id : Nat) (ws : List RemWork) : State :=
  let s := s.modStream ch ring id fun x => { x with work := x.work.filter fun w => !w.isWrite }
  (s.forEach (committedItems ws) fun q t => t.markItem ch q wayDisc).countDisc ch ws.length

/-- A posted write of a channel fails on the far side (R317). A full list bars new items in every stream of the channel; writes that other
streams hold are sent (DESIGN CHOICE, log entry 142). -/
def State.farFailure (s : State) (ch ring id : Nat) (item : Option Nat) (code : Nat) : State :=
  let ws := (s.stream ch ring id).work.filter RemWork.isWrite
  let full := decide (16 ≤ (s.lap ch).failures.length)
  let f : Failure :=
    { ring := ring, station := id, code := code, fseq := item.getD 0, discards := ws.length,
      lastDisc := (committedItems ws).getLastD 0 }
  let s := s.modLap ch fun c => if full then { c with full := true } else { c with failures := c.failures ++ [f] }
  let s := match item with
    | some q => s.markItem ch q wayDisc
    | none => s
  let s := if full then s else s.modStream ch ring id fun x => { x with fenced := true }
  let s := s.discardWork ch ring id ws
  ((((s.flag BRG_STATUS BRG_STATUS_FAIL).irq lineBrg).event srcBrg 6 sevWarning
    [(Config.paramCode 3 ch).toNat, ring * 256 + id, if full then 7 else code]).showFailures ch)

/-! ### Fetches and orphans (R312 to R315) -/

/-- Keep a value that nobody has fetched. -/
def State.addOrphan (s : State) (o : Orphan) : State :=
  let full := decide (64 ≤ s.bridge.orphans.length)
  let s := s.modBridge fun k => { k with orphans := (if full then k.orphans.drop 1 else k.orphans) ++ [o] }
  let s := s.flag BRG_STATUS BRG_STATUS_ORPH
  let s := if full then (s.bump BRG_ORPHDROP).evLimit srcBrg (Config.paramCode 4 0).toNat 65 64 else s
  s.copyItem 6 0x2000000

/-- An abandoned fetch whose result is there: a SIDE_EFFECT value becomes an orphan, another is discarded. -/
def State.settleFetch (s : State) (ch : Nat) (f : Fetch) : State :=
  match f.result with
  | some r =>
    let s := s.modLap ch fun c => { c with fetches := c.fetches.filter fun x => x != f }
    (match r with
      | some v => if f.sideEffect then s.addOrphan { channel := ch, ring := f.ring, station := f.station, addr := f.addr, value := v, taken := false } else s
      | none => s)
  | none => s

/-- The work of a stream without the PREADs from an address that have not been sent. -/
def dropUnsent (addr : Nat) (x : RemStream) : List RemWork :=
  let k := bit x.out.isSome
  x.work.take k ++ (x.work.drop k).filter fun w => match w with
    | .read a _ => a != addr
    | _ => true

/-- A fetch is abandoned (R313): one of an address without SIDE_EFFECT is forgotten, with a PREAD of it that has not been sent. -/
def State.abandonFetch (s : State) (ch : Nat) (f : Fetch) : State :=
  let g := { f with abandoned := true }
  if !f.sideEffect then
    (s.modLap ch fun c => { c with fetches := c.fetches.filter fun x => x != f }).when f.result.isNone fun t =>
      t.modStream ch f.ring f.station fun x => { x with work := dropUnsent f.addr x }
  else (s.modLap ch fun c => { c with fetches := c.fetches.map fun x => if x = f then g else x }).settleFetch ch g

/-- The results of a fetch reach the channel that started it: `words` from an address up, none on failure. -/
def State.fetchResult (s : State) (ch ring id addr : Nat) (words : Option (List Word)) : State :=
  let res : Option Word := words.bind fun ws => ws.head?
  let s := s.forEach ((s.lap ch).fetches.filter fun f => f.ring == ring && f.station == id && f.addr == addr && f.result.isNone) fun f t =>
    let g := { f with result := some res }
    let t := t.modLap ch fun c => { c with fetches := c.fetches.map fun x => if x = f then g else x }
    if f.abandoned then t.settleFetch ch g else t
  match words with
  | some ws => s.modBridge fun k => { k with
      cache := k.cache.filter (fun c => !(c.1 == ring && c.2.1 == id && decide (addr < c.2.2.1) && decide (c.2.2.1 < addr + ws.length)))
        ++ (ws.zipIdx.drop 1).map fun w => (ring, id, addr + w.2, w.1) }
  | none => s

/-- The prefetch cache of a station is discarded. -/
def State.dropCache (s : State) (ring id : Nat) : State :=
  s.modBridge fun k => { k with cache := k.cache.filter fun c => !(c.1 == ring && c.2.1 == id) }

/-! ### Sending (R311) -/

/-- Whether a stream's next work may be sent now: a COMMITTED write waits for R414. -/
def State.workReady (s : State) (x : RemStream) : Bool :=
  match x.work with
  | [] => false
  | .write _ _ _ _ (some q) :: _ => (s.itemEntry x.channel q).any s.mayDeliver
  | _ => true

/-- A stream has a command to send in this frame. -/
def State.streamReady (s : State) (x : RemStream) : Bool :=
  match x.out with
  | some (_, _, sends) => decide (x.answer < s.frameCount) && decide (sends ≤ 3) && s.sta x.ring x.station == staActive
  | none => s.workReady x && s.sta x.ring x.station == staActive

/-- The work at the head of a stream whose station is not ACTIVE fails (R311). -/
def State.failHead (s : State) (x : RemStream) (code : Nat) : State :=
  let s := s.modStream x.channel x.ring x.station fun y => { y with work := y.work.drop 1, out := none }
  match x.work with
  | .write _ _ _ _ item :: _ => s.farFailure x.channel x.ring x.station item code
  | .read a _ :: _ => s.fetchResult x.channel x.ring x.station a none
  | _ => s

/-- The streams of a ring in the order of its rotation. -/
def State.rotation (s : State) (n : Nat) : List RemStream :=
  let l := s.bridge.streams
  let turn := if h : n < 6 then s.bridge.turn[n] else 0
  (l.drop turn ++ l.take turn).filter fun x => x.ring == n

/-- A bridge command as MGMT data: CMD, entry count, and the data from byte 8. -/
def workData : RemWork → Nat × List Byte
  | .write a l w v _ => (0x20, leBytes 2 a ++ leBytes 1 l ++ leBytes 1 w ++ leBytes 4 v.toNat)
  | .read a c => (0x21, leBytes 2 a ++ leBytes 1 c)
  | .events _ => (0x22, [])

/-- The next bridge command of a ring: the stream, its CMD, its MGMT SEQ and its data. A write whose station is not
ACTIVE fails instead. -/
def State.nextCommand (s : State) (n : Nat) : Option RemStream := (s.rotation n).find? s.streamReady

/-- A stream's command is sent in this frame; the answer is due in a granted slot of the next. -/
def State.commandSent (s : State) (x : RemStream) (seq : Nat) : State :=
  let now := s.frameCount
  let s := s.modStream x.channel x.ring x.station fun y =>
    { y with out := some (match y.out with
        | some (q, f, k) => (q, f, k + 1)
        | none => (seq, now, 1)), answer := now + 1 }
  let turn := (s.bridge.streams.findIdx fun y => y.is x.channel x.ring x.station) + 1
  let s := s.modBridge fun k => { k with turn := k.turn.setIfInBounds x.ring turn }
  match x.work with
  | .write .. :: _ => s.dropCache x.ring x.station
  | _ => s

/-- The MGMT SEQ of a stream's command: that of the first sending, SEQ[7:0] of a COMMITTED item (R415), else the ring's
next number. -/
def State.commandSeq (s : State) (x : RemStream) : Nat :=
  match x.out, x.work with
  | some (q, _, _), _ => q
  | none, .write _ _ _ _ (some q) :: _ => q % 256
  | none, _ => ((s.ring x.ring).seq + 1) % 256

/-- The stream whose outstanding command an answer belongs to. -/
def State.answeredStream (s : State) (ring id cmd seq : Nat) : Option RemStream :=
  s.bridge.streams.find? fun x => x.ring == ring && x.station == id &&
    (match x.out, x.work with
      | some (q, _, _), w :: _ => q == seq && (workData w).1 == cmd
      | _, _ => false)

/-- The outstanding command of a stream is done with. -/
def State.finishHead (s : State) (x : RemStream) : State :=
  s.modStream x.channel x.ring x.station fun y => { y with work := y.work.drop 1, out := none }

/-- An answer to PWRITE (R310, R317). -/
def State.pwriteAnswer (s : State) (ring id seq result : Nat) : State :=
  match s.answeredStream ring id 0x20 seq with
  | none => s
  | some x =>
    match x.work with
    | .write _ _ _ _ item :: _ =>
      if result = 0 then
        let s := s.finishHead x
        (match item with
          | some q => s.markItem x.channel q wayDlv
          | none => s)
      else s.failHead x (min result 3)
    | _ => s

/-- An answer to PREAD. One with a RESULT other than 0 fails the fetch as no answer does (DESIGN CHOICE, log entry 141). -/
def State.preadAnswer (s : State) (ring id seq result : Nat) (data : List Byte) : State :=
  match s.answeredStream ring id 0x21 seq with
  | none => s
  | some x =>
    match x.work with
    | .read a c :: _ =>
      let ws := (List.range c).map fun i => BitVec.ofNat 32 (ofLe ((data.drop (4 * i)).take 4))
      (s.finishHead x).fetchResult x.channel ring id a (if result = 0 then some ws else none)
    | _ => s

/-- FAR_SIDE_TIMEOUT: a command without an answer for BRG_FARTO frames, also one whose station has left ACTIVE since it was sent (log entry
142). -/
def State.farTimeout (s : State) (x : RemStream) : State :=
  match x.out with
  | some (_, first, _) =>
    if first + max 4 (s.fld BRG_FARTO BRG_FARTO_FARTO) ≤ s.frameCount then s.failHead x 4 else s
  | none => s

/-- FAR_SIDE_TIMEOUT (R311). -/
def execFarSideTimeout (channel : Fin 17) (ring : Fin 6) (station : BitVec 8) (s : State) : Host.Outcome State Fault Refusal :=
  .next (s.farTimeout (s.stream channel.val ring.val station.toNat))

/-- A REM write of a channel as work: the field value at its place. -/
def remoteWork (g : Signal) (v : Nat) (item : Option Nat) : RemWork := .write (g.index % 65536) g.lsb g.width (BitVec.ofNat 32 v) item

/-- After a replay the COMMITTED writes of remote signals that are not over go to their streams again (R415, R421). -/
def State.requeueRemote (s : State) : State :=
  let s := s.modBridge fun k => { k with streams := k.streams.map fun x =>
    { x with out := none, work := x.work.filter fun w => (committedItems [w]).isEmpty } }
  s.forEach (s.bridge.entries.filter fun e => e.kind == wayWrite && !e.over) fun e t =>
    let g := t.signal e.key
    if g.kind = kindRem then
      let t := t.modBridge fun k => { k with entries := k.entries.map fun x => if x.line = e.line then { x with remote := true } else x }
      match g.toField (BitVec.ofNat 32 e.key2) with
      | some v => t.modStream e.stream g.ring g.station fun x => { x with work := x.work ++ [remoteWork g v (some e.seq)] }
      | none => t.discardItem e
    else t

/-- The work of a ring's streams to stations that are not ACTIVE fails (R311). -/
def State.failInactive (s : State) (n : Nat) : State :=
  s.forEach (s.rotation n) fun x t =>
    let y := t.stream x.channel n x.station
    if t.sta n x.station ≠ staActive ∧ y.out.isNone ∧ t.workReady y then t.failHead y 5 else t

/-! ### NOTIFY (R319, R320) -/

/-- FLAGS of a response or NOTIFY of a channel (R298). -/
def State.lapFlags (s : State) (ch : Nat) : Nat :=
  s.fld SYS_STATUS SYS_STATUS_FORCED + 2 * bit (!(s.lap ch).failures.isEmpty || (s.lap ch).full) + 4 +
    8 * bit (s.eff == effStop || s.fld SYS_MODE SYS_MODE_HOLD != 0) + 16 * bit (s.isSet LANE_STATUS LANE_STATUS_SAFEFAIL) +
    32 * bit s.standby

/-- The 36 header bytes of a datagram (R297). -/
def lapHeader (ver op flags sid dcnt reqid seq rcpt fcnt status plen : Nat) : List Byte :=
  leBytes 1 ver ++ leBytes 1 op ++ leBytes 2 flags ++ leBytes 4 sid ++ leBytes 8 dcnt ++ leBytes 4 reqid ++ leBytes 4 seq ++
    leBytes 4 rcpt ++ leBytes 4 fcnt ++ leBytes 2 status ++ leBytes 2 plen

/-- The header of a datagram that the module sends. -/
def LapOut.header (m : LapOut) : List Byte :=
  lapHeader 1 m.op m.flags m.sid m.dcnt m.reqid m.seq m.rcpt m.fcnt m.status m.payload.length

/-- A datagram as bytes: header, payload, MAC (R297). -/
def LapOut.bytes (m : LapOut) : List Byte := m.header ++ m.payload ++ m.mac

/-- The MAC of a datagram: the first 12 bytes of HMAC with SM3 over header and payload (R302). -/
def lapMac (key message : List Byte) : List Byte :=
  ((hmacSm3 (key.map BitVec.toNat) (message.map BitVec.toNat)).take 12).map (BitVec.ofNat 8)

/-- The MAC field where there is no session key. -/
def noMac : List Byte := List.replicate 12 0

/-- A datagram with its MAC under a session key. -/
def LapOut.sealed (m : LapOut) (key : List Byte) : LapOut := { m with mac := lapMac key (m.header ++ m.payload) }

/-- Send a datagram in a channel's session. -/
def State.lapSend (s : State) (ch via peer op reqid seq fcnt status : Nat) (payload : List Byte) : State :=
  let s := s.modLap ch fun c => { c with txCount := c.txCount + 1 }
  let m : LapOut :=
    { op := op, flags := s.lapFlags ch, sid := (s.lap ch).sid, dcnt := (s.lap ch).txCount, reqid := reqid, seq := seq,
      rcpt := (s.reg (WAY_RCPT ch)).toNat, fcnt := fcnt, status := status, payload := payload, mac := noMac }
  s.sendOn via (.lap via peer (m.sealed (s.lap ch).key))

/-- The payload of a NOTIFY. -/
def Notify.payload (n : Notify) : List Byte :=
  leBytes 1 n.ring ++ leBytes 1 n.station ++ leBytes 1 n.kind ++ leBytes 1 (n.records.length / 8) ++ n.records

/-- Send a NOTIFY. -/
def State.sendNotify (s : State) (ch : Nat) (n : Notify) : State :=
  s.lapSend ch (s.lap ch).via (s.lap ch).peer 0xB1 n.reqid 0 n.fcnt 0 n.payload

/-- SSTATE of a channel: 0 none, 1 half-open, 2 open. -/
def State.sessionState (s : State) (ch : Nat) : Nat := s.fld (BRG_CH_STATE ch) BRG_CH_STATE_SSTATE

/-- All LAP channels. -/
def allChannels : List Nat := List.range 16

/-- One NOTIFY to every open session that has subscribed to the station. -/
def State.notify (s : State) (ring id kind fcnt : Nat) (records : List Byte) : State :=
  s.forEach (allChannels.filter fun c => s.sessionState c == 2 && (s.lap c).subs.contains (ring * 256 + id)) fun c t =>
    let n : Notify := { reqid := (t.lap c).nextReq, ring := ring, station := id, kind := kind, records := records, fcnt := fcnt, sends := 1 }
    (t.modLap c fun l => { l with nextReq := l.nextReq + 1, notes := l.notes ++ [n] }).sendNotify c n

/-- An answer to EVTGET: its records go to every subscribed session, with the frame of the first IN frame of the EVT run. Fewer
than 8 records are all that were pending (R319). -/
def State.evtgetAnswer (s : State) (ring id seq result count : Nat) (data : List Byte) : State :=
  match s.answeredStream ring id 0x22 seq with
  | none => s
  | some x =>
    match x.work with
    | .events n :: _ =>
      let s := (s.finishHead x).when (result == 0 && decide (count < 8)) fun t => t.modStation ring id fun k => { k with evt := none }
      if result = 0 ∧ count ≠ 0 then s.notify ring id 0 (n % 0x100000000) (data.take (8 * min count 8)) else s
    | _ => s

/-- No NOTIFY of the station waits for its acknowledgement. -/
def State.noteFree (s : State) (ring id : Nat) : Bool :=
  allChannels.all fun c => (s.lap c).notes.all fun m => !(m.ring == ring && m.station == id)

/-- EVTGET for a station whose EVT the bridge has seen in an earlier frame (R319). -/
def State.askEvents (s : State) (ring id : Nat) : State :=
  match (s.station ring id).evt with
  | some n =>
    if n < s.frameCount ∧ s.noteFree ring id ∧ (s.stream ownChannel ring id).work.isEmpty then
      s.modStream ownChannel ring id fun x => { x with work := [.events n] }
    else s
  | none => s

/-- EVTGET for every station, at a tick. -/
def State.askAllEvents (s : State) (n : Nat) : State :=
  s.forEach ((s.ring n).stations.map (·.1)) fun id t => t.askEvents n id

end Sys2Proof.Machine
end

