-- ==== Sys2Proof/Machine/RingRx.lean ====
section
/-!
DEFINITION. The ring controllers: start-up, reception and policing, own SYNC copies, breaks (R246 to R256, R262 to R270,
R281).
-/

namespace Sys2Proof.Machine

/-- RSTATE values (R261). -/
def ringOff : Nat := 0
def ringListen : Nat := 1
def ringHalt : Nat := 4

/-- Set SOPn_STATE.RSTATE. -/
def State.setRingState (s : State) (n v : Nat) : State := s.putFld (SOP_STATE n) SOP_STATE_RSTATE v

/-- The ring status word (R235). -/
def State.ringStat (s : State) (n : Nat) : Nat :=
  s.fld SYS_STATUS SYS_STATUS_FORCED + 2 * bit (s.isSet (SOP_BREAK n) SOP_BREAK_VALID || (s.ring n).broken) +
    4 * bit (s.eff == effStop || s.fld SYS_MODE SYS_MODE_HOLD != 0) + 8 * bit (s.isSet LANE_STATUS LANE_STATUS_SAFEFAIL) +
    16 * bit (decide ((s.ring n).frames < 16))

/-! ### Start and stop (R251, R333) -/

/-- Both queue instances of a ring. -/
def State.emptyRing (s : State) (n : Fin 6) : State := (s.emptyQueue (.ring n false)).emptyQueue (.ring n true)

/-- The stations of a ring that is off are not integrated; a rejection stays. -/
def State.forgetStations (s : State) (n : Nat) : State :=
  let keep (x : Nat × Station) : Option (Nat × Station) :=
    if s.sta n x.1 = staRejected ∧ x.2.gen ≠ 0 then some (x.1, { Station.reset with gen := x.2.gen }) else none
  (s.forEach allIds fun id t => if t.sta n id = staAbsent ∨ t.sta n id = staRejected then t else t.setSta n id staAbsent).modRing n
    fun k => { k with stations := k.stations.filterMap keep }

/-- A ring controller that starts anew: what it holds of stations and of other masters stays, and what the tick has sampled. -/
def Ring.restarted (k : Ring) : Ring :=
  { Ring.reset with stations := k.stations, zero := k.zero, zeroSync := k.zeroSync, stat := k.stat, guard := k.guard,
                    guardNext := k.guardNext, nslot := k.nslot, schedid := k.schedid }

/-- SOPn_CTRL.EN changes from 0 to 1. -/
def State.ringEnable (s : State) (n : Fin 6) : State :=
  if s.isSet (SOP_CTRL n) SOP_CTRL_EN then s
  else if !s.isSet BLW_STAGE ⟨8 + n.val, 1⟩ then s.flag (SOP_CTRL n) SOP_CTRL_EN
  else
    (((s.flag (SOP_CTRL n) SOP_CTRL_EN).setRingState n ringListen).putFld (SOP_STATE n) SOP_STATE_CLEAN 0).putFld (SOP_LOOP n)
      SOP_LOOP_VALID 0 |>.modRing n Ring.restarted

/-- SOPn_CTRL.EN changes from 1 to 0. -/
def State.ringDisable (s : State) (n : Fin 6) : State :=
  (((s.putFld (SOP_CTRL n) SOP_CTRL_EN 0).setRingState n ringOff).emptyRing n).forgetStations n |>.modRing n Ring.restarted

/-- RING_ENABLE. -/
def execRingEnable (ring : Fin 6) (s : State) : Host.Outcome State Fault Refusal := .next (s.ringEnable ring)
/-- RING_DISABLE. -/
def execRingDisable (ring : Fin 6) (s : State) : Host.Outcome State Fault Refusal := .next (s.ringDisable ring)

/-- A SYNC from ID 0 was heard within the last three frames: the module does not become node 0 of the ring (R256, R385). -/
def State.heardZero (s : State) (n : Nat) : Bool := (s.ring n).zeroSync.any fun f => decide (s.frameCount < f + 3)

/-- LISTEN_TIMEOUT: only an active module that may send, and that has heard no other module, starts a ring (R251, R256,
R385). -/
def execListenTimeout (ring : Fin 6) (s : State) : Host.Outcome State Fault Refusal :=
  .next (if s.ringState ring = ringListen ∧ s.ringSends ring ∧ !s.heardZero ring then s.setRingState ring ringColdstart else s)

/-! ### Cold start (R251, R253, R254, R270) -/

/-- A collision, counted once in a round. -/
def State.collision (s : State) (n : Nat) : State :=
  if (s.ring n).collided then s
  else (((s.bump (SOP_COLLCNT n)).flag (SOP_STATUS n) SOP_STATUS_COLL).putFld (SOP_STATE n) SOP_STATE_CLEAN 0).modRing n
    fun k => { k with collided := true }

/-- A ring that is to start as a broken ring: with CNOM, or not at all (R270). -/
def State.lonelyStart (s : State) (n : Nat) : State :=
  if s.isSet (SOP_CNOM n) SOP_CNOM_CNOM then s.modRing n fun k => { k with starting := some none }
  else if (s.ring n).lonelyRaised then s
  else (s.evLimit (srcSop n) (SOP_CNOM n % 0x10000) 3 0).modRing n fun k => { k with lonelyRaised := true }

/-- The cold start goes back to LISTEN, or begins its count of clean rounds anew. -/
def State.coldAgain (s : State) (n : Nat) (listen : Bool) : State :=
  ((s.when listen fun t => t.setRingState n ringListen).putFld (SOP_STATE n) SOP_STATE_CLEAN 0).modRing n fun k =>
    { k with lonely := 0, starting := none }

/-- The round that is open ends and is judged: C is measured from the returned copies of the third clean one, each against the
departure of its own copy (R253, R289). -/
def State.judgeRound (s : State) (n : Nat) : State :=
  let k := s.ring n
  match k.roundAt with
  | none => s
  | some (east, west) =>
    let s := s.modRing n fun k => { k with roundAt := none }
    if k.foreign then s.coldAgain n false
    else if k.garbled then s.coldAgain n true
    else match k.retE, k.retW with
      | some e, some w =>
        let clean := min 3 (s.fld (SOP_STATE n) SOP_STATE_CLEAN + 1)
        let c := ((e - west) + (w - east)) / 2 / unit8
        (s.putFld (SOP_STATE n) SOP_STATE_CLEAN clean).modRing n fun k =>
          { k with lonely := 0, starting := if clean = 3 ∧ k.starting.isNone then some (some c.toNat) else k.starting }
      | none, none =>
        let s := (s.putFld (SOP_STATE n) SOP_STATE_CLEAN 0).modRing n fun k => { k with lonely := min 3 (k.lonely + 1) }
        if 3 ≤ (s.ring n).lonely ∧ (s.ring n).starting.isNone then s.lonelyStart n else s
      | _, _ => s.coldAgain n false

/-- COLDSTART_ROUND: the round that is open ends. Unless the ring starts now, the next one begins with a CSTART whose copies
leave at `raw`. -/
def State.coldRound (s : State) (n : Nat) (raw : Int) : State :=
  if s.ringState n ≠ ringColdstart then s
  else
    let s := s.judgeRound n
    if s.ringState n ≠ ringColdstart ∨ !s.ringSends n ∨ (s.ring n).starting.isSome then s
    else
      let east := s.stampOut (2 * n) raw - s.hopShift n
      let west := s.stampOut (2 * n + 1) raw + s.hopShift n
      let s := s.modRing n fun k =>
        { k with round := k.round + 1, roundAt := some (east, west), retE := none, retW := none, foreign := false,
                 garbled := false, collided := false }
      let tick := s.grid s.frameCount
      s.sendCopies n typCstart 255 0 ((s.ring n).round % 0x100000000) (s.ring n).stat maxFrame (east - tick) (west - tick)
        (leBytes 4 0 ++ leBytes 4 s.framePeriod)

/-- COLDSTART_ROUND. -/
def execColdstartRound (ring : Fin 6) (raw : Int) (s : State) : Host.Outcome State Fault Refusal := .next (s.coldRound ring raw)

/-- The open round has lasted 1 ms at a tick. -/
def State.roundOver (s : State) (n : Nat) : Bool :=
  (s.ring n).roundAt.any fun r =>
    decide (r.1 + s.hopShift n - s.stampOut (2 * n) 0 + 1000 * (clockUs : Int) ≤ s.grid s.frameCount)

/-- A SYNC that reaches a module which is not in RUN: a leader is shown, and one from ID 0 is remembered. -/
def State.hearSync (s : State) (n src : Nat) : State :=
  if src ≠ 0 then s.putFld (SOP_STATE n) SOP_STATE_HEARD src
  else
    let k := s.frameCount
    s.modRing n fun r => { r with zeroSync := some k }

/-- A frame that arrives during cold start. A SYNC from ID 0 ends it (R256); a CSTART of another node is a collision, and a
ring that was to start does not. -/
def State.coldReceive (s : State) (n : Nat) (west : Bool) (t : Int) (h : RingHeader) : State :=
  if h.typ = slSync then
    let s := s.hearSync n h.src
    if h.src = 0 then (s.coldAgain n true).modRing n fun k => { k with roundAt := none } else s
  else if h.typ ≠ typCstart then s
  else if h.src = 0 ∧ h.fcnt = (s.ring n).round % 0x100000000 then
    s.modRing n fun k => if west then { k with retW := some t } else { k with retE := some t }
  else (s.collision n).modRing n fun k => { k with foreign := true, starting := none }

/-- A garbled frame during cold start. -/
def State.coldGarbled (s : State) (n : Nat) : State :=
  if s.ringState n = ringColdstart ∧ ((s.ring n).roundAt.isSome ∨ (s.ring n).starting.isSome) then
    (s.collision n).modRing n fun k => { k with garbled := true, starting := none }
  else s

/-- A frame that arrives while listening: a SYNC is heard, and a module that may not send follows one from ID 0. -/
def State.listenReceive (s : State) (n : Nat) (h : RingHeader) (payload : List Byte) : State :=
  if h.typ ≠ slSync then s
  else
    let s := s.hearSync n h.src
    if h.src ≠ 0 ∨ s.ringSends n then s
    else
      (((s.setRingState n ringRun).putFld (SOP_LOOP n) SOP_LOOP_C (ofLe ((payload.drop 18).take 2))).flag (SOP_LOOP n) SOP_LOOP_VALID).modRing
        n fun k => { k with frames := 16, guard := s.guardSet n, guardNext := s.guardSet n, nslot := s.nslotSet n }

/-! ### Policing (R247) -/

/-- Activity outside every window: a frame with its preamble and SFD, 8 ns a byte (R229, R247). -/
def State.outsideActivity (s : State) (n bytes src : Nat) : State :=
  let k := s.ring n
  let total := k.outside + bytes + 8
  let s := s.modRing n fun k => { k with outside := total }
  if 250 < total ∧ !k.babbled then
    ((s.flag (SOP_STATUS n) SOP_STATUS_BABBLE).event (srcSop n) 0x0103 sevFault [src]).modRing n fun k => { k with babbled := true }
  else s

/-- A frame in a neighbour's window, or of the wrong type in its sender's own slot. -/
def State.violation (s : State) (n src slot : Nat) (west : Bool) : State :=
  ((((s.bump (SOP_SLOTVIOL n src)).putFld (SOP_LASTVIOL n) SOP_LASTVIOL_SRC src).putFld (SOP_LASTVIOL n) SOP_LASTVIOL_PORT
    (bit west)).putFld (SOP_LASTVIOL n) SOP_LASTVIOL_SLOT slot).flag (SOP_STATUS n) SOP_STATUS_VIOL |>.event (srcSop n) 0x0102
    sevWarning [src, slot]

/-- A stranger. -/
def State.stranger (s : State) (n src typ : Nat) (west : Bool) : State :=
  ((((s.bump (SOP_STRCNT n)).putFld (SOP_LASTSTR n) SOP_LASTSTR_ID src).putFld (SOP_LASTSTR n) SOP_LASTSTR_PORT (bit west)).putFld
    (SOP_LASTSTR n) SOP_LASTSTR_TYPE typ).flag (SOP_STATUS n) SOP_STATUS_STRANGER |>.event (srcSop n) 0x0101 sevWarning [src]

/-- A frame outside every window. -/
def State.outWindow (s : State) (n typ : Nat) : State :=
  let s := s.bump (SOP_OUTWIN n)
  if typ = typCstart then (s.bump (SOP_FCOLDCNT n)).flag (SOP_STATUS n) SOP_STATUS_FCOLD else s

/-- Change a slot of this frame. -/
def State.modSlot (s : State) (n slot : Nat) (g : SlotUse → SlotUse) : State :=
  s.modRing n fun k => { k with slots := k.slots.map fun u => if u.index = slot then g u else u }

/-- A copy of a slot has arrived at a port. -/
def State.gotCopy (s : State) (n slot : Nat) (west : Bool) : State :=
  s.modSlot n slot fun u => if west then { u with gotW := true } else { u with gotE := true }

/-- A SYNC of node 0 is accepted at a port: its own copies return, wrapped or not; a standby takes C and the times of the
active module's copies (R231, R266, R397). -/
def State.ownSync (s : State) (n : Nat) (u : SlotUse) (h : RingHeader) (west : Bool) (t : Int) (payload : List Byte) : State :=
  if h.west = west then
    s.flag (SOP_BREAK n) (if west then SOP_BREAK_WRAPY else SOP_BREAK_WRAPX)
  else
    let s := s.gotCopy n u.index west
    let s := s.modRing n fun k => if west then { k with syncW := some t } else { k with syncE := some t }
    if s.standby then
      ((s.putFld (SOP_LOOP n) SOP_LOOP_C (ofLe ((payload.drop 18).take 2))).flag (SOP_LOOP n) SOP_LOOP_VALID).modRing n fun k =>
        if west then { k with seenW := some t } else { k with seenE := some t }
    else s

/-- A frame in its own slot's window is accepted: it is cut when it runs too long, it must be of this frame, and a
station's frame goes into the port's queue. A standby forwards it cut-through, whatever its FCS turns out to be, and when it runs too
long as far as the end of its window (R230, R247, R396). -/
def State.acceptFrame (s : State) (n : Fin 6) (u : SlotUse) (h : RingHeader) (west : Bool) (t : Int) (f : List Byte) : State :=
  let q : QueueId := .ring n west
  let late := match s.expected n u west with
    | some (_, b) => decide (2 * (b + (u.len : Int) * unit8) + s.gUse n < 2 * (t + (f.length : Int) * unit8))
    | none => false
  let cut := match s.expected n u west with
    | some (_, b) => ((2 * (b + (u.len : Int) * unit8) + s.gUse n - 2 * t) / (2 * unit8)).toNat
    | none => f.length
  let s := if s.standby ∧ s.dualHomed n then s.send (.forward n (!west) (if late then f.take cut else f)) else s
  if late then
    let s := s.bump (SOP_LONG n)
    if h.src = 0 then s else (s.enqueue q { data := f, size := f.length, start := t, good := none }).endPacket q false
  else if !fcsGood f ∧ (h.fcnt ≠ s.fcnt ∨ h.typ = slIn ∧ s.sta n h.src ≠ staActive) then s.bump (SOP_FCSERR n)
  else if h.fcnt ≠ s.fcnt then
    (if h.typ = slIn then s.modStation n h.src fun k => { k with late := k.late + 1 } else s)
  else
    if h.src = 0 then
      if !fcsGood f then s.bump (SOP_FCSERR n)
      else if h.typ = slSync then s.ownSync n u h west t (framePayload f)
      else s.gotCopy n u.index west
    else if h.typ = slIn ∧ s.sta n h.src ≠ staActive then s
    else
      let s := if fcsGood f then (s.gotCopy n u.index west).modRing n fun k =>
          if west then { k with heardW := h.src :: k.heardW } else { k with heardE := h.src :: k.heardE } else s
      s.enqueue q { data := f, size := f.length, start := t, good := none }

/-- A frame with a good header arrives in a running ring (R247). -/
def State.police (s : State) (n : Fin 6) (h : RingHeader) (west : Bool) (t : Int) (f : List Byte) : State :=
  let known := h.src == 0 || s.inConsist n h.src
  match (if h.typ = typCstart then none else (s.ring n).slots.find? fun u => s.inWindow n u west t) with
  | some u =>
    if s.slotSender n u = some h.src then
      (if u.typ = h.typ then s.acceptFrame n u h west t f else s.violation n h.src u.index west)
    else if known then s.violation n h.src u.index west
    else s.stranger n h.src h.typ west
  | none =>
    let s := if known ∨ h.typ = typCstart then s.outWindow n h.typ else s.stranger n h.src h.typ west
    (s.when (h.typ == slSync && h.src == 0 && fcsGood f) fun t => t.modRing n fun k => { k with rival := true }).outsideActivity
      n f.length h.src

/-- A frame arrives at a ring port; `raw` is its start on the module's clock at the MAC side. A standby whose ring is not in RUN has no
schedule to police by, and forwards every frame with a valid header (R255, R396). -/
def State.ringReceive (s : State) (n : Fin 6) (west : Bool) (raw : Int) (f : List Byte) : State :=
  let t := s.stampIn (2 * n.val + bit west) raw
  let st := s.ringState n
  let h := ringHeader f
  let rel := t - s.grid s.frameCount
  if st = ringOff ∨ st = ringHalt then s
  else if !headerValid n f then
    let s := (s.bump (SOP_HDRERR n)).coldGarbled n
    if st = ringRun ∧ !((s.ring n).slots.any fun u => s.inWindow n u west rel) then s.outsideActivity n f.length h.src else s
  else
    let s := if h.src = 0 ∧ (s.standby ∨ h.typ ≠ typCstart ∧ st ≠ ringRun) then
      s.modRing n fun k => { k with zero := some s.frameCount } else s
    let s := if s.standby ∧ s.dualHomed n ∧ st ≠ ringRun then s.send (.forward n (!west) f) else s
    if st = ringRun then s.police n h west rel f
    else if !fcsGood f then (s.bump (SOP_FCSERR n)).coldGarbled n
    else if st = ringListen then s.listenReceive n h (framePayload f)
    else s.coldReceive n west t h

/-- RING_FRAME_RECEIVED: the frame's bytes, from the first header byte to the last FCS byte. -/
def execRingFrameReceived (ring : Fin 6) (west : Bool) (raw : Int) (frame : List Byte) (s : State) :
    Host.Outcome State Fault Refusal := .next (s.ringReceive ring west raw frame)

/-! ### C and the hop (R231, R269, R279, R397) -/

/-- C has been measured, in units of 8 ns. -/
def State.measureLoop (s : State) (n c : Nat) : State :=
  let far (a b : Nat) : Bool := decide ((s.ring n).guard < 4 * (((a : Int) - b).natAbs))
  let chg := s.isSet (SOP_LOOP n) SOP_LOOP_VALID && far c (s.fld (SOP_LOOP n) SOP_LOOP_C)
  let nom := s.fld (SOP_CNOM n) SOP_CNOM_CNOM
  let off := nom != 0 && far c nom
  let s := s.when (chg || off) fun t => t.flag (SOP_STATUS n) SOP_STATUS_LOOPCHG
  let s := s.when off fun t => t.evLimit (srcSop n) (SOP_LOOP n % 0x10000) c nom
  (s.putFld (SOP_LOOP n) SOP_LOOP_C c).flag (SOP_LOOP n) SOP_LOOP_VALID

/-- C as the two own copies of this frame's SYNC show it. -/
def State.loopSample (s : State) (n : Nat) : Option Nat :=
  match (s.ring n).syncE, (s.ring n).syncW with
  | some e, some w =>
    let start := ((s.ring n).slots.find? fun u => u.index == 0).elim 0 SlotUse.start
    some (((e + w) / 2 / unit8 - start).toNat)
  | _, _ => none

/-- d_H as the ALTERNATE measures it while it is STANDBY. -/
def State.measureHop (s : State) (n : Nat) : State :=
  match (s.ring n).seenE, (s.ring n).seenW with
  | some e, some w =>
    let d := ((e - w + (s.loopC n : Int) * unit8 - forwardDelay) / 2 / 65536).toNat
    (s.putFld (CPL_HOP n) CPL_HOP_HMEAS d).flag (CPL_HOP n) CPL_HOP_VALID
  | _, _ => s

/-- SYNC_RETURN. -/
def execSyncReturn (ring : Fin 6) (s : State) : Host.Outcome State Fault Refusal :=
  .next (if s.ringState ring ≠ ringRun then s
    else if s.standby then (if s.dualHomed ring ∧ s.alternate then s.measureHop ring else s)
    else if s.isSet (SOP_BREAK ring) SOP_BREAK_VALID ∨ (s.ring ring).broken then s
    else match s.loopSample ring with
      | some c => s.measureLoop ring c
      | none => s)

/-! ### Input frames (R250) -/

/-- IN_FRAME: the next packet of a port's queue, an IN frame. One that comes after its bank closed counts as a late input,
beside the miss that the close has counted (DESIGN CHOICE, log entry 123). -/
def State.inFrame (s : State) (n : Fin 6) (west : Bool) : State :=
  let q : QueueId := .ring n west
  match s.headPacket q with
  | (t, none) => t
  | (t, some p) =>
    let h := ringHeader p.data
    if h.typ ≠ slIn then t
    else
      let t := t.popPacket q
      match (t.ring n).slots.find? fun u => u.index == h.slot && u.owner == h.src && u.ok with
      | none => t.modStation n h.src fun k => { k with late := k.late + 1 }
      | some u =>
        if h.fcnt ≠ t.fcnt then t.modStation n h.src fun k => { k with late := k.late + 1 }
        else
          let pl := framePayload p.data
          match u.payload with
          | some old => if old = pl then t else t.evState (srcSop n) h.src u.index 1
          | none =>
            let t := t.forEach (u.blocks.filter (·.ok)) fun b r => r.fillInput (bankBase r.frameCount) pl b
            let t := t.modSlot n u.index fun v => { v with payload := some pl }
            t.modStation n h.src fun k => { k with evt := if bitAt h.stat 2 then some (k.evt.getD t.frameCount) else none }

/-- IN_FRAME. -/
def execInFrame (ring : Fin 6) (west : Bool) (s : State) : Host.Outcome State Fault Refusal := .next (s.inFrame ring west)

/-! ### Breaks (R263, R264, R269) -/

/-- Whether both own SYNC copies of this frame have returned unwrapped. -/
def State.syncBoth (s : State) (n : Nat) : Bool := (s.ring n).syncE.isSome && (s.ring n).syncW.isSome

/-- The station of a list with the largest (or smallest) position; 0 for none. -/
def State.edgeStation (s : State) (n : Nat) (largest : Bool) (l : List Nat) : Nat :=
  (l.foldl (fun (a : Option (Nat × Nat)) id =>
    let p := (s.position n id).getD 0
    match a with
    | none => some (id, p)
    | some (i, q) => if (if largest then q < p else p < q) then some (id, p) else some (i, q)) none).elim 0 (·.1)

/-- BREAK_DECLARE: a SYNC copy is missing in this frame, as in the one before. -/
def State.breakDeclare (s : State) (n : Nat) : State :=
  let k := s.ring n
  if s.ringState n = ringRun ∧ !s.standby ∧ !s.isSet (SOP_BREAK n) SOP_BREAK_VALID ∧ 1 ≤ k.missed ∧ !s.syncBoth n then
    let e := k.heardE ++ k.lastE
    let w := k.heardW ++ k.lastW
    let x := s.edgeStation n true (e.filter fun i => !w.contains i)
    let y := s.edgeStation n false (w.filter fun i => !e.contains i)
    ((((s.flag (SOP_BREAK n) SOP_BREAK_VALID).putFld (SOP_BREAK n) SOP_BREAK_XID x).putFld (SOP_BREAK n) SOP_BREAK_YID y).bump
      (SOP_BREAKCNT n)).event (srcSop n) 0x0105 sevFault [x, y]
  else s

/-- BREAK_DECLARE. -/
def execBreakDeclare (ring : Fin 6) (s : State) : Host.Outcome State Fault Refusal := .next (s.breakDeclare ring)

/-- BREAK_HEAL: both SYNC copies have returned unwrapped in 16 consecutive frames. -/
def State.breakHeal (s : State) (n : Nat) : State :=
  if s.ringState n = ringRun ∧ (s.isSet (SOP_BREAK n) SOP_BREAK_VALID ∨ (s.ring n).broken) ∧
      16 ≤ (s.ring n).intact + bit (s.syncBoth n) then
    let s := (((s.putFld (SOP_BREAK n) SOP_BREAK_VALID 0).putFld (SOP_BREAK n) SOP_BREAK_WRAPX 0).putFld (SOP_BREAK n) SOP_BREAK_WRAPY
      0).modRing n fun k => { k with broken := false }
    match s.loopSample n with
    | some c => s.measureLoop n c
    | none => s
  else s

/-- BREAK_HEAL. -/
def execBreakHeal (ring : Fin 6) (s : State) : Host.Outcome State Fault Refusal := .next (s.breakHeal ring)

/-- Station IDs packed into parameter words, four to a word from bits [7:0] up. -/
def packIds : Nat → List Nat → List Nat
  | 0, _ => []
  | k + 1, ids => if ids.isEmpty then [] else ofLe ((ids.take 4).map (BitVec.ofNat 8)) :: packIds k (ids.drop 4)

/-- ONECOPY_PATTERN: one event, with the senders concerned in all 16 frames: four to a parameter, as many as the record
holds (DESIGN CHOICE, log entry 122). -/
def execOnecopyPattern (ring : Fin 6) (s : State) : Host.Outcome State Fault Refusal :=
  .next (if 16 ≤ (s.ring ring).ones ∧ !(s.ring ring).onesRaised then
      (s.event (srcSop ring) 6 sevWarning (SOP_ONECOPY ring.val % 0x10000 :: packIds 5 (s.ring ring).oneIds)).modRing ring
        fun k => { k with onesRaised := true }
    else s)

/-! ### Cables (R281) -/

/-- The nearest station to a port: its PNOM, or the distance of its PNOM from CNOM; none at nW while there is no CNOM. -/
def State.nearest (s : State) (n : Nat) (west : Bool) : Option Nat :=
  if west && s.fld (SOP_CNOM n) SOP_CNOM_CNOM == 0 then none
  else (allIds.filterMap fun id =>
    if s.inConsist n id && s.isSet (SOP_PNOM n id) SOP_PNOM_VALID then
      some (if west then s.fld (SOP_CNOM n) SOP_CNOM_CNOM - s.fld (SOP_PNOM n id) SOP_PNOM_PNOM else s.fld (SOP_PNOM n id) SOP_PNOM_PNOM)
    else none).foldl (fun a p => match a with
      | none => some p
      | some q => some (min p q)) none

/-- Events of one measured hop: too long, or longer than the nearest station allows at 5 ns per m. -/
def State.judgeHop (s : State) (n : Nat) (west : Bool) (len : Nat) : State :=
  let flagged (t : State) : State := { t with bellows := { t.bellows with cableBad := true } }
  let s := s.when (decide (40 < len)) fun t => flagged (t.evLimit (srcSop n) (SOP_TDR n % 0x10000) len 40)
  match s.nearest n west with
  | some p => s.when (decide (8 * p < 5 * len)) fun t => flagged (t.evLimit (srcSop n) (SOP_TDR n % 0x10000) len (8 * p / 5))
  | none => s

/-- TDR_MEASURE. -/
def execTdrMeasure (ring : Fin 6) (eStat : BitVec 2) (eLen : BitVec 6) (wStat : BitVec 2) (wLen : BitVec 6) (s : State) :
    Host.Outcome State Fault Refusal :=
  let a := SOP_TDR ring.val
  .next (((((((s.flag a SOP_TDR_VALID).putFld a SOP_TDR_ESTAT eStat.toNat).putFld a SOP_TDR_ELEN eLen.toNat).putFld a SOP_TDR_WSTAT
    wStat.toNat).putFld a SOP_TDR_WLEN wLen.toNat).judgeHop ring false eLen.toNat).judgeHop ring true wLen.toNat)

end Sys2Proof.Machine
end

