-- ==== Sys2Proof/Machine/RingInt.lean ====
section
/-!
DEFINITION. The ring controllers: slots, MGMT commands, integration of stations, late stations and the close of a frame
(R240 to R245, R257 to R260, R268 to R280).
-/

namespace Sys2Proof.Machine

/-! ### Rejection (R260) -/

/-- A command for a MGMT slot. -/
def State.addJob (s : State) (n : Nat) (j : MgmtJob) : State := s.modRing n fun k => { k with jobs := k.jobs ++ [j] }

/-- A station is rejected. -/
def State.rejectStation (s : State) (n id reason : Nat) : State :=
  ((((((s.putFld (SOP_STA n id) SOP_STA_REASON reason).setSta n id staRejected).flag (SOP_STATUS n) SOP_STATUS_REJ).event (srcSop n)
    0x0104 sevWarning [id, reason]).modStation n id fun k =>
      { k with gen := s.fld (SOP_CON_W0 n id) SOP_CON_W0_GEN, activate := none, needs := 0, probed := false, join := none }).modRing n
    fun k => { k with jobs := k.jobs.filter fun j => match j with
      | .sched i _ | .posn i _ | .activate i _ | .cscfg i | .ident i => i != id
      | .schedupd i _ _ => i != id
      | .grant | .reject _ _ => true }).addJob n (.reject id reason)

/-- A slot names a station: an ACTIVE station whose entry has been disabled is rejected. -/
def State.slotNames (s : State) (n id : Nat) : State :=
  let s := s.useConsist n id
  if s.sta n id = staActive ∧ !s.conEnabled n id then s.rejectStation n id 13 else s

/-! ### MGMT commands (R238, R245, R258) -/

/-- A station-view slot entry; a disabled entry has LEN 0. -/
def State.stationView (s : State) (n i : Nat) : List Byte :=
  if s.slotEnabled n i then
    leBytes 8 (s.slotStart n i + s.slotType n i * 2 ^ 21 + s.slotOwner n i * 2 ^ 24 + s.slotLen n i * 2 ^ 32 + s.slotDst n i * 2 ^ 48)
  else leBytes 8 0

/-- Entries of a type in the table of the next frame. -/
def State.slotsOfType (s : State) (n typ : Nat) : List Nat :=
  (s.enabledSlots n).filter fun i => s.slotType n i == typ && s.slotRule n i

/-- The ring is wrapped or was started broken. -/
def State.isWrapped (s : State) (n : Nat) : Bool := s.isSet (SOP_BREAK n) SOP_BREAK_VALID || (s.ring n).broken

/-- The stations that need a granted MRSP slot, those being integrated first, then the probed ones in ascending order. -/
def State.wantGrant (s : State) (n : Nat) : List Nat :=
  let l := (s.ring n).stations.filter fun x => decide (0 < x.2.needs)
  (l.filter fun x => !x.2.probed).map (·.1) ++ (l.filter fun x => x.2.probed).map (·.1)

/-- The late stations that CLAIM slots are granted to, ascending and cycling from the one after the last. -/
def State.wantClaim (s : State) (n : Nat) : List Nat :=
  let c := (s.ring n).claim
  (allIds.filter (fun id => decide (c < id)) ++ allIds.filter fun id => decide (id ≤ c)).filter fun id =>
    s.isLate n id && s.sta n id == staAbsent

/-- Pair each of a list with one of another, which is taken in cycles. -/
def zipCycle {α β : Type} (xs : List α) (ys : List β) : List (α × β) :=
  xs.zipIdx.filterMap fun x => (ys[x.2 % ys.length]?).map fun y => (x.1, y)

/-- The grants of the next frame: MRSP slots that are free, and every CLAIM slot while there is an ABSENT late station. -/
def State.newGrants (s : State) (n : Nat) : List (Nat × Nat) :=
  let used := (s.ring n).grantsNext
  ((s.slotsOfType n slMrsp).filter fun i => !used.any fun g => g.1 == i).zip
      ((s.wantGrant n).filter fun id => !used.any fun g => g.2 == id) ++
    zipCycle ((s.slotsOfType n slClaim).filter fun i => !used.any fun g => g.1 == i) (s.wantClaim n)

/-- A command's payload. -/
def mgmtPayload (cmd seq n f : Nat) (data : List Byte) : List Byte :=
  leBytes 1 cmd ++ leBytes 1 seq ++ leBytes 2 n ++ leBytes 4 f ++ data

/-- A sent command that its station answers. -/
def State.needAnswer (s : State) (n id : Nat) : State := s.modStation n id fun k => { k with needs := k.needs + 1 }

/-- What a command sends, with `room` bytes of data: DST, CMD, entry count, F and data; none when it has nothing to send. -/
def State.jobFrame (s : State) (n room : Nat) (j : MgmtJob) : State × Option (Nat × Nat × Nat × Nat × List Byte) :=
  let k := s.frameCount
  match j with
  | .ident id => (s, some (id, 1, 0, 0, []))
  | .grant =>
    let gs := (s.newGrants n).take (room / 4)
    if gs.isEmpty then (s, none)
    else
      let s := s.modRing n fun x => { x with
        grantsNext := x.grantsNext ++ gs,
        claim := (gs.filter fun g => s.slotType n g.1 == slClaim).foldl (fun _ g => g.2) x.claim }
      let s := s.forEach gs fun g t => t.modStation n g.2 fun x => { x with granted := k + 1 }
      (s, some (255, 2, gs.length, (k + 1) % 0x100000000, gs.flatMap fun g => leBytes 4 (g.1 + g.2 * 65536)))
  | .sched id first =>
    let m := min (s.nslotSet n - first) (room / 8)
    let s := s.needAnswer n id
    let s := if first + m < s.nslotSet n then s.modRing n fun x => { x with jobs := .sched id (first + m) :: x.jobs } else s
    (s, some (id, 3, m, first, (List.range m).flatMap fun i => s.stationView n (first + i)))
  | .posn id first =>
    let m := min (255 - first) ((room - 2) / 2)
    let silent := s.isWrapped n && (s.sta n id == staAbsent || s.sta n id == staDropped)
    let at' (i : Nat) : Option Nat := if silent then s.knownPosition n i else s.position n i
    let s := if silent then s else s.needAnswer n id
    let s := if first + m < 255 then s.modRing n fun x => { x with jobs := .posn id (first + m) :: x.jobs } else s
    (s, some (id, 4, m, first, leBytes 2 (s.loopC n) ++ (List.range m).flatMap fun i => leBytes 2 ((at' (first + i)).getD 0)))
  | .activate id f =>
    let f' := f.elim (k + 2) (·.1)
    let sid := f.elim (s.reg (SOP_SCHEDID n)) (·.2)
    (s.modStation n id fun x => { x with activate := some f' }, some (id, 5, 0, f' % 0x100000000, leBytes 4 sid.toNat))
  | .reject id reason => (s, some (id, 6, 0, 0, leBytes 1 reason))
  | .cscfg id => (s.needAnswer n id, some (id, 8, 0, 0, leBytes 1 (s.fld (SOP_CON_W0 n id) SOP_CON_W0_CSIDX) ++ leBytes 7 0))
  | .schedupd id fa sched =>
    let is := s.spareSlots n id
    let t := s.enableSlots n is
    if fa ≤ k then (s, none)
    else (s, some (255, 7, is.length, fa % 0x100000000,
      leBytes 4 sched.toNat ++ is.flatMap fun i => leBytes 2 i ++ t.stationView n i))

/-- The next number of a MGMT command. -/
def State.nextSeq (s : State) (n : Nat) : State := s.modRing n fun k => { k with seq := (k.seq + 1) % 256 }

/-- The frame of a MGMT slot: the first command of the controller that has something to send. -/
def State.jobCommand (s : State) (n room : Nat) : Nat → State × Option (Nat × List Byte)
  | 0 => (s, none)
  | fuel + 1 =>
    match (s.ring n).jobs with
    | [] => (s, none)
    | j :: js =>
      match (s.modRing n fun k => { k with jobs := js }).jobFrame n room j with
      | (t, some (dst, cmd, m, f, data)) =>
        let t := t.nextSeq n
        (t, some (dst, mgmtPayload cmd (t.ring n).seq m f data))
      | (t, none) => t.jobCommand n room fuel

/-- A bridge command, when a MRSP slot of the next frame is free for its answer (R311). -/
def State.bridgeCommand (s : State) (n : Nat) : State × Option (Nat × List Byte) :=
  let s := s.failInactive n
  let used := (s.ring n).grantsNext
  match s.nextCommand n, (s.slotsOfType n slMrsp).find? fun i => !used.any fun g => g.1 == i with
  | some x, some i =>
    match x.work with
    | w :: _ =>
      let seq := s.commandSeq x
      let s := if x.out.isNone then s.nextSeq n else s
      let s := (s.commandSent x seq).modRing n fun k => { k with grantsNext := k.grantsNext ++ [(i, x.station)] }
      (s, some (x.station, mgmtPayload (workData w).1 seq 0 0 (workData w).2))
    | [] => (s, none)
  | _, _ => (s, none)

/-- What a MGMT slot of a length sends: commands of R258 come first. -/
def State.mgmtCommand (s : State) (n len : Nat) : State × Option (Nat × List Byte) :=
  match s.jobCommand n (min 1490 (len - 48)) (s.ring n).jobs.length with
  | (t, some x) => (t, some x)
  | (t, none) => t.bridgeCommand n

/-! ### A slot begins (R240, R241, R248, R249) -/

/-- The frame that the module sends in a slot: DST and payload. -/
def State.slotFrame (s : State) (n : Nat) (u : SlotUse) : State × Option (Nat × List Byte) :=
  if u.typ = slSync then (s, some (255, s.syncPayload n))
  else if u.typ = slMgmt then s.mgmtCommand n u.len
  else
    match s.outPayload n u.blocks with
    | (t, pl, sent) => (t, if sent ∧ !(u.dst != 255 && t.sta n u.dst == staDropped) then some (u.dst, pl) else none)

/-- The alignment of the module's brakeman at the tick (R248): `off` is what it needed. Above G/4 the brakeman blocks every own
transmission, until an alignment of at most G/8. -/
def State.alignBrake (s : State) (n : Nat) (off : Int) : State :=
  let o : Int := off.natAbs
  if s.gUse n < 4 * o then s.modRing n fun k => { k with braked := true }
  else if 8 * o ≤ s.gUse n then s.modRing n fun k => { k with braked := false }
  else s

/-- A transmission that the brakeman blocked or cut (R248). -/
def State.countBrake (s : State) (n : Nat) : State := (s.bump (SOP_BRKCNT n)).flag (SOP_STATUS n) SOP_STATUS_BRK

/-- How many bytes of a frame the brakeman lets out in a slot when its clock stands `off` beside the node's time: none outside
START − G to START + LEN + G, and no more than fit before that end, with preamble and SFD (R248). -/
def State.brakeRoom (s : State) (n : Nat) (u : SlotUse) (off : Int) : Nat :=
  let last := (u.len : Int) * unit8 + s.gUse n
  if (s.ring n).braked ∨ off < -s.gUse n then 0 else ((last - off) / unit8 - 8).toNat

/-- The module sends in its slot; its brakeman may block or cut the transmission (R248). -/
def State.sendSlot (s : State) (n : Nat) (u : SlotUse) (off : Int) : State :=
  match s.slotFrame n u with
  | (t, none) => t
  | (t, some (dst, pl)) =>
    let room := t.brakeRoom n u off
    let t := t.when (decide (room < 20 + max 44 pl.length)) fun t => t.countBrake n
    if room = 0 then t
    else t.sendFrame n u.typ dst u.index t.fcnt (t.ring n).stat room ((u.start : Int) * unit8) pl

/-- The entry is read and checked, with the IDT entries that it names. A slot whose IDT entries name an ID that is not in the
consist takes the safe side (R259). -/
def State.readSlot (s : State) (n i : Nat) : State × SlotUse :=
  let en := s.slotEnabled n i
  let ok := en && s.slotRule n i
  let typ := s.slotType n i
  let own := s.slotOwner n i
  let s := if en && typ == slIn then s.slotNames n own else s
  let s := if en && !ok then
    ((s.flag (SOP_STATUS n) SOP_STATUS_CFG_SKEW).bump (SOP_SLOTSKEW n)).evGroup (srcSop n) i else s
  match (if typ = slIn ∨ (ok ∧ typ = slOut) then s.useIdts n typ own (s.slotDst n i) (s.slotIdts n i) else (s, [])) with
  | (t, bs) =>
    (t.forEach (if typ = slOut then (bs.filter (·.ok)).map IoBlock.station else []) fun id r => r.slotNames n id,
      { index := i, typ := typ, owner := own, dst := s.slotDst n i, start := s.slotStart n i, len := s.slotLen n i,
        ok := ok && bs.all fun b => !b.ok || s.inConsist n b.station,
        blocks := bs, gotE := false, gotW := false, payload := none, respE := none, respW := none })

/-- In frame FA − 1 the runtime enables a joining station's entry after the entry's use in that frame (R245). -/
def State.joinSlot (s : State) (n i : Nat) : State :=
  let due := (s.ring n).stations.any fun x =>
    (x.2.join.any fun f => f.1 == s.frameCount + 1) && (s.spareSlots n x.1).contains i
  if due then s.enableSlot n i else s

/-- A slot begins its guard interval: read, checked, its bad input entries take the safe side, its frame is sent. `brake` is
the offset of the brakeman's clock, in slot 0 the alignment that it needed at the tick. -/
def State.slotStartAct (s : State) (n i : Nat) (skew brake : Int) : State :=
  if s.ringState n ≠ ringRun ∨ (s.ring n).nslot ≤ i ∨ (s.ring n).slots.any (fun u => u.index == i) then s
  else if i = 0 ∧ s.ringSends n ∧ s.gUse n < 2 * (skew.natAbs : Int) then
    (s.setRingState n ringHalt).evState (srcSop n) (SOP_STATE n % 0x10000) ringRun ringHalt
  else
    match s.readSlot n i with
    | (t, u) =>
      let t := t.modRing n fun k => { k with slots := k.slots ++ [u] }
      let t := if u.typ = slIn then
        t.forEach (u.blocks.filter fun b => !b.ok && !b.output) fun b r => r.fillSafe (bankBase r.frameCount) b else t
      let t := if i = 0 then t.alignBrake n brake else t
      let off := if i = 0 then 0 else brake
      (if u.ok ∧ u.owner = 0 ∧ t.ringSends n then t.sendSlot n u off else t).joinSlot n i

/-- RING_SLOT_START: `skew` is the difference between the slot timing and the time base; `brake` tells of the brakeman's clock:
at slot 0 the alignment that it needed at the tick, at the others its offset from the node's time. -/
def execRingSlotStart (ring : Fin 6) (slot : Fin 1024) (skew brake : Int) (s : State) :
    Host.Outcome State Fault Refusal := .next (s.slotStartAct ring slot skew brake)

/-! ### Answers (R238, R252, R258, R260, R268, R272) -/

/-- The next packet of a port's queue when it is a frame of a type whose payload begins with a byte; it is consumed. -/
def State.takeAnswer (s : State) (n : Fin 6) (west : Bool) (typ : Nat) (cmd : Option Nat) :
    State × Option (RingHeader × List Byte × Int) :=
  let q : QueueId := .ring n west
  match s.headPacket q with
  | (t, none) => (t, none)
  | (t, some p) =>
    let h := ringHeader p.data
    let pl := framePayload p.data
    if h.typ = typ ∧ cmd.all (fun c => c == ofLe (pl.take 1)) then (t.popPacket q, some (h, pl, p.start)) else (t, none)

/-- A granted slot has brought an answer. -/
def State.answered (s : State) (n id : Nat) : State :=
  s.modStation n id fun k => { k with needs := k.needs - 1, granted := 0 }

/-- The instant and the record of a response. -/
structure Copies where
  start : Nat
  e : Option (Int × List Byte)
  w : Option (Int × List Byte)

/-- The position measured from both copies, in 2^-16 ns (R231). -/
def State.measuredPos (s : State) (n : Nat) (c : Copies) : Option Int :=
  match c.e, c.w with
  | some (e, _), some (w, _) => some (((s.loopC n : Int) * unit8 - (w + s.hopShift n - (e - s.hopShift n))) / 2)
  | _, _ => none

/-- The offset of the sender (R231), or from one copy and its position (R268). -/
def State.measuredOffset (s : State) (n id : Nat) (c : Copies) : Option Int :=
  let st : Int := c.start * unit8
  let lc : Int := (s.loopC n : Int) * unit8
  match c.e, c.w with
  | some (e, _), some (w, _) => some ((w + e - 2 * st - lc) / 2)
  | some (e, _), none => (s.knownPosition n id).map fun p => e - s.hopShift n - st - (p : Int) * unit8
  | none, some (w, _) => (s.knownPosition n id).map fun p => w + s.hopShift n - st - (lc - (p : Int) * unit8)
  | none, none => none

/-- The identity check (R260, R279): 0, or the reason of the first check that fails. `off` is where the record begins in
the payload. -/
def State.identityReason (s : State) (n id off : Nat) (c : Copies) : Nat :=
  let pl := (c.e.getD (c.w.getD (0, []))).2
  let r := ofLe ((pl.drop off).take 16)
  let g := s.gUse n
  let same := match c.e, c.w with
    | some (_, a), some (_, b) => (a.drop off).take 16 == (b.drop off).take 16
    | _, _ => true
  let checks : List (Nat × Bool) :=
    [ (1, bitsAt r 0 16 == s.fld (SOP_CON_W0 n id) SOP_CON_W0_TYPE),
      (2, decide (s.fld (SOP_CON_W0 n id) SOP_CON_W0_REVMIN ≤ bitsAt r 16 8)),
      (3, !s.isSet (SOP_CON_W0 n id) SOP_CON_W0_SERCHK || bitsAt r 24 24 == s.fld (SOP_CON_W1 n id) SOP_CON_W1_SERIAL),
      (4, bitsAt r 48 16 &&& s.fld (SOP_CON_W2 n id) SOP_CON_W2_CAPREQ == s.fld (SOP_CON_W2 n id) SOP_CON_W2_CAPREQ),
      (5, decide (bitsAt r 64 8 ≤ 75)),
      (6, decide (bitsAt r 80 16 ≤ s.fld (SOP_CON_W3 n id) SOP_CON_W3_SETUPMAX)),
      (7, decide (bitsAt r 96 16 ≤ s.fld (SOP_CON_W3 n id) SOP_CON_W3_WDMAX)),
      (8, same && (s.measuredOffset n id c).all fun o => decide (2 * (o.natAbs : Int) ≤ g)),
      (10, (s.measuredPos n c).all fun p => decide (4 * (((bitsAt r 112 16 : Nat) * unit8 - p).natAbs : Int) ≤ g)),
      (11, !s.isSet (SOP_PNOM n id) SOP_PNOM_VALID ||
        (s.measuredPos n c).all fun p => decide (4 * (((s.fld (SOP_PNOM n id) SOP_PNOM_PNOM : Nat) * unit8 - p).natAbs : Int) ≤ g)) ]
  ((checks.find? fun x => !x.2).map (·.1)).getD 0

/-- Bellows keeps the identity record that a station ID was accepted with (R455). -/
def State.keepInventory (s : State) (n id r : Nat) : State :=
  let key := n * 256 + id
  let new := (bitsAt r 0 16, bitsAt r 16 8, bitsAt r 24 24)
  let old := s.bellows.inventory.lookup key
  let s := { s with bellows := { s.bellows with
    inventory := (key, new) :: s.bellows.inventory.filter fun e => e.1 != key } }
  match old with
  | some o =>
    if o = new then s
    else (s.flag BLW_STATUS BLW_STATUS_INVCHG).event srcBellows 5 sevInfo [key, o.2.2, new.2.2]
  | none => s

/-- The position measured at integration. -/
def State.keepPosition (s : State) (n id : Nat) (c : Copies) : State :=
  match s.measuredPos n c with
  | some p => (s.putFld (SOP_STA n id) SOP_STA_POS (p / unit8).toNat).flag (SOP_STA n id) SOP_STA_POSVALID
  | none => s

/-- The position that the check of a joining station's entries uses: its measured one, and those in effect (R272). -/
def State.joinPosition (s : State) (n id : Nat) (i : Nat) : Option Nat :=
  if i = id then s.knownPosition n i else s.position n i

/-- The SCHEDID that a schedule update for a tick brings: that of an update under way for the same tick, or a new one. -/
def State.updateId (s : State) (n fa : Nat) : Word :=
  (((s.ring n).stations.filterMap fun x => x.2.join).lookup fa).getD (Config.newSchedId s.free)

/-- The runtime joins a late station (R272): its spare entries are checked, and enabled for FA. -/
def State.joinStation (s : State) (n id : Nat) : State :=
  let is := s.spareSlots n id
  if is.isEmpty ∨ !(s.enableSlots n is).scheduleValid n (s.loopC n) (s.joinPosition n id) then s.rejectStation n id 12
  else
    let fa := s.frameCount + 2
    let sched := s.updateId n fa
    let s := s.tickFree.modRing n fun k =>
      { k with jobs := MgmtJob.schedupd id fa sched ::
                 (k.jobs ++ [MgmtJob.sched id 0, MgmtJob.posn id 1, MgmtJob.activate id (some (fa, sched))]) }
    (s.setSta n id staLoading).modStation n id fun k => { k with join := some (fa, sched) }

/-- An identity record is judged: a station that passes is loaded, or has claimed a place. -/
def State.judgeIdentity (s : State) (n id : Nat) (claim : Bool) (c : Copies) : State :=
  let s := s.useConsist n id
  if !s.inConsist n id then s
  else
    let reason := s.identityReason n id (if claim then 0 else 8) c
    if reason ≠ 0 then s.rejectStation n id reason
    else
      let pl := (c.e.getD (c.w.getD (0, []))).2
      let off := if claim then 0 else 8
      let s := ((s.keepInventory n id (ofLe ((pl.drop off).take 16))).keepPosition n id c).modStation n id fun k =>
        { k with csidx := ofLe ((pl.drop (off + 9)).take 1) % 4, probed := false, needs := 0 }
      if claim then
        (((s.setSta n id staIdent).irq lineRing).evState (srcSop n) id staAbsent staIdent).joinStation n id
      else
        (s.setSta n id staLoading).modRing n fun k => { k with jobs := k.jobs ++ [.sched id 0, .posn id 1, .activate id none] }

/-- A copy of an identity record arrives: it is judged with its other copy. -/
def State.identityCopy (s : State) (n : Nat) (west claim : Bool) (h : RingHeader) (pl : List Byte) (t : Int) : State :=
  match (s.ring n).slots.find? fun u => u.index == h.slot with
  | none => s
  | some u =>
    let u := if west then { u with respW := some (t, pl) } else { u with respE := some (t, pl) }
    let ready := u.respE.isSome && u.respW.isSome
    let keep := if ready then { u with respE := none, respW := none } else u
    let s := s.modSlot n u.index fun v => { v with respE := keep.respE, respW := keep.respW }
    let waits := s.sta n h.src == staAbsent || s.sta n h.src == staDropped
    if ready ∧ waits then s.judgeIdentity n h.src claim { start := u.start, e := u.respE, w := u.respW } else s

/-- IDENT_RESPONSE. -/
def execIdentResponse (ring : Fin 6) (west : Bool) (s : State) : Host.Outcome State Fault Refusal :=
  .next (match s.takeAnswer ring west slMrsp (some 1) with
    | (t, some (h, pl, at')) => if ofLe ((pl.drop 2).take 1) = 0 then t.identityCopy ring west false h pl at' else t
    | (t, none) => t)

/-- CLAIM. -/
def execClaim (ring : Fin 6) (west : Bool) (s : State) : Host.Outcome State Fault Refusal :=
  .next (match s.takeAnswer ring west slClaim none with
    | (t, some (h, pl, at')) => t.identityCopy ring west true h pl at'
    | (t, none) => t)

/-- The first copy of an answer in its slot, and the second which is not used. -/
def State.firstCopy (s : State) (n : Nat) (h : RingHeader) (pl : List Byte) (g : State → State) : State :=
  match (s.ring n).slots.find? fun u => u.index == h.slot with
  | some u =>
    match u.payload with
    | some old => if old = pl then s else s.evState (srcSop n) h.src u.index 1
    | none => g ((s.modSlot n u.index fun v => { v with payload := some pl }).answered n h.src)
  | none => s

/-- An acknowledgement of SCHED or POSN: a RESULT other than 0 rejects the station. -/
def State.loadAck (s : State) (n : Fin 6) (west : Bool) (cmd : Nat) : State :=
  match s.takeAnswer n west slMrsp (some cmd) with
  | (t, some (h, pl, _)) =>
    t.firstCopy n h pl fun u =>
      if ofLe ((pl.drop 2).take 1) ≠ 0 ∧ (u.sta n h.src = staLoading ∨ u.sta n h.src = staActive) then
        u.rejectStation n h.src 9 else u
  | (t, none) => t

/-- SCHED_ACK. -/
def execSchedAck (ring : Fin 6) (west : Bool) (s : State) : Host.Outcome State Fault Refusal := .next (s.loadAck ring west 3)
/-- POSN_ACK. -/
def execPosnAck (ring : Fin 6) (west : Bool) (s : State) : Host.Outcome State Fault Refusal := .next (s.loadAck ring west 4)

/-- CSCFG_RESPONSE. -/
def execCscfgResponse (ring : Fin 6) (west : Bool) (s : State) : Host.Outcome State Fault Refusal :=
  .next (match s.takeAnswer ring west slMrsp (some 8) with
    | (t, some (h, pl, _)) =>
      t.firstCopy ring h pl fun u =>
        let r := ofLe ((pl.drop 2).take 1)
        if r = 0 then u.modStation ring h.src fun k => { k with csidx := u.fld (SOP_CON_W0 ring h.src) SOP_CON_W0_CSIDX }
        else u.evRefused (srcSop ring) h.src r
    | (t, none) => t)

/-- An answer to a bridge command. -/
def State.commandAnswer (s : State) (n : Fin 6) (west : Bool) (cmd : Nat) (g : Nat → Nat → Nat → Nat → List Byte → State → State) :
    State :=
  match s.takeAnswer n west slMrsp (some cmd) with
  | (t, some (h, pl, _)) =>
    t.firstCopy n h pl (g h.src (ofLe ((pl.drop 1).take 1)) (ofLe ((pl.drop 2).take 1)) (ofLe ((pl.drop 3).take 1)) (pl.drop 8))
  | (t, none) => t

/-- PWRITE_RESPONSE. -/
def execPwriteResponse (ring : Fin 6) (west : Bool) (s : State) : Host.Outcome State Fault Refusal :=
  .next (s.commandAnswer ring west 0x20 fun id seq r _ _ t => t.pwriteAnswer ring id seq r)

/-- PREAD_RESPONSE. -/
def execPreadResponse (ring : Fin 6) (west : Bool) (s : State) : Host.Outcome State Fault Refusal :=
  .next (s.commandAnswer ring west 0x21 fun id seq r _ data t => t.preadAnswer ring id seq r data)

/-- EVTGET_RESPONSE. -/
def execEvtgetResponse (ring : Fin 6) (west : Bool) (s : State) : Host.Outcome State Fault Refusal :=
  .next (s.commandAnswer ring west 0x22 fun id seq r n data t => t.evtgetAnswer ring id seq r n data)

/-! ### The close of a frame at a tick (R21, R250, R263, R264, R274 to R276) -/

/-- Identity records of which one copy came are judged only in a wrapped ring or one started broken. -/
def State.closeAnswers (s : State) (n : Nat) : State :=
  s.forEach ((s.ring n).slots.filter fun u => u.respE.isSome || u.respW.isSome) fun u t =>
    let id := (t.granteeOf n u.index).getD 0
    if t.isWrapped n ∧ (t.sta n id = staAbsent ∨ t.sta n id = staDropped) then
      t.judgeIdentity n id (u.typ == slClaim) { start := u.start, e := u.respE, w := u.respW } else t

/-- The IN entries of the closing frame: those used, and the enabled ones that the frame had no use of. -/
def State.inEntries (s : State) (n : Nat) : List SlotUse :=
  let used := (s.ring n).slots.filter fun u => u.typ == slIn
  let idle := (List.range (s.ring n).nslot).filter fun i =>
    s.slotEnabled n i && s.slotType n i == slIn && !(s.ring n).slots.any fun u => u.index == i
  used ++ idle.map fun i =>
    { index := i, typ := slIn, owner := s.slotOwner n i, dst := 0, start := s.slotStart n i, len := s.slotLen n i, ok := false,
      blocks := (s.slotIdts n i).map fun j => (s.readIdt n slIn (s.slotOwner n i) 0 j).1, gotE := false, gotW := false,
      payload := none, respE := none, respW := none }

/-- The input slots of the closing frame `j`, whatever the ring's state: late inputs, misses, and the values of stations that
have been dropped and are not yet ACTIVE again (R21, R274, R275). -/
def State.closeInputs (s : State) (n j : Nat) : State :=
  let ins := s.inEntries n
  let served := (ins.filter fun u => u.payload.isSome).map SlotUse.owner
  let owners := (ins.map SlotUse.owner).eraseDups
  let s := s.forEach ins fun u t =>
    let bs := u.blocks.filter (·.ok)
    if (t.station n u.owner).dropped then t.forEach bs fun b r => r.fillDropped (bankBase j) b
    else if u.payload.isNone then
      (t.forEach bs fun b r => r.fillLate (bankBase j) (bankBase (j + 1)) b).modStation n u.owner fun k => { k with late := k.late + 1 }
    else t
  s.forEach owners fun id t =>
    if served.contains id then t.modStation n id fun k => { k with miss := 0 }
    else if t.sta n id = staActive then t.modStation n id fun k => { k with miss := k.miss + 1 }
    else t

/-- Slots of which one copy arrived, and the state of the own SYNC copies. -/
def State.closeCopies (s : State) (n : Nat) : State :=
  let one := (s.ring n).slots.filter fun u => u.gotE != u.gotW
  let both := s.syncBoth n
  let ids := (one.map fun u => (s.slotSender n u).getD 0).eraseDups
  (s.bumpBy (SOP_ONECOPY n) one.length).modRing n fun k => { k with
    ones := if both && !one.isEmpty then k.ones + 1 else 0,
    onesRaised := both && !one.isEmpty && k.onesRaised,
    oneIds := if both && !one.isEmpty then (k.oneIds ++ ids).eraseDups else [],
    missed := if both then 0 else k.missed + 1,
    intact := if both then k.intact + 1 else 0,
    rivals := if k.rival then k.rivals + 1 else 0, rival := false,
    lastE := k.heardE, lastW := k.heardW, heardE := [], heardW := [] }

/-- The blocks that the declaring frame did not transmit are reported (R276). -/
def State.closeDiscards (s : State) (n : Nat) : State :=
  (s.forEach (s.ring n).discards fun d t => t.event (srcSop n) 6 sevWarning [SOP_OUTDISC n % 0x10000, d.2, d.1]).modRing n
    fun k => { k with discards := [] }

/-- A ring whose cold start is over enters RUN at this tick, the third clean round having lasted its 1 ms (R253, R270). -/
def State.ringBegin (s : State) (n : Nat) : State :=
  let s := s.when (s.roundOver n) fun t => t.judgeRound n
  match (s.ring n).starting with
  | some c =>
    let s := (s.setRingState n ringRun).modRing n fun k =>
      { k.restarted with round := k.round, broken := c.isNone, seq := k.seq, claim := k.claim, probe := k.probe }
    (match c with
      | some x => s.measureLoop n x
      | none => s)
  | none => s

/-- SCHEDID becomes the new one in frame FA − 1, and at FA the entries of a joining station that were not used in that frame
are enabled too (R245, R272). -/
def State.enableJoins (s : State) (n k : Nat) : State :=
  s.forEach ((s.ring n).stations.filterMap fun x => x.2.join.map fun f => (x.1, f.1, f.2)) fun x t =>
    if x.2.1 = k + 1 then t.setReg (SOP_SCHEDID n) x.2.2
    else if x.2.1 ≤ k then (t.enableSlots n (t.spareSlots n x.1)).modStation n x.1 fun y => { y with join := none }
    else t

/-- The new frame begins: what is sampled per tick, in every state of the ring. -/
def State.openFrame (s : State) (n : Nat) : State :=
  let st := s.ringStat n
  s.modRing n fun k => { k with
    guard := k.guardNext, guardNext := s.guardSet n, nslot := s.nslotSet n, schedid := s.reg (SOP_SCHEDID n), stat := st,
    slots := [], syncE := none, syncW := none, seenE := none, seenW := none,
    outside := 0, babbled := false, grants := k.grantsNext, grantsNext := [] }

/-- A station becomes ACTIVE at frame F (R258, R252). -/
def State.activateStations (s : State) (n : Nat) : State :=
  s.forEach ((s.ring n).stations.filter fun x => x.2.activate.any fun f => decide (f ≤ s.frameCount)) fun x t =>
    let id := x.1
    if t.sta n id = staLoading then
      let again := x.2.dropped
      let t := (t.setSta n id staActive).modStation n id fun k =>
        { k with activate := none, miss := 0, needs := 0, dropped := false }
      let t := if again then t.notify n id 2 t.fcnt [] else t
      if t.inConsist n id ∧ x.2.csidx ≠ t.fld (SOP_CON_W0 n id) SOP_CON_W0_CSIDX then t.addJob n (.cscfg id) else t
    else t.modStation n id fun k => { k with activate := none }

/-- A grant that has brought no answer lapses: the answer is waited for no longer, and a probed station is probed again later. -/
def State.lapseGrants (s : State) (n : Nat) : State :=
  s.forEach ((s.ring n).stations.filter fun x => x.2.granted != 0 && decide (x.2.granted < s.frameCount)) fun x t =>
    t.modStation n x.1 fun k => { k with needs := k.needs - 1, probed := false, granted := 0 }

/-- A REJECTED station whose entry is enabled with a new GEN may be probed again. -/
def State.readmit (s : State) (n : Nat) : State :=
  s.forEach (allIds.filter fun id => s.sta n id == staRejected) fun id t =>
    if t.conEnabled n id ∧ t.fld (SOP_CON_W0 n id) SOP_CON_W0_GEN ≠ (t.station n id).gen then t.setSta n id staAbsent else t

/-- Whether a station may be probed: ABSENT or DROPPED, in the consist, and in a wrapped ring with a known position. -/
def State.mayProbe (s : State) (n id : Nat) : Bool :=
  (s.sta n id == staAbsent || s.sta n id == staDropped) && s.inConsist n id && (!s.isWrapped n || (s.knownPosition n id).isSome) &&
    !(s.station n id).probed

/-- Whether GRANT takes the first MGMT slot of the frame, after a schedule update: in every frame when there are two or more,
else in every other frame (DESIGN CHOICE, log entry 125). -/
def State.grantFirst (s : State) (n : Nat) : Bool := decide (2 ≤ (s.slotsOfType n slMgmt).length) || s.frameCount % 2 == 0

/-- Schedule updates that are repeated in this frame (R245). -/
def State.updateJobs (s : State) (n : Nat) : List MgmtJob :=
  (s.ring n).stations.filterMap fun x => x.2.join.bind fun f =>
    if s.frameCount < f.1 then some (.schedupd x.1 f.1 f.2) else none

/-- A job that the frame sets anew. -/
def MgmtJob.perFrame : MgmtJob → Bool
  | .grant | .schedupd .. => true
  | _ => false

/-- Probing in rotation: IDENT to as many stations as there are free MRSP slots, which are granted to them for the next frame;
POSN in a wrapped ring every 16 frames (R258, R268). -/
def State.probeStations (s : State) (n : Nat) : State :=
  let free := (s.slotsOfType n slMrsp).length - (s.wantGrant n).length
  let p := (s.ring n).probe
  let order := allIds.filter (fun id => decide (p < id)) ++ allIds.filter fun id => decide (id ≤ p)
  let ids := if (s.ring n).jobs.any (fun j => match j with
      | .ident _ => true
      | _ => false) then [] else (order.filter (s.mayProbe n)).take free
  let told (id : Nat) : Bool := (s.ring n).jobs.any fun j => match j with
    | .posn i _ => i == id
    | _ => false
  let posn := if s.isWrapped n ∧ s.frameCount % 16 = 0 then
      (allIds.filter fun id => (s.sta n id == staAbsent || s.sta n id == staDropped) && s.inConsist n id && !told id).map fun id =>
        MgmtJob.posn id 1
    else []
  let first := s.grantFirst n
  let s := s.forEach ids fun id t => t.modStation n id fun k => { k with needs := 1, probed := true, granted := 0 }
  s.modRing n fun k => { k with
    jobs := s.updateJobs n ++ (if first then [.grant] else []) ++ (k.jobs.filter fun j => !j.perFrame) ++ ids.map MgmtJob.ident ++
      posn ++ (if first then [] else [.grant]),
    probe := ids.getLastD k.probe }

/-- A ring controller closes the frame that ended; the frame count is already that of the new one. -/
def State.ringClose (s : State) (n : Nat) : State :=
  let run := s.ringState n == ringRun
  let s := ((s.when run fun t => t.closeAnswers n).closeInputs n (s.frameCount - 1)).closeDiscards n
  s.when run fun t => t.closeCopies n

/-- A ring controller opens the new frame, once modes, restarts and forces have acted. -/
def State.ringOpen (s : State) (n : Nat) : State :=
  let s := s.when (s.ringState n == ringColdstart) fun t => t.ringBegin n
  let s := s.openFrame n
  if s.ringState n = ringRun then
    let s := (s.modRing n fun k => { k with frames := min 16 (k.frames + 1) }).enableJoins n s.frameCount
    if s.ringSends n then
      ((((s.activateStations n).lapseGrants n).readmit n).probeStations n).askAllEvents n
    else s
  else s

/-- The rings open the new frame; the time-base status is sampled for their SYNCs (R235, R291). -/
def State.openRings (s : State) : State := s.sampleTb.forEach allRings fun n t => t.ringOpen n

end Sys2Proof.Machine
end

