-- ==== Sys2Proof/Machine/Lap.lean ====
section
/-!
DEFINITION. The Line Access Protocol: sessions, reads and writes of signals, jobs, mailbox messages, failures and station
events (12_bridge_lap.md). Whether a signature verifies is an operand, and the key that a key exchange yields is a free value.
-/

namespace Sys2Proof.Machine

/-! ### Sessions (R296 to R302) -/

/-- LAP is accepted on a port. -/
def State.lapPort (s : State) (via : Fin 5) : Bool :=
  if via.val < 4 then s.isSet BRG_CTRL ⟨1 + via.val, 1⟩ else s.isSet BRG_CTRL BRG_CTRL_M0EN

/-- Show SSTATE of a channel. -/
def State.setSession (s : State) (ch v : Nat) : State := s.putFld (BRG_CH_STATE ch) BRG_CH_STATE_SSTATE v

/-- The channel whose open session a SID names, and the one whose half-open session it names. -/
def State.openChannel (s : State) (sid : Nat) : Option Nat :=
  allChannels.find? fun c => s.sessionState c == 2 && (s.lap c).sid == sid
def State.halfChannel (s : State) (sid : Nat) : Option (Nat × HalfSession) :=
  allChannels.findSome? fun c => (s.lap c).half.bind fun h => if h.sid = sid then some (c, h) else none

/-- The open session of a channel ends (R300, R323, R333). -/
def State.endSession (s : State) (ch : Nat) : State :=
  if s.sessionState ch = 2 then
    let s := (s.cancelWaiting ch).endpointReset (0x10 + ch)
    let s := s.forEach ((s.lap ch).fetches.filter fun f => !f.abandoned) fun f t => t.abandonFetch ch f
    let s := s.modLap ch fun c => { c with subs := [], notes := [], answered := [], rxCount := 0, txCount := 0 }
    let s := s.setSession ch (bit (s.lap ch).half.isSome)
    if h : ch < 16 then s.emptyQueue (.bridge ⟨ch, h⟩) else s
  else s

/-- An attempt to open a session ends silently, with an event (R301). -/
def State.failAttempt (s : State) (ch op : Nat) : State :=
  let s := s.modLap ch fun c => { c with half := none }
  let s := if s.sessionState ch = 1 then s.setSession ch 0 else s
  s.evRefused srcBrg op (Config.paramCode 5 ch).toNat

/-- FLAGS of a datagram that belongs to no channel. -/
def State.noChannelFlags (s : State) : Nat := s.lapFlags 16 - 4

/-- A response outside every session. -/
def State.lapBare (s : State) (r : LapRequest) (op status : Nat) : State :=
  s.sendOn r.via.val (.lap r.via.val r.peer
    { op := op + 0x80, flags := s.noChannelFlags, sid := r.sid.toNat, dcnt := 0, reqid := r.reqid.toNat, seq := 0, rcpt := 0,
      fcnt := s.fcnt, status := status, payload := [], mac := noMac })

/-- A datagram whose SID names no session: counted, and answered at most once per second for each source (R302). -/
def State.lapUnknown (s : State) (r : LapRequest) (op : Nat) : State :=
  let s := s.bump BRG_MALF
  let recent := s.bridge.unknown.filter fun u => decide (s.time.clock < u.2 + 65536 * 1000000000)
  if recent.any fun u => u.1 == r.peer then s
  else (s.modBridge fun k => { k with unknown := (r.peer, s.time.clock) :: recent }).lapBare r (op % 128) 2

/-- A response in a channel's session. -/
def State.lapAnswer (s : State) (ch : Nat) (r : LapRequest) (op seq fcnt status : Nat) (payload : List Byte) : State :=
  s.lapSend ch r.via.val r.peer (op + 0x80) r.reqid.toNat seq fcnt status payload

/-- A response that is nothing but a datagram status. -/
def State.lapStatus (s : State) (ch : Nat) (r : LapRequest) (op status : Nat) : State := s.lapAnswer ch r op 0 s.fcnt status []

/-- VER, FLAGS and PLEN are as R297 lays them out. -/
def lapHeaderOk (r : LapRequest) : Bool := r.ver == 1 && r.flags == 0 && r.plen.toNat == r.payload.length

/-- The MAC of a request with an OP is right under a session key (R302). -/
def lapMacOk (r : LapRequest) (op : Nat) (key : List Byte) : Bool :=
  r.mac == lapMac key (lapHeader r.ver.toNat op r.flags.toNat r.sid.toNat r.dcnt.toNat r.reqid.toNat r.seq.toNat r.rcpt.toNat
    r.fcnt.toNat r.status.toNat r.plen.toNat ++ r.payload)

/-- A datagram that the module accepts for LAP: on a port where LAP runs, and with at most 1,424 bytes between header and MAC
(R296). -/
def State.lapAccepts (s : State) (r : LapRequest) : Bool := s.lapPort r.via && decide (r.payload.length ≤ 1424)

/-- A request that the session's checks let through (R296, R302): its channel. A datagram other than KEYX in a half-open
session is discarded. -/
def State.lapTake (s : State) (op : Nat) (r : LapRequest) : State × Option Nat :=
  if !s.lapAccepts r then (s.bump BRG_MALF, none)
  else if !s.isSet BRG_CTRL BRG_CTRL_EN then (s, none)
  else
    let wrongMac := (s.bump BRG_MACERR).flag BRG_STATUS BRG_STATUS_MAC
    match s.openChannel r.sid.toNat with
    | some ch =>
      if !lapMacOk r op (s.lap ch).key then (wrongMac, none)
      else if r.dcnt.toNat ≤ (s.lap ch).rxCount then (s.bump BRG_REPLAY, none)
      else (s.modLap ch fun c => { c with rxCount := r.dcnt.toNat, peer := r.peer, via := r.via.val }, some ch)
    | none =>
      match s.halfChannel r.sid.toNat with
      | some (_, h) => (if lapMacOk r op h.key then s else wrongMac, none)
      | none => (s.lapUnknown r op, none)

/-- Serve a request. A standby serves only some operations (R401); a header that is not as R297 lays it out is malformed. -/
def State.lapServe (s : State) (op : Nat) (standbyToo : Bool) (r : LapRequest) (f : State → Nat → State) : State :=
  match s.lapTake op r with
  | (t, none) => t
  | (t, some ch) =>
    if t.standby && !standbyToo then t.lapStatus ch r op 4
    else if !lapHeaderOk r then t.lapStatus ch r op 3
    else f t ch

/-- A request that arrives on its port is served (R511). -/
def State.serve (s : State) (op : Nat) (standbyToo : Bool) (r : LapRequest) (f : State → Nat → State) : State :=
  s.arrive r.via.val fun t => t.lapServe op standbyToo r f

/-- The number in bytes of a payload. -/
def field (pl : List Byte) (i n : Nat) : Nat := ofLe ((pl.drop i).take n)

/-- Bytes padded with 0 to a multiple of 4. -/
def padTo4 (l : List Byte) : List Byte := l ++ List.replicate ((4 - l.length % 4) % 4) 0

/-- HELLO (R301). -/
def State.hello (s : State) (r : LapRequest) : State :=
  let ch := field r.payload 0 1
  if !s.lapAccepts r then s.bump BRG_MALF
  else if !s.isSet BRG_CTRL BRG_CTRL_EN then s
  else if !lapHeaderOk r || r.sid != 0 || r.dcnt != 0 || r.payload.length != 84 || field r.payload 1 3 != 0 || decide (16 ≤ ch) then
    s.lapBare r 1 3
  else
    let sid := (Config.lapSid s.free).toNat
    let own := (List.range 144).map (Config.helloByte s.free)
    let half : HalfSession :=
      { sid := sid, peer := r.peer, via := r.via.val, txCount := 1, key := (List.range 16).map (Config.sessionKey s.free),
        transcript := r.payload ++ own.take 80 }
    let s := s.tickFree.modLap ch fun c => { c with half := some half }
    let s := s.setSession ch (max 1 (s.sessionState ch))
    s.sendOn r.via.val (.lap r.via.val r.peer
      { op := 0x81, flags := s.lapFlags ch, sid := sid, dcnt := 1, reqid := r.reqid.toNat, seq := 0,
        rcpt := (s.reg (WAY_RCPT ch)).toNat, fcnt := s.fcnt, status := 0, payload := own ++ leBytes 4 (s.wayNext ch), mac := noMac })

/-- KEYX (R301): a valid one opens the session and ends an older one of the channel. `sigOk`: its signature verifies under the
channel's host key over the digest of the transcript and the SID. One whose DCNT is above 1 is answered as malformed (DESIGN
CHOICE, log entry 127). -/
def State.keyx (s : State) (r : LapRequest) (sigOk : Bool) : State :=
  match (if s.lapAccepts r && s.isSet BRG_CTRL BRG_CTRL_EN then s.halfChannel r.sid.toNat else none) with
  | none => s.lapServe 2 true r fun t ch => t.lapStatus ch r 2 3
  | some (ch, h) =>
    if !lapMacOk r 2 h.key then (s.bump BRG_MACERR).flag BRG_STATUS BRG_STATUS_MAC
    else if r.dcnt = 0 then s.bump BRG_REPLAY
    else if !lapHeaderOk r || r.dcnt != 1 || r.payload.length != 64 then
      let m : LapOut :=
        { op := 0x82, flags := s.lapFlags ch, sid := h.sid, dcnt := h.txCount + 1, reqid := r.reqid.toNat, seq := 0,
          rcpt := (s.reg (WAY_RCPT ch)).toNat, fcnt := s.fcnt, status := 3, payload := [], mac := noMac }
      (s.modLap ch fun c => { c with half := some { h with txCount := h.txCount + 1 } }).sendOn r.via.val
        (.lap r.via.val r.peer (m.sealed h.key))
    else if !sigOk then s.failAttempt ch 2
    else
      let s := (s.endSession ch).modLap ch fun c =>
        { c with half := none, sid := h.sid, peer := r.peer, via := r.via.val, rxCount := r.dcnt.toNat, txCount := h.txCount,
                   key := h.key }
      ((s.setSession ch 2).endpointReset (0x10 + ch)).lapStatus ch r 2 0

/-- HELLO (R301). -/
def execHello (r : LapRequest) (s : State) : Host.Outcome State Fault Refusal := .next (s.arrive r.via.val fun t => t.hello r)
/-- KEYX (R301). -/
def execKeyx (r : LapRequest) (sigOk : Bool) (s : State) : Host.Outcome State Fault Refusal := .next (s.arrive r.via.val fun t => t.keyx r sigOk)

/-- LAP_CLOSE (R300). -/
def execLapClose (r : LapRequest) (s : State) : Host.Outcome State Fault Refusal :=
  .next (s.serve 3 false r fun t ch =>
    if r.payload.isEmpty then (t.lapStatus ch r 3 0).endSession ch else t.lapStatus ch r 3 3)

/-- KEEPALIVE (R299). -/
def execKeepalive (r : LapRequest) (s : State) : Host.Outcome State Fault Refusal :=
  .next (s.serve 4 true r fun t ch => t.lapStatus ch r 4 (if r.payload.isEmpty then 0 else 3))

/-- SESSION_TIMEOUT (R300). -/
def execSessionTimeout (channel : Fin 16) (s : State) : Host.Outcome State Fault Refusal := .next (s.endSession channel.val)

/-- HALF_OPEN_TIMEOUT (R301). -/
def execHalfOpenTimeout (channel : Fin 16) (s : State) : Host.Outcome State Fault Refusal :=
  .next (if (s.lap channel.val).half.isSome then s.failAttempt channel.val 2 else s)

/-- UNKNOWN_SESSION (R302). -/
def execUnknownSession (op : BitVec 8) (r : LapRequest) (s : State) : Host.Outcome State Fault Refusal :=
  .next (s.arrive r.via.val fun s =>
    if (s.openChannel r.sid.toNat).isSome || (s.halfChannel r.sid.toNat).isSome then s else (s.lapTake op.toNat r).1)

/-- The operations of R299. -/
def lapOps : List Nat := [0x01, 0x02, 0x03, 0x04, 0x10, 0x11, 0x12, 0x13, 0x20, 0x21, 0x30, 0x32, 0x40, 0x41]

/-- LAP_RESERVED_OP (R299). -/
def execLapReservedOp (op : BitVec 8) (r : LapRequest) (s : State) : Host.Outcome State Fault Refusal :=
  .next (if lapOps.contains op.toNat then s
    else s.serve (op.toNat % 128) false r fun t ch => t.lapStatus ch r (op.toNat % 128) 3)

/-- BRG_CTRL.EN goes to 0: sessions end and the queues of the bridge empty (R333). -/
def State.bridgeOff (s : State) : State :=
  s.forEach allChannels fun c t =>
    let t := t.endSession c
    let t := t.modLap c fun k => { k with half := none }
    let t := t.setSession c 0
    if h : c < 16 then t.emptyQueue (.bridge ⟨c, h⟩) else t

/-- BRIDGE_DISABLE (R333). -/
def execBridgeDisable (s : State) : Host.Outcome State Fault Refusal :=
  .next ((s.putFld BRG_CTRL BRG_CTRL_EN 0).bridgeOff)

/-! ### ARP and ICMP (R296) -/

/-- The address of a port; M0 has 169.254.96.61. -/
def State.portAddress (s : State) (via : Fin 5) : Word :=
  if via.val < 4 then s.reg (BRG_IPADDR via.val) else 0xA9FE603D

/-- ARP_REQUEST (R296). -/
def execArpRequest (via : Fin 5) (peer : Nat) (address : Word) (s : State) : Host.Outcome State Fault Refusal :=
  .next (s.arrive via.val fun s => if address = s.portAddress via then s.sendOn via.val (.arp via.val peer address) else s)

/-- ICMP_ECHO (R296): a datagram for another address is not the module's. -/
def execIcmpEcho (via : Fin 5) (peer : Nat) (address : Word) (data : List Byte) (s : State) : Host.Outcome State Fault Refusal :=
  .next (s.arrive via.val fun s => if address = s.portAddress via then s.sendOn via.val (.echo via.val peer data) else s)

/-! ### Reads (R306, R308, R312 to R314) -/

/-- A parameter address that an enabled entry with SE names. -/
def State.seAddress (s : State) (ring station a : Nat) : Bool :=
  s.smap.any fun e => e.1 % 4 == 0 && s.signalEnabled (e.1 / 4) &&
    (let g := s.signal (e.1 / 4)
     g.kind == kindRem && g.se && g.ring == ring && g.station == station && g.index % 65536 == a)

/-- How many words a fetch from `a` on may take, at most n: it ends before a SIDE_EFFECT address. -/
def State.fetchRun (s : State) (ring station : Nat) : Nat → Nat → Nat
  | 0, _ => 0
  | n + 1, a => if decide (65536 ≤ a) || s.seAddress ring station a then 0 else s.fetchRun ring station n (a + 1) + 1

/-- A value of a remote signal. -/
def remoteItem (g : Signal) (w : Word) (status : Nat) : ReadItem :=
  { value := (g.toHost w.toNat 0).1, tag := (g.toHost w.toNat 0).2, status := status }

/-- A read item whose station is not ACTIVE, or whose fetch failed. -/
def stationError : ReadItem := { value := 0, tag := tagS + tagE, status := itStation }

/-- Forget a fetch. -/
def State.dropFetch (s : State) (ch : Nat) (f : Fetch) : State :=
  s.modLap ch fun c => { c with fetches := c.fetches.filter fun x => x != f }

/-- A read of a remote signal by a channel. -/
def State.readRemote (s : State) (ch : Nat) (g : Signal) : State × ReadItem :=
  let a := g.index % 65536
  match s.bridge.orphans.find? fun o => o.channel == ch && o.ring == g.ring && o.station == g.station && o.addr == a with
  | some o =>
    if o.taken then (s, noValue itHeld)
    else
      let s := s.modBridge fun k => { k with orphans := k.orphans.map fun x => if x = o then { x with taken := true } else x }
      (s.copyItem 6 0x2000000, remoteItem g o.value itStale)
  | none =>
    match (s.lap ch).fetches.find? fun f => f.ring == g.ring && f.station == g.station && f.addr == a with
    | some f =>
      if f.abandoned then (s, noValue itPending)
      else (match f.result with
        | some (some w) => (s.dropFetch ch f, remoteItem g w itOk)
        | some none => (s.dropFetch ch f, stationError)
        | none => (s, noValue itPending))
    | none =>
      match s.bridge.cache.find? fun c => c.1 == g.ring && c.2.1 == g.station && c.2.2.1 == a && !s.seAddress g.ring g.station a with
      | some c => (s, remoteItem g c.2.2.2 itOk)
      | none =>
        if s.sta g.ring g.station ≠ staActive then (s, stationError)
        else
          let se := s.seAddress g.ring g.station a
          let n := if se ∨ s.fld BRG_PFAGE BRG_PFAGE_PFAGE = 0 then 1 else 1 + s.fetchRun g.ring g.station 15 (a + 1)
          let f : Fetch := { ring := g.ring, station := g.station, addr := a, sideEffect := se, result := none, abandoned := false }
          let s := s.modLap ch fun c => { c with fetches := c.fetches ++ [f] }
          (s.modStream ch g.ring g.station fun x => { x with work := x.work ++ [.read a n] }, noValue itPending)

/-- One item of a READ. -/
def State.readItem (s : State) (ch : Nat) (ue : List Nat) (i : Nat) : State × ReadItem :=
  match s.useSignal i (ue.contains i) with
  | (t, none) => (t, noValue itNotMapped)
  | (t, some g) =>
    if g.dir = 1 then (t, noValue itAccess)
    else if g.kind = kindRem then t.readRemote ch g
    else t.readImage g

/-- The items of a READ, in request order. -/
def State.readItems (s : State) (ch : Nat) (ue : List Nat) : List Nat → State × List ReadItem
  | [] => (s, [])
  | i :: is =>
    match s.readItem ch ue i with
    | (t, x) => match t.readItems ch ue is with
      | (u, xs) => (u, x :: xs)

/-- Bytes of a read item. -/
def ReadItem.bytes (x : ReadItem) : List Byte :=
  leBytes 4 x.value.toNat ++ leBytes 1 x.tag ++ leBytes 1 x.status ++ leBytes 2 0

/-- An item reads the live input bank. -/
def State.readsBank (s : State) (i : Nat) : Bool :=
  s.signalEnabled i && s.signalGood i && (s.signal i).kind != kindRem && (s.signal i).dir != 1 && !(s.signal i).src

/-- LAP_READ (R308). An index above 16,383, here and in WRITE, makes the payload malformed (DESIGN CHOICE, log entry 144). -/
def execLapRead (r : LapRequest) (ue : List Nat) (s : State) : Host.Outcome State Fault Refusal :=
  .next (s.serve 0x10 true r fun t ch =>
    let n := r.payload.length / 2
    let is := (List.range n).map fun i => field r.payload (2 * i) 2
    if r.payload.length % 2 != 0 || n == 0 || decide (178 < n) || is.any (fun i => decide (16384 ≤ i)) then t.lapStatus ch r 0x10 3
    else match t.readItems ch ue is with
      | (u, xs) =>
        let bank := is.any t.readsBank
        u.lapAnswer ch r 0x10 0 (if bank then (u.frameCount + 0xFFFFFFFF) % 0x100000000 else u.fcnt) 0 (xs.flatMap ReadItem.bytes))

/-! ### Writes and covered work (R309, R316, R317, R411, R412) -/

/-- What refuses a write item, whatever is then done with it: none when nothing does (the signal follows). -/
def State.checkWrite (s : State) (ch : Nat) (ue : List Nat) (committed : Bool) (i : Nat) (w : Word) : State × Nat × Option (Signal × Nat) :=
  match s.useSignal i (ue.contains i) with
  | (t, none) => (t, itNotMapped, none)
  | (t, some g) =>
    if g.dir = 0 || (g.cmt && !committed) || (g.kind != kindRem && !t.isHostCell (g.kind == kindAna) g.index) then (t, itAccess, none)
    else match g.toField w with
      | none => (t, itRange, none)
      | some v => if g.kind == kindRem && t.isFenced ch g.ring g.station then (t, itFenced, none) else (t, itOk, some (g, v))

/-- A PLAIN item (R316). -/
def State.plainItem (s : State) (ch : Nat) (ue : List Nat) (i : Nat) (w : Word) : State × Nat :=
  match s.checkWrite ch ue false i w with
  | (t, e, none) => (t, e)
  | (t, _, some (g, v)) =>
    if g.kind ≠ kindRem then t.writeImage g w
    else if t.sta g.ring g.station ≠ staActive then (t.farFailure ch g.ring g.station none 5, itOk)
    else (t.modStream ch g.ring g.station fun x => { x with work := x.work ++ [remoteWork g v none] }, itOk)

/-- A covered item: what its acceptance does at a SEQ, with its item status. -/
abbrev Covered := State → Nat → State × Nat

/-- Items of covered work at consecutive SEQ numbers (R411, R412). `refused` is the status of a refusal before. -/
def State.coverItems (s : State) (ch : Nat) : Nat → Bool → Bool → List Covered → State × List Nat
  | _, _, _, [] => (s, [])
  | q, refused, full, f :: fs =>
    let next := (q + 1) % 0x100000000
    if refused then
      match (if full then s.wayBusy else s).coverItems ch next true full fs with
      | (t, l) => (t, itBusy :: l)
    else if q ≠ s.wayNext ch then
      match (s.bump WAY_DUPCNT).coverItems ch next false false fs with
      | (t, l) => (t, itDuplicate :: l)
    else match f s q with
      | (t, e) => match t.coverItems ch next (e != itOk) (e == itBusy) fs with
        | (u, l) => (u, e :: l)

/-- Covered work of a request: none is a SEQ outside the window of R411. -/
def State.cover (s : State) (ch seq : Nat) (items : List Covered) : State × Option (List Nat) :=
  let d := (BitVec.ofNat 32 seq - BitVec.ofNat 32 (s.wayNext ch)).toNat
  if s.isSet WAY_STATUS WAY_STATUS_REPLAY || s.quietFrame then (s, some (items.map fun _ => itBusy))
  else if d ≠ 0 ∧ d < 0x100000000 - 65536 then (s, none)
  else match s.coverItems ch seq false false items with
    | (t, l) => (t, some l)

/-- The answer to covered work: one item status for each item. -/
def State.answerCovered (s : State) (ch : Nat) (r : LapRequest) (op : Nat) (items : List Covered) : State :=
  match s.cover ch r.seq.toNat items with
  | (t, none) => t.lapStatus ch r op 3
  | (t, some l) => t.lapAnswer ch r op r.seq.toNat t.fcnt 0 (padTo4 (l.map fun e => BitVec.ofNat 8 e))

/-- An item enters the journal, or is refused with BUSY; once it is accepted, `after` follows. -/
def State.acceptItem (s : State) (kind ch seq key key2 : Nat) (payload : List Byte) (remote : Bool) (after : State → State) : State × Nat :=
  match s.journalItem kind ch seq key key2 payload remote with
  | some t => (after t, itOk)
  | none => (s.wayBusy, itBusy)

/-- A COMMITTED item (R316). -/
def committedItem (ch : Nat) (ue : List Nat) (i : Nat) (w : Word) : Covered := fun s seq =>
  match s.checkWrite ch ue true i w with
  | (t, e, none) => (t, e)
  | (t, _, some (g, v)) =>
    t.acceptItem wayWrite ch seq i w.toNat (leBytes 4 i ++ leBytes 4 w.toNat) (g.kind == kindRem) fun u =>
      if g.kind = kindRem then u.modStream ch g.ring g.station fun x => { x with work := x.work ++ [remoteWork g v (some seq)] } else u

/-- PLAIN items in order. -/
def State.plainItems (s : State) (ch : Nat) (ue : List Nat) : List (Nat × Word) → State × List Nat
  | [] => (s, [])
  | x :: xs =>
    match s.plainItem ch ue x.1 x.2 with
    | (t, e) => match t.plainItems ch ue xs with
      | (u, l) => (u, e :: l)

/-- LAP_WRITE (R316). -/
def execLapWrite (r : LapRequest) (ue : List Nat) (s : State) : Host.Outcome State Fault Refusal :=
  .next (s.serve 0x11 false r fun t ch =>
    let n := (r.payload.length - 4) / 8
    let is := (List.range n).map fun i => (field r.payload (4 + 8 * i) 4, BitVec.ofNat 32 (field r.payload (8 + 8 * i) 4))
    let cls := field r.payload 0 1
    if r.payload.length != 4 + 8 * n || n == 0 || decide (177 < n) || decide (1 < cls) || field r.payload 1 3 != 0 ||
        is.any (fun x => decide (16384 ≤ x.1)) then t.lapStatus ch r 0x11 3
    else if cls = 0 then
      match t.plainItems ch ue is with
      | (u, l) => u.lapAnswer ch r 0x11 0 u.fcnt 0 (padTo4 (l.map fun e => BitVec.ofNat 8 e))
    else t.answerCovered ch r 0x11 (is.map fun x => committedItem ch ue x.1 x.2))

/-! ### Failures (R318) -/

/-- A failure as FAILGET returns it. -/
def Failure.bytes (f : Failure) : List Byte :=
  leBytes 1 f.ring ++ leBytes 1 f.station ++ leBytes 1 f.code ++ leBytes 1 0 ++ leBytes 4 f.fseq ++ leBytes 4 f.discards ++
    leBytes 4 f.lastDisc

/-- FAILGET (R318). -/
def execFailget (r : LapRequest) (s : State) : Host.Outcome State Fault Refusal :=
  .next (s.serve 0x12 true r fun t ch =>
    if r.payload.isEmpty then t.lapAnswer ch r 0x12 0 t.fcnt 0 ((t.lap ch).failures.flatMap Failure.bytes)
    else t.lapStatus ch r 0x12 3)

/-- FAILACK: the entry is removed and its stream's fence lifted. The answer is the item status. -/
def State.failAck (s : State) (ch ring id fseq : Nat) : State × Nat :=
  match (s.lap ch).failures.find? fun f => f.ring == ring && f.station == id && f.fseq == fseq with
  | none => (s, itAccess)
  | some f =>
    let s := s.modLap ch fun c => { c with failures := c.failures.erase f, full := false }
    ((s.modStream ch ring id fun x => { x with fenced := false }).showFailures ch, itOk)

/-- FAILACK (R318). -/
def execFailack (r : LapRequest) (s : State) : Host.Outcome State Fault Refusal :=
  .next (s.serve 0x13 false r fun t ch =>
    if r.payload.length != 8 || field r.payload 2 2 != 0 then t.lapStatus ch r 0x13 3
    else match t.failAck ch (field r.payload 0 1) (field r.payload 1 1) (field r.payload 4 4) with
      | (u, e) => u.lapAnswer ch r 0x13 0 u.fcnt 0 (padTo4 [BitVec.ofNat 8 e]))

/-! ### Jobs (R416) -/

/-- A job of a request. -/
def jobItem (ch q : Nat) (words : List Byte) : Covered := fun s seq =>
  let good := s.jqGood q
  let s := s.useJq q
  if !good then (s, itAccess)
  else if s.jqWords q < words.length / 4 + 3 then (s, itRange)
  else s.acceptItem wayJob ch seq (s.queueNext q) q words false fun u => u.setReg (WAY_JQ_QNEXT q) (u.reg (WAY_JQ_QNEXT q) + 1)

/-- The words of n jobs; none when the payload does not hold exactly them. -/
def parseJobs : Nat → List Byte → Option (List (List Byte))
  | 0, pl => if pl.isEmpty then some [] else none
  | n + 1, pl =>
    let l := 4 * field pl 0 2
    if decide (pl.length < 4 + l) || field pl 2 2 != 0 then none
    else (parseJobs n (pl.drop (4 + l))).map fun js => ((pl.drop 4).take l) :: js

/-- JOB (R416). -/
def execJob (r : LapRequest) (s : State) : Host.Outcome State Fault Refusal :=
  .next (s.serve 0x20 false r fun t ch =>
    let q := field r.payload 0 1
    let n := field r.payload 1 1
    match (if decide (r.payload.length < 4) || decide (16 ≤ q) || n == 0 || field r.payload 2 2 != 0 then none
        else parseJobs n (r.payload.drop 4)) with
    | none => t.lapStatus ch r 0x20 3
    | some js => t.answerCovered ch r 0x20 (js.map (jobItem ch q)))

/-! ### Mailbox messages of hosts (R435) -/

/-- A channel is bound to a LAP channel as sender, and enabled. -/
def State.mbxOfLap (s : State) (ch c : Nat) : Bool := decide (c < 32) && s.mbxSender c == 0x10 + ch && s.mbxEnabled c

/-- The response payload. -/
def State.mbxReport (s : State) (c status : Nat) : List Byte :=
  leBytes 4 status ++
    (if c < 32 then
      leBytes 4 (s.reg (MBX_HSEQ c)).toNat ++ leBytes 1 (s.mbxState c) ++
        leBytes 1 (s.fld (MBX_CH_HDR c) MBX_CH_HDR_REDELIVERED + 2 * s.fld (MBX_CH_STAT c) MBX_CH_STAT_SENDER_RESTARTED) ++
        leBytes 2 (s.fld (MBX_CH_ACK c) MBX_CH_ACK_RCODE)
    else leBytes 8 0) ++ leBytes 4 0

/-- The payload of a function that is not POST is well formed. -/
def mbxShort (pl : List Byte) : Bool := pl.length == 4 && field pl 2 2 == 0

/-- Serve a function other than POST: `f` acts when the channel and its state allow it. -/
def State.mbxpostPlain (s : State) (r : LapRequest) (states : List Nat) (f : State → Nat → Nat → State) : State :=
  s.serve 0x21 false r fun t ch =>
    let c := field r.payload 1 1
    if !mbxShort r.payload then t.lapStatus ch r 0x21 3
    else
      let ok := t.mbxOfLap ch c && (states.isEmpty || states.contains (t.mbxState c))
      let u := if ok then f t ch c else t
      u.lapAnswer ch r 0x21 0 u.fcnt 0 (u.mbxReport c (if ok then itOk else itAccess))

/-- MBXPOST_STATUS (R435). -/
def execMbxpostStatus (r : LapRequest) (s : State) : Host.Outcome State Fault Refusal :=
  .next (s.mbxpostPlain r [] fun t _ _ => t)
/-- MBXPOST_DONE (R435). -/
def execMbxpostDone (r : LapRequest) (s : State) : Host.Outcome State Fault Refusal :=
  .next (s.mbxpostPlain r [mbxAcked] fun t ch c => t.mbxDone (some (0x10 + ch)) c)
/-- MBXPOST_WITHDRAW (R435). -/
def execMbxpostWithdraw (r : LapRequest) (s : State) : Host.Outcome State Fault Refusal :=
  .next (s.mbxpostPlain r [mbxPosted] fun t ch c => t.mbxWithdraw (some (0x10 + ch)) c)

/-- A POST as covered work: its message registers are the entry's payload. -/
def postItem (ch c : Nat) (message : List Byte) : Covered := fun s seq =>
  if !s.mbxOfLap ch c then (s, itAccess) else s.acceptItem wayMbx ch seq c 0 message false id

/-- MBXPOST_POST (R435). -/
def execMbxpostPost (r : LapRequest) (s : State) : Host.Outcome State Fault Refusal :=
  .next (s.serve 0x21 false r fun t ch =>
    let c := field r.payload 1 1
    let len := field r.payload 6 1
    if decide (r.payload.length < 8) || field r.payload 2 2 != 0 || field r.payload 7 1 != 0 || decide (12 < len) ||
        r.payload.length != 8 + 4 * len then t.lapStatus ch r 0x21 3
    else match t.cover ch r.seq.toNat [postItem ch c (r.payload.drop 4)] with
      | (u, none) => u.lapStatus ch r 0x21 3
      | (u, some l) => u.lapAnswer ch r 0x21 r.seq.toNat u.fcnt 0 (u.mbxReport c (l.headD itBusy)))

/-! ### Station events (R319, R320) -/

/-- The stations that six bitmaps of 32 bytes select. -/
def subscribed (pl : List Byte) : List Nat :=
  (List.range 6).flatMap fun n => ((List.range 256).filter fun id =>
    decide (1 ≤ id) && decide (id ≤ 254) && ((pl.getD (32 * n + id / 8) 0).getLsbD (id % 8))).map fun id => 256 * n + id

/-- SUBSCRIBE (R319). -/
def execSubscribe (r : LapRequest) (s : State) : Host.Outcome State Fault Refusal :=
  .next (s.serve 0x30 false r fun t ch =>
    if r.payload.length ≠ 192 then t.lapStatus ch r 0x30 3
    else (t.modLap ch fun c => { c with subs := subscribed r.payload }).lapStatus ch r 0x30 0)

/-- NOTIFYACK (R320). -/
def execNotifyack (r : LapRequest) (s : State) : Host.Outcome State Fault Refusal :=
  .next (s.serve 0x32 false r fun t ch =>
    if r.payload.length ≠ 4 then t.lapStatus ch r 0x32 3
    else (t.modLap ch fun c => { c with notes := c.notes.filter fun n => n.reqid != field r.payload 0 4 }).lapStatus ch r 0x32 0)

/-- A NOTIFY that has not been acknowledged is repeated, or dropped after 16 repetitions (R320). -/
def State.retryNotify (s : State) (ch reqid : Nat) : State :=
  match (s.lap ch).notes.find? fun n => n.reqid == reqid with
  | none => s
  | some n =>
    if n.sends < 17 then
      (s.modLap ch fun c => { c with notes := c.notes.map fun x => if x = n then { x with sends := x.sends + 1 } else x }).sendNotify ch n
    else
      let s := s.modLap ch fun c => { c with notes := c.notes.filter fun x => x != n }
      (s.bump BRG_NOTIFYDROP).evLimit srcBrg (Config.paramCode 6 ch).toNat 17 16

/-- NOTIFY_RETRY (R320). -/
def execNotifyRetry (channel : Fin 16) (reqid : Nat) (s : State) : Host.Outcome State Fault Refusal :=
  .next (s.retryNotify channel.val reqid)

/-! ### Retry window, orphans, prefetch (R312 to R314) -/

/-- FETCH_ABANDON (R313). -/
def execFetchAbandon (channel : Fin 16) (ring : Fin 6) (station : BitVec 8) (address : BitVec 16) (s : State) :
    Host.Outcome State Fault Refusal :=
  .next (match (s.lap channel.val).fetches.find? fun f =>
      f.ring == ring.val && f.station == station.toNat && f.addr == address.toNat && !f.abandoned with
    | some f => s.abandonFetch channel.val f
    | none => s)

/-- ORPHAN_EXPIRE (R314). -/
def execOrphanExpire (channel : Fin 16) (ring : Fin 6) (station : BitVec 8) (address : BitVec 16) (s : State) :
    Host.Outcome State Fault Refusal :=
  .next ((s.modBridge fun k => { k with orphans := k.orphans.filter fun o =>
    !(o.channel == channel.val && o.ring == ring.val && o.station == station.toNat && o.addr == address.toNat) }).copyItem 6 0x2000000)

/-- PREFETCH_EXPIRE (R312). -/
def execPrefetchExpire (ring : Fin 6) (station : BitVec 8) (address : BitVec 16) (s : State) : Host.Outcome State Fault Refusal :=
  .next (s.modBridge fun k => { k with cache := k.cache.filter fun c =>
    !(c.1 == ring.val && c.2.1 == station.toNat && c.2.2.1 == address.toNat) })

end Sys2Proof.Machine
end

