-- ==== Sys2Proof/Machine/Backbone.lean ====
section
/-!
DEFINITION. Backbone safety channels (R348 to R351) and the backbone ports (R511).
-/

namespace Sys2Proof.Machine

/-- All backbone safety channels. -/
def allBch : List Nat := List.range 32

/-- Fields of a backbone channel group. -/
def State.bchEnabled (s : State) (c : Nat) : Bool := s.isSet (SAF_BCH_W0 c) SAF_BCH_W0_EN
def State.bchIn (s : State) (c : Nat) : Nat := s.fld (SAF_BCH_W0 c) SAF_BCH_W0_INCOUNT
def State.bchOut (s : State) (c : Nat) : Nat := s.fld (SAF_BCH_W1 c) SAF_BCH_W1_OUTCOUNT
def State.bchInStart (s : State) (c : Nat) : Nat := s.fld (SAF_BCH_W1 c) SAF_BCH_W1_INSTART
def State.bchOutStart (s : State) (c : Nat) : Nat := s.fld (SAF_BCH_W2 c) SAF_BCH_W2_OUTSTART
def State.bchPort (s : State) (c : Nat) : Nat := s.fld (SAF_BCH_W0 c) SAF_BCH_W0_PORT

/-- The group is consistent (R351). -/
def State.bchRule (s : State) (c : Nat) : Bool :=
  let i := s.bchIn c
  let o := s.bchOut c
  let gen := s.fld (SAF_BCH_W0 c) SAF_BCH_W0_GEN
  gen == s.fld (SAF_BCH_W1 c) SAF_BCH_W1_GEN && gen == s.fld (SAF_BCH_W2 c) SAF_BCH_W2_GEN &&
    (i == 0 || (decide (6 ≤ i) && decide (i ≤ 69))) && (o == 0 || (decide (6 ≤ o) && decide (o ≤ 69))) && (i != 0 || o != 0) &&
    decide (s.bchInStart c + i ≤ 16384) && decide (s.bchOutStart c + o ≤ 16384) &&
    decide (s.fld (SAF_BCH_W2 c) SAF_BCH_W2_SENDOFF < s.fld FRM_ACTIVE FRM_ACTIVE_ACTPERIOD)

/-- A use of the group: an enabled inconsistent one is flagged. -/
def State.useBch (s : State) (c : Nat) : State :=
  if s.bchEnabled c && !s.bchRule c then (s.flag SAF_STATUS SAF_STATUS_CFG_SKEW).evGroup srcSaf c else s

/-- Words written into a bank as analog points with a tag, as far as the image reaches and the bridge's context permits (R138). -/
def State.putWords (s : State) (bank start tag : Nat) (ws : List Word) : State :=
  s.forEach ws.zipIdx fun w t =>
    if start + w.2 < 16384 then (t.bridgePut bank true (start + w.2) { value := w.1.toNat, tag := tag }).1 else t

/-- A message of an accepted datagram enters the journal, unless it repeats the last accepted one (R411, R412). A standby
keeps no entry of its own. -/
def State.journalSafe (s : State) (c : Nat) (ws : List Word) (bytes : List Byte) : State :=
  let seq := ws.getD 1 0
  if s.standby then s
  else if (s.bridge.safeWords.lookup c).any fun last => last.getD 1 0 == seq then s.bump WAY_DUPCNT
  else match s.journalItem waySafe (16 + c) seq.toNat c 0 bytes with
    | some t => t.modBridge fun k => { k with safeWords := (c, ws) :: k.safeWords.filter fun e => e.1 != c }
    | none => s.wayBusy

/-- A discarded datagram of port 46012. -/
def State.safeDrop (s : State) : State := (s.bump SAF_BBDROP).flag SAF_STATUS SAF_STATUS_BBDROP

/-- A datagram of port 46012 (R350). With BRG_CTRL.EN 0 the bridge discards it as it discards every datagram, and does not count it (DESIGN
CHOICE, log entry 146). -/
def State.safeDatagram (s : State) (port : Nat) (source : Word) (pl : List Byte) : State :=
  let c := field pl 1 1
  let n := field pl 2 2
  if !s.isSet BRG_CTRL BRG_CTRL_EN then s
  else if decide (32 ≤ c) || decide (pl.length < 32) || decide (284 < pl.length) || pl.length != 8 + 4 * n || field pl 0 1 != 1 then s.safeDrop
  else
    let good := s.bchEnabled c && s.bchRule c
    let s := s.useBch c
    if !good || s.bchPort c != port || s.reg (SAF_BCH_PEER c) != source || n != s.bchIn c then s.safeDrop
    else
      let ws := payloadWords (pl.drop 8)
      let s := s.putWords (bankBase s.frameCount) (s.bchInStart c) 0 ws
      let s := s.modBridge fun k => { k with safeGot := if k.safeGot.contains c then k.safeGot else k.safeGot ++ [c] }
      s.journalSafe c ws (pl.drop 8)

/-- SAFETY_DATAGRAM (R350). -/
def execSafetyDatagram (port : Fin 4) (source : Word) (payload : List Byte) (s : State) : Host.Outcome State Fault Refusal :=
  .next (s.arrive port.val fun t => t.safeDatagram port.val source payload)

/-- The bridge reads n published analog words from a point up through its context; none when one cannot be read (R138, R349). -/
def State.bridgeWords (s : State) (start : Nat) : Nat → State × Option (List Word)
  | 0 => (s, some [])
  | n + 1 =>
    match s.bridgeWords start n with
    | (t, none) => (t, none)
    | (t, some ws) => match t.bridgePoint pubBase true (start + n) with
      | (u, some (some p)) => (u, some (ws ++ [BitVec.ofNat 32 p.value]))
      | (u, _) => (u, none)

/-- A channel sends its published cells (R349). Nothing is sent when one of them cannot be read, or the bridge's
context does not permit it (R138). -/
def State.safeSend (s : State) (c : Nat) : State :=
  if s.standby || !s.bchEnabled c || s.bchOut c == 0 then s
  else
    let good := s.bchRule c
    let s := s.useBch c
    if !good then s
    else
      match s.bridgeWords (s.bchOutStart c) (s.bchOut c) with
      | (t, some ws) =>
        t.sendOn (t.bchPort c) (.safety (t.bchPort c) (t.reg (SAF_BCH_PEER c)) (t.fld (SAF_BCH_W0 c) SAF_BCH_W0_RCH) t.fcnt ws)
      | (t, none) => t

/-- SAFETY_DATAGRAM_SEND (R349). -/
def execSafetyDatagramSend (channel : Fin 32) (s : State) : Host.Outcome State Fault Refusal := .next (s.safeSend channel.val)

/-- At a tick the words of a channel that received nothing in the ended frame keep the values of the previous bank with tag S
(R350). -/
def State.safeLate (s : State) (bank prev : Nat) : State :=
  (s.forEach (allBch.filter fun c => s.bchEnabled c && s.bchIn c != 0 && !s.bridge.safeGot.contains c) fun c t =>
    t.forEach ((List.range (t.bchIn c)).filter fun i => decide (t.bchInStart c + i < 16384)) fun i u =>
      let a := u.bchInStart c + i
      match u.bridgePoint prev true a with
      | (w, none) => w
      | (w, some p) => (w.bridgePut bank true a { value := (p.getD (w.point prev true a)).value, tag := tagS }).1).modBridge
    fun k => { k with safeGot := [] }

/-- At a tick the journalled safety messages whose words lie in a closed bank are delivered (R414, R415). -/
def State.deliverSafe (s : State) : State :=
  let open' := s.bridge.entries.filter fun e => e.kind == waySafe && !e.over
  s.forEach (open'.filter (s.inTurn open')) fun e t => t.markEntry e wayDlv

/-! ### Ports (R511) -/

/-- Sessions whose last request arrived on a port end. -/
def State.endPortSessions (s : State) (p : Nat) : State :=
  s.forEach allChannels fun c t =>
    let t := if (t.lap c).via = p then t.endSession c else t
    if (t.lap c).half.any fun h => h.via == p then
      let t := t.modLap c fun k => { k with half := none }
      if t.sessionState c = 1 then t.setSession c 0 else t
    else t

/-- The link of a port is lost. -/
def State.linkLost (s : State) (p : Nat) : State :=
  if s.isSet (BKB_STATUS p) BKB_STATUS_LINK then
    (s.putFld (BKB_STATUS p) BKB_STATUS_LINK 0).flag (BKB_STATUS p) BKB_STATUS_LOSS
  else s

/-- EN of a port goes to 0. -/
def State.portOff (s : State) (p : Nat) : State := (s.endPortSessions p).linkLost p

/-- BACKBONE_PORT_ENABLE (R511). -/
def execBackbonePortEnable (port : Fin 4) (en : Bool) (s : State) : Host.Outcome State Fault Refusal :=
  let t := s.putFld (BKB_CTRL port.val) BKB_CTRL_EN (bit en)
  .next (if en then t else t.portOff port.val)

/-- BACKBONE_LINK_CHANGE (R511): the link of an enabled port that is powered comes up or is lost. -/
def execBackboneLinkChange (port : Fin 4) (up : Bool) (s : State) : Host.Outcome State Fault Refusal :=
  .next (if !up then s.linkLost port.val
    else if s.isSet (BKB_CTRL port.val) BKB_CTRL_EN && bitAt (s.fld BLW_STAGE BLW_STAGE_BKBOK) port.val then s.putFld (BKB_STATUS port.val) BKB_STATUS_LINK 1 else s)

/-- BACKBONE_PACKET_DISCARD (R296, R511): a packet that goes to no consumer. Service port M0 (4) has no block of its own: only IPv4
traffic that the bridge discards is counted there. -/
def execBackbonePacketDiscard (port : Fin 5) (why : Discard) (s : State) : Host.Outcome State Fault Refusal :=
  .next (s.arrive port.val fun t =>
    match why with
    | .malformed => t.bump BRG_MALF
    | .noConsumer => t.when (decide (port.val < 4)) fun t => t.bump (BKB_RXDISC port.val)
    | .badFcs => t.when (decide (port.val < 4)) fun t => (t.bump (BKB_FCSERR port.val)).flag (BKB_STATUS port.val) BKB_STATUS_FCS)

end Sys2Proof.Machine
end

