-- ==== Sys2Proof/Machine/LocalIo.lean ====
section
/-!
DEFINITION. The commands of the local inputs and outputs: sampling, test runs, overloads, field groups and clears.
-/

namespace Sys2Proof.Machine

/-- DI_SAMPLE (R359, R360, R366, R355): each enabled input, then each output, then the guard-opening groups. Before FG1
is first enabled no sample is taken (R361). -/
def execDiSample (x : DioSample) (s : State) : Host.Outcome State Fault Refusal :=
  if !s.dio.fg1 then .next s
  else
    let s := s.forEach allInputs fun i t => t.sampleInput i (x.adc.getD i 0) x.since
    let s := s.forEach allOutputs fun c t =>
      t.sampleOutput c (x.back.getLsbD c) (x.excess.getLsbD c) (x.settled.getLsbD c)
    .next (s.forEach (List.range 8) fun g t => t.guardSample g)

/-- TEST_RUN_START (R353): a run starts if none is in progress and its cause is due. -/
def execTestRunStart (cause : RunCause) (s : State) : Host.Outcome State Fault Refusal :=
  let due := match cause with
    | .startup => s.dio.startPending && s.dio.fg1
    | .periodic => true
    | .recovery => s.isSet SAF_TPCTRL SAF_TPCTRL_AUTOREC &&
        allInputs.any fun i => s.diLatched i && (s.di i).ready && !(s.di i).ran
    | .guardTest => (List.range 8).any fun g => s.gstate g == 2 && (s.guardOf g).closed && !(s.guardOf g).ran
  .next (if s.dio.run.isNone && due then s.startRun (cause == .startup) else s)

/-- TEST_TEST_ISSUE (R353): SAF_TPCTRL.TEST is written 1. -/
def execTestTestIssue (s : State) : Host.Outcome State Fault Refusal := .next s.issueTest

/-- TEST_RUN_END (R352). -/
def execTestRunEnd (s : State) : Host.Outcome State Fault Refusal := .next s.endRun

/-- FAULT_ABSENT_TIMEOUT (R354): a latched fault has been absent for 100 ms. -/
def execFaultAbsentTimeout (i : Fin 16) (s : State) : Host.Outcome State Fault Refusal :=
  .next (if s.diLatched i && !s.faultPresent i then s.modDi i fun d => { d with ready := true } else s)

/-- TP_OVERLOAD (R363): the source switches off and every input that names it is latched. A disabled input, which is not sampled, is not
latched here nor at the loss of FG1 (DESIGN CHOICE, log entry 147). -/
def execTpOverload (src : Fin 4) (mA : Nat) (s : State) : Host.Outcome State Fault Refusal :=
  if !s.dio.fg1 || s.isSet DIO_STATUS DIO_STATUS_FG1OFF || s.dio.srcOff.getLsbD src then .next s
  else
    let t := { s with dio := { s.dio with srcOff := s.dio.srcOff ||| BitVec.ofNat 4 (2 ^ src.val) } }
    let t := (t.flag DIO_STATUS DIO_STATUS_TPOVL).evLimit srcDio src mA 100
    .next (t.forEach (allInputs.filter fun i => (s.diCfg i).en && (s.diCfgNow i).src == src) fun i u => u.latchInput i 3)

/-- TP_RETRY (R363): the source is switched on again. -/
def execTpRetry (src : Fin 4) (s : State) : Host.Outcome State Fault Refusal :=
  .next { s with dio := { s.dio with srcOff := s.dio.srcOff &&& ~~~(BitVec.ofNat 4 (2 ^ src.val)) } }

/-- DO_LOAD_MEASURE (R368): the load of an off channel; a pair reports in the even channel's field. -/
def execDoLoadMeasure (c : Fin 8) (load : Fin 4) (s : State) : Host.Outcome State Fault Refusal :=
  if s.bellows.restarting || s.doCmd c || load = 0 then .next s
  else
    let e := s.doDriver c
    let t := s.putFld DIO_DOLOAD ⟨2 * e, 2⟩ load
    .next (if load = 2 then (t.flag DIO_STATUS DIO_STATUS_LOADW).evState srcDio e 1 2
      else if load = 3 ∧ !s.doLatched c then t.doFault c
      else t)

/-- DO_CLEAR (R366): DIO_DOCLR.GO is issued with a mask. R322 has no command code that clears latches: this row and LOOP_CLEAR stand for
the runtime's issue on a command in PROG, which no other command makes (DESIGN CHOICE, log entry 148). -/
def execDoClear (mask : BitVec 8) (s : State) : Host.Outcome State Fault Refusal :=
  .next (s.putFld DIO_DOCLR DIO_DOCLR_MASK mask.toNat).doClear

/-- FG1_LOSS (R371). -/
def execFg1Loss (s : State) : Host.Outcome State Fault Refusal :=
  if s.isSet DIO_STATUS DIO_STATUS_FG1OFF then .next s
  else
    let t := s.flag DIO_STATUS DIO_STATUS_FG1OFF
    let t := t.forEach allOutputs fun c u => u.setDoCmd c false
    .next (t.forEach (allInputs.filter fun i => (s.diCfgNow i).en && (s.diCfgNow i).testPulse) fun i u => u.latchInput i 4)

/-- FG1_RETURN (R371). -/
def execFg1Return (s : State) : Host.Outcome State Fault Refusal := .next (s.putFld DIO_STATUS DIO_STATUS_FG1OFF 0)

/-- LOOP_SAMPLE (R377). -/
def execLoopSample (c : Fin 4) (m : LoopMeasure) (s : State) : Host.Outcome State Fault Refusal := .next (s.sampleLoop c m)

/-- COMPLIANCE_TIMEOUT (R379): no further fault is raised by a channel that drives its fault level. -/
def execComplianceTimeout (c : Fin 4) (s : State) : Host.Outcome State Fault Refusal :=
  .next (if s.bitOf LOOP_COMPLIANCE 0 c && s.loopCause c == 0 && !loopRowFault (s.loopRow c) then s.loopFault c 1 else s)

/-- LOOP_THERMAL (R382): the stage reaches 140 °C, or cools below 115 °C. -/
def execLoopThermal (c : Fin 4) (hot : Bool) (s : State) : Host.Outcome State Fault Refusal :=
  let k := s.loopCh c
  let t := s.modLoop c fun k => { k with thermal := hot }
  .next (if hot && !k.thermal then t.loopFault c 4 else t.loopDrive c)

/-- LOOP_MODE_SETTLED (R376): 500 µs after a MODE change. -/
def execLoopModeSettled (c : Fin 4) (s : State) : Host.Outcome State Fault Refusal :=
  .next ((s.modLoop c fun k => { k with settling := false }).loopDrive c)

/-- LOOP_LOAD_COMPUTE (R377). -/
def execLoopLoadCompute (c : Fin 4) (s : State) : Host.Outcome State Fault Refusal := .next (s.firmware fun t => t.loopLoad c)

/-- LOOP_CLEAR (R383): LOOP_CLR.GO is issued with a mask. -/
def execLoopClear (mask : BitVec 4) (s : State) : Host.Outcome State Fault Refusal :=
  .next (s.putFld LOOP_CLR LOOP_CLR_MASK mask.toNat).loopClear

/-- FG2_LOSS (R382). -/
def execFg2Loss (s : State) : Host.Outcome State Fault Refusal :=
  .next ((s.flag LOOP_STATUS LOOP_STATUS_FG2OFF).loopsDrive)

/-- FG2_RETURN (R382): the channels follow R375 from the next tick. -/
def execFg2Return (s : State) : Host.Outcome State Fault Refusal := .next (s.putFld LOOP_STATUS LOOP_STATUS_FG2OFF 0)

end Sys2Proof.Machine
end

