-- ==== Sys2Proof/Machine/Indicators.lean ====
section
/-!
DEFINITION. The indicators that Bellows drives from register states (23_electrical_mechanical.md, R503).
-/

namespace Sys2Proof.Machine

/-- A lamp that is lit or off. -/
def lampIf (c : Bool) (on : Lamp) : Lamp := if c then on else .off

/-- PWR: flashing while a power-fail warning is active, and off without a logic input in its range (the manual gives an input outside
it no state of its own: DESIGN CHOICE, log entry 154). -/
def State.pwrLamp (s : State) : Lamp :=
  if s.isSet BLW_STATUS BLW_STATUS_PFAIL then .greenFlash else lampIf (!s.isSet (BLW_RAIL 0) BLW_RAIL_OUT) .green

/-- RUN: HOLD goes before the effective mode. -/
def State.runLamp (s : State) : Lamp :=
  if s.fld SYS_MODE SYS_MODE_HOLD ≠ 0 ∨ s.eff = effStop then .off else if s.eff = effProg then .greenFlash else .green

/-- SAFE: SAFEFAIL or a comparator fault before a lane in OUT. -/
def State.safeLamp (s : State) : Lamp :=
  if s.safeLost then .red else lampIf (allLanes.any fun l => s.laneState l == lsOut) .redFlash

/-- PAIR. PSTATE codes 0 to 3 are ACTIVE, SYNCING, READY and ISOLATED. -/
def State.pairLamp (s : State) : Lamp :=
  if !s.isSet CPL_CFG CPL_CFG_EN then .off
  else match s.fld CPL_STATE CPL_STATE_PSTATE with
    | 0 => .green
    | 1 => .amber
    | 2 => .greenFlash
    | _ => .amberFlash

/-- RING0 to RING5. WRAPPED is a running ring whose status word says so (R235). -/
def State.ringLamp (s : State) (n : Nat) : Lamp :=
  if s.ringState n = ringOff then .off
  else if s.ringState n = ringHalt then .red
  else if s.ringState n = ringRun then (if s.isWrapped n then .greenFlash else .green)
  else .amber

/-- What the register states give each indicator. -/
def State.lampsNow (s : State) : Lamps where
  pwr := s.pwrLamp
  run := s.runLamp
  force := lampIf (s.isSet SYS_STATUS SYS_STATUS_FORCED) .amber
  safe := s.safeLamp
  pair := s.pairLamp
  rings := allRings.map s.ringLamp
  stage := lampIf (s.fld BLW_STAGE BLW_STAGE_STAGE == 15) .redFlash
  di := (List.range 16).map fun i => lampIf (s.filtered i) .yellow
  dout := (List.range 8).map fun c => lampIf (s.doCmd c) .yellow
  ports := ([0, 1, 2, 3].map fun p => lampIf (s.isSet (BKB_STATUS p) BKB_STATUS_LINK) .green) ++
    [0, 1, 2, 3].map fun l => lampIf (bitAt (s.fld CPL_STATE CPL_STATE_LINKS) l) .green

/-- What the indicators show: during a Bellows restart each holds its last state. -/
def State.lamps (s : State) : Lamps := s.bellows.heldLamps.getD s.lampsNow

end Sys2Proof.Machine
end

