-- ==== Sys2Proof/Machine/Reset.lean ====
section
/-!
DEFINITION. Module resets (R441, R442, R451, R509): what survives, and the causes.
-/

namespace Sys2Proof.Machine

/-- A register of the always-on domain: blocks BLW, EVR, UPD and SEC (R438). -/
def alwaysOn (a : Nat) : Bool := decide (0x30 ≤ a / 0x10000) && decide (a / 0x10000 ≤ 0x33)

/-- Memory that keeps its content without power: MRAM and flash. -/
def keepsContent (a : Nat) : Bool := regionOf a == .mram || regionOf a == .flash

/-- What MRAM holds of a task: its ring of release counts (R158). -/
def Task.kept (k : Task) : Task := { Task.reset with relRing := k.relRing }

/-- What stays of the bridge: failure lists and fences (R317). -/
def Bridge.kept (b : Bridge) : Bridge :=
  { Bridge.reset with
    channels := b.channels.map fun c => { LapChannel.reset with failures := c.failures, full := c.full }
    streams := (b.streams.filter (·.fenced)).map fun x => { x with work := [], out := none, answer := 0 } }

/-- Every unit outside the always-on domain is held in reset (R442). MRAM, flash and the time keeper keep what they hold. -/
def State.unitsReset (s : State) : State :=
  { State.reset with
    pending := s.pending
    regs := s.regs.filter fun e => alwaysOn e.1
    mem := s.mem.filter fun e => keepsContent e.1
    ue := s.ue.filter fun e => keepsContent e.1
    modes := { State.reset.modes with forces := s.modes.forces, storedCfg := s.modes.storedCfg }
    change := { State.reset.change with flash := s.change.flash, convert := s.change.convert }
    time := { State.reset.time with clock := s.time.clock }
    recorder := s.recorder
    calib := s.calib
    tasks := s.tasks.map Task.kept
    bridge := s.bridge.kept
    bellows := s.bellows
    update := s.update
    outbox := s.outbox
    free := s.free }

/-- A component is in TRIAL. -/
def State.inTrial (s : State) (c : Nat) : Bool :=
  s.fld (UPD_COMP_STATE c) UPD_COMP_STATE_B0 == bkTrial || s.fld (UPD_COMP_STATE c) UPD_COMP_STATE_B1 == bkTrial

/-- The components. -/
def allComps : List Nat := [0, 1, 2, 3, 4]

/-- The staged start begins. -/
def State.stageZero (s : State) : State := s.setReg BLW_STAGE 0

/-- A module reset from a state whose units are already reset (R441, R509). -/
def State.startAfter (t : State) (cause prev : Nat) : State :=
  let t := (t.putFld SYS_RSTCAUSE SYS_RSTCAUSE_CAUSE cause).putFld SYS_RSTCAUSE SYS_RSTCAUSE_PREV prev
  let t := (((t.putFld BLW_WDTIME BLW_WDTIME_EN 0).stageZero).putFld BLW_STATUS BLW_STATUS_PFAIL 0).putFld BLW_CMD BLW_CMD_RESET 0
  let t := if cause = 1 ∨ cause = 2 then t.setReg BLW_PWRCYC (t.reg BLW_PWRCYC + 1) else t
  let due := t.update.fallbackDue || allComps.any t.inTrial
  { t with bellows := { t.bellows with deferred := none, second := false, cableBad := false },
           update := { t.update with fallbackDue := due, recovery := false } }

/-- A module reset acts. -/
def State.moduleResetNow (s : State) (cause : Nat) : State := s.unitsReset.startAfter cause (s.fld SYS_RSTCAUSE SYS_RSTCAUSE_CAUSE)

/-- A module reset is requested; while a power-fail warning is active some causes wait for the flush (R451, R478). -/
def State.moduleReset (s : State) (cause : Nat) : State :=
  if s.isSet BLW_STATUS BLW_STATUS_PFAIL && s.isSet EVR_STATUS EVR_STATUS_FLUSHING && decide (5 ≤ cause) then
    { s with bellows := { s.bellows with deferred := some (min cause (s.bellows.deferred.getD cause)) } }
  else s.moduleResetNow cause

/-- BLW_CMD.RESET: the bit reads 1 while the reset is deferred (R7, R43, R451). -/
def State.resetCommand (s : State) : State :=
  if s.isSet BLW_CMD BLW_CMD_RESET then s else (s.flag BLW_CMD BLW_CMD_RESET).moduleReset 6

/-- A deferred reset acts once the flush is over. -/
def State.resetDeferred (s : State) : State :=
  match s.bellows.deferred with
  | some c => s.moduleResetNow c
  | none => s

/-- MODULE_RESET (R442). No reset has cause 0 (R441). -/
def execModuleReset (cause : BitVec 3) (s : State) : Host.Outcome State Fault Refusal :=
  .next (s.when (cause != 0) fun t => t.moduleReset cause.toNat)

/-- Registers that flash, OTP or MRAM hold for the always-on domain. -/
def heldWithoutPower (a : Nat) : Bool :=
  [BLW_PWRCYC, BLW_ETOTL, BLW_ETOTH, EVR_WEAR, EVR_FIRSTL, EVR_FIRSTH, EVR_NEXTL, EVR_NEXTH, UPD_SIDING, SEC_SERIALL,
    SEC_SERIALH].contains a || (decide (UPD_COMP_STATE 0 ≤ a) && decide (a ≤ UPD_COMP_VER 4)) ||
    (decide (SEC_PKEY 0 ≤ a) && decide (a ≤ SEC_PKEY 3))

/-- The state that power-up finds: what needs no power. -/
def State.unpowered (s : State) : State :=
  let t := s.unitsReset
  { t with
    regs := t.regs.filter fun e => heldWithoutPower e.1
    time := State.reset.time
    recorder := { State.reset.recorder with log := s.recorder.log, retired := s.recorder.retired, erases := s.recorder.erases }
    bellows := { Bellows.reset with savedOptime := s.bellows.savedOptime }
    update := { s.update with waiting := none, writing := none, attest := none, trialNs := 0 } }

/-- POWER_UP (R441): the logic input is applied to an unpowered module. -/
def execPowerUp (s : State) : Host.Outcome State Fault Refusal :=
  let t := s.unpowered
  let t := (t.setReg BLW_OPTIMEL (BitVec.ofNat 32 t.bellows.savedOptime)).putFld BLW_OPTIMEH ⟨0, 8⟩ (t.bellows.savedOptime / 0x100000000)
  let t := (t.putFld UPD_SIDING UPD_SIDING_RESULT 0).putFld UPD_STATUS UPD_STATUS_TRIAL (bit (allComps.any t.inTrial))
  .next (t.startAfter 1 0)

end Sys2Proof.Machine
end

