-- ==== Sys2Proof/Machine/Recorder.lean ====
section
/-!
DEFINITION. The event recorder: token buckets, flush, flash log, reading and clearing (21_event_recorder.md).
-/

namespace Sys2Proof.Machine

/-- Change what the recorder holds. -/
def State.modRecorder (s : State) (g : Recorder → Recorder) : State := { s with recorder := g s.recorder }

/-- The SOURCE of the recorder. -/
def srcEvr : Nat := srcOf EVR_STATUS

/-- EVENT_RAISE (R465). -/
def execEventRaise (source : BitVec 8) (code : BitVec 16) (severity : BitVec 2) (safety : Bool) (params : List Word) (s : State) :
    Host.Outcome State Fault Refusal :=
  .next (s.raise { source := source.toNat, code := code.toNat, severity := severity.toNat, safety := safety,
                   params := (params.take 6).map BitVec.toNat })

/-- Every bucket is credited (R465); one that is full and has suppressed nothing is not listed. -/
def State.creditTokens (s : State) : State :=
  s.modRecorder fun r => { r with buckets := (r.buckets.map fun b =>
    { b with tokens := min (b.tokens + (s.rateOf b.source b.code).1) (1000 * (s.rateOf b.source b.code).2) }).filter fun b =>
      !(b.suppressed == 0 && b.tokens == 1000 * (s.rateOf b.source b.code).2) }

/-- TOKEN_CREDIT (R465). -/
def execTokenCredit (s : State) : Host.Outcome State Fault Refusal := .next (s.firmware State.creditTokens)

/-! ### Flash log (R468, R469) -/

/-- Blocks that hold records, and blocks erased ahead of the write point: 261 blocks, less those retired beyond the reserve. -/
def Recorder.blocksUsed (r : Recorder) : Nat := (r.log.length + 1023) / 1024
def Recorder.erasedAhead (r : Recorder) : Nat := 261 - (r.retired - 8) - r.blocksUsed

/-- A block is retired. -/
def State.retireBlock (s : State) (block : Nat) : State :=
  let s := (s.bump EVR_BADBLK).modRecorder fun r => { r with retired := r.retired + 1 }
  if 8 < s.recorder.retired then s.event srcEvr 0x0102 sevWarning [block] else s

/-- The oldest block is erased, or retired when that fails; its records are no longer readable. -/
def State.eraseBlock (s : State) (block : Nat) (ok : Bool) : State :=
  if 4 ≤ s.recorder.erasedAhead then s
  else if !ok then s.retireBlock block
  else
    let s := s.modRecorder fun r => { r with log := r.log.drop 1024, erases := r.erases + 1 }
    let oldest := match s.recorder.log ++ s.recorder.buffer with
      | r :: _ => r.seq
      | [] => s.evrNext
    let s := if s.evrFirst < oldest then s.setEvrFirst oldest else s
    let wear := max (s.fld EVR_WEAR EVR_WEAR_WEAR) ((s.recorder.erases + 260) / 261)
    let s' := s.putFld EVR_WEAR EVR_WEAR_WEAR wear
    if s.fld EVR_WEAR EVR_WEAR_WEAR < 90000 ∧ 90000 ≤ wear then
      (s'.flag EVR_STATUS EVR_STATUS_WEARW).evLimit srcEvr (EVR_WEAR % 65536) wear 90000
    else s'

/-- LOG_BLOCK_ERASE (R468). -/
def execLogBlockErase (block : Fin 269) (ok : Bool) (s : State) : Host.Outcome State Fault Refusal :=
  .next (s.firmware fun t => t.eraseBlock block.val ok)

/-! ### Clearing (R471) -/

/-- A clear acts: its record is the first readable one, and takes no token. -/
def State.clearLogNow (s : State) : State :=
  let old := (s.reg EVR_FIRSTL).toNat
  let s := (s.setEvrFirst s.evrNext).putFld EVR_CMD EVR_CMD_CLEAR 0
  let s := s.modRecorder fun r => { r with clearWaits := false }
  (s.storeRecord { source := srcEvr, code := 0x0101, severity := sevInfo, safety := false, params := [old] } 0).1

/-- A clear that waits acts once no flush runs and the buffer has room. -/
def State.clearIfReady (s : State) : State :=
  if s.recorder.clearWaits && !s.isSet EVR_STATUS EVR_STATUS_FLUSHING && decide (s.recorder.buffer.length < 4096) then s.clearLogNow
  else s

/-- EVR_CMD.CLEAR; one that waits goes on (R43). -/
def State.evrClear (s : State) : State :=
  if s.isSet EVR_CMD EVR_CMD_CLEAR then s
  else if s.eff = effProg ∧ s.keyAtProg then
    ((s.flag EVR_CMD EVR_CMD_CLEAR).modRecorder fun r => { r with clearWaits := true }).clearIfReady
  else s.evRefused srcEvr (EVR_CMD % 65536) 1

/-- EVR_CLEAR (R471). -/
def execEvrClear (s : State) : Host.Outcome State Fault Refusal := .next s.evrClear

/-! ### Flush (R467) -/

/-- A flush ends: every buffered record is in flash. -/
def State.flushDone (s : State) (failed : Nat) : State :=
  if !s.isSet EVR_STATUS EVR_STATUS_FLUSHING then s
  else
    let s := s.modRecorder fun r => { r with log := r.log ++ r.buffer, buffer := [] }
    let s := ((s.putFld EVR_BUFCNT EVR_BUFCNT_BUFCNT 0).putFld EVR_STATUS EVR_STATUS_FLUSHING 0).putFld EVR_CMD EVR_CMD_FLUSH 0
    ((s.forEach (List.range failed) fun k t => t.retireBlock (Config.paramCode 7 k).toNat).clearIfReady).resetDeferred

/-- FLUSH_COMPLETE (R467): `failed` blocks failed to program. -/
def execFlushComplete (failed : Nat) (s : State) : Host.Outcome State Fault Refusal := .next (s.firmware fun t => t.flushDone failed)

/-- EVR_CMD.FLUSH. -/
def State.evrFlush (s : State) : State := (s.flag EVR_CMD EVR_CMD_FLUSH).startFlush

/-- EVR_FLUSH (R467). -/
def execEvrFlush (s : State) : Host.Outcome State Fault Refusal := .next s.evrFlush

/-! ### Reading (R461, R470) -/

/-- The bytes of a record. -/
def EvRec.bytes (r : EvRec) : List Byte :=
  let body := leBytes 2 r.code ++ leBytes 1 r.source ++ leBytes 1 r.flags ++ leBytes 2 r.supp ++ leBytes 2 0 ++
    leBytes 8 (r.optime % 2 ^ 40) ++ leBytes 4 r.pwrcyc ++ ((List.range 6).flatMap fun i => leBytes 4 (r.params.getD i 0))
  body ++ leBytes 4 (crc32 body)

/-- A readable record by its sequence number. -/
def State.findRecord (s : State) (seq : Nat) : Option EvRec :=
  if seq < s.evrFirst then none else (s.recorder.log ++ s.recorder.buffer).find? fun r => r.seq == seq

/-- EVR_CMD.READ. A record whose CRC fails reads as free data. -/
def State.evrRead (s : State) (crcOk : Bool) : State :=
  let seq := s.regPair EVR_RDSEQL EVR_RDSEQH
  if s.evrNext ≤ seq then s.putFld EVR_RDSTAT EVR_RDSTAT_RES 1
  else match s.findRecord seq with
    | none => s.putFld EVR_RDSTAT EVR_RDSTAT_RES 2
    | some r =>
      let b := r.bytes
      let word (i : Nat) : Word :=
        if crcOk then BitVec.ofNat 32 (ofLe ((b.drop (4 * i)).take 4)) else (Config.lostWord (s.free + i)).setWidth 32
      let t := (s.forEach (List.range 12) fun i t => t.setReg (EVR_RDATA i) (word i)).putFld EVR_RDSTAT EVR_RDSTAT_RES (if crcOk then 0 else 3)
      if crcOk then t else { t with free := s.free + 12 }

/-- EVR_READ (R470). -/
def execEvrRead (crcOk : Bool) (s : State) : Host.Outcome State Fault Refusal := .next (s.evrRead crcOk)

end Sys2Proof.Machine
end

