-- ==== Sys2Proof/Machine/Update.lean ====
section
/-!
DEFINITION. Firmware update: images and their boot check, the siding, the boot, trial and fallback, recovery, keys and
attestation (22_update_identity.md). What SM2 decides is an operand or a free value.
-/

namespace Sys2Proof.Machine

/-! ### Flash layout (R474) -/

/-- Base address of the siding and of the MRAM save area. -/
def sidingBase : Nat := 0x8A000000
def saveBase : Nat := 0x8E000000

/-- Address and size of a bank. -/
def bankSize : Nat → Nat
  | 0 => 0x200000
  | 1 => 0x800000
  | 2 => 0x100000
  | 3 => 0x4000000
  | _ => 0x400000
def bankAddr (c b : Nat) : Nat :=
  (match c with
    | 0 => 0x80100000
    | 1 => 0x80800000
    | 2 => 0x80500000
    | 3 => 0x82000000
    | _ => 0x81800000) + b * bankSize c

/-! ### Image headers (R475) -/

/-- A header as bytes. -/
structure Header where
  bytes : List Byte

/-- A field of a header. -/
def Header.field (h : Header) (i n : Nat) : Nat := ofLe ((h.bytes.drop i).take n)
def Header.comp (h : Header) : Nat := h.field 4 1 - 1
def Header.version (h : Header) : Nat := h.field 8 4
def Header.length (h : Header) : Nat := h.field 20 4
/-- DIGEST. -/
def Header.digest (h : Header) : List Nat := (List.range 32).map fun i => h.field (24 + i) 1
/-- Lowest and highest version of component c that the image accepts. -/
def Header.rule (h : Header) (c : Nat) : Nat × Nat := (h.field (56 + 8 * c) 4, h.field (60 + 8 * c) 4)
/-- The format versions, and the lowest it can migrate from. -/
def Header.formats (h : Header) : List Nat := [h.field 96 2, h.field 98 2, h.field 100 2]
def Header.fmtMin (h : Header) : List Nat := [h.field 102 2, h.field 104 2, h.field 106 2]

/-- A header in the siding. -/
def State.sidingHeader (s : State) (off : Nat) : Header := ⟨s.bytes (sidingBase + off) 256⟩

/-- The header of a bank; what a module was shipped with is free. -/
def State.bankHeader (s : State) (c b : Nat) : Header :=
  if b = 0 ∧ s.update.shipped.contains c then ⟨(List.range 256).map (Config.shippedHeader c)⟩ else ⟨s.bytes (bankAddr c b) 256⟩

/-- State of a bank. -/
def State.bankState' (s : State) (c b : Nat) : Nat :=
  s.fld (UPD_COMP_STATE c) (if b = 0 then UPD_COMP_STATE_B0 else UPD_COMP_STATE_B1)

/-- The component has an active image. -/
def State.hasActive (s : State) (c : Nat) : Bool := [bkValid, bkTrial, bkConfirmed].contains (s.bankState' c (s.activeBank c))

/-- VERSION of an active image. -/
def State.activeVersion (s : State) (c : Nat) : Nat := (s.reg (UPD_COMP_VER c)).toNat

/-- A version lies within a rule. -/
def within (v : Nat) (r : Nat × Nat) : Bool := decide (r.1 ≤ v) && decide (v ≤ r.2)

/-- The compatibility rules (R480). `others` are the versions and headers of the other components. -/
def compatible (h : Header) (others : List (Nat × Nat × Header)) : Bool :=
  others.all fun (c, v, g) => within v (h.rule c) && within h.version (g.rule h.comp)

/-- The active components other than one. -/
def State.otherActive (s : State) (c : Nat) : List (Nat × Nat × Header) :=
  (allComps.filter fun d => d != c && s.hasActive d).map fun d => (d, s.activeVersion d, s.bankHeader d (s.activeBank d))

/-- Check 1 of R476. -/
def Header.wellFormed (h : Header) : Bool :=
  h.field 0 4 == 0x4B500960 && h.field 5 1 == 1 && decide (1 ≤ h.field 4 1) && decide (h.field 4 1 ≤ 5) &&
    decide (h.length ≤ bankSize h.comp) && decide (h.field 6 2 ≤ 1) && h.field 108 16 == 0 && h.field 192 64 == 0 &&
    h.rule h.comp == (0, 0) && (h.comp == 1 || h.field 96 12 == 0)

/-- The SM3 digest of bytes in memory. -/
def State.sm3At (s : State) (a n : Nat) : List Nat := sm3 ((s.bytes a n).map BitVec.toNat)

/-- Check 4 of R476: the key that KEYID names may sign the component. -/
def State.keyGood (s : State) (h : Header) : Bool :=
  let key := h.field 124 4
  if h.comp < 3 then key == 0 else decide (1 ≤ key) && decide (key ≤ 4) && s.fld (SEC_PKEY (key - 1)) SEC_PKEY_SLOT == 1

/-- The boot check (R476) of an image of the siding: the first check that fails, 0 for none. `sigOk`: SIG verifies. -/
def State.bootCheck (s : State) (off : Nat) (h : Header) (others : List (Nat × Nat × Header)) (sigOk : Bool) : Nat :=
  if !h.wellFormed then 1
  else if s.sm3At (sidingBase + off + 256) h.length ≠ h.digest then 2
  else if !sigOk then 3
  else if !s.keyGood h then 4
  else if h.field 16 4 ≠ s.fld SYS_COMPAT SYS_COMPAT_COMPAT then 5
  else if h.field 12 4 < s.fld (UPD_COMP_STATE h.comp) UPD_COMP_STATE_SECMIN then 6
  else if !compatible h others then 7
  else if h.comp = 1 ∧ (s.update.formats.zip h.fmtMin).any fun f => decide (f.1 < f.2) then 8
  else 0

/-! ### The siding (R477) -/

/-- Siding states. -/
def sdEmpty : Nat := 0
def sdLoaded : Nat := 1
def sdArmed : Nat := 2
def sdPending : Nat := 3
def sdFailed : Nat := 4
def sdDone : Nat := 5

/-- Fields of UPD_SIDING. -/
def State.siding (s : State) : Nat := s.fld UPD_SIDING UPD_SIDING_STATE
def State.setSiding (s : State) (v : Nat) : State := s.putFld UPD_SIDING UPD_SIDING_STATE v
def State.sidingNext (s : State) : Nat := s.fld UPD_SIDING UPD_SIDING_NEXT
def State.sidingCount (s : State) : Nat := s.fld UPD_SIDING UPD_SIDING_COUNT
/-- Offset of image n of the package, from the package index. -/
def State.imageOffset (s : State) (n : Nat) : Nat := ofLe (s.bytes (sidingBase + 4 + 4 * n) 4)

/-- Change what the update path holds. -/
def State.modUpdate (s : State) (g : Update → Update) : State := { s with update := g s.update }

/-- A command of the UPD block is refused. -/
def State.updRefused (s : State) (reason : Nat) : State := s.evRefused (srcOf UPD_CMD) (UPD_CMD % 65536) reason

/-- UPD_CMD.WRITE; a copy in progress goes on (R43). -/
def State.sidingWrite (s : State) : State :=
  let off := (s.reg UPD_OFF).toNat
  let len := (s.reg UPD_LEN).toNat
  if s.update.writing.isSome then s
  else if s.siding = sdPending ∨ len = 0 ∨ 0x4000000 < off + len then s.updRefused 1
  else
    let s := if s.siding = sdArmed then s.cancelUpd else s
    let s := ((s.setSiding sdLoaded).putFld UPD_SIDING UPD_SIDING_NEXT 0).putFld UPD_SIDING UPD_SIDING_RESULT 0
    (s.flag UPD_CMD UPD_CMD_WRITE).modUpdate fun u => { u with writing := some ((s.reg UPD_SRC).toNat * 256, off, len) }

/-- SIDING_WRITE (R477). -/
def execSidingWrite (s : State) : Host.Outcome State Fault Refusal := .next s.sidingWrite

/-- SIDING_WRITE_DONE (R477). -/
def execSidingWriteDone (ok : Bool) (s : State) : Host.Outcome State Fault Refusal :=
  .next (s.firmware fun s =>
    match s.update.writing with
    | none => s
    | some (src, off, len) =>
      let s := (s.putFld UPD_CMD UPD_CMD_WRITE 0).modUpdate fun u => { u with writing := none }
      if !ok then s.flag UPD_STATUS UPD_STATUS_WERR
      else
        let s := s.moveBytes src (sidingBase + off) len
        (s.putFld UPD_SIDING UPD_SIDING_COUNT (min 15 (ofLe (s.bytes sidingBase 4)))).flag UPD_STATUS UPD_STATUS_WDONE)

/-- UPD_CMD.DISCARD. -/
def State.updDiscard (s : State) : State :=
  if s.siding = sdPending then s.updRefused 2
  else (if s.siding = sdArmed then s.cancelUpd else s).setSiding sdEmpty

/-- UPD_DISCARD (R477). -/
def execUpdDiscard (s : State) : Host.Outcome State Fault Refusal := .next s.updDiscard

/-! ### Confirmation of R218 through UPD_CHAL and UPD_RESP -/

/-- A command waits for its confirmation. -/
def State.updChallenge (s : State) (w : UpdWait) (c : Word) : State :=
  (s.cancelUpd.setReg UPD_CHAL c).modUpdate fun u => { u with waiting := some w }

/-- Bits [31:0] of the SM3 digest of bytes, for a challenge. -/
def digestWord (l : List Byte) : Word := BitVec.ofNat 32 (digestLow (sm3 (l.map BitVec.toNat)))

/-- The second issue of a command confirms it: none when the command does not wait, else whether the response is right. -/
def State.updConfirmed (s : State) (w : UpdWait) : Option Bool :=
  if s.update.waiting = some w then some (s.reg UPD_RESP == s.reg UPD_CHAL && s.keyAtProg) else none

/-- No command waits any more. -/
def State.updAnswered (s : State) : State := s.modUpdate fun u => { u with waiting := none }

/-! ### APPLY (R478, R484) -/

/-- Headers of the images not yet applied. -/
def State.waitingHeaders (s : State) : List Header :=
  (List.range (s.sidingCount - s.sidingNext)).map fun i => s.sidingHeader (s.imageOffset (s.sidingNext + i))

/-- The conditions of R484: `granted` is the partner's answer. -/
def State.pairAllows (s : State) (granted : Bool) : Bool :=
  !s.cpl.member || (s.fld CPL_STATE CPL_STATE_PSTATE == 2 && granted &&
    s.waitingHeaders.all fun h => decide (h.comp < 3) && (h.comp != 1 || h.formats == s.update.formats))

/-- Why an APPLY is refused, as RESULT shows it: 0 when it is not. -/
def State.applyReason (s : State) (granted : Bool) : Nat :=
  if !s.keyAtProg then 12
  else if s.chg ≠ chgNone ∨ allComps.any s.inTrial then 11
  else if !s.pairAllows granted then 10
  else 0

/-- An APPLY is refused. -/
def State.refuseApply (s : State) (reason : Nat) : State := (s.putFld UPD_SIDING UPD_SIDING_RESULT reason).updRefused reason

/-- UPD_CMD.APPLY. A package that is not LOADED or ARMED is refused without a RESULT. -/
def State.apply (s : State) (now granted : Bool) : State :=
  let s := if s.cpl.member then { s.send (.cplRequest 3) with cpl := { s.cpl with asked := 3 } } else s
  if s.siding ≠ sdLoaded ∧ s.siding ≠ sdArmed then s.updRefused 3
  else
    let r := s.applyReason granted
    match s.updConfirmed .apply with
    | none =>
      if r ≠ 0 then s.refuseApply r
      else
        (s.updChallenge .apply (digestWord (s.bytes sidingBase 256 ++ s.waitingHeaders.flatMap Header.bytes))).setSiding sdArmed
    | some ok =>
      if r ≠ 0 ∨ !ok then (s.updAnswered.setSiding sdLoaded).refuseApply (if r ≠ 0 then r else 12)
      else
        let s := s.updAnswered.setSiding sdPending
        if now then s.moduleReset 7 else s

/-- APPLY (R478). -/
def execApply (now granted : Bool) (s : State) : Host.Outcome State Fault Refusal := .next (s.apply now granted)

/-! ### The boot (R479, R480, R482, R483) -/

/-- Show VERSION and TRIAL after a change of the directory. -/
def State.showDirectory (s : State) (c : Nat) : State :=
  (s.setReg (UPD_COMP_VER c) (BitVec.ofNat 32 (s.bankHeader c (s.activeBank c)).version)).putFld UPD_STATUS UPD_STATUS_TRIAL
    (bit (allComps.any s.inTrial))

/-- The flash-active program follows the active bank of the program. -/
def State.loadFlash (s : State) : State :=
  let b := s.activeBank 3
  s.setChange { s.change with flash := if h : b < 2 then s.update.programs[b] else Program.empty }

/-- Copy MRAM into the save area (R483). -/
def State.saveMram (s : State) : State :=
  (s.moveBytes 0x20000000 saveBase 0x3E0000).modUpdate fun u =>
    { u with saved := some { forces := s.modes.forces, storedCfg := s.modes.storedCfg, calib := s.calib, formats := s.update.formats } }

/-- Write the save back (R483). -/
def State.restoreMram (s : State) : State :=
  match s.update.saved with
  | none => s
  | some k =>
    let s := s.moveBytes saveBase 0x20000000 0x3E0000
    let s := { s with modes := { s.modes with forces := k.forces, storedCfg := k.storedCfg }, calib := k.calib,
                      update := { s.update with saved := none, formats := k.formats, journalTrial := false } }
    s.evState srcLoader 0 1 0

/-- Components in TRIAL fall back to their previous banks (R482). -/
def State.fallBack (s : State) (cs : List Nat) : State :=
  let cs := cs.filter s.inTrial
  if cs.isEmpty then s
  else
    let s := s.forEach cs fun c t =>
      let b := t.activeBank c
      (((t.setBankState c b bkFailed).putFld (UPD_COMP_STATE c) UPD_COMP_STATE_ACTIVE (1 - b)).showDirectory c).evState srcLoader
        (c + 1) bkTrial bkFailed
    ((s.restoreMram.flag UPD_STATUS UPD_STATUS_FALLBACK).setSiding sdFailed).loadFlash

/-- What an image of a program or configuration holds goes with its bank. -/
def State.fillBank (s : State) (c b : Nat) (p : Program) (k : ConfigData) : State :=
  if c = 3 then s.setProgram b p
  else if h : c = 4 ∧ b < 2 then s.modUpdate fun u => { u with configs := u.configs.set b k h.2 }
  else s

/-- An image that passed its check goes into the inactive bank, as TRIAL. The answer is false when the copy failed. -/
def State.installImage (s : State) (off : Nat) (copyOk : Bool) (p : Program) (k : ConfigData) : State × Bool :=
  let h := s.sidingHeader off
  let c := h.comp
  let old := s.activeBank c
  let new := 1 - old
  let s := s.setBankState c new bkEmpty
  if !copyOk then (s, false)
  else
    let s := (s.moveBytes (sidingBase + off) (bankAddr c new) (256 + h.length)).fillBank c new p k
    let s := s.modUpdate fun u => { u with shipped := if new = 0 then u.shipped.filter (· != c) else u.shipped, trialNs := 0 }
    let changes := c == 1 && h.formats != s.update.formats
    let s := if changes then s.saveMram else s
    let s := if c = 1 then s.modUpdate fun u =>
      { u with formats := h.formats, journalTrial := h.formats.headD 0 != u.formats.headD 0 } else s
    let s := if s.bankState' c old = bkEmpty then s else s.setBankState c old bkValid
    let s := ((s.setBankState c new bkTrial).putFld (UPD_COMP_STATE c) UPD_COMP_STATE_ACTIVE new).setReg UPD_TRIAL 0
    ((s.showDirectory c).loadFlash, true)

/-- A package fails at boot. -/
def State.rejectPackage (s : State) (result : Nat) : State :=
  (((s.setSiding sdFailed).putFld UPD_SIDING UPD_SIDING_RESULT result).flag UPD_STATUS UPD_STATUS_REJECT).evRefused srcLoader
    (s.sidingNext) result

/-- A PENDING package is processed. The answer tells whether Bellows restarts into a new bank. -/
def State.bootPackage (s : State) (f : StageFinding) : State × Bool :=
  if s.siding ≠ sdPending then (s, false)
  else
    let off := s.imageOffset s.sidingNext
    let h := s.sidingHeader off
    let r := s.bootCheck off h (s.otherActive h.comp) f.sigOk
    if r ≠ 0 then (s.rejectPackage r, false)
    else match s.installImage off f.copyOk f.program f.config with
      | (t, false) => (t.rejectPackage 9, false)
      | (t, true) =>
        let n := t.sidingNext + 1
        let t := (t.putFld UPD_SIDING UPD_SIDING_NEXT n).setSiding (if n = t.sidingCount then sdDone else sdLoaded)
        (t, h.comp == 0)

/-- A bank may be used: the directory names it VALID, TRIAL or CONFIRMED, and its header and digest verify (R479), under a key that is
still valid (R489). `verified` says that SIG verifies; of an image that the module was shipped with it says all. -/
def State.bankGood (s : State) (verified : BitVec 10) (c b : Nat) : Bool :=
  verified.getLsbD (2 * c + b) && [bkValid, bkTrial, bkConfirmed].contains (s.bankState' c b) &&
    ((b == 0 && s.update.shipped.contains c) ||
      (let h := s.bankHeader c b
       h.wellFormed && h.comp == c && s.keyGood h && s.sm3At (bankAddr c b + 256) h.length == h.digest))

/-- A component whose active bank does not verify uses its other bank, or none. -/
def State.chooseBank (s : State) (verified : BitVec 10) (c : Nat) : State :=
  let ok (b : Nat) : Bool := s.bankGood verified c b
  let b := s.activeBank c
  if ok b then s
  else if ok (1 - b) then
    ((s.putFld (UPD_COMP_STATE c) UPD_COMP_STATE_ACTIVE (1 - b)).showDirectory c).evState srcLoader (c + 1) b (1 - b)
  else if c = 3 then s.setProgram b Program.empty
  else if h : c = 4 ∧ b < 2 then s.modUpdate fun u => { u with configs := u.configs.set b ConfigData.empty h.2 }
  else s

/-- A component has no bank that verifies. -/
def State.noBank (s : State) (verified : BitVec 10) (c : Nat) : Bool :=
  [0, 1].all fun b => !s.bankGood verified c b

/-- The boot at b0: fallback, package, and the choice of banks. The answer tells whether the staged start goes on. -/
def State.boot (s : State) (f : StageFinding) : State × Bool :=
  let s := if s.update.fallbackDue then (s.fallBack allComps).modUpdate fun u => { u with fallbackDue := false } else s
  match s.bootPackage f with
  | (t, true) => (t, false)
  | (t, false) =>
    let t := (t.forEach allComps fun c u => u.chooseBank f.verified c).loadFlash
    if t.noBank f.verified 0 || t.noBank f.verified 1 then (t.modUpdate fun u => { u with recovery := true }, false)
    else (t, true)

/-! ### Trial and confirmation (R481, R487) -/

/-- Every TRIAL component is confirmed. -/
def State.confirmTrial (s : State) : State :=
  let cs := allComps.filter s.inTrial
  if cs.isEmpty then s
  else
    let s := s.forEach cs fun c t =>
      let b := t.activeBank c
      let h := t.bankHeader c b
      let t := (t.setBankState c b bkConfirmed).evState srcLoader (c + 1) bkTrial bkConfirmed
      if bitAt (h.field 6 2) 0 then
        t.putFld (UPD_COMP_STATE c) UPD_COMP_STATE_SECMIN (max (t.fld (UPD_COMP_STATE c) UPD_COMP_STATE_SECMIN) (min (h.field 12 4) 65535))
      else t
    let s := ((s.flag UPD_STATUS UPD_STATUS_CONFIRMED).putFld UPD_STATUS UPD_STATUS_TRIAL 0).setReg UPD_TRIAL 0
    s.modUpdate fun u => { u with saved := none, journalTrial := false, trialNs := 0 }

/-- TRIAL_CONFIRM (R481, R483): 600 s have accumulated. -/
def execTrialConfirm (s : State) : Host.Outcome State Fault Refusal :=
  .next (s.firmware fun s => if 600 ≤ s.fld UPD_TRIAL UPD_TRIAL_SECONDS ∧ !s.update.journalTrial then s.confirmTrial else s)

/-- UPD_CMD.CONFIRM. -/
def State.updConfirm (s : State) : State := if s.eff = effProg then s.confirmTrial else s.updRefused 4

/-- UPD_CONFIRM (R481). -/
def execUpdConfirm (s : State) : Host.Outcome State Fault Refusal := .next s.updConfirm

/-! ### Recovery mode (R485, R486) -/

/-- The serial number. -/
def State.serial (s : State) : Nat := s.regPair SEC_SERIALL SEC_SERIALH

/-- UPD_CMD.RECOVER. -/
def State.updRecover (s : State) : State :=
  match s.updConfirmed .recover with
  | none => if s.keyAtProg then s.updChallenge .recover (digestWord (leBytes 8 s.serial)) else s.updRefused 5
  | some false => s.updAnswered.updRefused 6
  | some true =>
    let cause := s.reg SYS_RSTCAUSE
    ((s.updAnswered.unitsReset.setReg SYS_RSTCAUSE cause).stageZero).modUpdate fun u => { u with recovery := true }

/-- UPD_RECOVER (R485). -/
def execUpdRecover (s : State) : Host.Outcome State Fault Refusal := .next s.updRecover

/-- RECOVERY_ANNOUNCE (R486). -/
def execRecoveryAnnounce (s : State) : Host.Outcome State Fault Refusal :=
  .next (if s.update.recovery then
    s.send (.recovery ([0x01, 0] ++ leBytes 8 s.serial ++ leBytes 4 (s.fld SYS_COMPAT SYS_COMPAT_COMPAT))) else s)

/-- RECOVERY_BLOCK (R486): a block that is not as the manual lays it out, or whose write fails, is answered with 1. -/
def execRecoveryBlock (offset : Nat) (data : List Byte) (ok : Bool) (s : State) : Host.Outcome State Fault Refusal :=
  .next (if !s.update.recovery then s
    else
      let good := ok && offset % 1024 == 0 && decide (offset + 1024 ≤ 0x4000000) && data.length == 1024
      (if good then s.writeRun (sidingBase + offset) data else s).send
        (.recovery ([0x03, 0] ++ leBytes 1 (bit (!good)) ++ leBytes 1 0 ++ leBytes 4 offset)))

/-- The other components of a recovery package: of the package, or active. -/
def State.recoveryOthers (s : State) (hs : List Header) (h : Header) : List (Nat × Nat × Header) :=
  let pkg := (hs.filter fun g => g.comp != h.comp).map fun g => (g.comp, g.version, g)
  pkg ++ (s.otherActive h.comp).filter fun o => !(hs.any fun g => g.comp == o.1)

/-- The first image of a recovery package that fails its check, with the result. -/
def State.recoveryCheck (s : State) (images : List RecoveryImage) : Option (Nat × Nat) :=
  let hs := (List.range images.length).map fun i => s.sidingHeader (s.imageOffset i)
  images.zipIdx.findSome? fun x =>
    let h := hs.getD x.2 ⟨[]⟩
    let r := s.bootCheck (s.imageOffset x.2) h (s.recoveryOthers hs h) x.1.sigOk
    if r ≠ 0 then some (x.2, r) else if x.1.copyOk then none else some (x.2, 9)

/-- RECOVERY_END (R485): the package is checked; if every image passes, the module reboots and installs them all as TRIAL.
The package is then DONE (DESIGN CHOICE, log entry 153). -/
def State.recoveryEnd (s : State) (images : List RecoveryImage) : State :=
  let answer (t : State) (result index : Nat) : State :=
    t.send (.recovery ([0x05, 0] ++ leBytes 1 result ++ leBytes 1 0 ++ leBytes 4 index))
  if images.isEmpty then answer s 1 0
  else match s.recoveryCheck images with
    | some (i, r) => answer s r i
    | none =>
      let s := (answer s 0 0).moduleResetNow 7
      let s := s.when s.update.fallbackDue fun t => t.fallBack allComps
      let s := s.forEach images.zipIdx fun x t => (t.installImage (t.imageOffset x.2) true x.1.program x.1.config).1
      let s := ((s.putFld UPD_SIDING UPD_SIDING_COUNT images.length).putFld UPD_SIDING UPD_SIDING_NEXT images.length).setSiding sdDone
      (s.flag UPD_STATUS UPD_STATUS_RECOVERED).modUpdate fun u => { u with fallbackDue := false, recovery := false }

/-- RECOVERY_END (R485): a package of more than 64 MB, or with a count that is not 1 to 5, is malformed. -/
def execRecoveryEnd (length : Nat) (images : List RecoveryImage) (s : State) : Host.Outcome State Fault Refusal :=
  .next (if !s.update.recovery then s
    else s.recoveryEnd (if length ≤ 0x4000000 ∧ images.length ≤ 5 ∧ ofLe (s.bytes sidingBase 4) = images.length then images else []))

/-! ### Keys and attestation (R489, R490) -/

/-- SEC_CMD refuses. -/
def State.secRefused (s : State) (reason : Nat) : State :=
  (s.flag SEC_STATUS SEC_STATUS_REFUSED).evRefused (srcOf SEC_CMD) (SEC_CMD % 65536) reason

/-- The words of SEC_KEY. -/
def State.secKey (s : State) : List Word := (List.range 16).map fun w => s.reg (SEC_KEY w)

/-- Digest of the key in a slot. -/
def State.keyDigestOf (s : State) (slot : Nat) : Word := if h : slot < 4 then s.update.keyDigests[slot] else 0

/-- SEC_CMD.ENROLL. -/
def State.enroll (s : State) (slot : Nat) : State :=
  let d := digestWord (s.secKey.flatMap fun w => leBytes 4 w.toNat)
  if s.fld (SEC_PKEY slot) SEC_PKEY_SLOT ≠ 0 then s.secRefused 1
  else match s.updConfirmed (.enroll slot) with
    | none => if s.keyAtProg then s.updChallenge (.enroll slot) d else s.secRefused 2
    | some ok =>
      let same := s.reg UPD_CHAL == d
      let s := s.updAnswered
      if !ok || !same then s.secRefused 3
      else
        let s := (s.putFld (SEC_PKEY slot) SEC_PKEY_SLOT 1).putFld (SEC_PKEY slot) SEC_PKEY_DIGEST (d.toNat % 65536)
        if h : slot < 4 then s.modUpdate fun u => { u with keyDigests := u.keyDigests.set slot d } else s

/-- SEC_CMD.REVOKE. -/
def State.revoke (s : State) (slot : Nat) : State :=
  if s.fld (SEC_PKEY slot) SEC_PKEY_SLOT ≠ 1 then s.secRefused 1
  else match s.updConfirmed (.revoke slot) with
    | none => if s.keyAtProg then s.updChallenge (.revoke slot) (s.keyDigestOf slot) else s.secRefused 2
    | some ok => if ok then s.updAnswered.putFld (SEC_PKEY slot) SEC_PKEY_SLOT 2 else s.updAnswered.secRefused 3

/-- ENROLL (R489). -/
def execEnroll (slot : Fin 4) (s : State) : Host.Outcome State Fault Refusal := .next (s.enroll slot.val)
/-- REVOKE (R489). -/
def execRevoke (slot : Fin 4) (s : State) : Host.Outcome State Fault Refusal := .next (s.revoke slot.val)

/-- SEC_CMD.ATTEST: the nonce is taken; a report in progress goes on (R43). -/
def State.attest (s : State) : State :=
  if s.isSet SEC_CMD SEC_CMD_ATTEST then s
  else (s.flag SEC_CMD SEC_CMD_ATTEST).modUpdate fun u => { u with attest := some ((List.range 8).map fun w => s.reg (SEC_NONCE w)) }

/-- ATTEST (R490). -/
def execAttest (s : State) : Host.Outcome State Fault Refusal := .next s.attest

/-- Byte i of the digest of the active bank's body: free for what a module was shipped with. -/
def State.bodyDigest (s : State) (c : Nat) : List Byte :=
  let b := s.activeBank c
  if b = 0 ∧ s.update.shipped.contains c then (List.range 32).map fun i => Config.sealByte s.free (32 * c + i)
  else (s.sm3At (bankAddr c b + 256) (s.bankHeader c b).length).map (BitVec.ofNat 8)

/-- The report (R490). The signature is free. -/
def State.report (s : State) (nonce : List Word) : List Byte :=
  leBytes 4 1 ++ leBytes 8 s.serial ++ leBytes 4 (s.fld SYS_COMPAT SYS_COMPAT_COMPAT) ++
    (nonce.flatMap fun w => leBytes 4 w.toNat) ++ leBytes 8 s.optime ++ leBytes 4 (s.reg BLW_PWRCYC).toNat ++
    (allComps.flatMap fun c => leBytes 4 (s.activeVersion c) ++ leBytes 1 (s.bankState' c (s.activeBank c)) ++ leBytes 3 0 ++
      s.bodyDigest c) ++
    leBytes 4 (s.chg + 16 * s.fld SYS_CHG SYS_CHG_BANK) ++ (List.range 64).map fun i => Config.sealByte s.free (160 + i)

/-- ATTEST_COMPLETE (R490). -/
def execAttestComplete (s : State) : Host.Outcome State Fault Refusal :=
  .next (s.firmware fun s =>
    match s.update.attest with
    | none => s
    | some nonce =>
      let r := s.report nonce
      let s := s.forEach (List.range 82) fun i t => t.setReg (SEC_RPT i) (BitVec.ofNat 32 (ofLe ((r.drop (4 * i)).take 4)))
      (((s.putFld SEC_CMD SEC_CMD_ATTEST 0).flag SEC_STATUS SEC_STATUS_RPTDONE).modUpdate fun u => { u with attest := none }).tickFree)

end Sys2Proof.Machine
end

