-- ==== Sys2Proof/Machine/Bellows.lean ====
section
/-!
DEFINITION. Bellows: the staged start, supplies, temperatures, watchdogs, hold-up, health and the console (20_bellows.md).
-/

namespace Sys2Proof.Machine

/-- The SOURCE of block BLW. -/
def srcBlw : Nat := srcOf BLW_STATUS

/-- BLW_STAGE.STAGE. -/
def State.startStage (s : State) : Nat := s.fld BLW_STAGE BLW_STAGE_STAGE
def State.setStage (s : State) (v : Nat) : State := s.putFld BLW_STAGE BLW_STAGE_STAGE v

/-- A step of the staged start fails: an event records it (R445). -/
def State.stageEvent (s : State) (unit : Nat) : State := s.evState srcBlw (BLW_STAGE % 65536) s.startStage unit

/-- The module is held until the next module reset (R445). -/
def State.stageHeld (s : State) : State := (s.stageEvent 15).setStage 15

/-! ### What is loaded before the lanes start (R204, R290, R447) -/

/-- The runtime takes a configuration: registers, the Signal Map Table, and bytes of memory. -/
def State.takeConfig (s : State) (k : ConfigData) : State :=
  let s := s.forEach k.smap fun (e : Nat × Word) t => t.loadSmap e.1 e.2
  let s := s.forEach (k.regs.filter fun (e : Nat × Word) => !alwaysOn e.1) fun (e : Nat × Word) t => t.loadReg e.1 e.2
  s.forEach k.bytes fun (e : Nat × Byte) t => t.writeByte e.1 e.2

/-- The loader takes the flash-active program into the active DRAM bank. One that a load check rejects is not taken into use: the
module has no program, and an event names the check (DESIGN CHOICE, log entry 133). -/
def State.takeFlash (s : State) : State :=
  let p := s.change.flash
  match s.programFails p with
  | some c => ({ s with program := Program.empty } : State).evRefused srcLoader 3 (Config.paramCode 8 c).toNat
  | none =>
    let s := ({ s with program := p } : State).writeProgram p s.progBank
    s.writeGroups p s.taskNumbers

/-- The runtime takes the flash-active program and the configuration in its active bank. -/
def State.loadBanks (s : State) : State :=
  let b := s.activeBank 4
  (s.takeConfig (if h : b < 2 then s.update.configs[b] else ConfigData.empty)).takeFlash

/-- User calibration of the time stamps. -/
def State.loadUlat (s : State) : State :=
  if s.calib.ulatOk then s.forEach (List.range 16) fun p t => t.setReg (TIME_ULAT p) (if h : p < 16 then t.calib.ulat[p] else 0)
  else
    ((s.forEach (List.range 16) fun p t => t.setReg (TIME_ULAT p) 0).flag TIME_STATUS TIME_STATUS_ULATBAD).evState srcTime
      (TIME_ULAT 0 % 65536) 0 1

/-- The settings of the pair act from this reset on; a member starts as STANDBY, ISOLATED, and its dual-homed rings only
listen (R385). -/
def State.loadPair (s : State) : State :=
  let s := s.setReg CPL_CFG s.calib.cpl
  let s := { s with cpl := { s.cpl with member := s.isSet CPL_CFG CPL_CFG_EN, cfg := s.calib.cpl } }
  s.forEach (allRings.filter s.dualHomed) fun n t => t.flag (SOP_CTRL n) SOP_CTRL_LISTENONLY

/-- The restart that follows a module reset (R202). -/
def State.restartAfterReset (s : State) : State :=
  let cold := s.isSet SYS_MODECFG SYS_MODECFG_AFTERRESET
  s.modModes fun m => { m with restart := some (if cold then .cold else .warm), restartBegun := false, restartDone := false, afterReset := true }

/-- A lane leaves reset, or is OUT (R446). -/
def State.releaseLane (s : State) (pass : BitVec 3) (l : Nat) : State :=
  if pass.getLsbD l then
    (s.setLaneState l lsAvailable).forEach (laneCores l) fun c t => t.modCore c fun k => { k with run := .running, pc := 0 }
  else s.setLaneState l lsOut

/-! ### Staged start (R443 to R447) -/

/-- What R444 asks before a step, and R442 after an over-temperature reset. -/
def State.stageAllowed (s : State) : Bool :=
  !s.bellows.restarting && !s.update.recovery && !s.isSet (BLW_RAIL 0) BLW_RAIL_OUT &&
    (s.fld SYS_RSTCAUSE SYS_RSTCAUSE_CAUSE != 4 || (List.range 8).all fun i => s.fld (BLW_TEMP i) BLW_TEMP_LEVEL == 0)

/-- The step at b0. The CRC of a stored calibration is checked as MRAM is read (R290, R372, R374). -/
def State.stageBegin (s : State) (f : StageFinding) : State :=
  let s := if s.fld SYS_RSTCAUSE SYS_RSTCAUSE_CAUSE = 2 ∧ !s.recorder.buffer.isEmpty then s.startFlush else s
  let s := { s with calib := { s.calib with ulatOk := s.calib.ulatOk && f.calib.getLsbD 0, diOk := s.calib.diOk && f.calib.getLsbD 1,
                                            loopOk := s.calib.loopOk && f.calib.getLsbD 2 } }
  match s.boot f with
  | (t, false) => t
  | (t, true) => if f.good.getLsbD 0 then t.setStage 1 else (t.flag BLW_STAGE BLW_STAGE_ROMFAIL).stageHeld

/-- The steps of rings, ports and links: the parts that fail stay off, each with an event. -/
def State.stageUnits (s : State) (field : Field) (n : Nat) (f : StageFinding) : State :=
  let s := s.putFld BLW_STAGE field f.good.toNat
  s.forEach ((List.range n).filter fun i => !f.good.getLsbD i) fun i t => t.stageEvent i

/-- The step of the field groups: bit 0 is the test of the DO switches. -/
def State.stageFields (s : State) (f : StageFinding) : State :=
  let s := if f.good.getLsbD 0 then
      let t := ({ s with dio := { s.dio with fg1 := true, startPending := true } } : State).loadDiCal
      (t.putFld DIO_STATUS DIO_STATUS_FG1OFF 0).flag BLW_STAGE BLW_STAGE_FG1ON
    else (s.flag DIO_STATUS DIO_STATUS_FG1OFF).stageEvent 0
  let s := ({ s with loop := { s.loop with fg2 := true } } : State).loadLoopCal
  ((s.putFld LOOP_STATUS LOOP_STATUS_FG2OFF 0).flag BLW_STAGE BLW_STAGE_FG2ON).setStage 10

/-- The step that STAGE names. -/
def State.stageStep (s : State) (f : StageFinding) : State :=
  match s.startStage with
  | 0 => s.stageBegin f
  | 1 => if f.good.getLsbD 0 then s.setStage 2 else (s.flag BLW_STAGE BLW_STAGE_DRAMFAIL).stageHeld
  | 2 => s.setStage 3
  | 3 => s.setStage 4
  | 4 => s.setStage 5
  | 5 => (s.stageUnits BLW_STAGE_RINGOK 6 f).setStage 6
  | 6 => (s.stageUnits BLW_STAGE_BKBOK 4 f).setStage 7
  | 7 => (s.stageUnits BLW_STAGE_CPLOK 4 f).setStage 8
  | 9 => s.stageFields f
  | _ => s

/-- STAGED_START_STEP (R443). -/
def execStagedStartStep (f : StageFinding) (s : State) : Host.Outcome State Fault Refusal :=
  .next (s.when s.stageAllowed fun t => t.stageStep f)

/-- LANE_RELEASE (R446): bit l of `pass` tells whether lane l passed its self-test. -/
def execLaneRelease (pass : BitVec 3) (s : State) : Host.Outcome State Fault Refusal :=
  if !s.stageAllowed || s.startStage ≠ 8 then .next s
  else
    let passing := allLanes.filter fun l => pass.getLsbD l
    let t := s.putFld BLW_STAGE BLW_STAGE_LANEPASS pass.toNat
    if passing.length < 2 then
      .next (t.forEach (allLanes.filter fun l => !pass.getLsbD l) fun l u => u.setLaneState l lsOut).stageHeld
    else
      let t := (((t.setReg SYS_MODECFG t.modes.storedCfg).loadBanks).loadPair).loadUlat
      let t := (t.putFld SYS_FORCES SYS_FORCES_NFORCE t.modes.forces.length).putFld SYS_MODE SYS_MODE_HOLD
        (bit (!t.modes.forces.isEmpty && !t.isSet SYS_MODECFG SYS_MODECFG_FORCE_BOOT))
      .next (((t.forEach allLanes fun l u => u.releaseLane pass l).restartAfterReset).setStage 9)

/-- STAGED_START_ABORT (R444): every unit but the always-on domain is powered down. -/
def execStagedStartAbort (s : State) : Host.Outcome State Fault Refusal :=
  .next (s.when (decide (s.startStage < 10)) fun s =>
    let cause := s.reg SYS_RSTCAUSE
    ((s.unitsReset.setReg SYS_RSTCAUSE cause).stageZero).stageEvent 0)

/-! ### Supplies (R448 to R451) -/

/-- POWER_FAIL_WARNING (R450): `joules` is the input energy since the last save. -/
def execPowerFailWarning (joules : Nat) (s : State) : Host.Outcome State Fault Refusal :=
  .next (s.when (!s.isSet BLW_STATUS BLW_STATUS_PFAIL) fun s =>
    let s := (((s.flag BLW_STATUS BLW_STATUS_PFAIL).flag BLW_STATUS BLW_STATUS_PFEVT).bump BLW_PFCNT).irq lineBlw
    let s := (s.event srcBlw 0x0101 sevWarning [0]).startFlush
    let e := s.regPair BLW_ETOTL BLW_ETOTH + joules
    let s := ((s.setReg BLW_ETOTL (BitVec.ofNat 32 e)).setReg BLW_ETOTH (BitVec.ofNat 32 (e / 0x100000000))).putFld BLW_CMD
      BLW_CMD_HOLDTEST 0
    { s with bellows := { s.bellows with savedOptime := s.optime } })

/-- POWER_FAIL_END (R450): the warning has lasted for `milliseconds`. -/
def execPowerFailEnd (milliseconds : Nat) (s : State) : Host.Outcome State Fault Refusal :=
  .next (s.when (s.isSet BLW_STATUS BLW_STATUS_PFAIL) fun t =>
    (t.putFld BLW_STATUS BLW_STATUS_PFAIL 0).evState srcBlw (BLW_STATUS % 65536) 1 milliseconds)

/-- HOLDUP_EXHAUSTED (R450). -/
def execHoldupExhausted (s : State) : Host.Outcome State Fault Refusal :=
  .next (s.when (s.isSet BLW_STATUS BLW_STATUS_PFAIL) fun t => t.moduleResetNow 2)

/-- The operating point of a lane: the highest of its cores' triads. -/
def State.lanePoint (s : State) (_lane : Nat) : Nat := (allTriads.map fun t => (s.triad t).point).foldl max 0

/-- A value lies within 5 % of a nominal one. -/
def withinFive (nominal mv : Nat) : Bool := decide (95 * nominal ≤ 100 * mv) && decide (100 * mv ≤ 105 * nominal)

/-- A rail lies inside its window, in mV. -/
def State.railGood (s : State) (r mv : Nat) : Bool :=
  match r with
  | 0 => decide (19200 ≤ mv) && decide (mv ≤ 30000)
  | 1 => decide (18000 ≤ mv)
  | 2 => decide (16000 ≤ mv)
  | 3 => decide (16000 ≤ mv)
  | 4 => withinFive 5000 mv
  | 5 => withinFive 3300 mv
  | 6 => withinFive 1800 mv
  | 7 => withinFive 1100 mv
  | 8 => withinFive 750 mv
  | _ => withinFive (match s.lanePoint (r - 9) with
    | 0 => 700
    | 1 => 800
    | _ => 900) mv

/-- RAIL_FAULT (R448): what three consecutive samples of a rail show. A rail back in its window only shows its value. While
Bellows restarts its registers hold, and the comparators act (R439). -/
def execRailFault (rail : Fin 12) (mv : BitVec 16) (s : State) : Host.Outcome State Fault Refusal :=
  let r := rail.val
  let good := s.railGood r mv.toNat
  let t := s.firmware fun s => (s.putFld (BLW_RAIL r) BLW_RAIL_MV mv.toNat).putFld (BLW_RAIL r) BLW_RAIL_OUT (bit (!good))
  .next (if good then t
    else if r = 0 then (if 30000 < mv.toNat then t.evLimit srcBlw (BLW_RAIL 0 % 65536) mv.toNat 30000 else t)
    else if r = 1 then (if t.isSet BLW_STATUS BLW_STATUS_PFAIL then t.moduleResetNow 2 else t)
    else if r < 4 then t
    else if r < 9 then (t.event srcBlw 0x0102 sevFault [r]).moduleResetNow 3
    else ((((t.flag BLW_STATUS BLW_STATUS_RAILF).bump BLW_RAILCNT).event srcBlw 0x0102 sevFault [r]).fence (r - 9) 3 0).settle)

/-! ### Temperatures (R452) -/

/-- Thresholds of a sensor in 0.1 °C: WARN, CAP, CRIT, and the second CAP threshold. -/
def tempLevels (i : Nat) : Int × Option Int × Option Int × Option Int :=
  if i < 4 then (1000, some 1100, some 1250, some 1150)
  else if i = 4 then (850, some 950, some 1050, none)
  else if i < 7 then (1050, none, some 1250, none)
  else (700, none, none, none)

/-- A threshold is reached, or is not yet left: it is left 5 °C below it. -/
def atThreshold (was : Bool) (t thr : Int) : Bool := decide (thr ≤ t) || (was && decide (thr - 50 < t))

/-- The level of a sensor, from its level before. -/
def tempLevel (i old : Nat) (t : Int) : Nat :=
  match tempLevels i with
  | (w, c, k, _) =>
    if k.elim false (atThreshold (decide (3 ≤ old)) t) then 3
    else if c.elim false (atThreshold (decide (2 ≤ old)) t) then 2
    else if atThreshold (decide (1 ≤ old)) t w then 1 else 0

/-- One sensor is read. -/
def State.sensor (s : State) (i : Nat) (raw : BitVec 12) : State :=
  let t := raw.toInt
  let old := s.fld (BLW_TEMP i) BLW_TEMP_LEVEL
  let new := tempLevel i old t
  let deep := (tempLevels i).2.2.2.elim false (atThreshold (s.bellows.deep.getLsbD i) t)
  let s := (s.putFld (BLW_TEMP i) BLW_TEMP_TEMP raw.toNat).putFld (BLW_TEMP i) BLW_TEMP_LEVEL new
  let s := { s with bellows := { s.bellows with
    deep := (s.bellows.deep &&& ~~~(BitVec.ofNat 8 (2 ^ i))) ||| BitVec.ofNat 8 (bit deep * 2 ^ i) } }
  if old < new then
    let s := s.event srcBlw 0x0103 sevWarning [i, new]
    let s := if old = 0 then s.flag BLW_STATUS BLW_STATUS_TWARN else s
    if 2 ≤ new ∧ old < new then s.bump BLW_THERMCNT else s
  else s

/-- BLW_OPCAP.THERM follows the sensors, and EFF both caps. -/
def State.refreshCap (s : State) : State :=
  let hot := (List.range 5).filter fun i => decide (2 ≤ s.fld (BLW_TEMP i) BLW_TEMP_LEVEL)
  let therm := if hot.isEmpty then 2 else if hot.any fun i => s.bellows.deep.getLsbD i then 0 else 1
  let s := s.putFld BLW_OPCAP BLW_OPCAP_THERM therm
  s.putFld BLW_OPCAP BLW_OPCAP_EFF (min (s.fld BLW_OPCAP BLW_OPCAP_USER) therm)

/-- TEMP_SAMPLE (R452). While Bellows restarts, only the comparators of CRIT act (R439). -/
def execTempSample (temps : Vector (BitVec 12) 8) (s : State) : Host.Outcome State Fault Refusal :=
  let crit := temps.toList.zipIdx.any fun x => (tempLevels x.2).2.2.1.elim false fun k => decide (k ≤ x.1.toInt)
  let t := s.firmware fun s => (s.forEach temps.toList.zipIdx fun x t => t.sensor x.2 x.1).refreshCap
  .next (t.when crit fun t => t.moduleResetNow 4)

/-! ### Watchdogs (R439, R440) -/

/-- A write of BLW_WDOG.KEY. -/
def State.watchdogKey (s : State) (key : Nat) : State :=
  if !s.isSet BLW_WDTIME BLW_WDTIME_EN then s
  else if key = (if s.bellows.second then 0x5A else 0xA5) then
    { s with bellows := { s.bellows with second := !s.bellows.second } }
  else s.moduleReset 5

/-- RUNTIME_WATCHDOG_KEY (R440). -/
def execRuntimeWatchdogKey (key : BitVec 8) (s : State) : Host.Outcome State Fault Refusal := .next (s.watchdogKey key.toNat)

/-- BLW_WDTIME.EN is set: the next expected value is 0xA5. -/
def State.watchdogEnable (s : State) : State :=
  if s.isSet BLW_WDTIME BLW_WDTIME_EN then s
  else { s.flag BLW_WDTIME BLW_WDTIME_EN with bellows := { s.bellows with second := false } }

/-- RUNTIME_WATCHDOG_ENABLE (R440). -/
def execRuntimeWatchdogEnable (s : State) : Host.Outcome State Fault Refusal := .next s.watchdogEnable

/-- RUNTIME_WATCHDOG_EXPIRY (R440). -/
def execRuntimeWatchdogExpiry (s : State) : Host.Outcome State Fault Refusal :=
  .next (s.when (s.isSet BLW_WDTIME BLW_WDTIME_EN) fun t => t.moduleReset 5)

/-- BELLOWS_WATCHDOG_EXPIRY (R439, R481, R482); the indicators hold their states (R503). -/
def execBellowsWatchdogExpiry (s : State) : Host.Outcome State Fault Refusal :=
  .next (s.firmware fun s =>
    let t := ((s.endpointReset 0x20).trialFault).fallBack [0]
    { t with bellows := { t.bellows with restarting := true, heldLamps := some s.lampsNow } })

/-- BELLOWS_RESTART_END (R439, R465): every bucket is full, and the events that waited arrive. -/
def execBellowsRestartEnd (s : State) : Host.Outcome State Fault Refusal :=
  .next (s.when s.bellows.restarting fun s =>
    let held := s.recorder.held
    let s := { s with bellows := { s.bellows with restarting := false, heldLamps := none } }
    let s := s.modRecorder fun r => { r with held := [], buckets := (r.buckets.map fun b =>
      { b with tokens := 1000 * (s.rateOf b.source b.code).2 }).filter fun b => b.suppressed != 0 }
    let s := ((s.flag BLW_STATUS BLW_STATUS_BRESTART).bump BLW_BRSTCNT).evState srcBellows (BLW_STATUS % 65536) 0 1
    s.forEach held fun e t => t.deliver e)

/-- BLW_RESET_COMMAND (R441). -/
def execBlwResetCommand (s : State) : Host.Outcome State Fault Refusal := .next s.resetCommand

/-! ### Hold-up, health and energy (R453, R456, R459) -/

/-- HOLDTEST (R453): a measurement ends, in units of 0.1 ms. A power-fail warning abandons it. -/
def execHoldtest (result : BitVec 16) (s : State) : Host.Outcome State Fault Refusal :=
  .next (s.firmware fun s =>
    let t := s.putFld BLW_CMD BLW_CMD_HOLDTEST 0
    if s.isSet BLW_STATUS BLW_STATUS_PFAIL then t
    else
      let t := (t.putFld BLW_HOLDUP BLW_HOLDUP_HTIME result.toNat).flag BLW_HOLDUP BLW_HOLDUP_VALID
      if result.toNat < 200 then (t.flag BLW_STATUS BLW_STATUS_HOLDLOW).evLimit srcBlw (BLW_HOLDUP % 65536) result.toNat 200 else t)

/-- The health word (R459). -/
def State.healthWord (s : State) (clocksDiffer : Bool) : Nat :=
  let b (i : Nat) (c : Bool) : Nat := bit c * 2 ^ i
  b 0 (s.isSet (BLW_RAIL 0) BLW_RAIL_OUT) + b 1 (s.isSet BLW_STATUS BLW_STATUS_PFAIL) + b 2 (s.isSet DIO_STATUS DIO_STATUS_FG1OFF) +
    b 3 (s.isSet LOOP_STATUS LOOP_STATUS_FG2OFF) + b 4 (s.isSet BLW_STATUS BLW_STATUS_RAILF) +
    b 5 ((List.range 8).any fun i => s.isSet (BLW_TEMP i) BLW_TEMP_LEVEL) + b 6 (decide (s.fld BLW_OPCAP BLW_OPCAP_THERM < 2)) +
    b 7 (s.isSet BLW_STATUS BLW_STATUS_HOLDLOW) + b 8 (allLanes.any fun l => s.laneState l == lsOut) + b 9 s.bellows.cableBad +
    b 10 (s.isSet TIME_STATUS TIME_STATUS_ULATBAD || s.isSet DIO_STATUS DIO_STATUS_UCALBAD || s.isSet LOOP_STATUS LOOP_STATUS_UCALBAD) +
    b 11 clocksDiffer + b 12 (s.isSet BLW_STATUS BLW_STATUS_INVCHG)

/-- HEALTH_FORM (R459): every 10 ms, in which operating time advances by one unit. -/
def execHealthForm (clocksDiffer : Bool) (s : State) : Host.Outcome State Fault Refusal :=
  .next (s.firmware fun s =>
    let n := (s.optime + 1) % 2 ^ 40
    let s := (s.setReg BLW_OPTIMEL (BitVec.ofNat 32 n)).putFld BLW_OPTIMEH BLW_OPTIMEH_OPTIMEH (n / 0x100000000)
    let s := if clocksDiffer then s.flag BLW_STATUS BLW_STATUS_CLKDIFF else s
    s.setReg BLW_HEALTH (BitVec.ofNat 32 (s.healthWord clocksDiffer)))

/-- ENERGY_TOTAL_SAVE (R456). -/
def execEnergyTotalSave (joules : Nat) (s : State) : Host.Outcome State Fault Refusal :=
  .next (s.firmware fun s =>
    let e := s.regPair BLW_ETOTL BLW_ETOTH + joules
    (s.setReg BLW_ETOTL (BitVec.ofNat 32 e)).setReg BLW_ETOTH (BitVec.ofNat 32 (e / 0x100000000)))

/-! ### Capability word and console (R454, R460) -/

/-- A register of the configuration that R386 code 5 compares: frame period and phase, consists, slot tables, task table. -/
def configReg (a : Nat) : Bool :=
  a == FRM_PERIOD || a == FRM_PHASE || (decide (FRM_TDEF 0 ≤ a) && decide (a < FRM_TDEF 0 + 0x400) && a % 16 != 12) ||
    (decide (0x10 ≤ a / 0x10000) && decide (a / 0x10000 ≤ 0x15) &&
      (a % 0x10000 == SOP_NSLOT 0 % 0x10000 || (decide (0x1000 ≤ a % 0x10000) && decide (a % 0x10000 < 0x2000)) ||
        (decide (0x4000 ≤ a % 0x10000) && decide (a % 0x10000 < 0x8000))))

/-- A byte of the I/O descriptor table. -/
def idtCell (c : Host.Cell) : Bool := decide (idtAddr 0 ≤ c.1) && decide (c.1 < idtAddr 32768)

/-- The items of the capability word. -/
def State.capItems (s : State) : CapItems :=
  { program := s.program, regs := s.regs.filter fun e => configReg e.1, smap := s.smap, idt := s.mem.filter idtCell,
    version := s.activeVersion 1, compat := s.fld SYS_COMPAT SYS_COMPAT_COMPAT, formats := s.update.formats }

/-- The digests that the module reports: of its active program, and of its configuration. -/
def State.ownProgramDigest (s : State) : List Byte := (List.range 32).map (Config.programDigest s.program)
def State.ownConfigDigest (s : State) : List Byte :=
  let c := s.capItems
  (List.range 32).map (Config.configDigest c.regs c.smap c.idt)

/-- The capability word as bytes. -/
def State.capBytes (s : State) : List Byte :=
  leBytes 4 (s.fld SYS_COMPAT SYS_COMPAT_COMPAT) ++ leBytes 1 (s.fld CPL_CFG CPL_CFG_ROLE) ++ leBytes 1 (s.fld CPL_CFG CPL_CFG_DHRINGS) ++
    leBytes 2 0 ++ leBytes 4 (s.activeVersion 1) ++ leBytes 4 Config.partnerLowest.toNat ++ leBytes 4 Config.partnerHighest.toNat ++
    s.ownProgramDigest ++ s.ownConfigDigest ++ (s.update.formats.flatMap fun f => leBytes 2 f) ++ leBytes 2 0

/-- A console request with the CRC-16 that arrived behind CMD, LEN and the data: one whose CRC fails is discarded, and a restarting
Bellows answers nothing. -/
def State.consoleRequest (s : State) (cmd : Nat) (data : List Byte) (crc : BitVec 16) (f : State → State) : State :=
  if crc.toNat = crc16 (leBytes 1 cmd ++ leBytes 1 data.length ++ data) then s.firmware f else s

/-- Data of an EVENTS request: 8 bytes of start index and 2 of count, low byte first (DESIGN CHOICE, log entry 152). -/
def eventsData (start count : Nat) : List Byte := leBytes 8 start ++ leBytes 2 count

/-- CONSOLE_HEALTH (R460). -/
def execConsoleHealth (crc : BitVec 16) (s : State) : Host.Outcome State Fault Refusal :=
  .next (s.consoleRequest 1 [] crc fun s => s.send (.console 1 (leBytes 4 (s.reg BLW_HEALTH).toNat ++
    ((List.range 12).flatMap fun r => leBytes 4 (s.reg (BLW_RAIL r)).toNat) ++
    ((List.range 8).flatMap fun i => leBytes 4 (s.reg (BLW_TEMP i)).toNat))))

/-- CONSOLE_IDENT (R460). -/
def execConsoleIdent (crc : BitVec 16) (s : State) : Host.Outcome State Fault Refusal :=
  .next (s.consoleRequest 2 [] crc fun s =>
    s.send (.console 2 (s.capBytes ++ leBytes 8 s.serial ++ leBytes 4 (s.reg SYS_RSTCAUSE).toNat)))

/-- CONSOLE_EVENTS (R460, R470): readable records from a sequence number up. -/
def execConsoleEvents (crc : BitVec 16) (start count : Nat) (s : State) : Host.Outcome State Fault Refusal :=
  .next (s.consoleRequest 3 (eventsData start count) crc fun s =>
    s.send (.console 3 (((s.recorder.log ++ s.recorder.buffer).filter fun r =>
      decide (max start s.evrFirst ≤ r.seq) && decide (r.seq < start + count)).flatMap EvRec.bytes)))

/-- CONSOLE_RESET (R460). -/
def execConsoleReset (crc : BitVec 16) (s : State) : Host.Outcome State Fault Refusal :=
  .next (s.consoleRequest 4 [] crc fun s =>
    if s.keyPos = keyProg ∨ s.keyPos = keyStop then (s.send (.console 4 [])).moduleReset 6
    else s.evRefused srcBellows 4 1)

end Sys2Proof.Machine
end

