-- ==== Sys2Proof/Machine/Restart.lean ====
section
/-!
DEFINITION. The restart of the program (R202 to R207).
-/

namespace Sys2Proof.Machine

/-- Carried cycles are closed, and the published cells of every task take the substitutes (step 1 of R204, R214). -/
def State.stopOutputs (s : State) : State :=
  let s := s.forEach (s.tasksWith fun _ c => c.carried) fun n t => t.closeCycle n
  s.forEach s.taskNumbers fun n t => t.substitute n

/-- Step 1 of R204: at the first tick after the command. A pending online change is cancelled (R225), and every core's
mailbox endpoint is reset (R430). -/
def State.restartBegin (s : State) : State :=
  let s := (s.stopOutputs.coresReset 0xFFF).cancelPending 4
  (if s.fld SYS_MODE SYS_MODE_HOLD = 1 then s else s.putFld SYS_MODE SYS_MODE_HOLD 2).modModes fun m => { m with restartBegun := true }

/-- Step 2: both Anvils and the LANE block lose their fault flags. -/
def State.clearFaults (s : State) : State :=
  let clear (t : State) (a : Nat) (fs : List Field) : State := t.forEach fs fun f u => u.putFld a f 0
  let s := s.putFld LANE_STATUS LANE_STATUS_SAFEFAIL 0
  let s := clear s ANX_STATUS [ANX_STATUS_CMPFAULT, ANX_STATUS_TIMEFAIL, ANX_STATUS_STRIKEFAIL, ANX_STATUS_XYDIS]
  clear s ANY_STATUS [ANY_STATUS_CMPFAULT, ANY_STATUS_TIMEFAIL, ANY_STATUS_STRIKEFAIL, ANY_STATUS_XYDIS]

/-- Lanes in REJOIN return to service at once when no lane is AVAILABLE: there is none from which their state could be copied, and
the restart that goes on reconciles or initialises what they hold (DESIGN CHOICE, log entry 130). -/
def State.reviveLanes (s : State) : State :=
  if allLanes.any fun l => s.laneState l == lsAvailable then s
  else s.forEach (allLanes.filter fun l => s.laneState l == lsRejoin) fun l t =>
    (t.setLaneState l lsAvailable).modLane l fun k =>
      { k with toCopy := [], copiedNow := [], rejoined := [], copying := none, freeOffered := true }

/-- The odd lane of a triad that the program names TRIAD while lanes are not AVAILABLE: an OUT lane before one that can rejoin. -/
def State.oddOf (s : State) (down : List Nat) : Nat := (down.find? fun l => s.laneState l == lsOut).getD (down.headD 0)

/-- Step 3 for one triad: the mode that the program names, or PAIR with a lane that is not AVAILABLE odd. Every lane in REJOIN that
the program names as a voter is to be copied into the triad. -/
def State.nameMode (s : State) (t : Nat) : State :=
  let named := s.program.modes.getD t (modeTriad, 0)
  let down := allLanes.filter fun l => s.laneState l != lsAvailable
  let s := ((s.putFld (LANE_MODE t) LANE_MODE_GO 0).setTriadState t 0).modTriad t fun k =>
    { k with request := none, joining := none, joinCopied := false, joinRuns := false, lost := none, epochDue := false }
  let s := s.forEach allLanes fun l u => u.modLane l fun k => { k with toCopy := k.toCopy.filter (· != t), rejoined := k.rejoined.filter (· != t) }
  if (s.triad t).abandoned then s.setTriad t modePair (s.triadOdd t)
  else
    let s := if named.1 = modeTriad ∧ !down.isEmpty then s.setTriad t modePair (s.oddOf down) else s.setTriad t named.1 named.2
    s.forEach ((namedVoters named.1 named.2).filter fun l => s.laneState l == lsRejoin) fun l u =>
      u.modLane l fun k => { k with toCopy := k.toCopy ++ [t] }

/-- Step 3 (R204). -/
def State.namedModes (s : State) : State := s.reviveLanes.forEach allTriads fun t u => u.nameMode t

/-- The lanes of the placement that a task's group names which vote there and are AVAILABLE (R205). -/
def State.votingLanes (s : State) (n : Nat) : List Nat :=
  (s.placeLanes (s.fld (FRM_TCFG n) FRM_TCFG_PLACE)).filter fun l => s.laneState l == lsAvailable

/-- The lanes of that placement that are in service, or may run free cores (R190). -/
def State.groupLanes (s : State) (n : Nat) : List Nat :=
  (s.placeLanes (s.fld (FRM_TCFG n) FRM_TCFG_PLACE)).filter fun l => s.laneState l == lsAvailable || s.laneState l == lsRejoin

/-- Initial values of a task's variables, retained or not, in every lane of its placement. -/
def State.initVariables (s : State) (n : Nat) (retained : Bool) : State :=
  match s.taskProg n with
  | none => s
  | some p =>
    s.forEach (s.groupLanes n) fun l t =>
      let base := if retained then laneMram l else laneDram l
      let t := t.forEach (p.init.filter fun i => i.1 == retained) fun i u => u.writeRun (base + i.2.1) [i.2.2]
      if retained then t.writeRun (laneMram l + p.layoutAt) (leBytes 4 p.layoutId) else t

/-- The words that the lanes hold at an offset of MRAM, with their lanes; an unreadable word is none. -/
def State.laneWords (s : State) (lanes : List Nat) (off : Nat) : List (Nat × Option DWord) :=
  lanes.map fun l => (l, if s.hasUe (laneMram l + off) then none else some (s.readWord (laneMram l + off)))

/-- A value that two of the words agree on. -/
def agreed (ws : List (Nat × Option DWord)) : Option DWord :=
  ws.findSome? fun a => ws.findSome? fun b => if a.1 < b.1 ∧ a.2 = b.2 then a.2 else none

/-- Reconcile one word over the lanes (R205). The answer is false when no majority, or no equality of a pair, is found; a single
lane has nothing to compare. -/
def State.reconcileWord (s : State) (n : Nat) (lanes : List Nat) (off : Nat) : State × Bool :=
  let ws := s.laneWords lanes off
  if lanes.length < 2 then (s, true)
  else match agreed ws with
  | none => (s, false)
  | some v =>
    let odd := (ws.filter fun w => w.2 != some v).map (·.1)
    if odd.isEmpty then (s, true)
    else if lanes.length < 3 then (s, false)
    else (s.forEach odd fun l t =>
      (((t.writeWord (laneMram l + off) v).healUe (laneMram l + off))).evState srcRuntime n 3 l, true)

/-- Reconcile words one after another. -/
def State.reconcileWords (s : State) (n : Nat) (lanes : List Nat) : List Nat → State × Bool
  | [] => (s, true)
  | o :: os =>
    match s.reconcileWord n lanes o with
    | (t, true) => t.reconcileWords n lanes os
    | (t, false) => (t, false)

/-- Offsets of the 64-bit words of ranges. -/
def wordOffsets (rs : List (Nat × Nat)) : List Nat :=
  rs.flatMap fun (o, n) => (List.range ((o + n + 7) / 8 - o / 8)).map fun i => o / 8 * 8 + 8 * i

/-- The layout identifier that a task's retained area carries in a lane. -/
def State.layoutIn (s : State) (tp : TaskProg) (l : Nat) : Nat := s.readLe (laneMram l + tp.layoutAt) 4

/-- Retained data of one task at a warm restart (R205): false when the task is to be cold-started. -/
def State.reconcileTask (s : State) (n : Nat) : State × Bool :=
  match s.taskProg n with
  | none => (s, true)
  | some p =>
    let lanes := if placeVoted (s.fld (FRM_TCFG n) FRM_TCFG_PLACE) then s.votingLanes n else s.groupLanes n
    if !lanes.all fun l => s.layoutIn p l == p.layoutId % 0x100000000 then (s, false)
    else if placeVoted (s.fld (FRM_TCFG n) FRM_TCFG_PLACE) then s.reconcileWords n lanes (wordOffsets p.retained)
    else (s, true)

/-- Reconcile every task; the tasks that failed are named in events and take their initial values. -/
def State.reconcileTasks (s : State) : List Nat → State × List Nat
  | [] => (s, [])
  | n :: ns =>
    match s.reconcileTask n with
    | (t, ok) =>
      match (if ok then t else (t.initVariables n true).evState srcRuntime n 1 0).reconcileTasks ns with
      | (u, bad) => (u, if ok then bad else n :: bad)

/-- One task's retained data in a lane, which carries the layout of another program, is converted with the table to the layout of
the active one. -/
def State.convertTask (s : State) (old : Program) (table : List Migration) (n : Nat) (was now : TaskProg) (l : Nat) : State :=
  if was.layoutId = now.layoutId ∨ s.layoutIn was l ≠ was.layoutId % 0x100000000 then s
  else
    let s := s.forEach (table.filter fun m => m.task == n && m.space == 1) fun m t => t.migrateEntry old t.program l m
    s.writeRun (laneMram l + now.layoutAt) (leBytes 4 now.layoutId)

/-- After a module reset, retained data that carries the new layout identifier of a program that was not committed is converted
with the reverse table (R226). -/
def State.convertRetained (s : State) : State :=
  match s.change.convert with
  | none => s
  | some (old, table) =>
    if !s.modes.afterReset then s
    else
      let s := s.forEach s.taskNumbers fun n t =>
        match old.task n, t.taskProg n with
        | some was, some now => t.forEach (t.groupLanes n) fun l u => u.convertTask old table n was now l
        | _, _ => t
      s.setChange { s.change with convert := none }

/-- What a cold restart does to forces and release counts (R202). -/
def State.coldStart (s : State) : State :=
  let s := s.keepForces []
  s.forEach s.taskNumbers fun n t => (t.initVariables n true).modTask n fun k => { k with relRing := Vector.replicate 8 0 }

/-- Step 4 (R204, R205): the kind that the restart turns out to be. -/
def State.restartVariables (s : State) (kind : RestartKind) : State :=
  let s := s.forEach s.taskNumbers fun n t => t.initVariables n false
  if kind = .warm then
    match s.convertRetained.reconcileTasks s.taskNumbers with
    | (t, bad) => if !t.taskNumbers.isEmpty ∧ bad.length = t.taskNumbers.length then t.coldStart else t
  else s.coldStart

/-- Step 6: replay, or the purge. -/
def State.restartJournal (s : State) (kind : RestartKind) : State :=
  ((if kind = .purge then s.purgeJournal else s.replay).requeueRemote).forEach (List.range 16) fun ch t => t.showFailures ch

/-- Step 7: the tick generator starts after a module reset, or with a new period and phase. -/
def State.restartTicks (s : State) : State :=
  if s.isSet FRM_STATUS FRM_STATUS_PPEND then s.frmStop.frmStart else s.frmStart

/-- The program's tables are built and its bytes stand in the active bank, as the loader leaves them (R134, R135). -/
def State.loadTables (s : State) : State := s.forEach s.taskNumbers fun n t => t.loadTask n

/-- Steps 2 to 7 of a restart (R204). After a module reset the loader first builds the tables. -/
def State.restartSteps (s : State) (kind : RestartKind) : State :=
  let s := s.when s.modes.afterReset State.loadTables
  let s := s.clearFaults.namedModes.restartVariables kind
  let s := s.forEach s.taskNumbers fun n t => (t.startTask n).modTask n fun k => { k with awaitsChecks := t.isSafe n }
  let s := { s with anvils := { s.anvils with checked := false, named := none } }
  let s := s.restartJournal kind
  let s := ((s.restartGuards.clearOutputs 0xFF).clearLoops 0xF).restartTicks
  let s := s.forEach allTriads fun t u => u.modTriad t fun k => { k with high := max 16 k.high, busiest := [] }
  s.modModes fun m => { m with restartDone := true }

/-- A lane is FENCED or has its quench test running: it completes the test before step 3 (R204). -/
def State.lanesTesting (s : State) : Bool := allLanes.any fun l => s.laneState l == lsFenced || s.laneState l == lsQuench

/-- PROGRAM_RESTART (R204): steps 2 to 7, and step 1 when no tick has done it since a module reset; it waits while a quench test is
due. A standby does not restart its program (R385). -/
def execProgramRestart (s : State) : Host.Outcome State Fault Refusal :=
  .next (match s.modes.restart with
    | none => s
    | some kind =>
      if s.standby || s.lanesTesting || s.modes.restartDone || !(s.modes.restartBegun || s.modes.afterReset) ||
          decide (s.fld BLW_STAGE BLW_STAGE_STAGE < 9) then s
      else (if s.modes.restartBegun then s else s.restartBegin).restartSteps kind)

end Sys2Proof.Machine
end

