-- ==== Sys2Proof/Machine/Coupler.lean ====
section
/-!
DEFINITION. Redundant pairs: links, the frame-end state copy, readiness, fail-over and hand-back (17_redundant_pair.md).
Frames are named by bits [31:0] of their counts, as the packets carry them.
-/

namespace Sys2Proof.Machine

/-- The SOURCE of block CPL. -/
def srcCpl : Nat := srcOf CPL_STATUS

/-- Pair states (R384). -/
def psActive : Nat := 0
def psSyncing : Nat := 1
def psReady : Nat := 2
def psIsolated : Nat := 3

/-- CPL_STATE.PSTATE and its setting, PARTNER and PEPOCH. -/
def State.pstate (s : State) : Nat := s.fld CPL_STATE CPL_STATE_PSTATE
def State.partner (s : State) : Nat := s.fld CPL_STATE CPL_STATE_PARTNER
def State.pairEpoch (s : State) : Nat := s.fld CPL_STATE CPL_STATE_PEPOCH
def State.modCpl (s : State) (g : Cpl → Cpl) : State := { s with cpl := g s.cpl }

/-- Events of the block (R472): takeover, pairing refused, link down, record late. -/
def State.evTakeover (s : State) : State := s.event srcCpl 0x0101 sevFault []
def State.evPairRefused (s : State) (code : Nat) : State := s.event srcCpl 0x0102 sevWarning [CPL_STATE % 65536, code]
def State.evLinkDown (s : State) (link : Nat) : State := s.event srcCpl 0x0103 sevWarning [link]
def State.evRecordLate (s : State) (frame : Nat) : State := s.event srcCpl 0x0104 sevWarning [frame % 0x100000000]

/-- The pair state changes; any departure from READY resets the soak (R407). -/
def State.setPstate (s : State) (v : Nat) : State :=
  let old := s.pstate
  if old = v then s
  else (((s.putFld CPL_STATE CPL_STATE_PSTATE v).modCpl fun k => { k with soak := 0 }).evState srcCpl (CPL_STATE % 65536) old v).irq lineCpl

/-- Whether an action is for a member of a pair. -/
def State.inPair (s : State) (f : State → State) : State := if s.cpl.member then f s else s

/-- The links that are up. -/
def State.upLinks (s : State) : List Nat := [0, 1, 2, 3].filter fun l => bitAt (s.fld CPL_STATE CPL_STATE_LINKS) l

/-- The links on which packets may be sent now. -/
def State.usableLinks (s : State) : List Nat := s.upLinks.filter fun l => !s.cpl.paused.getLsbD l

/-- Send the packets that wait, over every usable link in turn (R389). -/
def State.pump (s : State) : State :=
  let ls := s.usableLinks
  if ls.isEmpty then s
  else
    let ps := s.cpl.unsent.zipIdx.map fun x => (ls.getD (x.2 % ls.length) 0, x.1)
    (s.modCpl fun k => { k with unsent := [], sent := k.sent ++ ps }).forEach ps fun p t => t.send (.cplData p.1 t.pairEpoch p.2)

/-! ### What a record carries (R388) -/

/-- An item of the record, with the memory that it is read from through the coupler's context (R138): address, length, and the item
that the bytes make. -/
structure ItemRead where
  addr : Nat
  length : Nat
  make : List Byte → PairItem

/-- An item that reads no memory. -/
def fixedItem (i : PairItem) : ItemRead := { addr := 0, length := 0, make := fun _ => i }
def fixedItems (l : List PairItem) : List ItemRead := l.map fixedItem

/-- The bytes of an item as the coupler's context shows them; none where it does not permit the read. -/
def State.itemBytes (s : State) (x : ItemRead) : Option (List Byte) :=
  match (s.unitAddr couplerCtx .load x.addr).2 with
  | some pa => some (s.bytes pa x.length)
  | none => none

/-- The items that reads make; one that the context does not permit is not sent. -/
def State.itemsOf (s : State) (l : List ItemRead) : List PairItem :=
  l.filterMap fun x => if x.length = 0 then some (x.make []) else (s.itemBytes x).map x.make

/-- The translations of reads. -/
def State.itemsSeen (s : State) (l : List ItemRead) : State :=
  s.forEach (l.filter fun x => x.length != 0) fun x t => (t.unitAddr couplerCtx .load x.addr).1

/-- A run of memory cut into pieces that a packet can carry and that do not cross a page: offset and length. -/
def pieces : Nat → Nat → Nat → Nat → List (Nat × Nat)
  | 0, _, _, _ => []
  | k + 1, addr, off, len =>
    let n := min len (min 4032 (4096 - (addr + off) % 4096))
    if len = 0 then [] else (off, n) :: pieces k addr (off + n) (len - n)

/-- The voted copy of a task. -/
def State.votedItems (s : State) (n : Nat) : List ItemRead :=
  match s.taskProg n with
  | none => []
  | some p =>
    let len := (s.outSlices n).foldl (fun a x => a + x.bytes) 0
    (pieces (len / 2016 + 2) p.votedCopy 0 len).map fun x => { addr := p.votedCopy + x.1, length := x.2, make := .voted n x.1 }

/-- The lane a task's variables are read from: the lowest whose record equalled the published one, or the lowest of its
placement. -/
def State.sourceLane (s : State) (n : Nat) : Nat :=
  let decided := (s.task n).vote.elim [] (·.decided)
  match decided with
  | l :: ls => ls.foldl min l
  | [] => (s.placeLanes (s.task n).place).headD 0

/-- A line of lane data or retained variables. -/
def State.lineItem (s : State) (n : Nat) (retained : Bool) (off : Nat) : ItemRead :=
  let l := s.sourceLane n
  { addr := (if retained then laneMram l else laneDram l) + off, length := 64, make := .line retained off }

/-- State of a task. -/
def State.taskItem (s : State) (n : Nat) : PairItem :=
  let k := s.task n
  .task n { release := k.lastRelease, netTime := k.prevFtime, stopped := s.isSet (FRM_TSTAT n) FRM_TSTAT_STOPPED, overran := k.prevOvr, flagged := s.isSet (FRM_TSTAT n) FRM_TSTAT_OVR,
            opened := s.openEpoch n, closed := s.closedEpoch n, place := k.place, placed := k.placed }

/-- Failure list and fences of a channel. With them go its outstanding fetches, whose answers may reach the other module after a
takeover (R315; DESIGN CHOICE, log entry 129). -/
def State.bridgeItem (s : State) (ch : Nat) : PairItem :=
  let mine := s.bridge.streams.filter fun x => x.channel == ch
  .bridge ch (s.lap ch).failures (s.lap ch).full ((mine.filter (·.fenced)).map fun x => (x.ring, x.station))
    (mine.filterMap fun x => match x.out, x.work with
      | some (q, _, _), .read a n :: _ =>
        some { ring := x.ring, station := x.station, addr := a, count := n, seq := q,
               sideEffect := (s.lap ch).fetches.any fun f => f.ring == x.ring && f.station == x.station && f.addr == a && f.sideEffect }
      | _, _ => none)

/-- Registers of a mailbox channel. -/
def mailboxRegs (c : Nat) : List Nat :=
  [MBX_BIND c, MBX_CH_HDR c, MBX_CH_STAT c, MBX_HSEQ c, MBX_CH_ACK c] ++ (List.range 12).map fun i => MBX_CH_D0 c + 4 * i

/-- Storage of a mailbox channel. -/
def State.mailboxItem (s : State) (c : Nat) : PairItem := .mailbox c ((mailboxRegs c).map s.reg)

/-- State of a ring. -/
def State.ringItem (s : State) (n : Nat) : PairItem :=
  .ring n ((allIds.map fun id => (id, s.sta n id)).filter fun x => x.2 != 0) (s.ring n).schedid (s.reg (SOP_BREAK n))

/-- The lines of a journal entry. -/
def State.journalItems (s : State) (line : Nat) : List ItemRead :=
  if line = wayLines then [fixedItem .purge]
  else [{ addr := lineAddr line, length := 64 * clampNat 1 5 (s.readByte (lineAddr line + 2)).toNat, make := .journal line }]

/-- A cell of an image. -/
def cellRead (base : Nat) (an : Bool) (i : Nat) (make : Bool → Nat → Nat → PairItem) : ItemRead :=
  { addr := cellAddr base an i, length := cellSize an, make := fun b => make an i (ofLe b) }

/-- What an item of the record being collected holds. Words of the Signal Map Table are named above the register space. -/
def State.resolveItem (s : State) (kind key : Nat) : List ItemRead :=
  let an := key % 2 == 1
  match kind with
  | 0 => [cellRead pubBase an (key / 2) .cell]
  | 1 => s.votedItems key
  | 2 => [s.lineItem (key / 2 ^ 33) (key / 2 ^ 32 % 2 == 1) (key % 2 ^ 32 * 64)]
  | 4 => [cellRead (bankBase s.frameCount) an (key / 2) .host]
  | 5 => s.journalItems key
  | 6 => if 0x2000000 ≤ key then [fixedItem (.orphans s.bridge.orphans)]
    else [fixedItem (s.bridgeItem (if 0x1000000 ≤ key then key - 0x1000000 else key / 65536))]
  | 7 => [fixedItem (s.mailboxItem key)]
  | 8 => [fixedItem (.register key (if 0x1000000 ≤ key then sparseGet (fun _ => 0) s.smap (key - 0x1000000) else s.reg key))]
  | 10 => s.change.package.elim [] fun p => [fixedItem (.package p)]
  | _ => [fixedItem (.forces s.modes.forces)]

/-- Lines of a task's variables. -/
def State.taskLines (s : State) (n : Nat) : List ItemRead :=
  match s.taskProg n with
  | none => []
  | some p =>
    (lineOffsets p.laneData).map (s.lineItem n false) ++ (lineOffsets p.retained).map (s.lineItem n true)

/-- The data that a migration copy has written for the switch at the next tick (R408). -/
def State.switchItems (s : State) : List ItemRead :=
  if s.change.copied then
    (s.change.package.elim [] fun p => (affectedTasks s.program p.program).flatMap s.taskLines) ++
      [fixedItem (.switchAt ((s.frameCount + 1) % 0x100000000))]
  else []

/-- A purge that acts at the next tick (R423). -/
def State.purgeItems (s : State) : List ItemRead := if s.isSet WAY_CMD WAY_CMD_PURGE then [fixedItem .purge] else []

/-- Items that every record carries at its close. -/
def State.closingItems (s : State) : List ItemRead :=
  s.purgeItems ++ fixedItems (s.taskNumbers.map s.taskItem ++ allRings.map s.ringItem ++ [.register SYS_CHG (s.reg SYS_CHG)]) ++ s.switchItems

/-- A register whose writes by the runtime a record carries: frame, ring, bridge, local I/O and SYS blocks (R388). -/
def copiedReg (a : Nat) : Bool :=
  let w := a / 0x10000
  w == 0x00 || w == 0x01 || (decide (0x10 ≤ w) && decide (w ≤ 0x15)) || w == 0x20 || w == 0x21 || w == 0x28 || w == 0x29 || w == 0x2A

/-- Pieces of the published output image. -/
def imageReads : List ItemRead :=
  (List.range 64).flatMap fun i =>
    [{ addr := pubBase + 4096 * i, length := 4032, make := .image (4096 * i) },
      { addr := pubBase + 4096 * i + 4032, length := 64, make := .image (4096 * i + 4032) }]

/-- A change package that the standby is still to load (R324). -/
def State.packageItems (s : State) : List ItemRead :=
  if [chgLoaded, chgArmed, chgPending].contains s.chg then s.resolveItem 10 0 else []

/-- A full copy: every item in its entirety (R394). -/
def State.fullItems (s : State) : List ItemRead :=
  s.taskNumbers.flatMap s.taskLines ++ s.taskNumbers.flatMap s.votedItems ++ imageReads ++
    (s.bridge.entries.flatMap fun e => s.journalItems e.line) ++
    fixedItems ((List.range 16).map s.bridgeItem ++ [.orphans s.bridge.orphans] ++ (List.range 32).map s.mailboxItem ++
      ((s.regs.filter fun e => copiedReg e.1 || (decide (WAY_NEXT 0 ≤ e.1) && decide (e.1 ≤ WAY_NEXT 47))).map fun e => .register e.1 e.2) ++
      (s.smap.map fun e => .register (0x1000000 + e.1) e.2) ++ [.forces s.modes.forces]) ++ s.packageItems ++ s.closingItems

/-! ### Sending the record (R389, R390) -/

/-- The partner receives records: it is paired and SYNCING or READY. -/
def State.partnerTakes (s : State) : Bool := s.cpl.paired && (s.partner == psSyncing || s.partner == psReady)

/-- A module that has failed sends no further record (R405). -/
def State.sendsRecords (s : State) : Bool :=
  s.cpl.member && s.pstate == psActive && s.partnerTakes && !s.isSet LANE_STATUS LANE_STATUS_SAFEFAIL &&
    !s.isSet ANX_STATUS ANX_STATUS_CMPFAULT

/-- A line of a task whose cycle is still open is sent after the cycle ends. -/
def State.lineWaits (s : State) (x : Nat × Nat) : Bool := x.1 == 2 && s.cycleOpen (x.2 / 2 ^ 33)

/-- The engine closes the record of the frame. -/
def State.closeRecord (s : State) : State :=
  if !s.sendsRecords then s.modCpl fun k => { k with items := [], nextSeq := 0 }
  else
    let reads := ((s.cpl.items.filter fun x => !s.lineWaits x).flatMap fun x => s.resolveItem x.1 x.2) ++ s.closingItems
    let s := s.itemsSeen reads
    let items := s.itemsOf reads
    let frame := s.frameCount % 0x100000000
    let first := s.cpl.nextSeq
    let ps : List PairPacket := items.zipIdx.map fun x => { frame := frame, pseq := first + x.2, item := x.1 }
    let r : PairRecord :=
      { frame := frame, count := first + ps.length, bytes := (Config.recordSize s.free).toNat,
        lines := (s.bridge.entries.filter fun e => !e.cmt).map (·.line) }
    (s.tickFree.modCpl fun k => { k with items := k.items.filter s.lineWaits, purgeSent := s.isSet WAY_CMD WAY_CMD_PURGE, nextSeq := 0, records := k.records ++ [r],
                                         unsent := k.unsent ++ ps }).pump

/-- COPY_PACKETS_SENT (R389, R394): every packet has been sent, and the MARKER follows. The packets of a full copy belong to
the record of the frame that is open. -/
def State.copySent (s : State) (full : Bool) : State :=
  if !s.sendsRecords || s.usableLinks.isEmpty then s
  else if full then
    if !s.cpl.fullDue then s
    else
      let frame := (s.frameCount + bit s.frame.inClose) % 0x100000000
      let first := s.cpl.nextSeq
      let reads := s.fullItems
      let s := s.itemsSeen reads
      let ps : List PairPacket := (s.itemsOf reads).zipIdx.map fun x => { frame := frame, pseq := first + x.2, item := x.1 }
      let s := (s.modCpl fun k => { k with fullDue := false, nextSeq := first + ps.length, unsent := k.unsent ++ ps }).pump
      s.send (.cplMarker s.pairEpoch frame (first + ps.length))
  else s.forEach s.cpl.records fun r t => t.send (.cplMarker t.pairEpoch r.frame r.count)

/-- COPY_PACKETS_SENT. -/
def execCopyPacketsSent (full : Bool) (s : State) : Host.Outcome State Fault Refusal := .next (s.inPair fun t => t.copySent full)

/-! ### Packets (R387, R406) -/

/-- A packet that arrives: a bad one is counted, and one of another pair epoch is stale. -/
def State.packetIn (s : State) (p : PairHead) (f : State → State) : State :=
  s.inPair fun s =>
    if !p.ok then s.bump CPL_PKTERR
    else if p.pepoch.toNat ≠ s.pairEpoch then (s.bump CPL_STALE_CNT).flag CPL_STATUS CPL_STATUS_STALE
    else f s

/-! ### Readiness (R393) -/

/-- The offset of the ticks lies within G_min / 8; with no ring in RUN there is no G_min and no limit. -/
def State.offsetGood (s : State) : Bool :=
  (allRings.filter fun n => s.ringState n == ringRun).all fun n => decide (s.cpl.offset.natAbs ≤ (s.ring n).guard)

/-- What R393 asks beside the records. -/
def State.readyConds (s : State) : Bool :=
  s.cpl.fullDone && s.offsetGood && s.cpl.strike && !s.isSet LANE_STATUS LANE_STATUS_SAFEFAIL &&
    allLanes.all fun l => s.laneState l != lsOut

/-- A record is complete: a SYNCING standby that meets R393 becomes READY. A READY standby holds the program as the record
left it, and no restart is due. -/
def State.becomeReady (s : State) : State :=
  if s.pstate = psSyncing ∧ s.readyConds then
    (s.setPstate psReady).modModes fun m => { m with restart := none, restartBegun := false, restartDone := false, afterReset := false }
  else s

/-! ### Receiving records (R392, R394) -/

/-- A standby writes a line into the region of each of its lanes. -/
def State.applyLine (s : State) (retained : Bool) (off : Nat) (data : List Byte) : State :=
  s.forEach allLanes fun l t => t.unitWrite couplerCtx ((if retained then laneMram l else laneDram l) + off) data

/-- The frame whose tick has a network time in ns. -/
def State.frameAt (s : State) (ns : Nat) : Nat := (ns - s.tPhase * 1000) / (s.tFrame * 1000)

/-- State of a task from a record. The correction sum that R103 counts from is the standby's own at the tick of that release
(R403). -/
def State.applyTask (s : State) (n : Nat) (k : PairTask) : State :=
  let s := ((s.setEpochs n k.opened k.closed).putFld (FRM_TSTAT n) FRM_TSTAT_STOPPED (bit k.stopped)).putFld (FRM_TSTAT n)
    FRM_TSTAT_OVR (bit k.flagged)
  s.modTask n fun t => { t with relRing := t.relRing.set (k.release % 8) k.release (Nat.mod_lt _ (by decide)), prevFtime := k.netTime,
                                prevCorr := corrAt s.time.corrLog (s.frameAt k.netTime), prevOvr := k.overran,
                                place := k.place, placed := k.placed, first := false }

/-- Failure list and fences of a channel from a record. An outstanding fetch is not sent again: the module that asked has sent it. -/
def State.applyBridge (s : State) (ch : Nat) (fs : List Failure) (full : Bool) (fenced : List (Nat × Nat)) (reads : List PairRead) : State :=
  let s := s.modLap ch fun c =>
    { c with failures := fs, full := full,
             fetches := reads.map fun r => { ring := r.ring, station := r.station, addr := r.addr, sideEffect := r.sideEffect, result := none,
                                             abandoned := false } }
  let s := s.modBridge fun k => { k with streams := k.streams.map fun x =>
    if x.channel = ch then { x with fenced := false, work := [], out := none } else x }
  let s := s.forEach reads fun r t => t.modStream ch r.ring r.station fun y =>
    { y with work := [.read r.addr r.count], out := some (r.seq, t.frameCount, 4) }
  (s.forEach fenced fun x t => t.modStream ch x.1 x.2 fun y => { y with fenced := true }).showFailures ch

/-- SYS_CHG from a record. The standby keeps its own BANK, and reaches LOADED on its own, with a package that it has checked
(R227, R324). A change that the active module has discarded or committed ends here too (DEDUCED, log entry 134). -/
def State.applyChg (s : State) (v : Word) : State :=
  let new := SYS_CHG_STATE.get v
  let s := s.putFld SYS_CHG SYS_CHG_AGE (SYS_CHG_AGE.get v)
  if new = chgNone then
    if s.chg = chgNone then s
    else if s.chg = chgSwitched ∨ s.chg = chgClosed then s.commitProgram else s.dropPackage
  else if s.change.package.isNone ∧ new ≤ chgPending then s
  else (s.setChg new).putFld SYS_CHG SYS_CHG_SAFECHG (SYS_CHG_SAFECHG.get v)

/-- A change package from the active module is checked and held (R222, R227, R324). -/
def State.applyPackage (s : State) (p : Package) : State :=
  if s.chg = chgNone ∨ s.chg = chgLoaded then (s.takePackage p 0).1 else s

/-- The online change switches at the tick that a record names; when the tick has passed, at once (R408). -/
def State.applySwitch (s : State) (tick : Nat) : State :=
  let s := s.setChange { s.change with copied := true }
  s.when (s.frameCount % 0x100000000 == tick && (s.chg == chgPending || s.chg == chgReverse)) State.switchNow

/-- The bits of a mailbox register that are not Reserved (R8). -/
def mailboxMask : Nat → Word
  | 0 => 0x8000FFFF
  | 1 => 0x400FFFFF
  | 2 => 0x80000703
  | 4 => 0x0000FFFF
  | _ => 0xFFFFFFFF

/-- Mailbox storage from a record; the pending bits follow it (R434, R437). -/
def State.applyMailbox (s : State) (c : Nat) (ws : List Word) : State :=
  let s := s.forEach ((mailboxRegs c).zip ws).zipIdx fun x t => t.setReg x.1.1 (x.1.2 &&& mailboxMask x.2)
  s.setMbxState c (s.mbxState c)

/-- NEXT of a stream, which records carry with the registers (R388: sequence counters). -/
def nextReg (a : Nat) : Bool := decide (WAY_NEXT 0 ≤ a) && decide (a ≤ WAY_NEXT 47)

/-- A register from a record: its RW bits take the value. -/
def State.applyRegister (s : State) (a : Nat) (v : Word) : State :=
  if a = SYS_CHG then s.applyChg v
  else if 0x1000000 ≤ a then
    { s.loadSmap (a - 0x1000000) v with bridge := { s.bridge with cache := [] } }
  else if nextReg a then s.setReg a v
  else if copiedReg a then s.loadReg a v else s

/-- An item is written to its own location (R392), what lies in memory through the coupler's context (R138). -/
def State.applyItem (s : State) : PairItem → State
  | .cell an i v => s.unitWrite couplerCtx (cellAddr pubBase an i) (leBytes (cellSize an) v)
  | .image off data => s.unitWrite couplerCtx (pubBase + off) data
  | .voted n off data => (s.taskProg n).elim s fun p => s.unitWrite couplerCtx (p.votedCopy + off) data
  | .line retained off data => s.applyLine retained off data
  | .task n k => s.applyTask n k
  | .host an i v =>
    (s.unitWrite couplerCtx (cellAddr (bankBase s.frameCount) an i) (leBytes (cellSize an) v)).modBridge fun k =>
      { k with cells := if k.cells.contains (an, i) then k.cells else k.cells ++ [(an, i)] }
  | .journal line data => s.unitWrite couplerCtx (lineAddr line) data
  | .purge => s.purgeJournal
  | .bridge ch fs full fenced reads => s.applyBridge ch fs full fenced reads
  | .orphans l => s.modBridge fun k => { k with orphans := l }
  | .mailbox c ws => s.applyMailbox c ws
  | .register a v => s.applyRegister a v
  | .package p => s.applyPackage p
  | .forces l => s.keepForces l
  | .ring n states schedid brk =>
    let s := s.forEach states fun x t => t.setSta n x.1 x.2
    (s.modRing n fun r => { r with schedid := schedid }).setReg (SOP_BREAK n) brk
  | .switchAt tick => s.applySwitch tick
  | .applied => s

/-- Apply items in order. -/
def State.applyItems (s : State) (l : List PairItem) : State := s.forEach l fun i t => t.applyItem i

/-- How many frames a frame lies after the last one applied. -/
def State.framesAhead (s : State) (frame : Nat) : Nat := (BitVec.ofNat 32 frame - s.reg CPL_APPLIED).toNat

/-- Packets in frame order, and in PSEQ order within a frame. -/
def State.inOrder (s : State) (l : List PairPacket) : List PairPacket :=
  l.mergeSort fun a b => decide (s.framesAhead a.frame < s.framesAhead b.frame) || (a.frame == b.frame && decide (a.pseq ≤ b.pseq))

/-- A standby that falls back to SYNCING applies what it has staged at once, as R394 has a SYNCING standby do (DESIGN CHOICE, log
entry 150); of the packets of incomplete records it keeps the numbers. -/
def State.applyStaged (s : State) : State :=
  let ps := s.inOrder s.cpl.staged
  let done := s.cpl.complete
  let last := done.foldl (fun a f => if s.framesAhead a < s.framesAhead f then f else a) (s.reg CPL_APPLIED).toNat
  ((s.applyItems (ps.map (·.item))).setReg CPL_APPLIED (BitVec.ofNat 32 last)).modCpl fun k =>
    { k with complete := [], staged := (k.staged.filter fun p => !done.contains p.frame).map fun p => { p with item := .applied } }

/-- A READY standby that no longer meets R393 becomes SYNCING. -/
def State.checkReady (s : State) : State :=
  if s.pstate = psReady ∧ !s.readyConds then s.applyStaged.setPstate psSyncing else s

/-- DATA_PACKET (R392, R394): a READY standby stages the items, a SYNCING one applies them at once. -/
def execDataPacket (p : PairHead) (items : List PairItem) (s : State) : Host.Outcome State Fault Refusal :=
  .next (s.packetIn p fun s =>
    let ps : List PairPacket := items.map fun i => { frame := p.fcnt.toNat, pseq := p.pseq, item := i }
    if s.pstate = psReady then s.modCpl fun k => { k with staged := k.staged ++ ps }
    else if s.pstate = psSyncing then
      (s.applyItems items).modCpl fun k =>
        { k with staged := k.staged ++ [{ frame := p.fcnt.toNat, pseq := p.pseq, item := .applied }] }
    else s)

/-- The PSEQ numbers of a record that have not arrived. -/
def State.missingPackets (s : State) (frame count : Nat) : List Nat :=
  (List.range count).filter fun i => !s.cpl.staged.any fun p => p.frame == frame && p.pseq == i

/-- MARKER (R389): answered with an ACK that lists what is missing. -/
def execMarker (p : PairHead) (count : Nat) (fullDone : Bool) (s : State) : Host.Outcome State Fault Refusal :=
  .next (s.packetIn p fun s =>
    let frame := p.fcnt.toNat
    if s.pstate ≠ psReady ∧ s.pstate ≠ psSyncing then s
    else
      let missing := s.missingPackets frame count
      let s := s.send (.cplAck s.pairEpoch frame missing)
      if !missing.isEmpty then s
      else if s.pstate = psReady then
        s.modCpl fun k => { k with complete := if k.complete.contains frame then k.complete else k.complete ++ [frame] }
      else
        ((s.setReg CPL_APPLIED p.fcnt).modCpl fun k =>
          { k with staged := k.staged.filter fun q => q.frame != frame, fullDone := k.fullDone || fullDone }).becomeReady)

/-- The complete record that is applied next: records are applied in frame order, so none while an earlier frame has packets and is
not complete. -/
def State.nextRecord (s : State) : Option Nat :=
  match s.cpl.complete with
  | [] => none
  | f :: fs =>
    let first := fs.foldl (fun a g => if s.framesAhead g < s.framesAhead a then g else a) f
    if s.cpl.staged.any fun p => s.framesAhead p.frame < s.framesAhead first && p.frame != (s.reg CPL_APPLIED).toNat then none
    else some first

/-- RECORD_APPLY (R392): the next complete record in frame order. What is staged of records before it goes. -/
def execRecordApply (s : State) : Host.Outcome State Fault Refusal :=
  .next (s.inPair fun s =>
    match s.nextRecord with
    | none => s
    | some f =>
      if s.pstate ≠ psReady then s
      else
        let ps := s.inOrder (s.cpl.staged.filter fun p => p.frame == f)
        let s := s.applyItems (ps.map (·.item))
        let s := s.setReg CPL_APPLIED (BitVec.ofNat 32 f)
        (s.modCpl fun k =>
          { k with complete := k.complete.filter fun g => g != f,
                   staged := k.staged.filter fun p => p.frame != f && decide (s.framesAhead p.frame < 0x80000000) }).checkReady)

/-! ### Acknowledgements (R389 to R391) -/

/-- A record is complete. Its journal entries are committed when the standby that acknowledged it was READY. -/
def State.recordComplete (s : State) (frame : Nat) (ready : Bool) : State :=
  match s.cpl.records.find? fun r => r.frame == frame with
  | none => s
  | some r =>
    let s := (s.setReg CPL_COPYLAST (BitVec.ofNat 32 r.bytes)).setReg CPL_COPYMAX
      (BitVec.ofNat 32 (max r.bytes (s.reg CPL_COPYMAX).toNat))
    let s := s.modCpl fun k => { k with records := k.records.filter fun x => x.frame != frame }
    if ready then s.commitLines r.lines else s

/-- COUPLER_ACK (R389, R391). -/
def execCouplerAck (p : PairHead) (missing : List Nat) (ready : Bool) (s : State) : Host.Outcome State Fault Refusal :=
  .next (s.packetIn p fun s =>
    let frame := p.fcnt.toNat
    let again := (s.cpl.sent.filter fun x => x.2.frame == frame && missing.contains x.2.pseq).map (·.2)
    let s := s.modCpl fun k => { k with sent := k.sent.filter fun x => x.2.frame != frame, unsent := k.unsent ++ again }
    if missing.isEmpty then s.recordComplete frame ready else s.pump)

/-- RECORD_LATE (R390): a record that is not complete by the tick two ticks after its frame begins. -/
def State.recordLate (s : State) : State :=
  let late (f : Nat) : Bool := decide (2 ≤ (BitVec.ofNat 32 s.frameCount - BitVec.ofNat 32 f).toNat)
  let counted (t : State) : State :=
    ((t.bump CPL_COPYLATE).flag CPL_STATUS CPL_STATUS_COPYLATE).evRecordLate (t.frameCount + 0xFFFFFFFE)
  if s.pstate = psActive then
    if s.cpl.records.any fun r => late r.frame then
      (counted s).modCpl fun k => { k with records := [], sent := [], unsent := [], nextSeq := 0, fullDue := true }
    else s
  else if s.pstate = psReady ∧ !s.cpl.lost ∧ late ((s.reg CPL_APPLIED).toNat + 1) ∧
      !s.cpl.complete.contains ((s.frameCount - 2) % 0x100000000) then
    ((counted s).modCpl fun k => { k with fullDone := false, staged := [], complete := [] }).setPstate psSyncing
  else s

/-- RECORD_LATE. -/
def execRecordLate (s : State) : Host.Outcome State Fault Refusal := .next (s.inPair State.recordLate)

/-! ### Links (R386, R387, R409) -/

/-- COUPLER_LINK_UP (R386): the capability word is sent over the link. -/
def execCouplerLinkUp (link : Fin 4) (s : State) : Host.Outcome State Fault Refusal :=
  .next (s.inPair fun s =>
    if !bitAt (s.fld BLW_STAGE BLW_STAGE_CPLOK) link || bitAt (s.fld CPL_STATE CPL_STATE_LINKS) link then s
    else
      let s := (s.putFld CPL_STATE ⟨12 + link.val, 1⟩ 1).modCpl fun k => { k with contact := true, capOf := some s.capItems }
      (s.send (.cplCap link s.pairEpoch s.capBytes)).pump)

/-- COUPLER_LINK_DOWN (R387, R389): packets not acknowledged go over the other links. -/
def execCouplerLinkDown (link : Fin 4) (s : State) : Host.Outcome State Fault Refusal :=
  .next (s.inPair fun s =>
    if !bitAt (s.fld CPL_STATE CPL_STATE_LINKS) link then s
    else
      let s := (((s.putFld CPL_STATE ⟨12 + link.val, 1⟩ 0).flag CPL_STATUS CPL_STATUS_LINKDOWN).bump CPL_HBLOSS).evLinkDown link
      let lost := (s.cpl.sent.filter fun x => x.1 == link.val).map (·.2)
      let s := s.modCpl fun k => { k with sent := k.sent.filter fun x => x.1 != link.val, unsent := lost ++ k.unsent, soak := 0,
                                          paused := k.paused &&& ~~~(BitVec.ofNat 4 (2 ^ link.val)) }
      let s := s.emptyQueue (.coupler link)
      if s.upLinks.isEmpty then ((s.putFld CPL_STATE CPL_STATE_PARTNER psIsolated).modCpl fun k => { k with cap := none }).irq lineCpl
      else s.pump.irq lineCpl)

/-- PAUSE_WORD and RESUME_WORD (R387). -/
def execPauseWord (link : Fin 4) (s : State) : Host.Outcome State Fault Refusal :=
  .next (s.inPair fun s => s.modCpl fun k => { k with paused := k.paused ||| BitVec.ofNat 4 (2 ^ link.val) })
def execResumeWord (link : Fin 4) (s : State) : Host.Outcome State Fault Refusal :=
  .next (s.inPair fun s => (s.modCpl fun k => { k with paused := k.paused &&& ~~~(BitVec.ofNat 4 (2 ^ link.val)) }).pump)

/-- HEARTBEAT (R387, R393): the word carries the sender's state; its arrival tells how far its tick lies from the own one. -/
def execHeartbeat (link : Fin 4) (_fcnt : Word) (pstate : BitVec 2) (offset : Int) (s : State) : Host.Outcome State Fault Refusal :=
  .next (s.inPair fun s =>
    if !bitAt (s.fld CPL_STATE CPL_STATE_LINKS) link then s
    else (s.modCpl fun k => { k with peer := pstate.toNat, offset := offset, contact := true }).checkReady)

/-- HEARTBEAT_SEND (R387). -/
def execHeartbeatSend (s : State) : Host.Outcome State Fault Refusal :=
  .next (s.inPair fun s => s.forEach s.upLinks fun l t => t.send (.cplBeat l (t.frameCount % 0x100000000) t.pstate))

/-! ### Pairing (R385, R386) -/

/-- The capability check: the first check that fails, 0 for none. -/
def State.capCheck (s : State) (c : CapWord) : Nat :=
  let own := s.activeVersion 1
  if c.compat.toNat ≠ s.fld SYS_COMPAT SYS_COMPAT_COMPAT then 1
  else if c.alternate = s.alternate then 2
  else if !(within own (c.lowest.toNat, c.highest.toNat) && within c.version.toNat (Config.partnerLowest.toNat, Config.partnerHighest.toNat)) then 3
  else if c.program ≠ s.ownProgramDigest then 4
  else if c.config ≠ s.ownConfigDigest then 5
  else if c.dhrings.toNat ≠ CPL_CFG_DHRINGS.get s.cpl.cfg then 6
  else if c.formats ≠ s.update.formats then 7
  else 0

/-- An ISOLATED module leaves that state after an accepted exchange (R385). -/
def State.pairUp (s : State) : State :=
  if s.pstate ≠ psIsolated then s
  else
    let sync (t : State) : State :=
      (t.modCpl fun k => { k with fullDone := false, staged := [], complete := [], lost := false }).setPstate psSyncing
    if s.cpl.peer = psActive then sync s
    else if s.alternate then sync s
    else s.modCpl fun k => { k with activeDue := true }

/-- The check of the partner's word refuses or accepts the pairing. -/
def State.checkPairing (s : State) (cap : CapWord) : State :=
  let code := s.capCheck cap
  if code ≠ 0 then
    let s := ((s.putFld CPL_STATE CPL_STATE_REFUSE code).flag CPL_STATUS CPL_STATUS_REFUSED).evPairRefused code
    let s := s.modCpl fun k => { k with paired := false }
    if s.pstate = psActive then s else s.setPstate psIsolated
  else (s.modCpl fun k => { k with paired := true }).pairUp

/-- CAP_PACKET (R386). The check comes before the pair epoch: a standby takes the epoch of an active partner. -/
def execCapPacket (p : PairHead) (cap : CapWord) (s : State) : Host.Outcome State Fault Refusal :=
  .next (s.inPair fun s =>
    if !p.ok then s.bump CPL_PKTERR
    else
      let s := s.modCpl fun k => { k with cap := some cap }
      let s := if s.capCheck cap = 0 ∧ s.standby ∧ s.cpl.peer = psActive then s.putFld CPL_STATE CPL_STATE_PEPOCH p.pepoch.toNat else s
      s.checkPairing cap)

/-- An item of the own capability word has changed: the new word is sent, and the check is made again (R386, R454). -/
def State.capTick (s : State) : State :=
  if s.cpl.capOf.isNone ∨ s.cpl.capOf = some s.capItems then s
  else
    let s := s.modCpl fun k => { k with capOf := some s.capItems }
    match s.upLinks with
    | [] => s
    | l :: _ =>
      let s := s.send (.cplCap l s.pairEpoch s.capBytes)
      match s.cpl.cap with
      | some c => s.checkPairing c
      | none => s

/-- PAIRING_TIMEOUT (R385): 100 ms, or 2,000 ms for the ALTERNATE, since the reset. -/
def execPairingTimeout (s : State) : Host.Outcome State Fault Refusal :=
  .next (s.inPair fun s =>
    if s.pstate ≠ psIsolated ∨ s.cpl.contact then s
    else if allRings.any fun n => s.dualHomed n && (s.ring n).zero.isSome then s.evState srcCpl (CPL_STATE % 65536) psIsolated psIsolated
    else s.modCpl fun k => { k with activeDue := true })

/-! ### HEALTH (R400, R406) -/

/-- The HEALTH payload. -/
def State.healthBytes (s : State) : List Byte :=
  let off := if s.cpl.offset < -32768 then -32768 else if 32767 < s.cpl.offset then 32767 else s.cpl.offset
  let flags := ((allLanes.filter fun l => s.laneState l == lsAvailable).foldl (fun a l => a + 2 ^ l) 0) +
    8 * bit (s.isSet LANE_STATUS LANE_STATUS_SAFEFAIL) + 16 * bit (s.isSet ANX_STATUS ANX_STATUS_CMPFAULT) + 32 * bit s.cpl.strike +
    64 * bit s.cpl.scanFailed
  leBytes 1 s.pstate ++ leBytes 1 flags ++ leBytes 2 (BitVec.ofInt 16 off).toNat ++ leBytes 4 (s.reg CPL_APPLIED).toNat ++
    leBytes 4 (s.cpl.soak / 1000000000) ++ leBytes 4 (s.reg BLW_HEALTH).toNat

/-- At the start of the close phase each member sends HEALTH. -/
def State.sendHealth (s : State) : State :=
  if s.upLinks.isEmpty then s
  else (s.send (.cplHealth s.pairEpoch (s.frameCount % 0x100000000) s.healthBytes)).modCpl fun k => { k with scanFailed := false }

/-- HEALTH_PACKET (R400, R406). A module that has switched away takes the new pair epoch from the active one. -/
def execHealthPacket (p : PairHead) (h : PairHealth) (s : State) : Host.Outcome State Fault Refusal :=
  .next (s.inPair fun s =>
    let s := if p.ok ∧ s.standby ∧ h.pstate = 0 then s.putFld CPL_STATE CPL_STATE_PEPOCH p.pepoch.toNat else s
    s.packetIn p fun s =>
      let old := s.partner
      let now := h.pstate.toNat
      let s := (s.putFld CPL_STATE CPL_STATE_PARTNER now).modCpl fun k => { k with peer := now }
      let s := if old = now then s else s.irq lineCpl
      if s.pstate = psActive ∧ now = psSyncing ∧ old ≠ psSyncing ∧ old ≠ psReady then
        s.modCpl fun k => { k with fullDue := true }
      else if s.pstate = psIsolated ∧ s.cpl.paired ∧ now = psActive then s.pairUp
      else s)

/-! ### Becoming ACTIVE and ceasing to be (R385, R396, R403) -/

/-- Dual-homed rings send and take part again. -/
def State.driveRings (s : State) : State := s.forEach (allRings.filter s.dualHomed) fun n t => t.putFld (SOP_CTRL n) SOP_CTRL_LISTENONLY 0

/-- A temper scan in progress is abandoned: its lane rejoins (R399). -/
def State.abandonScan (s : State) : State :=
  match s.cpl.scanning with
  | none => s
  | some (l, _) => (s.setLaneState l lsRejoin).modCpl fun k => { k with scanning := none }

/-- ACTIVE without a takeover (R385), or through a warm restart (R402). -/
def State.activate (s : State) : State :=
  let s := (s.abandonScan.setPstate psActive).driveRings
  s.modCpl fun k => { k with activeDue := false, lost := false, items := [], staged := [], complete := [] }

/-- A warm restart follows. -/
def State.warmRestart (s : State) : State :=
  s.modModes fun m => { m with restart := some (strongerKind m.restart .warm), restartDone := false }

/-- The module stops running the line: cycles end, and the dual-homed rings only forward. -/
def State.standDown (s : State) (v : Nat) : State :=
  let s := s.forEach (s.tasksWith fun _ _ => true) fun n t => t.closeCycle n
  let s := s.forEach (allRings.filter s.dualHomed) fun n t => t.flag (SOP_CTRL n) SOP_CTRL_LISTENONLY
  let s := (s.setPstate v).putFld CPL_COMMAND CPL_COMMAND_SWITCH 0
  s.modCpl fun k => { k with switchAt := none, quiet := 0, asked := 0, items := [], records := [], sent := [], unsent := [], nextSeq := 0,
                             fullDue := false, fullDone := false, staged := [], complete := [], lost := false, stepDownDue := false }

/-- The words of the newest journalled message of each safety channel, and every job window, go into the bank that closes
at the switch tick (R422). -/
def State.fillBankAtSwitch (s : State) : State :=
  let bank := bankBase s.frameCount
  let s := s.jobWindows bank
  s.forEach (s.bridge.safeWords.filter fun e => !s.bridge.safeGot.contains e.1) fun e t =>
    (t.putWords bank (t.bchInStart e.1) 0 e.2).modBridge fun k => { k with safeGot := e.1 :: k.safeGot }

/-- The steps of the new active module before any release (R403, R406, R422, R437). -/
def State.takeLine (s : State) : State :=
  let s := (s.putFld CPL_STATE CPL_STATE_PEPOCH (s.pairEpoch + 1)).abandonScan.namedModes
  let s := s.forEach s.taskNumbers fun n t => t.advanceEpoch n
  let s := s.activate.mbxTakeover
  let s := s.forEach allChannels fun ch t =>
    (t.forEach (t.lap ch).fetches fun f u => u.abandonFetch ch f).endSession ch
  let s := (s.replay.requeueRemote).fillBankAtSwitch
  (s.modModes fun m => { m with restart := none, restartBegun := false, restartDone := false }).modCpl fun k =>
    { k with switchAt := none, quiet := 0, asked := 0 }

/-! ### Fail-over (R402, R405) -/

/-- PARTNER_LOST (R402): partial records are discarded. -/
def execPartnerLost (s : State) : Host.Outcome State Fault Refusal :=
  .next (s.inPair fun s =>
    if s.pstate = psActive then s
    else
      let s := (s.putFld CPL_STATE CPL_STATE_PARTNER psIsolated).modCpl fun k =>
        { k with lost := true, peer := psIsolated, staged := k.staged.filter fun p => k.complete.contains p.frame }
      (s.evState srcCpl (CPL_STATE % 65536) psActive psIsolated).irq lineCpl)

/-- The named tick has come: the next tick is it, or lies beyond. -/
def State.switchDue (s : State) : Bool := s.cpl.switchAt.elim true fun j => decide (j.1 ≤ s.frame.nextTick)

/-- TAKEOVER (R402, R403): at tick j, before its releases. -/
def execTakeover (s : State) : Host.Outcome State Fault Refusal :=
  .next (s.inPair fun s =>
    if s.pstate = psActive ∨ !s.cpl.lost ∨ !s.switchDue then s
    else if s.pstate = psReady then
      if !s.cpl.complete.isEmpty then s
      else (((s.takeLine.flag CPL_STATUS CPL_STATUS_TAKEOVER).bump CPL_TAKEOVER).evTakeover).irq lineCpl
    else
      let s := (s.putFld CPL_STATE CPL_STATE_PEPOCH (s.pairEpoch + 1)).activate.warmRestart
      (((s.flag CPL_STATUS CPL_STATUS_TAKEOVER).bump CPL_TAKEOVER).evTakeover).irq lineCpl)

/-- A frame that a packet names, at or after the present one. -/
def State.nextFrame (s : State) (w : Word) : Nat := s.frameCount + (w - BitVec.ofNat 32 s.frameCount).toNat

/-- Answer a REQUEST. -/
def State.respond (s : State) (kind : Nat) (granted : Bool) (tick : Nat) : State :=
  s.send (.cplResponse kind granted (tick % 0x100000000))

/-- TAKEOVER_REQUEST (R405, R407). -/
def execTakeoverRequest (p : PairHead) (kind : SwitchKind) (s : State) : Host.Outcome State Fault Refusal :=
  .next (s.packetIn p fun s =>
    let soon := s.frame.nextTick
    match kind with
    | .takeover =>
      if s.pstate = psReady then
        (s.modCpl fun k => { k with lost := true, switchAt := some (soon, false) }).respond 1 true soon
      else s.respond 1 false 0
    | .handBack =>
      if s.pstate = psActive ∧ s.alternate ∧ s.partner = psReady then
        (s.modCpl fun k => { k with switchAt := some (soon + 3, true), quiet := 0 }).respond 2 true (soon + 3)
      else s.respond 2 false 0
    | .planned =>
      if s.pstate = psReady then
        (s.modCpl fun k => { k with switchAt := some (soon + 3, true), quiet := 0 }).respond 4 true (soon + 3)
      else s.respond 4 false 0)

/-- TAKEOVER_RESPONSE (R405, R407): the answer to the REQUEST that waits. A refused planned switch clears SWITCH, and a refused
hand-back starts the soak again. -/
def execTakeoverResponse (p : PairHead) (granted : Bool) (tick : Word) (s : State) : Host.Outcome State Fault Refusal :=
  .next (s.packetIn p fun s =>
    let kind := s.cpl.asked
    let s := s.modCpl fun k => { k with asked := 0 }
    if kind = 0 ∨ kind = 3 then s
    else if granted then s.modCpl fun k => { k with switchAt := some (s.nextFrame tick, kind != 1), quiet := 0 }
    else if kind = 4 then (s.putFld CPL_COMMAND CPL_COMMAND_SWITCH 0).evRefused srcCpl (CPL_COMMAND % 65536) 1
    else if kind = 2 then s.modCpl fun k => { k with soak := 0 }
    else s)

/-- UPDATE_REQUEST (R484): granted only with no component in TRIAL and no package PENDING. -/
def execUpdateRequest (p : PairHead) (s : State) : Host.Outcome State Fault Refusal :=
  .next (s.packetIn p fun s => s.respond 3 (!allComps.any s.inTrial && s.siding != sdPending) 0)

/-- CPL_COMMAND.SWITCH (R405). -/
def State.plannedSwitch (s : State) : State :=
  if s.isSet CPL_COMMAND CPL_COMMAND_SWITCH then s
  else if !s.cpl.member || s.eff != effProg || s.pstate != psActive || s.partner != psReady then s.evRefused srcCpl (CPL_COMMAND % 65536) 1
  else ((s.flag CPL_COMMAND CPL_COMMAND_SWITCH).send (.cplRequest 4)).modCpl fun k => { k with asked := 4 }

/-- PLANNED_SWITCH. -/
def execPlannedSwitch (s : State) : Host.Outcome State Fault Refusal := .next s.plannedSwitch

/-! ### Hand-back (R407) -/

/-- SOAK_COMPLETE (R407). -/
def execSoakComplete (s : State) : Host.Outcome State Fault Refusal :=
  .next (s.inPair fun s =>
    if s.pstate = psReady ∧ !s.alternate ∧ s.partner = psActive ∧ s.cpl.asked = 0 ∧ s.cpl.switchAt = none ∧
        clampNat 10 3600 (s.fld CPL_SOAK CPL_SOAK_SOAK) * 1000000000 ≤ s.cpl.soak then
      (s.send (.cplRequest 2)).modCpl fun k => { k with asked := 2 }
    else s)

/-- The record of the quiet frame is complete, and at the standby applied. -/
def State.quietRecordDone (s : State) : Bool :=
  if s.pstate = psActive then s.cpl.records.isEmpty
  else s.cpl.complete.isEmpty && (s.reg CPL_APPLIED).toNat == s.frameCount % 0x100000000

/-- HAND_BACK (R407): the tick after a quiet frame. Without the record the switch moves to the next tick, at most 8 times. -/
def execHandBack (s : State) : Host.Outcome State Fault Refusal :=
  .next (s.inPair fun s =>
    match s.cpl.switchAt with
    | some (j, true) =>
      if s.frame.nextTick < j ∨ !s.quietFrame then s
      else if !s.quietRecordDone then
        if 9 ≤ s.cpl.quiet then
          ((s.modCpl fun k => { k with switchAt := none, quiet := 0, soak := 0 }).putFld CPL_COMMAND CPL_COMMAND_SWITCH 0).evState srcCpl
            (CPL_COMMAND % 65536) 1 0
        else s.modCpl fun k => { k with switchAt := some (s.frame.nextTick + 1, true) }
      else
        let s := ((s.flag CPL_STATUS CPL_STATUS_HANDBACK).bump CPL_HANDBACK).irq lineCpl
        if s.pstate = psActive then s.standDown psSyncing
        else if s.pstate = psReady then s.takeLine
        else s.modCpl fun k => { k with switchAt := none, quiet := 0 }
    | _ => s)

/-- STEP_DOWN (R409): an ACTIVE ALTERNATE that has heard a foreign SYNC in two consecutive frames. -/
def execStepDown (s : State) : Host.Outcome State Fault Refusal :=
  .next (s.inPair fun s =>
    if s.pstate = psActive ∧ s.alternate ∧ allRings.any (fun n => decide (2 ≤ (s.ring n).rivals)) then
      s.modCpl fun k => { k with stepDownDue := true }
    else s)

/-- What of the pair acts at a tick, after it has fired (R384, R385, R405, R407, R409). -/
def State.pairTick (s : State) : State :=
  s.inPair fun s =>
    let s := s.capTick.checkReady
    let s := if s.cpl.activeDue ∧ s.pstate = psIsolated then s.activate else s
    let s := if s.cpl.stepDownDue ∧ s.pstate = psActive then
        ((s.standDown psIsolated).flag CPL_STATUS CPL_STATUS_STEPDOWN).evState srcCpl (CPL_STATUS % 65536) 0 1
      else s
    let s := match s.cpl.switchAt with
      | some (j, quiet) =>
        if quiet then (if s.frameCount + 1 = j then s.modCpl fun k => { k with quiet := k.quiet + 1 } else s)
        else if s.pstate = psActive ∧ j ≤ s.frameCount then s.standDown psSyncing else s
      | none => s
    if s.pstate = psReady ∧ !s.alternate ∧ s.partner = psActive then s.modCpl fun k => { k with soak := k.soak + s.tFrame * 1000 } else s

/-! ### Temper scans (R399) -/

/-- The steps of R185 that a lane passes in a temper scan. -/
def scanSteps : Nat := 6

/-- A step of a standby's temper scan of a lane has passed; the last one ends the scan. -/
def State.scanPassed (s : State) (lane : Nat) : State :=
  let done := match s.cpl.scanning with
    | some (l, n) => if l = lane then n + 1 else 1
    | none => 1
  s.modCpl fun k => { k with scanning := if scanSteps ≤ done then none else some (lane, done) }

/-- TEMPER_SCAN (R399): a scan step of a lane ends. At an ACTIVE module it is a scan of gated cores, and a failure is a core
fault; at a standby it takes the lane OUT. -/
def execTemperScan (lane : Fin 3) (pass : Bool) (s : State) : Host.Outcome State Fault Refusal :=
  .next (if s.standby then
      if s.laneState lane = lsOut then s
      else if pass then s.scanPassed lane
      else ((s.setLaneState lane lsOut).modCpl fun k => { k with scanning := none, scanFailed := true, soak := 0 }).checkReady
    else if pass then s
    else (s.modCpl fun k => { k with scanFailed := true }).fence lane 3 0)

end Sys2Proof.Machine
end

