-- ==== Sys2Proof/Machine/Dma.lean ====
section
/-!
DEFINITION. The DMA channels but for the move of an element (R140 to R144), scrubbing and code digests
(R128, R129).
-/

namespace Sys2Proof.Machine

/-! ### Descriptors (R140) -/

/-- Number that names a DMA channel as an initiator. -/
def dmaInitiator (n : Nat) : Nat := 32 + n

/-- STATUS codes. -/
def dmaCompleted : Nat := 0x1
def dmaStopped : Nat := 0x2
def dmaUeStatus : Nat := 0x7
def dmaMalformed : Nat := 0x8
def dmaLostWriteback : Nat := 0xA

/-- Element size in bytes; none for a reserved ESIZE. -/
def Desc.size (d : Desc) : Option Nat :=
  match bitsAt d.ctl 0 3 with
  | 0 => some 1
  | 1 => some 2
  | 2 => some 4
  | 3 => some 8
  | 4 => some 64
  | _ => none

/-- Whether a descriptor is malformed (STATUS 0x8). -/
def Desc.malformed (d : Desc) : Bool :=
  2 ^ 39 ≤ d.src || 2 ^ 39 ≤ d.dst || 2 ^ 39 ≤ d.next || bitsAt d.ctl 7 5 != 0 || bitsAt d.ctl 16 16 != 0 ||
    (match d.size with
      | none => true
      | some z => d.src % z != 0 || d.dst % z != 0)

/-- The 24 bytes that a write-back stores (R141). -/
def Desc.writeBack (d : Desc) (status : Nat) : List Byte :=
  leBytes 8 d.src ++ leBytes 8 d.dst ++ leBytes 4 d.count ++
    leBytes 4 (d.ctl - bitsAt d.ctl 12 4 * 2 ^ 12 + status % 16 * 2 ^ 12)

/-- The descriptor at a physical address. -/
def State.descAt (s : State) (addr pa : Nat) : Desc :=
  { addr := addr, src := s.readLe pa 8, dst := s.readLe (pa + 8) 8, count := s.readLe (pa + 16) 4,
    ctl := s.readLe (pa + 20) 4, next := s.readLe (pa + 24) 8 }

/-- The descriptor a channel moves. -/
def State.desc (s : State) (n : Nat) : Option Desc := if h : n < 16 then s.dma.ch[n] else none

/-- Keep a channel's descriptor. -/
def State.setDesc (s : State) (n : Nat) (d : Option Desc) : State :=
  if h : n < 16 then { s with dma := { s.dma with ch := s.dma.ch.set n d } } else s

/-- Write a descriptor back; the answer tells whether it could be written (R143). -/
def State.descBack (s : State) (n : Nat) (d : Desc) (status : Nat) : State × Bool :=
  match s.ctxTranslate n d.addr with
  | (s, .page pa leaf) =>
    if regionOf pa == .regs then (s.evAccess (srcOf (pa - 0x40000000)) pa (dmaInitiator n), false)
    else if ctxPermits .store pa leaf && !inPublished pa then (s.writeRun pa (d.writeBack status), true) else (s, false)
  | (s, _) => (s, false)

/-- Show a write-back's result in DMA_CHn_STATE.LAST. -/
def State.descLast (s : State) (n : Nat) (d : Desc) (status : Nat) : State :=
  match s.descBack n d status with
  | (s, ok) => s.putFld (DMA_CH_STATE n) DMA_CH_STATE_LAST (if ok then status else dmaLostWriteback)

/-- The channel is idle and its commands have cleared. -/
def State.dmaIdle (s : State) (n : Nat) : State :=
  (((s.setDesc n none).putFld (DMA_CH_STATE n) DMA_CH_STATE_STATE 0).putFld (DMA_CH_CMD n) DMA_CH_CMD_START 0).putFld
    (DMA_CH_CMD n) DMA_CH_CMD_STOP 0

/-- A channel stops with a status: write-back, DMA_FAULT and an event for a fault, then idle (R142, R144). -/
def State.dmaHalt (s : State) (n : Nat) (d : Desc) (status : Nat) : State :=
  let s := (s.descLast n d status).dmaIdle n
  if 3 ≤ status then ((s.setBit DMA_FAULT n).evState (srcOf DMA_STATUS) n 1 0).irq lineDma else s

/-- Read the descriptor at a virtual address and go on with it; one that cannot be read stops the channel with the code
its read would give at the source, and the write-back stores SRC, DST and COUNT 0 (DESIGN CHOICE, log entry 23; an access fault in
the register space is recorded as R33 says). -/
def State.dmaLoad (s : State) (n addr : Nat) : State :=
  let d : Desc := { addr := addr, src := 0, dst := 0, count := 0, ctl := 0, next := 0 }
  match s.ctxTranslate n addr with
  | (s, .fault) => s.dmaHalt n d 3
  | (s, .machineCheck) => s.dmaHalt n d dmaUeStatus
  | (s, .page pa leaf) =>
    if regionOf pa == .regs then (s.evAccess (srcOf (pa - 0x40000000)) pa (dmaInitiator n)).dmaHalt n d 5
    else if !ctxPermits .load pa leaf then s.dmaHalt n d 5
    else if s.rangeUe pa 32 then (s.reportUe (s.firstUe pa 32)).dmaHalt n d dmaUeStatus
    else
      let d := s.descAt addr pa
      if d.malformed then s.dmaHalt n d dmaMalformed else s.setDesc n (some d)

/-- DMA_CHn_CMD.START (R141, R143). A channel that runs already is not started again (R43). -/
def State.dmaStart (s : State) (n : Nat) : State :=
  if s.isSet (DMA_CH_CMD n) DMA_CH_CMD_START then s
  else
    let addr := s.fld (DMA_CH_DESC n) DMA_CH_DESC_ADDR * 32 + s.fld (DMA_CH_DESCH n) DMA_CH_DESCH_ADDRH * 2 ^ 32
    ((s.flag (DMA_CH_CMD n) DMA_CH_CMD_START).putFld (DMA_CH_STATE n) DMA_CH_STATE_STATE 1).dmaLoad n addr

/-- DMA_CHn_CMD.STOP (R144): no element is in progress between commands. -/
def State.dmaStop (s : State) (n : Nat) : State :=
  match s.desc n with
  | none => s
  | some d => s.dmaHalt n d dmaStopped

/-- COUNT has reached 0 (R144). The low five bits of NEXT are dropped: no STATUS is given for a NEXT that is no multiple of 32 (DESIGN
CHOICE, log entry 139). -/
def State.dmaComplete (s : State) (n : Nat) : State :=
  match s.desc n with
  | none => s
  | some d =>
    if d.count ≠ 0 then s
    else
      let s := (s.descLast n d dmaCompleted).setBit DMA_STATUS n
      let s := if d.ctl.testBit 6 then s.irq lineDma else s
      if d.ctl.testBit 5 then s.dmaLoad n (d.next / 32 * 32) else s.dmaIdle n

/-- The descriptor after one element. -/
def Desc.advance (d : Desc) (z : Nat) : Desc :=
  { d with src := if d.ctl.testBit 3 then d.src else d.src + z, dst := if d.ctl.testBit 4 then d.dst else d.dst + z,
           count := d.count - 1 }

/-- IOMMU_INVALIDATE. -/
def execIommuInvalidate (all : Bool) (ctx : Fin 32) (s : State) : Host.Outcome State Fault Refusal :=
  .next (s.iommuInvalidate all ctx.val)

/-- DMA_START. -/
def execDmaStart (n : Fin 16) (s : State) : Host.Outcome State Fault Refusal := .next (s.dmaStart n.val)

/-- DMA_STOP. -/
def execDmaStop (n : Fin 16) (s : State) : Host.Outcome State Fault Refusal := .next (s.dmaStop n.val)

/-- DMA_DESCRIPTOR_COMPLETE. -/
def execDmaDescriptorComplete (n : Fin 16) (s : State) : Host.Outcome State Fault Refusal := .next (s.dmaComplete n.val)

/-! ### Scrubbing and code digests -/

/-- SCRUB_STEP (R128): a word is read; errors are corrected or reported. -/
def execScrubStep (pa : BitVec 40) (ecc : Ecc) (s : State) : Host.Outcome State Fault Refusal :=
  let a := pa.toNat
  let r := regionOf a
  .next (if r == .image || r == .mram || r == .dram || r == .flash then (s.eccCheck a ecc).1 else s)

/-- A page lies in the active program bank. -/
def State.inProgBank (s : State) (page : Nat) : Bool :=
  decide (progBase s.progBank ≤ page * 4096) && decide (page * 4096 < progBase (s.progBank + 1))

/-- The tasks whose mapping includes a page of the active program bank (R129). -/
def State.tasksMapping (s : State) (page : Nat) : List Nat :=
  s.taskNumbers.filter fun n => match s.taskProg n with
    | some tp => tp.pages.contains (page * 4096 - progBase s.progBank)
    | none => false

/-- CODE_DIGEST_CHECK (R129): a mismatch is shown, counted and recorded, and faults the tasks at the next tick. -/
def execCodeDigestCheck (page : BitVec 28) (good : Bool) (s : State) : Host.Outcome State Fault Refusal :=
  .next (if good || !s.inProgBank page.toNat then s
    else
      let p := page.toNat
      let s := s.setChange { s.change with failedPages := if s.change.failedPages.contains p then s.change.failedPages else p :: s.change.failedPages }
      let s := ((s.flag MMU_STATUS MMU_STATUS_DIGEST).bump MMU_DIGEST_FAIL).event (srcOf MMU_STATUS) 0x0101 sevCritical [p] true
      s.forEach (s.tasksMapping p) fun n t => t.modTask n fun k =>
        { k with digestFault := true, badPages := if k.badPages.contains p then k.badPages else p :: k.badPages })

/-- CODE_PAGE_RELOAD (R129): the page is written again from the program bank in flash and its digest is checked again. -/
def execCodePageReload (page : BitVec 28) (data : List Byte) (good : Bool) (s : State) :
    Host.Outcome State Fault Refusal :=
  let p := page.toNat
  if !s.change.failedPages.contains p then .next s
  else
    let s := s.writeRun (p * 4096) (data.take 4096)
    .next (if good then
        (s.forEach allTasks fun n t => t.modTask n fun k => { k with badPages := k.badPages.filter (· != p) }).setChange
          { s.change with failedPages := s.change.failedPages.filter (· != p) }
      else s)

end Sys2Proof.Machine
end

