-- ==== Sys2Proof/Machine/Operands.lean ====
section
/-!
DEFINITION. Operand forms of the Helin instructions: registers, immediates, the words of the instructions (R63), and
the integer register operations (R73).
-/

namespace Sys2Proof.Machine

/-! ### Registers -/

/-- A general register; h0 reads 0 (R55). -/
def Core.geth (k : Core) (r : BitVec 5) : DWord := if r = 0 then 0 else k.h[r.toNat]'r.isLt

/-- Write a general register; a write to h0 is discarded (R55). -/
def Core.seth (k : Core) (r : BitVec 5) (v : DWord) : Core :=
  if r = 0 then k else { k with h := k.h.set r.toNat v r.isLt }

/-- A floating-point register. -/
def Core.getf (k : Core) (r : BitVec 5) : DWord := k.f[r.toNat]'r.isLt

/-- Write a floating-point register. -/
def Core.setf (k : Core) (r : BitVec 5) (v : DWord) : Core := { k with f := k.f.set r.toNat v r.isLt }

/-- The binary32 value of a floating-point register, with bits [63:32] ignored (R56). -/
def Core.getf32 (k : Core) (r : BitVec 5) : Word := (k.getf r).setWidth 32

/-- Write a binary32 value: bits [63:32] become 0 (R56). -/
def Core.setf32 (k : Core) (r : BitVec 5) (v : Word) : Core := k.setf r (v.setWidth 64)

/-! ### Immediates (R65) -/

/-- A sign-extended 17-bit immediate or offset. -/
def sext17 (i : BitVec 17) : DWord := i.signExtend 64
/-- A zero-extended 17-bit immediate. -/
def zext17 (i : BitVec 17) : DWord := i.setWidth 64
/-- The value LUI writes: the immediate at bits [31:15], sign-extended from bit 31. -/
def luiValue (i : BitVec 17) : DWord := ((i.setWidth 32 <<< 15 : Word)).signExtend 64
/-- A branch displacement in bytes: the word offset times 4. -/
def branchDisp (o : BitVec 17) : DWord := sext17 o <<< 2
/-- The displacement of JAL in bytes. -/
def jalDisp (o : BitVec 27) : DWord := o.signExtend 64 <<< 2

/-! ### Instruction words (R63) -/

/-- Format A. -/
def encA (major : Nat) (rd ra rb : BitVec 5) (func : BitVec 12) : Word :=
  BitVec.ofNat 32 (major <<< 27 + rd.toNat <<< 22 + ra.toNat <<< 17 + rb.toNat <<< 12 + func.toNat)
/-- Formats I, M, B and P: two register fields and 17 bits. -/
def encI (major : Nat) (r1 r2 : BitVec 5) (low : BitVec 17) : Word :=
  BitVec.ofNat 32 (major <<< 27 + r1.toNat <<< 22 + r2.toNat <<< 17 + low.toNat)
/-- Format J. -/
def encJ (major : Nat) (low : BitVec 27) : Word := BitVec.ofNat 32 (major <<< 27 + low.toNat)
/-- Format S with major SYS. -/
def encS (r : BitVec 5) (sr : BitVec 10) (func : BitVec 12) : Word :=
  BitVec.ofNat 32 (30 <<< 27 + r.toNat <<< 22 + sr.toNat <<< 12 + func.toNat)
/-- A PAN word: operation in [16:14], analog index in [13:0] (R94). -/
def encPan (rd rq : BitVec 5) (op : Nat) (idx : BitVec 14) : Word :=
  encI 28 rd rq (BitVec.ofNat 17 (op <<< 14 + idx.toNat))
/-- The word of an instruction as sr.TVAL holds it. -/
def wordTval (w : Word) : DWord := w.setWidth 64

/-- Size of a load or store in bytes (R76). -/
def sizeBytes : Size → Nat
  | .byte => 1
  | .half => 2
  | .word => 4
  | .dword => 8

/-- Number of a size in the major opcode map and in the kinds of R106. -/
def sizeIndex : Size → Nat
  | .byte => 0
  | .half => 1
  | .word => 2
  | .dword => 3

/-! ### Integer register operations (R73, R74) -/

/-- What an OP instruction answers. -/
inductive IntRes where
  | value (v : DWord)
  /-- A reserved encoding. -/
  | illegal
  | divideByZero
  | overflow
  deriving DecidableEq, Repr

/-- The low 32 bits. -/
def lo32 (x : DWord) : Word := x.setWidth 32
/-- A 32-bit result, sign-extended. -/
def sx32 (x : Word) : DWord := x.signExtend 64
/-- A truth value as a register value. -/
def boolWord (b : Bool) : DWord := if b then 1 else 0
/-- Whether an exact signed result fits 64 bits. -/
def fits64 (i : Int) : Bool := decide (-(2 ^ 63 : Int) ≤ i) && decide (i < (2 ^ 63 : Int))
/-- Leading zero bits of the low `n` bits of a number. -/
def leadingZeros : Nat → Nat → Nat
  | 0, _ => 0
  | n + 1, x => if x.testBit n then 0 else 1 + leadingZeros n x
/-- Trailing zero bits among the low `n` bits of a number. -/
def trailingZeros : Nat → Nat → Nat
  | 0, _ => 0
  | n + 1, x => if x.testBit 0 then 0 else 1 + trailingZeros n (x / 2)
/-- One bits among the low `n` bits of a number. -/
def popCount : Nat → Nat → Nat
  | 0, _ => 0
  | n + 1, x => x % 2 + popCount n (x / 2)

/-- Division of R74 in one width: zero divisors trap, the most negative value by -1 gives itself with remainder 0. -/
def divRes {w : Nat} (sx : BitVec w → DWord) (signed rem : Bool) (a b : BitVec w) : IntRes :=
  if b = 0 then .divideByZero
  else .value (sx (match signed, rem with
    | true, false => a.sdiv b
    | true, true => a.srem b
    | false, false => a.udiv b
    | false, true => a.umod b))

/-- The result of an operation with a checked signed result. -/
def checked (i : Int) : IntRes := if fits64 i then .value (BitVec.ofInt 64 i) else .overflow

/-- An operation whose rb field must hold 0 (R64). -/
def unary (rb : BitVec 5) (v : DWord) : IntRes := if rb = 0 then .value v else .illegal

/-- The OP operations of R73. `a` and `b` are h[ra] and h[rb], `rb` the field itself. -/
def opEval (func : BitVec 12) (a b : DWord) (rb : BitVec 5) : IntRes :=
  let amt := b.toNat % 64
  let amtW := b.toNat % 32
  let shi := rb.toNat + 32 * (func.toNat % 2)
  match func.toNat with
  | 0x000 => .value (a + b)
  | 0x001 => .value (a - b)
  | 0x002 => .value (a &&& b)
  | 0x003 => .value (a ||| b)
  | 0x004 => .value (a ^^^ b)
  | 0x005 => .value (a <<< amt)
  | 0x006 => .value (a >>> amt)
  | 0x007 => .value (a.sshiftRight amt)
  | 0x008 => .value (boolWord (a.slt b))
  | 0x009 => .value (boolWord (a.ult b))
  | 0x00A => .value (if a.slt b then a else b)
  | 0x00B => .value (if a.slt b then b else a)
  | 0x00C => .value (if a.ult b then a else b)
  | 0x00D => .value (if a.ult b then b else a)
  | 0x00E => .value (~~~(a ||| b))
  | 0x010 => .value (a * b)
  | 0x011 => .value (BitVec.ofInt 64 (a.toInt * b.toInt / 2 ^ 64))
  | 0x012 => .value (BitVec.ofNat 64 (a.toNat * b.toNat / 2 ^ 64))
  | 0x014 => divRes id true false a b
  | 0x015 => divRes id false false a b
  | 0x016 => divRes id true true a b
  | 0x017 => divRes id false true a b
  | 0x020 => .value (sx32 (lo32 a + lo32 b))
  | 0x021 => .value (sx32 (lo32 a - lo32 b))
  | 0x025 => .value (sx32 (lo32 a <<< amtW))
  | 0x026 => .value (sx32 (lo32 a >>> amtW))
  | 0x027 => .value (sx32 ((lo32 a).sshiftRight amtW))
  | 0x030 => .value (sx32 (lo32 a * lo32 b))
  | 0x034 => divRes sx32 true false (lo32 a) (lo32 b)
  | 0x035 => divRes sx32 false false (lo32 a) (lo32 b)
  | 0x036 => divRes sx32 true true (lo32 a) (lo32 b)
  | 0x037 => divRes sx32 false true (lo32 a) (lo32 b)
  | 0x040 => checked (a.toInt + b.toInt)
  | 0x041 => checked (a.toInt - b.toInt)
  | 0x042 => checked (a.toInt * b.toInt)
  | 0x050 => unary rb (BitVec.ofNat 64 (leadingZeros 64 a.toNat))
  | 0x051 => unary rb (BitVec.ofNat 64 (trailingZeros 64 a.toNat))
  | 0x052 => unary rb (BitVec.ofNat 64 (popCount 64 a.toNat))
  | 0x058 => unary rb ((a.setWidth 8).signExtend 64)
  | 0x059 => unary rb ((a.setWidth 16).signExtend 64)
  | 0x05A => unary rb (sx32 (lo32 a))
  | 0x05B => unary rb ((a.setWidth 8).setWidth 64)
  | 0x05C => unary rb ((a.setWidth 16).setWidth 64)
  | 0x05D => unary rb ((lo32 a).setWidth 64)
  | 0x060 | 0x061 => .value (a <<< shi)
  | 0x062 | 0x063 => .value (a >>> shi)
  | 0x064 | 0x065 => .value (a.sshiftRight shi)
  | 0x068 => .value (sx32 (lo32 a <<< rb.toNat))
  | 0x06A => .value (sx32 (lo32 a >>> rb.toNat))
  | 0x06C => .value (sx32 ((lo32 a).sshiftRight rb.toNat))
  | _ => .illegal

/-- Whether a branch is taken (R75). -/
def condHolds (c : Cond) (a b : DWord) : Bool :=
  match c with
  | .eq => a == b
  | .ne => a != b
  | .lt => a.slt b
  | .ge => !a.slt b

/-- Number of a branch condition in the major opcode map (R66). -/
def condIndex : Cond → Nat
  | .eq => 0
  | .ne => 1
  | .lt => 2
  | .ge => 3

end Sys2Proof.Machine
end

