-- ==== Sys2Proof/Machine/Trap.lean ====
section
/-!
DEFINITION. Taking a trap or an interrupt (R70 to R72, R101), and the path every Helin instruction takes: fetch, its
own effect, and retirement or trap (R67, R69).
-/

namespace Sys2Proof.Machine

/-- What the effect of an instruction ends in. -/
inductive HRes where
  /-- Completed: the next instruction follows. -/
  | done (s : State)
  /-- Completed with another next address. -/
  | jump (s : State) (target : DWord)
  /-- A trap in the sense of R67. The state holds what the memory checks recorded, and nothing of the instruction. -/
  | trap (s : State) (code : Nat) (tval : DWord)
  /-- Completed with an entry to K (R101). -/
  | enter (s : State) (code : Nat) (tval : DWord)
  /-- Completed with an entry to K from which the runtime resumes the task at once (R109). -/
  | service (s : State) (code : Nat) (tval : DWord)
  deriving Repr

/-- Trap entry (R70). `tpc` is the address saved, `off` the offset from the vector base. -/
def Core.trapEntry (k : Core) (cause tval tpc : DWord) (off : Nat) : Core :=
  { k with
    tstatus := k.status
    tpc := tpc
    tcause := cause
    tval := tval
    status := 5
    pc := (k.tvec &&& ~~~0xFFF) + BitVec.ofNat 64 off }

/-- A double trap: the core stops fetching, and the LANE block reports a core fault (R71). The rule names sr.TPC as not
written; that sr.TCAUSE, sr.TVAL, sr.TSTATUS and sr.STATUS keep their values too is the model's choice (DESIGN CHOICE, log
entry 114). -/
def State.doubleTrap (s : State) (c : Fin 12) : State :=
  ((s.modCore c fun k => { k with run := .stopped }).coreFault c).settle

/-- A synchronous trap or an entry of R101. -/
def State.takeTrap (s : State) (c : Fin 12) (code : Nat) (tval tpc : DWord) (off : Nat) : State :=
  if s.cores[c].td then s.doubleTrap c
  else s.modCore c fun k => k.trapEntry (BitVec.ofNat 64 code) tval tpc off

/-- Take an interrupt line: the next instruction not executed is saved and the line is no longer pending (R70, R72). -/
def State.takeInterrupt (s : State) (c : Fin 12) (line : Nat) : State :=
  s.modCore c fun k =>
    { k.trapEntry (BitVec.ofNat 64 (0x80000000 + line)) 0 k.pc 0x100 with
      run := .running
      lines := k.lines &&& ~~~(BitVec.ofNat 12 (2 ^ line)) }

/-- Return from a trap (R70). Reserved bits of sr.STATUS stay 0. -/
def Core.trapReturn (k : Core) : Core := { k with status := k.tstatus &&& 7, pc := k.tpc }

/-! ### The checkpoint signature (R106) -/

/-- The 17 bytes of one element. -/
def sigElement (addr kind data : Nat) : List Byte := leBytes 8 addr ++ leBytes 1 kind ++ leBytes 8 data

/-- Fold one element into the accumulator. -/
def Core.foldElement (k : Core) (addr kind data : Nat) : Core :=
  let e := sigElement addr kind data
  { k with cksigl := crc64Fold k.cksigl e, cksigh := crc64Fold k.cksigh e.reverse }

/-- A core executes a K-level routine of the task open on it: its pc lies in code that the task maps. The runtime's own code does not
(DEDUCED from R58 and R106, log entry 21). -/
def State.taskRoutine (s : State) (c : Fin 12) : Bool :=
  let k := s.cores[c]
  k.xlate.getLsbD 0 && (s.taskProg (k.taskid.toNat % 64)).elim false fun tp => tp.kCode && tp.maps.any fun m =>
    m.x && decide (m.va ≤ k.pc.toNat) && decide (k.pc.toNat < m.va + 2 ^ pageBits m.level)

/-- A store is folded while a cycle is open, at T, and at K in a routine of the task: a store of the runtime is not one of the task
(R106). `own`: the core executes such a routine. -/
def Core.foldStore (k : Core) (own : Bool) (addr kind data : Nat) : Core :=
  if k.isOpen && (!k.atK || own) then k.foldElement addr kind data else k

/-! ### Fault reports (R165, R177) -/

/-- The fault report of a core for the cycle open on it. -/
def State.faultRecord (s : State) (c : Fin 12) (cause tval : DWord) (call : Option (Nat × Nat)) : Record :=
  let k := s.cores[c]
  { task := k.taskid.toNat % 64, fault := true, lane := laneOf c, epoch := k.pepoch.toNat % 65536,
    release := k.frelease.toNat, sig := 0, cause := cause, tval := tval, image := [], crc := 0, okX := true, okY := true,
    onTime := !((s.task (k.taskid.toNat % 64)).cycle.elim true (·.late)), call := call }

/-- The cycle open on a core ends there (R161). -/
def State.leaveCycle (s : State) (c : Fin 12) : State :=
  let n := s.cores[c].taskid.toNat % 64
  match (s.task n).cycle with
  | none => s
  | some cy => s.setOpenOn n (cy.openOn.filter (· != c))

/-- A task fault on one core: a fault report takes the place of a checkpoint, and the cycle ends there (R165). -/
def State.reportFault (s : State) (c : Fin 12) (cause tval : DWord) (call : Option (Nat × Nat)) : State :=
  let r := s.faultRecord c cause tval call
  ((s.sendRecord c r).leaveCycle c).modCore c fun k => { k with ckstate := 0 }

/-- A synchronous trap of an instruction. One taken at T while a cycle is open is a task fault (R165). -/
def State.syncTrap (s : State) (c : Fin 12) (code : Nat) (tval tpc : DWord) : State :=
  let fault := !s.cores[c].atK && s.cores[c].isOpen && !s.cores[c].td
  let s := if fault then s.reportFault c (BitVec.ofNat 64 code) tval none else s
  s.takeTrap c code tval tpc 0

/-! ### Fetch and retirement -/

/-- What a fetch ends in. -/
inductive Fetched where
  | ok
  | trap (code : Nat)
  deriving DecidableEq, Repr

/-- The fetch of an instruction: alignment, translation, permission, machine check (R69, R70). The word it delivers is
the command's operand. -/
def State.fetch (s : State) (x : Site) : State × Fetched :=
  let k := s.cores[x.core]
  if k.pc.toNat % 4 ≠ 0 then (s, .trap 0x04)
  else match s.translate x.core k.pc with
    | (s, .fault) => (s, .trap 0x02)
    | (s, .machineCheck) => (s, .trap 0x0E)
    | (s, .page pa leaf) =>
      if !permitted .fetch k.atK pa leaf then (s, .trap 0x03)
      else match s.memCheck x.core pa x.fetchL1 x.fetchEcc with
        | (s, true) => (s, .trap 0x0E)
        | (s, false) => (s, .ok)

/-- An instruction retires: the next address, the counters (R61). -/
def Core.retire (k : Core) (next : DWord) (cycles : Nat) : Core :=
  { k with pc := next, instret := k.instret + 1, corecyc := k.corecyc + 1 + BitVec.ofNat 64 cycles }

/-- A core retires its instruction. The clock cycles it took are free (R87). -/
def State.retire (s : State) (c : Fin 12) (next : DWord) : State :=
  (s.modCore c fun k => k.retire next (Config.cycles s.free)).tickFree

/-- The effect of the instruction fetched: a word that spells none raises the illegal-instruction trap (R66, R85). -/
def State.fetchedBody (s : State) (x : Site) (body : State → HRes) : HRes :=
  match x.word with
  | some w => if (decodeHelin x w).isNone then .trap s 0x00 (wordTval w) else body s
  | none => body s

/-- Execute an instruction on a running core: its fetch, then its effect, then retirement or a trap. A core that does
not run executes nothing. -/
def State.helin (s : State) (x : Site) (body : State → HRes) : State :=
  if s.cores[x.core].run ≠ .running then s
  else
    let pc := s.cores[x.core].pc
    match s.fetch x with
    | (s, .trap code) => s.syncTrap x.core code pc pc
    | (s, .ok) =>
      match s.fetchedBody x body with
      | .done s => s.retire x.core (pc + 4)
      | .jump s target => s.retire x.core target
      | .trap s code tval => s.syncTrap x.core code tval pc
      | .enter s code tval => (s.retire x.core (pc + 4)).takeTrap x.core code tval (pc + 4) 0x200
      | .service s code tval =>
        let t := (s.retire x.core (pc + 4)).takeTrap x.core code tval (pc + 4) 0x200
        if s.cores[x.core].td then t else t.modCore x.core Core.trapReturn

/-- An effect on the core alone. -/
def State.onCore (s : State) (x : Site) (g : Core → Core) : HRes := .done (s.modCore x.core g)

end Sys2Proof.Machine
end

