-- ==== Sys2Proof/Machine/Memory.lean ====
section
/-!
DEFINITION. Loads and stores of memory, the floating-point loads and stores, and the memory atomics (R76 to R80).
-/

namespace Sys2Proof.Machine

/-- Effective address of a load or store: h[ra] + sext(offset17). -/
def Core.effAddr (k : Core) (ra : BitVec 5) (off : BitVec 17) : DWord := k.geth ra + sext17 off

/-- Kind of an element of R106 by the size of the store. -/
def storeKind (size : Nat) : Nat := if size = 1 then 0 else if size = 2 then 1 else if size = 4 then 2 else 3

/-- The number of `size` bytes at an address of memory, read for a core: none on a machine check. -/
def State.loadMem (s : State) (x : Site) (pa size : Nat) : State × Option Nat :=
  match s.memCheck x.core pa x.dataL1 x.dataEcc with
  | (s, true) => (s, none)
  | (s, false) => (s, some (s.readLe pa size))

/-- A line of lane data or retained variables that a task stores to belongs to the frame record (R388): task, region and
line as one number. -/
def State.noteLine (s : State) (c : Fin 12) (pa : Nat) : State :=
  match laneRegion pa with
  | some (_, base, w) =>
    if s.cores[c].atK || w == 13 then s
    else s.copyItem 2 ((s.cores[c].taskid.toNat % 64 * 2 + bit (w == 14)) * 2 ^ 32 + (pa - base) / 64)
  | none => s

/-- Store `size` bytes to memory for a core and fold them. A partial store reads its word first: on a machine check
nothing is stored (R114). -/
def State.storeMem (s : State) (x : Site) (pa size : Nat) (va : DWord) (v : Nat) : State × Bool :=
  let put (s : State) : State :=
    ((s.writePart pa (leBytes size v)).noteLine x.core pa).modCore x.core fun k => k.foldStore (s.taskRoutine x.core) va.toNat (storeKind size) (v % 2 ^ (8 * size))
  if size = 8 then (put s, true)
  else match s.memCheck x.core pa x.dataL1 x.dataEcc with
    | (s, true) => (s, false)
    | (s, false) => (put s, true)

/-- A load from memory: `keep` writes the register. -/
def State.loadInto (s : State) (x : Site) (va : DWord) (size : Nat) (keep : Nat → Core → Core) : HRes :=
  match s.dataAddr x.core .load va size false with
  | (s, .trap code) => .trap s code va
  | (s, .at pa) =>
    match s.loadMem x pa size with
    | (s, none) => .trap s 0x0E va
    | (s, some v) => .done (s.modCore x.core (keep v))

/-- A store to memory. -/
def State.storeFrom (s : State) (x : Site) (va : DWord) (size v : Nat) : HRes :=
  match s.dataAddr x.core .store va size false with
  | (s, .trap code) => .trap s code va
  | (s, .at pa) =>
    match s.storeMem x pa size va v with
    | (s, true) => .done s
    | (s, false) => .trap s 0x0E va

/-- FLW, FLD. -/
def execFload (x : Site) (dbl : Bool) (rd ra : BitVec 5) (off : BitVec 17) (s : State) : Host.Outcome State Fault Refusal :=
  .next (s.helin x fun s =>
    s.loadInto x (s.cores[x.core].effAddr ra off) (if dbl then 8 else 4) fun v k => k.setf rd (BitVec.ofNat 64 v))

/-- FSW, FSD. -/
def execFstore (x : Site) (dbl : Bool) (rs ra : BitVec 5) (off : BitVec 17) (s : State) :
    Host.Outcome State Fault Refusal :=
  .next (s.helin x fun s =>
    let k := s.cores[x.core]
    let size := if dbl then 8 else 4
    s.storeFrom x (k.effAddr ra off) size ((k.getf rs).toNat % 2 ^ (8 * size)))

/-! ### Atomics (R79, R80) -/

/-- What memory becomes: operation number, old value, h[rb], h[rd], each cut to the width. -/
def atomResult (op w old b d : Nat) : Nat :=
  match op with
  | 0 => b
  | 1 => (old + b) % 2 ^ w
  | 2 => old &&& b
  | 3 => old ||| b
  | _ => if old = d then b else old

/-- ATOM. A write that meets an uncorrectable fault has changed memory when the trap is taken. -/
def execAtom (x : Site) (func : BitVec 12) (rd ra rb : BitVec 5) (s : State) : Host.Outcome State Fault Refusal :=
  .next (s.helin x fun s =>
    let k := s.cores[x.core]
    let n := func.toNat
    if 10 ≤ n then .trap s 0x00 (wordTval (encA 25 rd ra rb func))
    else
      let size := if n % 2 = 0 then 8 else 4
      let w := 8 * size
      let va := k.geth ra
      match s.dataAddr x.core .atomic va size false with
      | (s, .trap code) => .trap s code va
      | (s, .at pa) =>
        match s.loadMem x pa size with
        | (s, none) => .trap s 0x0E va
        | (s, some old) =>
          let v := atomResult (n / 2) w old ((k.geth rb).toNat % 2 ^ w) ((k.geth rd).toNat % 2 ^ w)
          let s := (s.writePart pa (leBytes size v)).noteLine x.core pa
          if x.dataEcc = .writeFault then .trap ((s.markUe pa).reportUe pa) 0x0E va
          else .done (s.modCore x.core fun k =>
            (k.foldStore (s.taskRoutine x.core) va.toNat (storeKind size) v).seth rd
              (if size = 4 then sx32 (BitVec.ofNat 32 old) else BitVec.ofNat 64 old)))

end Sys2Proof.Machine
end

