-- ==== Sys2Proof/Machine/Bus.lean ====
section
/-!
DEFINITION. The register port: what an access to the register space reaches, what a read shows, what a write does
(02_register_conventions.md, 24_register_map.md), the loads and stores that can reach it, and the DMA elements.
-/

namespace Sys2Proof.Machine

/-! ### Decoding (R52, R53, R507) -/

/-- A number with its highest set bit cleared. -/
def dropTop (e : Nat) : Nat := e - 2 ^ e.log2

/-- The implemented offset that an effective offset names: the highest set bit is cleared until a register is there. -/
def Block.resolve (b : Block) : Nat → Nat → Nat
  | 0, e => e
  | n + 1, e => if (b.rowAt e).isSome then e else b.resolve n (dropTop e)

/-- The register an access at an offset in the register space reaches; none in an empty window. -/
def aliasOf (a : Nat) : Option Nat :=
  (blockAt (a / 0x10000)).map fun b => a / 0x10000 * 0x10000 + b.resolve 16 (a % 0x10000 &&& b.mask)

/-- The number of an initiator in an access-fault event (DESIGN CHOICE, log entry 24). -/
def initiatorNumber : Initiator → Nat
  | .core c => c.val
  | .dma n => 32 + n.val
  | .lap _ => 80
  | .bellows => 96

/-- The key of an access of the SMAP window in the Signal Map Table (R303): entry and word; none outside the window. -/
def State.smapKey (s : State) (a : Nat) : Option Nat :=
  if 0x211000 ≤ a ∧ a < 0x212000 then some (4 * (s.fld SMAP_PAGE SMAP_PAGE_PAGE * 256) + (a - 0x211000) / 4) else none

/-- A word of a reserved consist entry or of a reserved station (R261): reads 0 and ignores writes. -/
def reservedWord (a : Nat) : Bool :=
  let n := a / 0x10000 - 0x10
  let e := a % 0x10000
  decide (0x10 ≤ a / 0x10000) && decide (n < 6) &&
    ((decide (0x1000 ≤ e) && decide (e < 0x2000) && ((e - 0x1000) / 16 == 0 || (e - 0x1000) / 16 == 255)) ||
      (decide (0x2000 ≤ e) && decide (e < 0x2400) && ((e - 0x2000) / 4 == 0 || (e - 0x2000) / 4 == 255)))

/-- What a read of an implemented register shows (R34). Copies of other registers are formed at the read. -/
def State.shown (s : State) (a : Nat) : Word :=
  if a = SYS_STATUS then
    let copy (x : Word) (f : Field) (b : Bool) : Word := f.put (bit b) x
    copy (copy (copy (copy (s.reg a) SYS_STATUS_TRIAL (s.isSet UPD_STATUS UPD_STATUS_TRIAL)) SYS_STATUS_STANDBY s.standby)
      SYS_STATUS_CMPFAULT (s.isSet ANX_STATUS ANX_STATUS_CMPFAULT || s.isSet ANY_STATUS ANY_STATUS_CMPFAULT)) SYS_STATUS_SAFEFAIL
      (s.isSet LANE_STATUS LANE_STATUS_SAFEFAIL)
  else if a = SEC_CERTLEN then (Config.certLength (s.fld SEC_CERTSEL SEC_CERTSEL_SEL % 3)).setWidth 32
  else if SEC_CERT 0 ≤ a ∧ a ≤ SEC_CERT 255 then Config.certWord (s.fld SEC_CERTSEL SEC_CERTSEL_SEL % 3) ((a - SEC_CERT 0) / 4)
  else if reservedWord a then 0
  else match s.smapKey a with
    | some k => sparseGet (fun _ => 0) s.smap k
    | none => s.reg a

/-! ### Writing (R38, R42, R43, R45) -/

/-- The register after a write: RW bits take the value, W1C bits written 1 are cleared, every other bit stays. -/
def RegRow.written (r : RegRow) (old v : Word) : Word :=
  let w : Word := BitVec.ofNat 32 r.rw
  let c : Word := BitVec.ofNat 32 r.w1c
  ((old &&& ~~~w) ||| (v &&& w)) &&& ~~~(v &&& c)

/-- A write to fields without behaviour of their own. -/
def State.storeReg (s : State) (a : Nat) (r : RegRow) (v : Word) : State := s.setReg a (r.written (s.reg a) v)

/-- Issue a command when its GO bit is written 1 (R43). -/
def State.go (s : State) (v : Word) (f : Field) (act : State → State) : State := s.when (f.get v != 0) act

/-- A write through the SMAP window: the caches of the stations that the entry named and names are discarded (R312). A write that
enables an entry which R305 does not allow is refused. -/
def State.writeSmap (s : State) (key : Nat) (r : RegRow) (v : Word) : State :=
  let drop (t : State) : State := t.dropCache (t.signal (key / 4)).ring (t.signal (key / 4)).station
  let d : Nat → Word := fun _ => 0
  let t : State := { drop s with smap := sparseSet d s.smap key (r.written (sparseGet d s.smap key) v) }
  if !s.signalEnabled (key / 4) && t.signalEnabled (key / 4) && !t.entryAllowed (key / 4) then
    s.evRefused (srcOf SMAP_STATUS) (key / 4) 1
  else drop t

/-- Block FRM. -/
def State.writeFrm (s : State) (a : Nat) (r : RegRow) (v : Word) : State :=
  if a = FRM_CTRL then (if FRM_CTRL_RUN.get v ≠ 0 then s.frmStart else s.frmStop)
  else
    let t := s.storeReg a r v
    if a = FRM_PERIOD ∨ a = FRM_PHASE then t.refreshPpend
    else if FRM_TSTAT 0 ≤ a ∧ a ≤ FRM_TSTAT 63 ∧ a % 16 = 12 then t.go v FRM_TSTAT_RESTART fun t => t.taskRestartGo ((a - FRM_TSTAT 0) / 16)
    else if FRM_TCFG 0 ≤ a ∧ a ≤ FRM_TCFG 63 ∧ a % 16 = 4 then t.showMove ((a - FRM_TCFG 0) / 16)
    else t

/-- ANV_EPRST: a write in either block acts on both (R193). -/
def State.writeEprst (s : State) (v : Word) : State :=
  let n := ANX_EPRST_TASK.get v
  ((s.putFld ANX_EPRST ANX_EPRST_TASK n).putFld ANY_EPRST ANY_EPRST_TASK n).go v ANX_EPRST_GO fun t => t.eprstGo n

/-- Block LANE. -/
def State.writeLane (s : State) (a : Nat) (r : RegRow) (v : Word) : State :=
  let t := s.storeReg a r v
  if a = LANE_QUENCH then t.go v LANE_QUENCH_GO fun t => t.commandQuench.settle
  else if LANE_MODE 0 ≤ a ∧ a ≤ LANE_MODE 3 then t.go v LANE_MODE_GO fun t => t.modeGo ((a - LANE_MODE 0) / 4)
  else t

/-- Blocks MMU and DMA. -/
def State.writeMem (s : State) (a : Nat) (r : RegRow) (v : Word) : State :=
  let t := s.storeReg a r v
  if a = MMU_IOINV then t.go v MMU_IOINV_INV fun t => t.iommuInvalidate (MMU_IOINV_ALL.get v != 0) (MMU_IOINV_CTX.get v)
  else if DMA_CH_CMD 0 ≤ a ∧ a % 16 = 8 then
    let n := (a - DMA_CH_CMD 0) / 16
    (t.go v DMA_CH_CMD_START fun t => t.dmaStart n).go v DMA_CH_CMD_STOP fun t => t.dmaStop n
  else t

/-- Block SOPn (R251): EN acts at once. -/
def State.writeSop (s : State) (a : Nat) (r : RegRow) (v : Word) : State :=
  let n := a / 0x10000 - 0x10
  if h : n < 6 then
    if reservedWord a then s
    else if a = SOP_CTRL n then
      let en := SOP_CTRL_EN.get v
      let t := s.storeReg a r (SOP_CTRL_EN.put (s.fld a SOP_CTRL_EN) v)
      if en ≠ 0 then t.ringEnable ⟨n, h⟩ else t.when (t.isSet a SOP_CTRL_EN) fun t => t.ringDisable ⟨n, h⟩
    else s.storeReg a r v
  else s

/-- A user calibration or a setting of the pair is kept in MRAM too (R290, R372, R374, R447). -/
def State.keepCalib (s : State) (g : Calibration → Calibration) : State := { s with calib := g s.calib }

/-- Block TIME. -/
def State.writeTime (s : State) (a : Nat) (r : RegRow) (v : Word) : State :=
  let t := s.storeReg a r v
  if a = TIME_CTRL then t.sourceOff
  else if a = TIME_STEPCMD then t.go v TIME_STEPCMD_GO State.stepCommand
  else if a = TIME_CAPT then t.go v TIME_CAPT_GO State.clockCapture
  else if a = TIME_PTPCFG then
    let moved (p : Nat) : Bool := s.ptpMode != t.ptpMode ||
      bitAt (s.fld a TIME_PTPCFG_PORTEN) p != bitAt (t.fld a TIME_PTPCFG_PORTEN) p
    (t.forEach ([0, 1, 2, 3].filter moved) fun p u => u.restartPort p).decideRoles
  else if TIME_ULAT 0 ≤ a ∧ a ≤ TIME_ULAT 15 then
    t.keepCalib fun k => { k with ulat := Vector.ofFn fun p => t.reg (TIME_ULAT p.val), ulatOk := true }
  else t

/-- Block BKBn (R511): EN acts at once. -/
def State.writeBkb (s : State) (a : Nat) (r : RegRow) (v : Word) : State :=
  let p := a / 0x10000 - 0x19
  let t := s.storeReg a r v
  t.when (a == BKB_CTRL p && s.isSet a BKB_CTRL_EN && !t.isSet a BKB_CTRL_EN) fun t => t.portOff p

/-- Blocks BRG and SMAP. -/
def State.writeBrg (s : State) (a : Nat) (r : RegRow) (v : Word) : State :=
  match s.smapKey a with
  | some key => s.writeSmap key r v
  | none =>
    let t := s.storeReg a r v
    t.when (a == BRG_CTRL && s.isSet a BRG_CTRL_EN && !t.isSet a BRG_CTRL_EN) State.bridgeOff

/-- Block MBX (R426): every access carries the identity of its initiator. -/
def State.writeMbx (s : State) (who : Initiator) (a : Nat) (r : RegRow) (v : Word) : State :=
  let id := identityOf who
  let e := a % 0x10000
  if a = MBX_EPRST then s.mbxEprst id v
  else if MBX_BIND 0 ≤ a ∧ a ≤ MBX_BIND 31 then s.mbxBind id ((e - 0x80) / 4) v
  else if 0x100 ≤ e ∧ e < 0x900 then
    let c := (e - 0x100) / 0x40
    match (e - 0x100) % 0x40 with
    | 0x00 => s.mbxHdr id c v
    | 0x34 => s.mbxCmd id c v
    | 0x38 => s.mbxStat id c v
    | 0x3C => s
    | _ => s.mbxStore id c a v 0xFFFFFFFF
  else s.storeReg a r v

/-- Block CPL: CPL_CFG acts from the next module reset on (R385). -/
def State.writeCpl (s : State) (a : Nat) (r : RegRow) (v : Word) : State :=
  let t := s.storeReg a r v
  if a = CPL_CFG then t.keepCalib fun k => { k with cpl := t.reg CPL_CFG }
  else if a = CPL_COMMAND then t.go v CPL_COMMAND_SWITCH State.plannedSwitch
  else t

/-- Blocks DIO, LOOP and SAF. -/
def State.writeLio (s : State) (a : Nat) (r : RegRow) (v : Word) : State :=
  let t := s.storeReg a r v
  if a = DIO_DOCLR then t.go v DIO_DOCLR_GO State.doClear
  else if a = LOOP_CLR then t.go v LOOP_CLR_GO State.loopClear
  else if a = SAF_TPCTRL then t.go v SAF_TPCTRL_TEST State.issueTest
  else if DIO_DIUCAL 0 ≤ a ∧ a ≤ DIO_DIUCAL 15 then
    t.keepCalib fun k => { k with di := Vector.ofFn fun i => t.reg (DIO_DIUCAL i.val), diOk := true }
  else if LOOP_UCAL 0 ≤ a ∧ a ≤ LOOP_UCAL 3 then
    t.keepCalib fun k => { k with loop := Vector.ofFn fun c => t.reg (LOOP_UCAL c.val), loopOk := true }
  else t

/-- Block BLW. A measurement of the hold-up capacity ends by itself (HOLDTEST). -/
def State.writeBlw (s : State) (a : Nat) (r : RegRow) (v : Word) : State :=
  if a = BLW_WDOG then s.watchdogKey (BLW_WDOG_KEY.get v)
  else if a = BLW_CMD then
    (s.go v BLW_CMD_HOLDTEST fun t => t.flag BLW_CMD BLW_CMD_HOLDTEST).go v BLW_CMD_RESET State.resetCommand
  else if a = BLW_WDTIME then
    (s.storeReg a r (BLW_WDTIME_EN.put (s.fld a BLW_WDTIME_EN) v)).go v BLW_WDTIME_EN State.watchdogEnable
  else if a = BLW_OPCAP then (s.storeReg a r v).refreshCap
  else s.storeReg a r v

/-- Block EVR. -/
def State.writeEvr (s : State) (a : Nat) (r : RegRow) (v : Word) : State :=
  if a = EVR_CMD then
    ((s.go v EVR_CMD_READ fun t => t.evrRead true).go v EVR_CMD_FLUSH State.evrFlush).go v EVR_CMD_CLEAR State.evrClear
  else s.storeReg a r v

/-- Blocks UPD and SEC. What a partner answers to an APPLY is free. -/
def State.writeUpd (s : State) (a : Nat) (r : RegRow) (v : Word) : State :=
  let t := s.storeReg a r v
  if a = UPD_CMD then
    ((((t.go v UPD_CMD_WRITE State.sidingWrite).go v UPD_CMD_APPLY fun t =>
      t.tickFree.apply (UPD_CMD_NOW.get v != 0) (Config.updateGranted t.free)).go v UPD_CMD_CONFIRM State.updConfirm).go v
      UPD_CMD_DISCARD State.updDiscard).go v UPD_CMD_RECOVER State.updRecover
  else if a = SEC_CMD then
    let slot := SEC_CMD_SLOT.get v
    ((t.go v SEC_CMD_ATTEST State.attest).go v SEC_CMD_ENROLL fun t => t.enroll slot).go v SEC_CMD_REVOKE fun t => t.revoke slot
  else t

/-- A write of an implemented register with its full effect. -/
def State.writeBlock (s : State) (who : Initiator) (a : Nat) (r : RegRow) (v : Word) : State :=
  match a / 0x10000 with
  | 0x00 => if a = SYS_MODECFG then s.modecfgWrite (who == .bellows) v else s.storeReg a r v
  | 0x01 => s.writeFrm a r v
  | 0x02 => if a = ANX_EPRST then s.writeEprst v else s.storeReg a r v
  | 0x03 => if a = ANY_EPRST then s.writeEprst v else s.storeReg a r v
  | 0x04 => s.writeLane a r v
  | 0x05 | 0x06 => s.writeMem a r v
  | 0x07 => s.storeReg a r v
  | 0x18 => s.writeTime a r v
  | 0x19 | 0x1A | 0x1B | 0x1C => s.writeBkb a r v
  | 0x20 | 0x21 => s.writeBrg a r v
  | 0x22 => if a = WAY_CMD then s.go v WAY_CMD_PURGE State.purgeGo else s.storeReg a r v
  | 0x23 => s.writeMbx who a r v
  | 0x24 => s.writeCpl a r v
  | 0x28 | 0x29 | 0x2A => s.writeLio a r v
  | 0x30 => s.writeBlw a r v
  | 0x31 => s.writeEvr a r v
  | 0x32 | 0x33 => s.writeUpd a r v
  | _ => s.writeSop a r v

/-- A write that the runtime makes to a copied block belongs to the frame record (R388). -/
def State.noteWrite (s : State) (who : Initiator) (a : Nat) : State :=
  match who with
  | .core _ => s.when (copiedReg a) fun t => t.copyItem 8 (match t.smapKey a with
      | some key => 0x1000000 + key
      | none => a)
  | _ => s

/-- A read at an offset in the register space, aligned and 32 bits wide; none where no block is (R19). -/
def State.busRead (s : State) (a : Nat) : Option Word := (aliasOf a).map s.shown

/-- A register whose bit 31 is LOST: it holds an SW field that hardware writes too (R44, R45). -/
def RegRow.losable (r : RegRow) : Bool := r.rw != 0 && r.w1c.testBit 31

/-- A write at an offset in the register space, aligned and 32 bits wide; none where no block is (R19). `lost`: hardware updates the
register in the same cycle; that update is lost, and LOST is set (R42, R44). -/
def State.busWrite (s : State) (who : Initiator) (a : Nat) (v : Word) (lost : Bool) : Option State :=
  (aliasOf a).map fun x => match rowOf x with
    | some r => ((s.noteWrite who x).writeBlock who x r v).when (lost && r.losable) fun t => t.setReg x (t.reg x ||| 0x80000000)
    | none => s

/-- The outcome of a faulting register access at its initiator (R33): a core takes the access-fault trap of a store, with the address
of log entry 36 in sr.TVAL, and a DMA channel stops. Every one is recorded. -/
def State.writeFault (s : State) (who : Initiator) (a : Nat) : State :=
  let s := s.evAccess (a / 0x10000) (0x40000000 + a) (initiatorNumber who)
  match who with
  | .core c => s.syncTrap c AccessKind.store.accessCode (BitVec.ofNat 64 (0x40000000 + a)) s.cores[c].pc
  | .dma n => (match s.desc n.val with
    | some d => s.dmaHalt n.val d 6
    | none => s)
  | _ => s

/-- An initiator runs a task of a voted placement, which may not reach a register (R37). -/
def State.barredTask (s : State) (who : Initiator) : Bool :=
  match who with
  | .core c => s.votedAtT c
  | _ => false

/-- REGISTER_WRITE (R38): a 32-bit write by an initiator at an offset in the register space. An access that R32, R19 or R37
forbids changes no register (R33). -/
def execRegisterWrite (writer : Writer) (address : BitVec 24) (value : Word) (s : State) : Host.Outcome State Fault Refusal :=
  let a := address.toNat
  .next (if a % 4 ≠ 0 ∨ s.barredTask writer.who then s.writeFault writer.who a
    else (s.busWrite writer.who a value writer.lost).getD (s.writeFault writer.who a))

/-! ### Loads and stores (R76, R77) -/

/-- An access of a core to an empty window of the register space is an access fault (R19, R33). -/
def State.emptyWindow (s : State) (c : Fin 12) (pa : Nat) : State := s.evAccess (srcOf (pa - 0x40000000)) pa c.val

/-- LB, LH, LW and LD: loads sign-extend. -/
def extendLoad (size v : Nat) : DWord := (BitVec.ofInt 64 ((BitVec.ofNat (8 * size) v).toInt))

/-- LOAD (R76). -/
def execLoad (x : Site) (size : Size) (rd ra : BitVec 5) (off : BitVec 17) (s : State) : Host.Outcome State Fault Refusal :=
  .next (s.helin x fun s =>
    let n := sizeBytes size
    let va := s.cores[x.core].effAddr ra off
    match s.dataAddr x.core .load va n (n == 4) with
    | (s, .trap code) => .trap s code va
    | (s, .at pa) =>
      if regionOf pa = .regs then
        match s.busRead (pa - 0x40000000) with
        | some w => .done (s.modCore x.core fun k => k.seth rd (w.signExtend 64))
        | none => .trap (s.emptyWindow x.core pa) AccessKind.load.accessCode va
      else match s.loadMem x pa n with
        | (s, none) => .trap s 0x0E va
        | (s, some v) => .done (s.modCore x.core fun k => k.seth rd (extendLoad n v)))

/-- STORE (R76): the low bytes of the register. -/
def execStore (x : Site) (size : Size) (rs ra : BitVec 5) (off : BitVec 17) (s : State) : Host.Outcome State Fault Refusal :=
  .next (s.helin x fun s =>
    let n := sizeBytes size
    let k := s.cores[x.core]
    let va := k.effAddr ra off
    let v := (k.geth rs).toNat % 2 ^ (8 * n)
    match s.dataAddr x.core .store va n (n == 4) with
    | (s, .trap code) => .trap s code va
    | (s, .at pa) =>
      if regionOf pa = .regs then
        match s.busWrite (.core x.core) (pa - 0x40000000) (BitVec.ofNat 32 v) x.lost with
        | some t => .done (t.modCore x.core fun k => k.foldStore (s.taskRoutine x.core) va.toNat (storeKind n) v)
        | none => .trap (s.emptyWindow x.core pa) AccessKind.store.accessCode va
      else match s.storeMem x pa n va v with
        | (s, true) => .done s
        | (s, false) => .trap s 0x0E va)

/-! ### DMA elements (R141, R142) -/

/-- The physical address of one side of an element, or the status that stops the channel. An uncorrectable error in the walk of
either address stops it with STATUS 0x7: the manual names no status for that (DESIGN CHOICE, log entry 140). No DMA channel writes the
published output image (R18). -/
def State.dmaSide (s : State) (n va z : Nat) (kind : AccessKind) (trans access : Nat) : State × (Nat ⊕ Nat) :=
  match s.ctxTranslate n va with
  | (s, .fault) => (s, .inr trans)
  | (s, .machineCheck) => (s, .inr dmaUeStatus)
  | (s, .page pa leaf) =>
    if regionOf pa = .regs ∧ (!ctxPermits kind pa leaf ∨ z ≠ 4 ∨ (blockAt ((pa - 0x40000000) / 0x10000)).isNone) then
      (s.evAccess (srcOf (pa - 0x40000000)) pa (dmaInitiator n), .inr access)
    else if !ctxPermits kind pa leaf || (kind.writes && inPublished pa) then (s, .inr access)
    else (s, .inl pa)

/-- What the codes find in the words of an element that is read, the first word by the operand. -/
def State.dmaCheck (s : State) (pa z : Nat) (ecc : Ecc) : State × Bool :=
  match s.eccCheck pa ecc with
  | (s, true) => (s, true)
  | (s, false) =>
    let later := (List.range (z / 8)).map fun i => pa + 8 * i
    match later.find? fun p => s.hasUe p with
    | some p => (s.reportUe p, true)
    | none => (s, false)

/-- An element is read whole: none on an uncorrectable error. -/
def State.dmaRead (s : State) (pa z : Nat) (ecc : Ecc) : State × Option (List Byte) :=
  if regionOf pa = .regs then (s, (s.busRead (pa - 0x40000000)).map fun w => leBytes 4 w.toNat)
  else match s.dmaCheck pa z ecc with
    | (s, true) => (s, none)
    | (s, false) => (s, some (s.bytes pa z))

/-- An element is written whole; the answer tells whether the write met no uncorrectable error (R114). -/
def State.dmaWrite (s : State) (n pa : Nat) (data : List Byte) (lost : Bool) : State × Bool :=
  if regionOf pa = .regs then
    ((s.busWrite (.dma (Fin.ofNat 16 n)) (pa - 0x40000000) (BitVec.ofNat 32 (ofLe data)) lost).getD s, true)
  else if data.length < 8 ∧ s.hasUe pa then (s.reportUe pa, false)
  else (s.writeRun pa data, true)

/-- A channel moves one element, or stops on the first failure in the order of R142. -/
def State.dmaMove (s : State) (n : Nat) (d : Desc) (z : Nat) (found : ElementFinding) : State :=
  match s.dmaSide n d.src z .load 3 5 with
  | (s, .inr code) => s.dmaHalt n d code
  | (s, .inl src) =>
    match s.dmaSide n d.dst z .store 4 6 with
    | (s, .inr code) => s.dmaHalt n d code
    | (s, .inl dst) =>
      match s.dmaRead src z found.ecc with
      | (s, none) => s.dmaHalt n d dmaUeStatus
      | (s, some data) =>
        match s.dmaWrite n dst data found.lost with
        | (s, false) => s.dmaHalt n d dmaUeStatus
        | (s, true) => if (s.desc n).isSome then s.setDesc n (some (d.advance z)) else s

/-- DMA_ELEMENT (R142). -/
def execDmaElement (n : Fin 16) (found : ElementFinding) (s : State) : Host.Outcome State Fault Refusal :=
  .next (match s.desc n.val with
    | none => s
    | some d => if d.count = 0 then s else (d.size).elim s fun z => s.dmaMove n.val d z found)

end Sys2Proof.Machine
end

