-- ==== Sys2Proof/Machine/Checkpoint.lean ====
section
/-!
DEFINITION. CKPT and the task calls (R101, R106 to R110).
-/

namespace Sys2Proof.Machine

/-- The output image of a core: its output slices from the lane region, in slice-table order (R177). -/
def State.coreOutput (s : State) (c : Fin 12) : List Byte :=
  ((s.cores[c].slices.getD []).filter (·.output)).flatMap fun x => s.bytes (laneImage (laneOf c) + x.area) x.bytes

/-- The checkpoint unit reads the output slices of a core: a word that it cannot read is reported, and what the record carries
of it is the free value of the lost word (R112, log entry 15). -/
def State.meetOutput (s : State) (c : Fin 12) : State :=
  s.forEach ((s.cores[c].slices.getD []).filter (·.output)) fun x t => t.reportRange (laneImage (laneOf c) + x.area) x.bytes

/-- Fold the closing elements of CKPT (R106). -/
def Core.foldClosing (k : Core) (h : DWord) : Core :=
  (k.foldElement k.frelease.toNat 0xFE (((k.pepoch <<< 8) ||| k.taskid).toNat)).foldElement 0 0xFF h.toNat

/-- The checkpoint record of a core (R107, R177). -/
def State.checkpointRecord (s : State) (c : Fin 12) : Record :=
  let k := s.cores[c]
  { task := k.taskid.toNat % 64, fault := false, lane := laneOf c, epoch := k.pepoch.toNat % 65536,
    release := k.frelease.toNat, sig := k.cksigh ++ k.cksigl, cause := 0, tval := 0, image := s.coreOutput c, crc := 0, okX := true, okY := true,
    onTime := !((s.task (k.taskid.toNat % 64)).cycle.elim true (·.late)), call := none }

/-- CKPT: the signature is closed, the record goes to both Anvils, OPEN is cleared and the core enters K. -/
def execCkpt (x : Site) (ra : BitVec 5) (sr : BitVec 10) (s : State) : Host.Outcome State Fault Refusal :=
  .next (s.helin x fun s =>
    let w := wordTval (encS ra sr 0x100)
    let k := s.cores[x.core]
    if sr ≠ 0 then .trap s 0x00 w
    else if !k.isOpen then .trap s 0x12 w
    else
      let s := (s.modCore x.core fun k => k.foldClosing (k.geth ra)).meetOutput x.core
      let s := (s.sendRecord x.core (s.checkpointRecord x.core)).leaveCycle x.core
      .enter (s.modCore x.core fun k => { k with ckstate := 0 }) 0x14 k.frelease)

/-- Queue a program event for the cycle; h3 tells whether it was queued (R109). -/
def State.queueEvent (s : State) (c : Fin 12) : State :=
  let k := s.cores[c]
  let n := k.taskid.toNat % 64
  let lane := laneOf c
  let full := decide (8 ≤ ((s.task n).tevents.filter fun e => e.1 == lane).length)
  let e := (lane, (k.geth 3).toNat % 65536, [4, 5, 6, 7, 8, 9].map fun (r : BitVec 5) => (k.geth r).toNat % 0x100000000)
  (if full then s else s.modTask n fun t => { t with tevents := t.tevents ++ [e] }).modCore c fun k =>
    k.seth 3 (boolWord full)

/-- TCALL. A number without a meaning is treated as TFAULT. The runtime performs the call: where the entry is a double trap
(R71), it never does. -/
def State.tcall (s : State) (x : Site) (r : BitVec 5) (number : BitVec 10) : State :=
  s.helin x fun s =>
    let w := wordTval (encS r number 0x101)
    let k := s.cores[x.core]
    if r ≠ 0 then .trap s 0x00 w
    else if !k.isOpen then .trap s 0x12 w
    else if k.td then .enter s 0x13 (number.setWidth 64)
    else if number = 1 then .service (s.queueEvent x.core) 0x13 1
    else
      let code := (k.geth 3).toNat % 65536
      .enter (s.reportFault x.core (BitVec.ofNat 64 code) (number.setWidth 64) (some (code, number.toNat))) 0x13
        (number.setWidth 64)

/-- TCALL TFAULT, and every number without a meaning. -/
def execTcallTfault (x : Site) (r : BitVec 5) (number : BitVec 10) (s : State) : Host.Outcome State Fault Refusal :=
  .next (s.tcall x r number)

/-- TCALL TEVENT. -/
def execTcallTevent (x : Site) (r : BitVec 5) (s : State) : Host.Outcome State Fault Refusal := .next (s.tcall x r 1)

end Sys2Proof.Machine
end

