-- ==== Sys2Proof/Machine/Commands.lean ====
section
/-!
DEFINITION. Operating commands of hosts and the package blocks (R322 to R324). What a command does is decided by the
operations of Modes.lean; here stand its arguments, its answer and its repetition.
-/

namespace Sys2Proof.Machine


/-- The response payload of a COMMAND. -/
def State.commandPayload (s : State) (code result : Nat) (challenge : Word) : List Byte :=
  leBytes 2 code ++ leBytes 1 result ++ leBytes 1 0 ++ leBytes 4 (if result = resChallenge then challenge.toNat else 0) ++
    leBytes 1 s.eff ++ leBytes 1 s.keyPos ++ leBytes 1 s.chg ++ leBytes 1 (s.fld SYS_MODE SYS_MODE_HOLD) ++ leBytes 4 0

/-- A command with malformed arguments. -/
def State.badArguments (s : State) : Decided := (s, resMalformed, 0)

/-- A COMMAND datagram whose payload holds the code and ALEN as its row names them (R322, R323): `f` decides it from its
channel and its arguments. One whose ALEN is not the number of its argument bytes, or whose SEQ is not 0, is malformed as a datagram
(STATUS 3, DESIGN CHOICE, log entry 143). -/
def State.command (s : State) (r : LapRequest) (code : Nat) (f : State → Nat → List Byte → Decided) : State :=
  s.serve 0x40 false r fun t ch =>
    let args := r.payload.drop 4
    if r.seq != 0 || decide (r.payload.length < 4) || field r.payload 2 2 != args.length || decide (1420 < args.length) then
      t.lapStatus ch r 0x40 3
    else match (t.lap ch).answered.find? fun a => a.1 == r.reqid.toNat with
      | some a => t.lapAnswer ch r 0x40 0 t.fcnt 0 a.2
      | none =>
        match (if t.isSet BRG_CMDEN ⟨ch, 1⟩ then f t ch args else (t, 4, 0)) with
        | (u, result, challenge) =>
          let pl := u.commandPayload code result challenge
          (u.modLap ch fun c => { c with answered := c.answered ++ [(r.reqid.toNat, pl)] }).lapAnswer ch r 0x40 0 u.fcnt 0 pl

/-- A command without arguments. -/
def bareCommand (f : State → Nat → Decided) : State → Nat → List Byte → Decided := fun s ch args =>
  if args.isEmpty then f s ch else s.badArguments

/-- The force entries of FORCESET; none when malformed. -/
def parseForces (args : List Byte) : Option (List Force) :=
  let n := args.length / 8
  if args.length % 8 != 0 || decide (177 < n) || (List.range n).any (fun i => bitsAt (field args (8 * i) 4) 19 13 != 0) then none
  else some ((List.range n).map fun i =>
    let w := field args (8 * i) 4
    { analog := bitAt w 17, index := bitsAt w 0 17, output := bitAt w 18, value := BitVec.ofNat 32 (field args (8 * i + 4) 4) })

/-- The points of FORCEREL; none when malformed. -/
def parsePoints (args : List Byte) : Option (List (Bool × Bool × Nat)) :=
  let n := args.length / 4
  if args.length % 4 != 0 || (List.range n).any (fun i => bitsAt (field args (4 * i) 4) 19 13 != 0) then none
  else some ((List.range n).map fun i =>
    let w := field args (4 * i) 4
    (bitAt w 17, bitAt w 18, bitsAt w 0 17))

/-- COMMAND_MODE (R211). -/
def execCommandMode (r : LapRequest) (s : State) : Host.Outcome State Fault Refusal :=
  .next (s.command r 1 fun t _ a => if a.length = 1 then t.modeCommand (field a 0 1) else t.badArguments)
/-- COMMAND_WARMRST (R202). -/
def execCommandWarmrst (r : LapRequest) (s : State) : Host.Outcome State Fault Refusal :=
  .next (s.command r 2 (bareCommand fun t _ => t.restartCommand 2 .warm))
/-- COMMAND_COLDRST (R202). -/
def execCommandColdrst (r : LapRequest) (s : State) : Host.Outcome State Fault Refusal :=
  .next (s.command r 3 (bareCommand fun t _ => t.restartCommand 3 .cold))
/-- COMMAND_PURGE (R208). -/
def execCommandPurge (r : LapRequest) (s : State) : Host.Outcome State Fault Refusal :=
  .next (s.command r 4 (bareCommand State.purgeCommand))
/-- COMMAND_FORCESET (R215). -/
def execCommandForceset (r : LapRequest) (s : State) : Host.Outcome State Fault Refusal :=
  .next (s.command r 5 fun t ch a => match parseForces a with
    | some fs => t.forceSet ch fs
    | none => t.badArguments)
/-- COMMAND_FORCEREL (R215). -/
def execCommandForcerel (r : LapRequest) (s : State) : Host.Outcome State Fault Refusal :=
  .next (s.command r 6 fun t ch a => match parsePoints a with
    | some ps => t.forceRel ch ps
    | none => t.badArguments)
/-- COMMAND_FORCESTART (R220). -/
def execCommandForcestart (r : LapRequest) (s : State) : Host.Outcome State Fault Refusal :=
  .next (s.command r 7 (bareCommand fun t _ => t.forceStart))
/-- COMMAND_CHGLOAD (R222): what the staging area holds is `package`, and `check` is the check that fails. -/
def execCommandChgload (r : LapRequest) (package : Package) (check : Nat) (s : State) : Host.Outcome State Fault Refusal :=
  .next (s.command r 0x10 fun t _ a =>
    if a.length = 4 ∧ field a 0 4 ≤ 0x4000000 then t.chgLoad package check else t.badArguments)
/-- COMMAND_CHGSWITCH (R223). -/
def execCommandChgswitch (r : LapRequest) (s : State) : Host.Outcome State Fault Refusal :=
  .next (s.command r 0x11 (bareCommand State.chgSwitch))
/-- COMMAND_CHGDISCARD (R223). -/
def execCommandChgdiscard (r : LapRequest) (s : State) : Host.Outcome State Fault Refusal :=
  .next (s.command r 0x12 (bareCommand fun t _ => t.chgDiscard))
/-- COMMAND_CHGCOMMIT (R226). -/
def execCommandChgcommit (r : LapRequest) (s : State) : Host.Outcome State Fault Refusal :=
  .next (s.command r 0x13 (bareCommand fun t _ => t.chgCommit))
/-- COMMAND_CHGROLLBACK (R226). -/
def execCommandChgrollback (r : LapRequest) (s : State) : Host.Outcome State Fault Refusal :=
  .next (s.command r 0x14 (bareCommand State.chgRollback))
/-- COMMAND_TASKRESTART (R166). -/
def execCommandTaskrestart (r : LapRequest) (s : State) : Host.Outcome State Fault Refusal :=
  .next (s.command r 0x18 fun t _ a => if a.length = 1 then t.taskRestartCommand (field a 0 1) else t.badArguments)
/-- COMMAND_CONFIRM (R218). -/
def execCommandConfirm (r : LapRequest) (s : State) : Host.Outcome State Fault Refusal :=
  .next (s.command r 0x20 fun t ch a =>
    if a.length = 4 then t.confirmCommand ch (BitVec.ofNat 32 (field a 0 4)) else t.badArguments)
/-- COMMAND_STATE (R322). -/
def execCommandState (r : LapRequest) (s : State) : Host.Outcome State Fault Refusal :=
  .next (s.command r 0x30 (bareCommand fun t _ => t.accept))

/-! ### PKGDATA (R324) -/

/-- Size of the staging area. -/
def stagingSize : Nat := 0x4000000

/-- Write bytes into the staging area. -/
def State.stage (s : State) (at' : Nat) (bs : List Byte) : State :=
  s.setChange { s.change with staging := bs.zipIdx.foldl (fun l b => sparseSet (fun _ => 0) l (at' + b.2) b.1) s.change.staging }

/-- PKGDATA (R324). The manual does not say where in the runtime area the staging area lies: of the bridge's context only EN is asked
(R138). -/
def execPkgdata (r : LapRequest) (s : State) : Host.Outcome State Fault Refusal :=
  .next (s.serve 0x41 false r fun t ch =>
    let off := field r.payload 0 4
    let data := r.payload.drop 8
    let answer (u : State) (e : Nat) : State := u.lapAnswer ch r 0x41 0 u.fcnt 0 (padTo4 [BitVec.ofNat 8 e])
    if r.seq != 0 || decide (r.payload.length < 9) || decide (1024 < data.length) || field r.payload 4 4 != 0 || off % 1024 != 0 then
      t.lapStatus ch r 0x41 3
    else if t.eff = effRun then t.lapStatus ch r 0x41 4
    else if !t.isSet BRG_CMDEN ⟨ch, 1⟩ || !t.isSet (MMU_CTX_BASE bridgeCtx) MMU_CTX_BASE_EN then answer t itAccess
    else if stagingSize < off + data.length then answer t itRange
    else if t.chg ≠ chgNone ∧ t.chg ≠ chgLoaded then answer t itBusy
    else answer (t.stage off data) itOk)

end Sys2Proof.Machine
end

