-- ==== Sys2Proof/Machine/ImageUnit.lean ====
section
/-!
DEFINITION. The image unit of a core: digital and analog point access, ranges, moves, timers and edges (R88 to R105).
-/

namespace Sys2Proof.Machine

/-! ### Operand checks and slices (R90, R91, R95, R99) -/

/-- sr.TVAL of codes 0x10 and 0x11 (R99). A first offending index of 131,072 does not fit its field and shows as 0 (DESIGN CHOICE, log
entry 156). -/
def imgTval (idx : Nat) (analog malformed dst : Bool) : DWord :=
  BitVec.ofNat 64 (idx % 2 ^ 17 + bit dst * 2 ^ 28 + bit malformed * 2 ^ 29 + bit analog * 2 ^ 30)

/-- What the checks of a point or a range give: the address of its first cell, or a trap. -/
inductive Pick where
  | at (pa : Nat)
  | trap (code : Nat) (tval : DWord)
  deriving DecidableEq, Repr

/-- The slice checks of R90 and R91, in ascending order of the points (DEDUCED, log entry 22). -/
def Core.pickSlice (k : Core) (lane : Nat) (analog : Bool) (start count : Nat) (store dst : Bool) : Pick :=
  match (k.slices.getD []).find? fun x => x.holds analog start with
  | none => .trap 0x10 (imgTval start analog false dst)
  | some x =>
    if store && !x.output then .trap 0x11 (imgTval start analog false dst)
    else if x.start + x.count < start + count then .trap 0x10 (imgTval (x.start + x.count) analog false dst)
    else .at (laneImage lane + x.area + (start - x.start) * cellSize analog)

/-- The checks of R99 from step 2 on, for one point or range. -/
def Core.pick (k : Core) (lane : Nat) (analog : Bool) (start count : Nat) (store : Bool) : Pick :=
  if !k.isOpen then .trap 0x10 (imgTval start analog false false) else k.pickSlice lane analog start count store false

/-- Bits of an index of a kind. -/
def indexBits (analog : Bool) : Nat := if analog then 14 else 17

/-- An index register: none when a bit above the index width is set (R95). -/
def indexOf (analog : Bool) (v : DWord) : Option Nat :=
  if v.toNat < 2 ^ indexBits analog then some v.toNat else none

/-- START, COUNT and TAG of a descriptor; none when it is malformed (R95). `tagUsed` for PSTB. -/
def descOf (analog tagUsed : Bool) (v : DWord) : Option (Nat × Nat × Nat) :=
  let n := v.toNat
  let start := bitsAt n 0 17
  let count := bitsAt n 32 7
  let tag := bitsAt n 40 4
  if bitsAt n 17 15 ≠ 0 ∨ n.testBit 39 ∨ bitsAt n 44 20 ≠ 0 ∨ count = 0 ∨ 64 < count ∨ (!tagUsed && tag != 0) ∨
      2 ^ indexBits analog ≤ start then none
  else some (start, count, tag % 8)

/-! ### Cells -/

/-- The packed form of a point (R89). -/
def packed (p : Point) : Nat := p.value % 2 ^ 32 + p.tag % 8 * 2 ^ 32

/-- The point that a packed register names (R89). -/
def unpack (analog : Bool) (v : DWord) : Point :=
  { value := if analog then v.toNat % 2 ^ 32 else v.toNat % 2, tag := bitsAt v.toNat 32 3 }

/-- The check of the words that an access to cells reads: the answer tells whether it is a machine check. -/
def State.cellCheck (s : State) (x : Site) (pa n : Nat) : State × Bool :=
  match s.eccCheck pa x.dataEcc with
  | (s, true) => (s, true)
  | (s, false) => if s.rangeUe pa n then (s.reportUe (s.firstUe pa n), true) else (s, false)

/-- A machine check of an image instruction. -/
def cellMachineCheck (s : State) : HRes := .trap s.tickFree 0x0E (Config.imageTval s.free)

/-- Read a run of cells and go on with their points. -/
def State.withCells (s : State) (x : Site) (analog : Bool) (pa n : Nat) (body : State → List Point → HRes) : HRes :=
  match s.cellCheck x pa (n * cellSize analog) with
  | (s, true) => cellMachineCheck s
  | (s, false) => body s ((List.range n).map fun i => s.cellAt analog (pa + i * cellSize analog))

/-- Write a run of cells from a point up and fold each (R106). Digital cells are partial words, whose words are read
first (R98, R114). -/
def State.storeCells (s : State) (x : Site) (analog : Bool) (pa start : Nat) (ps : List Point) : HRes :=
  let put (s : State) : State :=
    let own := s.taskRoutine x.core
    s.forEach ps.zipIdx fun (p, i) t =>
      (t.putCell analog (pa + i * cellSize analog) p).modCore x.core fun k =>
        k.foldStore own (start + i) (if analog then 5 else 4) (packed p)
  if analog then .done (put s)
  else match s.cellCheck x pa ps.length with
    | (s, true) => cellMachineCheck s
    | (s, false) => .done (put s)

/-- Load one point: `keep` writes the registers. -/
def State.pointLoad (s : State) (x : Site) (analog : Bool) (i : Nat) (keep : Point → Core → Core) : HRes :=
  match s.cores[x.core].pick (laneOf x.core) analog i 1 false with
  | .trap code tval => .trap s code tval
  | .at pa => s.withCells x analog pa 1 fun s ps =>
    match ps with
    | p :: _ => .done (s.modCore x.core (keep p))
    | [] => .done s

/-- Store one point. -/
def State.pointStore (s : State) (x : Site) (analog : Bool) (i : Nat) (p : Point) : HRes :=
  match s.cores[x.core].pick (laneOf x.core) analog i 1 true with
  | .trap code tval => .trap s code tval
  | .at pa => s.storeCells x analog pa i [p]

/-! ### PLD, PST and PAN (R93, R94) -/

/-- The registers of a load of value and tag. -/
def Core.keepPoint (k : Core) (rd rq : BitVec 5) (v : DWord) (tag : Nat) : Core :=
  (k.seth rd v).seth rq (BitVec.ofNat 64 tag)

/-- PLD. -/
def execPld (x : Site) (rd rq : BitVec 5) (idx : BitVec 17) (s : State) : Host.Outcome State Fault Refusal :=
  .next (s.helin x fun s =>
    if rd = rq ∧ rd ≠ 0 then .trap s 0x00 (wordTval (encI 26 rd rq idx))
    else s.pointLoad x false idx.toNat fun p k => k.keepPoint rd rq (BitVec.ofNat 64 p.value) p.tag)

/-- PST. -/
def execPst (x : Site) (rd rq : BitVec 5) (idx : BitVec 17) (s : State) : Host.Outcome State Fault Refusal :=
  .next (s.helin x fun s =>
    let k := s.cores[x.core]
    s.pointStore x false idx.toNat { value := (k.geth rd).toNat % 2, tag := (k.geth rq).toNat % 8 })

/-- An analog load into a general register; rd and rq must differ unless both are h0. -/
def State.analogLoad (s : State) (x : Site) (op : Nat) (rd rq : BitVec 5) (idx : BitVec 14) (ext : Word → DWord) : State :=
  s.helin x fun s =>
    if rd = rq ∧ rd ≠ 0 then .trap s 0x00 (wordTval (encPan rd rq op idx))
    else s.pointLoad x true idx.toNat fun p k => k.keepPoint rd rq (ext (BitVec.ofNat 32 p.value)) p.tag

/-- ALD. -/
def execAld (x : Site) (rd rq : BitVec 5) (idx : BitVec 14) (s : State) : Host.Outcome State Fault Refusal :=
  .next (s.analogLoad x 0 rd rq idx sx32)

/-- ALDU. -/
def execAldu (x : Site) (rd rq : BitVec 5) (idx : BitVec 14) (s : State) : Host.Outcome State Fault Refusal :=
  .next (s.analogLoad x 1 rd rq idx fun w => w.setWidth 64)

/-- AST. -/
def execAst (x : Site) (rd rq : BitVec 5) (idx : BitVec 14) (s : State) : Host.Outcome State Fault Refusal :=
  .next (s.helin x fun s =>
    let k := s.cores[x.core]
    s.pointStore x true idx.toNat { value := (k.geth rd).toNat % 2 ^ 32, tag := (k.geth rq).toNat % 8 })

/-- ALDF. -/
def execAldf (x : Site) (rd rq : BitVec 5) (idx : BitVec 14) (s : State) : Host.Outcome State Fault Refusal :=
  .next (s.helin x fun s =>
    s.pointLoad x true idx.toNat fun p k =>
      (k.setf32 rd (BitVec.ofNat 32 p.value)).seth rq (BitVec.ofNat 64 p.tag))

/-- ASTF. -/
def execAstf (x : Site) (rd rq : BitVec 5) (idx : BitVec 14) (s : State) : Host.Outcome State Fault Refusal :=
  .next (s.helin x fun s =>
    let k := s.cores[x.core]
    s.pointStore x true idx.toNat { value := (k.getf32 rd).toNat, tag := (k.geth rq).toNat % 8 })

/-! ### Indexed instructions (R96) -/

/-- A CTL instruction of which one field must hold 0 (R64). -/
def State.ctl (s : State) (x : Site) (func : Nat) (rd ra rb : BitVec 5) (zero : BitVec 5) (body : State → HRes) : State :=
  s.helin x fun s =>
    if zero ≠ 0 then .trap s 0x00 (wordTval (encA 29 rd ra rb (BitVec.ofNat 12 func))) else body s

/-- An index register that is checked before the point is used. -/
def State.withIndex (s : State) (x : Site) (analog : Bool) (ra : BitVec 5) (body : Nat → HRes) : HRes :=
  let v := s.cores[x.core].geth ra
  match indexOf analog v with
  | none => .trap s 0x10 (imgTval v.toNat analog true false)
  | some i => body i

/-- A load of the packed form. -/
def State.indexedLoad (s : State) (x : Site) (func : Nat) (analog : Bool) (rd ra rb : BitVec 5) : State :=
  s.ctl x func rd ra rb rb fun s =>
    s.withIndex x analog ra fun i => s.pointLoad x analog i fun p k => k.seth rd (BitVec.ofNat 64 (packed p))

/-- A store of a packed register. -/
def State.indexedStore (s : State) (x : Site) (func : Nat) (analog : Bool) (rd ra rb : BitVec 5) : State :=
  s.ctl x func rd ra rb rd fun s =>
    s.withIndex x analog ra fun i => s.pointStore x analog i (unpack analog (s.cores[x.core].geth rb))

/-- PLDX. -/
def execPldx (x : Site) (rd ra rb : BitVec 5) (s : State) : Host.Outcome State Fault Refusal :=
  .next (s.indexedLoad x 0x000 false rd ra rb)

/-- PSTX. -/
def execPstx (x : Site) (rd ra rb : BitVec 5) (s : State) : Host.Outcome State Fault Refusal :=
  .next (s.indexedStore x 0x001 false rd ra rb)

/-- ALDX. -/
def execAldx (x : Site) (rd ra rb : BitVec 5) (s : State) : Host.Outcome State Fault Refusal :=
  .next (s.indexedLoad x 0x002 true rd ra rb)

/-- ASTX. -/
def execAstx (x : Site) (rd ra rb : BitVec 5) (s : State) : Host.Outcome State Fault Refusal :=
  .next (s.indexedStore x 0x003 true rd ra rb)

/-! ### Ranges and moves (R96, R97) -/

/-- A range load: `sum` forms h[rd] from the points. -/
def State.rangeLoad (s : State) (x : Site) (func : Nat) (rd ra rb : BitVec 5) (sum : List Point → Nat) : State :=
  s.ctl x func rd ra rb rb fun s =>
    let k := s.cores[x.core]
    let v := k.geth ra
    match descOf false false v with
    | none => .trap s 0x10 (imgTval v.toNat false true false)
    | some (start, count, _) =>
      match k.pick (laneOf x.core) false start count false with
      | .trap code tval => .trap s code tval
      | .at pa => s.withCells x false pa count fun s ps => s.onCore x fun k => k.seth rd (BitVec.ofNat 64 (sum ps))

/-- Bit i is what a test says of point i. -/
def pointBits (test : Point → Bool) : List Point → Nat
  | [] => 0
  | p :: ps => bit (test p) + 2 * pointBits test ps

/-- PLDB. -/
def execPldb (x : Site) (rd ra rb : BitVec 5) (s : State) : Host.Outcome State Fault Refusal :=
  .next (s.rangeLoad x 0x010 rd ra rb (pointBits fun p => p.value == 1))

/-- PTGB. -/
def execPtgb (x : Site) (rd ra rb : BitVec 5) (s : State) : Host.Outcome State Fault Refusal :=
  .next (s.rangeLoad x 0x011 rd ra rb (pointBits fun p => p.tag != 0))

/-- PTOR. -/
def execPtor (x : Site) (rd ra rb : BitVec 5) (s : State) : Host.Outcome State Fault Refusal :=
  .next (s.rangeLoad x 0x012 rd ra rb fun ps => ps.foldl (fun t p => t ||| p.tag) 0)

/-- PSTB. -/
def execPstb (x : Site) (rd ra rb : BitVec 5) (s : State) : Host.Outcome State Fault Refusal :=
  .next (s.ctl x 0x013 rd ra rb rd fun s =>
    let k := s.cores[x.core]
    let v := k.geth ra
    match descOf false true v with
    | none => .trap s 0x10 (imgTval v.toNat false true false)
    | some (start, count, tag) =>
      match k.pick (laneOf x.core) false start count true with
      | .trap code tval => .trap s code tval
      | .at pa =>
        s.storeCells x false pa start ((List.range count).map fun i => { value := bit ((k.geth rb).getLsbD i), tag := tag }))

/-- A copy of a range: descriptor, destination index, OPEN, source, destination (R97, R99). -/
def State.copyRange (s : State) (x : Site) (func : Nat) (analog : Bool) (rd ra rb : BitVec 5) : State :=
  s.ctl x func rd ra rb rd fun s =>
    let k := s.cores[x.core]
    let v := k.geth ra
    let d := k.geth rb
    match descOf analog false v, indexOf analog d with
    | none, _ => .trap s 0x10 (imgTval v.toNat analog true false)
    | some _, none => .trap s 0x10 (imgTval d.toNat analog true true)
    | some (start, count, _), some dst =>
      match k.pick (laneOf x.core) analog start count false with
      | .trap code tval => .trap s code tval
      | .at pa =>
        match k.pickSlice (laneOf x.core) analog dst count true true with
        | .trap code tval => .trap s code tval
        | .at qa => s.withCells x analog pa count fun s ps => s.storeCells { x with dataEcc := .clean } analog qa dst ps

/-- PCPY. -/
def execPcpy (x : Site) (rd ra rb : BitVec 5) (s : State) : Host.Outcome State Fault Refusal :=
  .next (s.copyRange x 0x018 false rd ra rb)

/-- ACPY. -/
def execAcpy (x : Site) (rd ra rb : BitVec 5) (s : State) : Host.Outcome State Fault Refusal :=
  .next (s.copyRange x 0x019 true rd ra rb)

/-! ### Timers and edges (R104, R105) -/

/-- Check the address of a record as a load and a store of it would be checked, in the order of R69. -/
def State.recordAddr (s : State) (c : Fin 12) (va : DWord) (size : Nat) : State × Found :=
  let atK := s.cores[c].atK
  match s.translate c va with
  | (s, .fault) => (s, .trap 0x05)
  | (s, .machineCheck) => (s, .trap 0x0E)
  | (s, .page pa leaf) =>
    if regionOf pa = .regs then s.regsAccess c .load pa size (leafPermits .load atK leaf) false
    else if va.toNat % size ≠ 0 then (s, .trap 0x09)
    else if !permitted .load atK pa leaf then (s, .trap 0x07)
    else if !permitted .store atK pa leaf then (s, .trap 0x08)
    else (s, .at pa)

/-- Run a record instruction: read the record, and write word 0 of it unless there is nothing to write. `body` gives the
new word and h[rd]. -/
def State.record (s : State) (x : Site) (ra rd : BitVec 5) (size width : Nat) (body : State → Nat → Option Nat × DWord) :
    HRes :=
  let va := s.cores[x.core].geth ra
  match s.recordAddr x.core va size with
  | (s, .trap code) => .trap s code va
  | (s, .at pa) =>
    match s.memCheck x.core pa x.dataL1 x.dataEcc with
    | (s, true) => .trap s 0x0E va
    | (s, false) =>
      if s.rangeUe pa size then .trap (s.reportUe (s.firstUe pa size)) 0x0E va
      else
        match body s (s.readLe pa size) with
        | (none, q) => s.onCore x fun k => k.seth rd q
        | (some w, q) =>
          .done ((s.writePart pa (leBytes width w)).modCore x.core fun k =>
            (k.foldStore (s.taskRoutine x.core) va.toNat (storeKind width) w).seth rd q)

/-- A timer record's word 0, and PT (R104). -/
structure Timer where
  pin : Bool
  run : Bool
  acc : Nat
  pt : Nat
  deriving DecidableEq, Repr

/-- The timer that a record's 16 bytes hold. -/
def timerOf (w : Nat) : Timer :=
  { pin := w.testBit 63, run := w.testBit 62, acc := bitsAt w 0 62, pt := bitsAt w 64 62 }

/-- Word 0 of a timer. -/
def Timer.word (t : Timer) : Nat := t.acc % 2 ^ 62 + bit t.run * 2 ^ 62 + bit t.pin * 2 ^ 63

/-- TON: the timer afterwards and Q. -/
def tonStep (t : Timer) (i : Bool) (d : Nat) : Timer × Bool :=
  let acc := if !i || !t.pin then 0 else min (t.acc + d) t.pt
  ({ t with pin := i, acc := acc }, i && decide (t.pt ≤ acc))

/-- TOF. -/
def tofStep (t : Timer) (i : Bool) (d : Nat) : Timer × Bool :=
  if i then ({ t with pin := true, run := true, acc := 0 }, true)
  else if t.run then
    let acc := if t.pin then 0 else min (t.acc + d) t.pt
    let run := !decide (t.pt ≤ acc)
    ({ t with pin := false, run := run, acc := acc }, run)
  else ({ t with pin := false }, false)

/-- TP. -/
def tpStep (t : Timer) (i : Bool) (d : Nat) : Timer × Bool :=
  if t.run then
    let acc := min (t.acc + d) t.pt
    let run := !decide (t.pt ≤ acc)
    ({ t with pin := i, run := run, acc := acc }, run)
  else if i && !t.pin then
    let run := decide (0 < t.pt)
    ({ t with pin := i, run := run, acc := 0 }, run)
  else ({ t with pin := i }, false)

/-- A timer instruction. -/
def State.timer (s : State) (x : Site) (rd ra rb : BitVec 5) (step : Timer → Bool → Nat → Timer × Bool) : State :=
  s.helin x fun s =>
    let k := s.cores[x.core]
    let d := if k.firstcycle.getLsbD 0 then 0 else k.felapsed.toNat
    s.record x ra rd 16 8 fun _ w =>
      match step (timerOf w) ((k.geth rb).getLsbD 0) d with
      | (t, q) => (some t.word, boolWord q)

/-- TON. -/
def execTon (x : Site) (rd ra rb : BitVec 5) (s : State) : Host.Outcome State Fault Refusal :=
  .next (s.timer x rd ra rb tonStep)

/-- TOF. -/
def execTof (x : Site) (rd ra rb : BitVec 5) (s : State) : Host.Outcome State Fault Refusal :=
  .next (s.timer x rd ra rb tofStep)

/-- TP. -/
def execTp (x : Site) (rd ra rb : BitVec 5) (s : State) : Host.Outcome State Fault Refusal :=
  .next (s.timer x rd ra rb tpStep)

/-- An edge instruction: the state word afterwards, none if it is not written, and the result. -/
def edgeStep (edge : Bool → Bool → Bool) (w : Nat) (p : DWord) : Option Nat × DWord :=
  let v := p.getLsbD 0
  if p.getLsbD 32 || p.getLsbD 34 then (none, 2)
  else (some (2 + bit v), if !w.testBit 1 then 4 else boolWord (edge (w.testBit 0) v))

/-- An edge instruction. -/
def State.edge (s : State) (x : Site) (rd ra rb : BitVec 5) (edge : Bool → Bool → Bool) : State :=
  s.helin x fun s =>
    let p := s.cores[x.core].geth rb
    s.record x ra rd 4 4 fun _ w => edgeStep edge w p

/-- EDGR. -/
def execEdgr (x : Site) (rd ra rb : BitVec 5) (s : State) : Host.Outcome State Fault Refusal :=
  .next (s.edge x rd ra rb fun prev v => !prev && v)

/-- EDGF. -/
def execEdgf (x : Site) (rd ra rb : BitVec 5) (s : State) : Host.Outcome State Fault Refusal :=
  .next (s.edge x rd ra rb fun prev v => prev && !v)

/-- EDGB. -/
def execEdgb (x : Site) (rd ra rb : BitVec 5) (s : State) : Host.Outcome State Fault Refusal :=
  .next (s.edge x rd ra rb fun prev v => prev != v)

end Sys2Proof.Machine
end

