-- ==== Sys2Proof/Machine/Integer.lean ====
section
/-!
DEFINITION. The integer and branch instructions (R65, R73 to R75).
-/

namespace Sys2Proof.Machine

/-- Illegal instruction: sr.TVAL holds the word. -/
def State.illegal (s : State) (w : Word) : HRes := .trap s 0x00 (wordTval w)

/-- ADDI. -/
def execAddi (x : Site) (rd ra : BitVec 5) (imm : BitVec 17) (s : State) : Host.Outcome State Fault Refusal :=
  .next (s.helin x fun s => s.onCore x fun k => k.seth rd (k.geth ra + sext17 imm))

/-- ANDI. -/
def execAndi (x : Site) (rd ra : BitVec 5) (imm : BitVec 17) (s : State) : Host.Outcome State Fault Refusal :=
  .next (s.helin x fun s => s.onCore x fun k => k.seth rd (k.geth ra &&& zext17 imm))

/-- ORI. -/
def execOri (x : Site) (rd ra : BitVec 5) (imm : BitVec 17) (s : State) : Host.Outcome State Fault Refusal :=
  .next (s.helin x fun s => s.onCore x fun k => k.seth rd (k.geth ra ||| zext17 imm))

/-- LUI: ra must be 0 (R64). -/
def execLui (x : Site) (rd ra : BitVec 5) (imm : BitVec 17) (s : State) : Host.Outcome State Fault Refusal :=
  .next (s.helin x fun s =>
    if ra ≠ 0 then s.illegal (encI 5 rd ra imm) else s.onCore x fun k => k.seth rd (luiValue imm))

/-- OP (R73, R74): a result, or the trap the operation raises. -/
def execOp (x : Site) (func : BitVec 12) (rd ra rb : BitVec 5) (s : State) : Host.Outcome State Fault Refusal :=
  .next (s.helin x fun s =>
    let k := s.cores[x.core]
    let w := encA 1 rd ra rb func
    match opEval func (k.geth ra) (k.geth rb) rb with
    | .value v => s.onCore x fun k => k.seth rd v
    | .illegal => s.illegal w
    | .divideByZero => .trap s 0x0A (wordTval w)
    | .overflow => .trap s 0x0B (wordTval w))

/-- BEQ, BNE, BLT, BGE (R75). -/
def execBranch (x : Site) (cond : Cond) (ra rb : BitVec 5) (off : BitVec 17) (s : State) :
    Host.Outcome State Fault Refusal :=
  .next (s.helin x fun s =>
    let k := s.cores[x.core]
    if condHolds cond (k.geth ra) (k.geth rb) then .jump s (k.pc + branchDisp off) else .done s)

/-- JAL (R75). -/
def execJal (x : Site) (off : BitVec 27) (s : State) : Host.Outcome State Fault Refusal :=
  .next (s.helin x fun s =>
    let pc := s.cores[x.core].pc
    .jump (s.modCore x.core fun k => k.seth 1 (pc + 4)) (pc + jalDisp off))

/-- JALR (R75): the target is formed from the old value of h[ra]; a misaligned one traps at the JALR. -/
def execJalr (x : Site) (rd ra : BitVec 5) (imm : BitVec 17) (s : State) : Host.Outcome State Fault Refusal :=
  .next (s.helin x fun s =>
    let k := s.cores[x.core]
    let t := k.geth ra + sext17 imm
    if t.toNat % 4 ≠ 0 then .trap s 0x04 t
    else .jump (s.modCore x.core fun k => k.seth rd (k.pc + 4)) t)

end Sys2Proof.Machine
end

