-- ==== Sys2Proof/Machine/Flags.lean ====
section
/-!
DEFINITION. Floating-point arithmetic and its flags (R81, R82, R83): exact values, one rounding, and the operations.
-/

namespace Sys2Proof.Machine

/-- Flag bits of sr.FCSR.FLAGS: inexact. -/
def flagNX : Nat := 1
/-- Underflow. -/
def flagUF : Nat := 2
/-- Overflow. -/
def flagOF : Nat := 4
/-- Divide by zero. -/
def flagDZ : Nat := 8
/-- Invalid. -/
def flagNV : Nat := 16

/-- Precision of a format: significand bits, binary32 or binary64. -/
def fpPrec (dbl : Bool) : Nat := if dbl then 53 else 24
/-- Exponent bits. -/
def fpExpBits (dbl : Bool) : Nat := if dbl then 11 else 8
/-- Exponent bias. -/
def fpBias (dbl : Bool) : Nat := if dbl then 1023 else 127
/-- All bits of the format. -/
def fpWidth (dbl : Bool) : Nat := if dbl then 64 else 32
/-- The canonical NaN (R82). -/
def fpNan (dbl : Bool) : Nat := if dbl then 0x7FF8000000000000 else 0x7FC00000
/-- Infinity of a sign. -/
def fpInf (dbl neg : Bool) : Nat :=
  (2 ^ fpExpBits dbl - 1) * 2 ^ (fpPrec dbl - 1) + (if neg then 2 ^ (fpWidth dbl - 1) else 0)
/-- Zero of a sign. -/
def fpZero (dbl neg : Bool) : Nat := if neg then 2 ^ (fpWidth dbl - 1) else 0
/-- The largest finite number of a sign. -/
def fpMax (dbl neg : Bool) : Nat := fpInf dbl neg - 1

/-- A floating-point value: a NaN, an infinity, or (-1)^neg × m × 2^e exactly. -/
inductive FVal where
  | nan (signalling : Bool)
  | inf (neg : Bool)
  | num (neg : Bool) (m : Nat) (e : Int)
  deriving DecidableEq, Repr

/-- The value that bits spell. -/
def fpDecode (dbl : Bool) (x : Nat) : FVal :=
  let mb := fpPrec dbl - 1
  let neg := x.testBit (fpWidth dbl - 1)
  let ex := bitsAt x mb (fpExpBits dbl)
  let fr := x % 2 ^ mb
  if ex = 2 ^ fpExpBits dbl - 1 then
    (if fr = 0 then .inf neg else .nan (!fr.testBit (mb - 1)))
  else if ex = 0 then .num neg fr (1 - (fpBias dbl : Int) - mb)
  else .num neg (2 ^ mb + fr) ((ex : Int) - fpBias dbl - mb)

/-- Whether the discarded part of a magnitude rounds it up: `cmp` compares it with half a unit. -/
def roundsUp (rm : Nat) (neg odd inexact : Bool) (cmp : Ordering) : Bool :=
  match rm with
  | 0 => cmp == .gt || (cmp == .eq && odd)
  | 1 => false
  | 2 => neg && inexact
  | 3 => !neg && inexact
  | _ => cmp != .lt

/-- Round m × 2^e (a little more if `sticky`) to a multiple of 2^q: the multiple and whether it is inexact. -/
def roundAt (rm : Nat) (neg : Bool) (m : Nat) (e : Int) (sticky : Bool) (q : Int) : Nat × Bool :=
  if q ≤ e then (m <<< (e - q).toNat, sticky)
  else
    let sh := (q - e).toNat
    let keep := m >>> sh
    let rem := 2 * (m % 2 ^ sh) + (if sticky then 1 else 0)
    let inexact := rem != 0
    (if roundsUp rm neg (keep % 2 == 1) inexact (compare rem (2 ^ sh)) then keep + 1 else keep, inexact)

/-- Pack a rounded magnitude k × 2^q, with k at most 2^p and q the quantum of its binade or of the subnormals. -/
def fpPack (dbl neg : Bool) (k : Nat) (q : Int) : Nat :=
  let p := fpPrec dbl
  let sign := if neg then 2 ^ (fpWidth dbl - 1) else 0
  -- the biased exponent of the binade whose quantum is 2^q; a carry out of the significand moves one binade up
  let ex := (q + p - 1 + fpBias dbl).toNat
  if k < 2 ^ (p - 1) then sign + k else sign + (ex - 1) * 2 ^ (p - 1) + k

/-- Round an exact value to the format: bits and flags (R82). -/
def fpRound (dbl : Bool) (rm : Nat) (neg : Bool) (m : Nat) (e : Int) (sticky : Bool) : Nat × Nat :=
  if m = 0 then (fpZero dbl neg, if sticky then flagNX else 0)
  else
    let p := fpPrec dbl
    let emin : Int := 1 - fpBias dbl
    let top : Int := e + m.log2
    let qn : Int := top - (p - 1 : Nat)
    let qs : Int := emin - (p - 1 : Nat)
    let q := if qn < qs then qs else qn
    let (k, inexact) := roundAt rm neg m e sticky q
    let tinyBefore := decide (top < emin)
    let tinyAfter := tinyBefore && !(top == emin - 1 && (roundAt rm neg m e sticky qn).1 == 2 ^ p)
    let tiny := if tinyBefore = tinyAfter then tinyBefore else (if Config.tininessBeforeRounding then tinyBefore else tinyAfter)
    let lead : Int := if k = 2 ^ p then q + p else q + (p - 1 : Nat)
    if 2 ^ (p - 1) ≤ k ∧ (fpBias dbl : Int) < lead then
      (if roundsUp rm neg true true .gt then fpInf dbl neg else fpMax dbl neg, flagOF + flagNX)
    else (fpPack dbl neg k q, (if inexact then flagNX else 0) + (if inexact && tiny then flagUF else 0))

/-- Whether one of two values is a signalling NaN. -/
def anySignalling (a b : FVal) : Bool :=
  match a, b with
  | .nan true, _ => true
  | _, .nan true => true
  | _, _ => false

/-- The canonical NaN with a flag. -/
def fpInvalid (dbl : Bool) : Nat × Nat := (fpNan dbl, flagNV)

/-- The canonical NaN for a NaN operand: NV only for a signalling NaN. -/
def fpQuiet (dbl signalling : Bool) : Nat × Nat := (fpNan dbl, if signalling then flagNV else 0)

/-- The sign of an exact zero sum: positive, but negative when rounding toward −∞. -/
def zeroSumNeg (rm : Nat) (n1 n2 : Bool) : Bool := if n1 = n2 then n1 else rm == 2

/-- The exact sum of two numbers, rounded once. -/
def fpSum (dbl : Bool) (rm : Nat) (n1 : Bool) (m1 : Nat) (e1 : Int) (n2 : Bool) (m2 : Nat) (e2 : Int) : Nat × Nat :=
  let e := if e1 < e2 then e1 else e2
  let i1 : Int := (if n1 then -1 else 1) * ((m1 <<< (e1 - e).toNat : Nat) : Int)
  let i2 : Int := (if n2 then -1 else 1) * ((m2 <<< (e2 - e).toNat : Nat) : Int)
  let t := i1 + i2
  if t = 0 then
    (fpZero dbl (if m1 = 0 ∧ m2 = 0 then zeroSumNeg rm n1 n2 else zeroSumNeg rm true false), 0)
  else fpRound dbl rm (decide (t < 0)) t.natAbs e false

/-- Addition. -/
def fpAdd (dbl : Bool) (rm : Nat) (a b : FVal) : Nat × Nat :=
  match a, b with
  | .nan _, _ => fpQuiet dbl (anySignalling a b)
  | _, .nan _ => fpQuiet dbl (anySignalling a b)
  | .inf n1, .inf n2 => if n1 = n2 then (fpInf dbl n1, 0) else fpInvalid dbl
  | .inf n, _ => (fpInf dbl n, 0)
  | _, .inf n => (fpInf dbl n, 0)
  | .num n1 m1 e1, .num n2 m2 e2 => fpSum dbl rm n1 m1 e1 n2 m2 e2

/-- A value with its sign turned; a NaN stays. -/
def FVal.negate : FVal → FVal
  | .nan s => .nan s
  | .inf n => .inf (!n)
  | .num n m e => .num (!n) m e

/-- Multiplication. -/
def fpMul (dbl : Bool) (rm : Nat) (a b : FVal) : Nat × Nat :=
  match a, b with
  | .nan _, _ => fpQuiet dbl (anySignalling a b)
  | _, .nan _ => fpQuiet dbl (anySignalling a b)
  | .inf n1, .inf n2 => (fpInf dbl (n1 != n2), 0)
  | .inf n1, .num n2 m _ => if m = 0 then fpInvalid dbl else (fpInf dbl (n1 != n2), 0)
  | .num n1 m _, .inf n2 => if m = 0 then fpInvalid dbl else (fpInf dbl (n1 != n2), 0)
  | .num n1 m1 e1, .num n2 m2 e2 => fpRound dbl rm (n1 != n2) (m1 * m2) (e1 + e2) false

/-- Division. -/
def fpDiv (dbl : Bool) (rm : Nat) (a b : FVal) : Nat × Nat :=
  match a, b with
  | .nan _, _ => fpQuiet dbl (anySignalling a b)
  | _, .nan _ => fpQuiet dbl (anySignalling a b)
  | .inf _, .inf _ => fpInvalid dbl
  | .inf n1, .num n2 _ _ => (fpInf dbl (n1 != n2), 0)
  | .num n1 _ _, .inf n2 => (fpZero dbl (n1 != n2), 0)
  | .num n1 m1 e1, .num n2 m2 e2 =>
    if m2 = 0 then (if m1 = 0 then fpInvalid dbl else (fpInf dbl (n1 != n2), flagDZ))
    else
      -- 120 more bits than the divisor: the quotient holds every bit that decides the rounding
      let num := m1 <<< 120
      fpRound dbl rm (n1 != n2) (num / m2) (e1 - e2 - 120) (num % m2 != 0)

/-- The integer square root, found bit by bit from bit `b - 1` down. -/
def isqrtBits : Nat → Nat → Nat → Nat
  | 0, _, r => r
  | b + 1, n, r => isqrtBits b n (if (r + 2 ^ b) * (r + 2 ^ b) ≤ n then r + 2 ^ b else r)

/-- Square root. -/
def fpSqrt (dbl : Bool) (rm : Nat) (a : FVal) : Nat × Nat :=
  match a with
  | .nan s => fpQuiet dbl s
  | .inf neg => if neg then fpInvalid dbl else (fpInf dbl false, 0)
  | .num neg m e =>
    if m = 0 then (fpZero dbl neg, 0)
    else if neg then fpInvalid dbl
    else
      let sh := if e % 2 = 0 then 128 else 129
      let n := m <<< sh
      let r := isqrtBits 96 n 0
      fpRound dbl rm false r ((e - sh) / 2) (r * r != n)

/-- a × b + c, rounded once. -/
def fpFma (dbl : Bool) (rm : Nat) (a b c : FVal) : Nat × Nat :=
  let invalid : Bool := match a, b with
    | .inf _, .num _ m _ => m == 0
    | .num _ m _, .inf _ => m == 0
    | _, _ => false
  let sig := anySignalling a b || anySignalling c c
  match a, b, c with
  | .nan _, _, _ => fpQuiet dbl sig
  | _, .nan _, _ => fpQuiet dbl sig
  | _, _, .nan _ => (fpNan dbl, if sig then flagNV else if invalid && Config.fusedQuietNanInvalid then flagNV else 0)
  | .num n1 m1 e1, .num n2 m2 e2, .num n3 m3 e3 => fpSum dbl rm (n1 != n2) (m1 * m2) (e1 + e2) n3 m3 e3
  | .num _ _ _, .num _ _ _, .inf n => (fpInf dbl n, 0)
  | .inf n1, .inf n2, c => fpAdd dbl rm (.inf (n1 != n2)) c
  | .inf n1, .num n2 _ _, c => if invalid then fpInvalid dbl else fpAdd dbl rm (.inf (n1 != n2)) c
  | .num n1 _ _, .inf n2, c => if invalid then fpInvalid dbl else fpAdd dbl rm (.inf (n1 != n2)) c

/-- An exact signed multiple of a power of two for comparing numbers. -/
def fpOrder (a b : FVal) : Ordering :=
  match a, b with
  | .inf n1, .inf n2 => compare (bit n2) (bit n1)
  | .inf n, _ => if n then .lt else .gt
  | _, .inf n => if n then .gt else .lt
  | .num n1 m1 e1, .num n2 m2 e2 =>
    let e := if e1 < e2 then e1 else e2
    compare ((if n1 then -1 else 1) * ((m1 <<< (e1 - e).toNat : Nat) : Int))
      ((if n2 then -1 else 1) * ((m2 <<< (e2 - e).toNat : Nat) : Int))
  | _, _ => .eq

/-- Whether a value is a NaN. -/
def FVal.isNan : FVal → Bool
  | .nan _ => true
  | _ => false

/-- The sign of a value that is no NaN. -/
def FVal.isNeg : FVal → Bool
  | .nan _ => false
  | .inf n => n
  | .num n _ _ => n

/-- FMIN and FMAX: the other operand for one NaN, the canonical NaN for two, −0 below +0 (R82). `x` and `y` are the
operands' bits. -/
def fpMinMax (dbl max : Bool) (x y : Nat) : Nat × Nat :=
  let a := fpDecode dbl x
  let b := fpDecode dbl y
  let fl := if anySignalling a b then flagNV else 0
  if a.isNan then (if b.isNan then fpNan dbl else y, fl)
  else if b.isNan then (x, fl)
  else
    let less := match fpOrder a b with
      | .lt => true
      | .gt => false
      | .eq => a.isNeg
    (if less != max then x else y, fl)

/-- FCLASS (R82). -/
def fpClass (dbl : Bool) (x : Nat) : Nat :=
  match fpDecode dbl x with
  | .nan s => if s then 256 else 512
  | .inf n => if n then 1 else 128
  | .num n m _ =>
    if m = 0 then (if n then 8 else 16)
    else if m < 2 ^ (fpPrec dbl - 1) then (if n then 4 else 32)
    else (if n then 2 else 64)

/-- Conversion to an integer between `lo` and `hi`: the integer and the flags. -/
def fpToInt (rm : Nat) (lo hi : Int) (a : FVal) : Int × Nat :=
  match a with
  | .nan _ => (hi, flagNV)
  | .inf n => (if n then lo else hi, flagNV)
  | .num neg m e =>
    let (k, inexact) := roundAt rm neg m e false 0
    let i : Int := if neg then -(k : Int) else k
    if i < lo then (lo, flagNV) else if hi < i then (hi, flagNV) else (i, if inexact then flagNX else 0)

/-- Conversion of an integer. -/
def fpOfInt (dbl : Bool) (rm : Nat) (i : Int) : Nat × Nat := fpRound dbl rm (decide (i < 0)) i.natAbs 0 false

/-- Conversion from the other precision. -/
def fpConvert (dbl : Bool) (rm : Nat) (a : FVal) : Nat × Nat :=
  match a with
  | .nan s => fpQuiet dbl s
  | .inf n => (fpInf dbl n, 0)
  | .num n m e => fpRound dbl rm n m e false

/-- What an FP instruction answers: a floating-point result, an integer result, or no meaning. -/
inductive FpRes where
  | toF (bits flags : Nat)
  | toH (v : DWord) (flags : Nat)
  | illegal
  deriving DecidableEq, Repr

/-- Whether an operation takes a rounding mode (R81). -/
def fpTakesRm (op : Nat) : Bool := op ≤ 4 || (14 ≤ op && op ≤ 18) || op == 21 || op == 22

/-- Whether an operation uses rb (R81). -/
def fpUsesRb (op : Nat) : Bool := op ≤ 3 || (5 ≤ op && op ≤ 12) || op == 21 || op == 22

/-- The rounding mode in effect, if it is one (R81, R83). -/
def effectiveRm (rm fcsrRm : Nat) : Option Nat :=
  if rm = 7 then (if fcsrRm ≤ 4 then some fcsrRm else none) else if rm ≤ 4 then some rm else none

/-- Comparison result: NV as asked, false for a NaN. -/
def fpCompare (quiet : Bool) (a b : FVal) (t : Ordering → Bool) : FpRes :=
  if a.isNan || b.isNan then .toH 0 (if !quiet || anySignalling a b then flagNV else 0)
  else .toH (boolWord (t (fpOrder a b))) 0

/-- A floating-point answer. -/
def fpF (r : Nat × Nat) : FpRes := .toF r.1 r.2

/-- The FP operations (R81, R82, R83). `fa fb fd` are the registers, `ha` is h[ra], `fcsrRm` is sr.FCSR.RM. FSGNJ, FSGNJN and FSGNJX
of a NaN keep its payload and change its sign only (DESIGN CHOICE, log entry 155). -/
def fpEval (func : BitVec 12) (rb : BitVec 5) (fa fb fd : DWord) (ha : DWord) (fcsrRm : Nat) : FpRes :=
  let n := func.toNat
  let op := bitsAt n 6 6
  let dbl := n.testBit 5
  let rmField := bitsAt n 2 3
  let bits (d : Bool) (x : DWord) : Nat := if d then x.toNat else x.toNat % 2 ^ 32
  if n % 4 ≠ 0 ∨ 22 < op ∨ (!fpUsesRb op && rb != 0) ∨ (!fpTakesRm op && rmField != 0) then .illegal
  else match (if fpTakesRm op then effectiveRm rmField fcsrRm else some 0) with
  | none => .illegal
  | some rm =>
    let xa := bits dbl fa
    let xb := bits dbl fb
    let a := fpDecode dbl xa
    let b := fpDecode dbl xb
    let c := fpDecode dbl (bits dbl fd)
    let w := fpWidth dbl
    let signBit := 2 ^ (w - 1)
    let mag := xa % signBit
    match op with
    | 0 => fpF (fpAdd dbl rm a b)
    | 1 => fpF (fpAdd dbl rm a b.negate)
    | 2 => fpF (fpMul dbl rm a b)
    | 3 => fpF (fpDiv dbl rm a b)
    | 4 => fpF (fpSqrt dbl rm a)
    | 5 => fpF (fpMinMax dbl false xa xb)
    | 6 => fpF (fpMinMax dbl true xa xb)
    | 7 => .toF (mag + xb / signBit * signBit) 0
    | 8 => .toF (mag + (1 - xb / signBit) * signBit) 0
    | 9 => .toF (mag + ((xa / signBit + xb / signBit) % 2) * signBit) 0
    | 10 => fpCompare true a b (· == .eq)
    | 11 => fpCompare false a b (· == .lt)
    | 12 => fpCompare false a b (· != .gt)
    | 13 => .toH (BitVec.ofNat 64 (fpClass dbl xa)) 0
    | 14 => let r := fpToInt rm (-(2 ^ 63)) (2 ^ 63 - 1) a; .toH (BitVec.ofInt 64 r.1) r.2
    | 15 => let r := fpToInt rm 0 (2 ^ 64 - 1) a; .toH (BitVec.ofInt 64 r.1) r.2
    | 16 => fpF (fpOfInt dbl rm ha.toInt)
    | 17 => fpF (fpOfInt dbl rm (ha.toNat : Int))
    | 18 => fpF (fpConvert dbl rm (fpDecode (!dbl) (bits (!dbl) fa)))
    | 19 => .toH (if dbl then fa else sx32 (lo32 fa)) 0
    | 20 => .toF (bits dbl ha) 0
    | 21 => fpF (fpFma dbl rm a b c)
    | 22 => fpF (fpFma dbl rm a b c.negate)
    | _ => .illegal

end Sys2Proof.Machine
end

