-- ==== Sys2Proof/Machine/System.lean ====
section
/-!
DEFINITION. Floating-point operations (R81 to R83) and the system functions of R84, with the state registers (R61,
R102, R136).
-/

namespace Sys2Proof.Machine

/-- OR raised flags into sr.FCSR.FLAGS. -/
def Core.raiseFlags (k : Core) (flags : Nat) : Core := { k with fcsr := k.fcsr ||| BitVec.ofNat 64 (flags % 32) }

/-- Whether a raised flag has its trap enable set. -/
def Core.fpTraps (k : Core) (flags : Nat) : Bool := bitsAt k.fcsr.toNat 5 5 &&& flags % 32 != 0

/-- FP. -/
def execFp (x : Site) (func : BitVec 12) (rd ra rb : BitVec 5) (s : State) : Host.Outcome State Fault Refusal :=
  .next (s.helin x fun s =>
    let k := s.cores[x.core]
    let w := wordTval (encA 24 rd ra rb func)
    let finish (flags : Nat) (g : Core → Core) : HRes :=
      let s := s.modCore x.core fun k => k.raiseFlags flags
      if k.fpTraps flags then .trap s 0x0C w else s.onCore x g
    match fpEval func rb (k.getf ra) (k.getf rb) (k.getf rd) (k.geth ra) (bitsAt k.fcsr.toNat 10 3) with
    | .illegal => .trap s 0x00 w
    | .toF bits flags => finish flags fun k => k.setf rd (BitVec.ofNat 64 bits)
    | .toH v flags => finish flags fun k => k.seth rd v)

/-- A system function: its unused fields must hold 0, and one that is allowed at K only raises the privilege violation
at T. -/
def State.sysFunc (s : State) (x : Site) (func : Nat) (r : BitVec 5) (sr : BitVec 10) (kOnly : Bool) (body : State → HRes) :
    State :=
  s.helin x fun s =>
    let w := wordTval (encS r sr (BitVec.ofNat 12 func))
    if r ≠ 0 ∨ sr ≠ 0 then .trap s 0x00 w
    else if kOnly && !s.cores[x.core].atK then .trap s 0x01 w
    else body s

/-- TRET (R70): the next fetch is at the level entered. -/
def execTret (x : Site) (r : BitVec 5) (sr : BitVec 10) (s : State) : Host.Outcome State Fault Refusal :=
  .next (s.sysFunc x 0x000 r sr true fun s => .jump (s.modCore x.core Core.trapReturn) s.cores[x.core].tpc)

/-- WAIT: the clocks are gated unless an interrupt is pending. -/
def execWait (x : Site) (r : BitVec 5) (sr : BitVec 10) (s : State) : Host.Outcome State Fault Refusal :=
  .next (s.sysFunc x 0x001 r sr true fun s =>
    s.onCore x fun k => if k.lines = 0 then { k with run := .gated } else k)

/-- BRK. -/
def execBrk (x : Site) (r : BitVec 5) (sr : BitVec 10) (s : State) : Host.Outcome State Fault Refusal :=
  .next (s.sysFunc x 0x002 r sr false fun s => .trap s 0x0D s.cores[x.core].pc)

/-- FENCE: accesses are performed in order here, so nothing is left to wait for. -/
def execFence (x : Site) (r : BitVec 5) (sr : BitVec 10) (s : State) : Host.Outcome State Fault Refusal :=
  .next (s.sysFunc x 0x003 r sr false fun s => .done s)

/-- IFENCE: the fetched words are the commands' operands, so there is no copy to discard. -/
def execIfence (x : Site) (r : BitVec 5) (sr : BitVec 10) (s : State) : Host.Outcome State Fault Refusal :=
  .next (s.sysFunc x 0x004 r sr false fun s => .done s)

/-! ### State registers -/

/-- Whether a state register is readable at T. -/
def srReadableAtT (i : Nat) : Bool := i == 0x010 || i == 0x011 || (0x100 ≤ i && i ≤ 0x106)

/-- The value MFSR reads; none for an undefined index. -/
def Core.readSr (k : Core) (c : Fin 12) (i : Nat) : Option DWord :=
  match i with
  | 0x000 => some k.status
  | 0x001 => some k.tvec
  | 0x002 => some k.tpc
  | 0x003 => some k.tcause
  | 0x004 => some k.tval
  | 0x005 => some k.tstatus
  | 0x006 => some k.kscratch
  | 0x007 => some (BitVec.ofNat 64 (laneOf c * 16 + triadOf c))
  | 0x008 => some k.corecyc
  | 0x009 => some k.instret
  | 0x010 => some k.fcsr
  | 0x011 => some k.taskid
  | 0x040 => some k.ptbase
  | 0x041 => some k.asid
  | 0x042 => some k.xlate
  | 0x043 => some 0
  | 0x048 => some k.islice
  | 0x100 => some k.ftime
  | 0x101 => some k.felapsed
  | 0x102 => some k.firstcycle
  | 0x103 => some k.frelease
  | 0x104 => some k.fperiod
  | 0x105 => some k.pepoch
  | 0x106 => some k.tstate
  | 0x110 => some k.cksigl
  | 0x111 => some k.cksigh
  | 0x112 => some k.ckstate
  | _ => none

/-- MFSR. -/
def execMfsr (x : Site) (rd : BitVec 5) (sr : BitVec 10) (s : State) : Host.Outcome State Fault Refusal :=
  .next (s.helin x fun s =>
    let k := s.cores[x.core]
    let w := wordTval (encS rd sr 0x010)
    match k.readSr x.core sr.toNat with
    | none => .trap s 0x00 w
    | some v => if !k.atK && !srReadableAtT sr.toNat then .trap s 0x01 w else s.onCore x fun k => k.seth rd v)

/-- Keep the bits of a mask from a new value, the others from the old one. -/
def merge (mask old new : DWord) : DWord := (old &&& ~~~mask) ||| (new &&& mask)

/-- Entries a write of sr.TLBFLUSH removes: those of an ASID, or all. -/
def tlbFlush (v : DWord) (l : List TlbEntry) : List TlbEntry :=
  if v.getLsbD 8 then [] else l.filter fun e => e.asid != v.toNat % 256

/-- What MTSR writes, for RW fields only; none for a register all of whose fields are RO. sr.ISLICE is written by
`writeIslice`. -/
def Core.writeSr (k : Core) (i : Nat) (v : DWord) : Option Core :=
  match i with
  | 0x000 => some { k with status := merge 6 k.status v }
  | 0x001 => some { k with tvec := v &&& ~~~0xFFF }
  | 0x002 => some { k with tpc := v }
  | 0x003 => some { k with tcause := v &&& 0x800000FF }
  | 0x004 => some { k with tval := v }
  | 0x005 => some { k with tstatus := v &&& 7 }
  | 0x006 => some { k with kscratch := v }
  | 0x010 => some { k with fcsr := v &&& 0x1FFF }
  | 0x040 => some { k with ptbase := v &&& 0xFFFFFFF000 }
  | 0x041 => some { k with asid := v &&& 0xFF }
  | 0x042 => some { k with xlate := v &&& 1 }
  | 0x043 => some { k with tlb := tlbFlush v k.tlb }
  | 0x100 => some { k with ftime := v }
  | 0x101 => some { k with felapsed := v }
  | 0x102 => some { k with firstcycle := v &&& 1 }
  | 0x103 => some { k with frelease := v }
  | 0x104 => some { k with fperiod := v }
  | 0x105 => some { k with pepoch := v &&& 0xFFFF }
  | 0x106 => some { k with tstate := v &&& 0x1F }
  | 0x110 => some { k with cksigl := v }
  | 0x111 => some { k with cksigh := v }
  | 0x112 => some { k with ckstate := v &&& 1 }
  | _ => none

/-- MTSR to sr.ISLICE: the image unit reads the table; on an uncorrectable error it holds none (R120). -/
def State.writeIslice (s : State) (x : Site) (v : DWord) : HRes :=
  let a := v &&& 0xFFFFFFFFF0
  match s.readSlices 33 a.toNat with
  | some l => s.onCore x fun k => { k with islice := a, slices := some l }
  | none =>
    let bad := s.sliceUe 33 a.toNat
    .trap ((s.reportUe bad).modCore x.core fun k => { k with slices := none }) 0x0E (BitVec.ofNat 64 bad)

/-- MTSR. -/
def execMtsr (x : Site) (ra : BitVec 5) (sr : BitVec 10) (s : State) : Host.Outcome State Fault Refusal :=
  .next (s.helin x fun s =>
    let k := s.cores[x.core]
    let w := wordTval (encS ra sr 0x011)
    let v := k.geth ra
    if (k.readSr x.core sr.toNat).isNone then .trap s 0x00 w
    else if !k.atK && sr ≠ 0x010 then .trap s 0x01 w
    else if sr = 0x041 ∧ 65 ≤ v.toNat % 256 then .trap s 0x00 w
    else if sr = 0x048 then s.writeIslice x v
    else match k.writeSr sr.toNat v with
      | none => .trap s 0x00 w
      | some k' => s.onCore x fun _ => k')

/-- INTERRUPT (R72): a pending line is taken at an instruction boundary, at K while sr.STATUS.IE is 1 and at T always. It
ends clock gating (R84). -/
def execInterrupt (c : Fin 12) (line : Fin 12) (s : State) : Host.Outcome State Fault Refusal :=
  let k := s.cores[c]
  .next (if (k.run = .running ∨ k.run = .gated) ∧ k.lines.getLsbD line.val ∧ (!k.atK || k.ie) then s.takeInterrupt c line.val else s)

end Sys2Proof.Machine
end

