-- ==== Sys2Proof/Machine/Tick.lean ====
section
/-!
DEFINITION. The tick, the start of the close phase, and the declaration of a dropped station: the operations in which every
block has its part (06_tasks_frame.md and 95_what_each_step_holds.md). At a tick the ended frame is closed first, then what was
commanded acts, and then tasks are released.
-/

namespace Sys2Proof.Machine

/-! ### The grid instant (R147, R149) -/

/-- The frame count of the tick: the next one, or the latest grid instant that the clock has passed. -/
def State.tickCount (s : State) : Nat :=
  max s.frame.nextTick ((s.time.clock - s.tPhase * clockUs) / (s.tFrame * clockUs))

/-- The tick fires: instants skipped, the clock, the frame count, the live bank, and T_close for the frame. -/
def State.fireTick (s : State) : State :=
  let k := s.tickCount
  let skipped := k - s.frame.nextTick
  let s := s.when (skipped != 0) fun t => (t.bumpBy FRM_TICKSKIP skipped).flag FRM_STATUS FRM_STATUS_TICKSKIP
  let s := { s with time := { s.time with clock := max s.time.clock (s.grid k) } }
  let s := (s.setReg FRM_FCOUNTL (BitVec.ofNat 32 k)).setReg FRM_FCOUNTH (BitVec.ofNat 32 (k / 0x100000000))
  let s := s.putFld IMG_STATUS IMG_STATUS_BANK (k % 2)
  let close := min (clampNat 20 2000 (s.fld FRM_CLOSE FRM_CLOSE_CLOSE)) (s.tFrame / 2)
  { s with frame := { s.frame with nextTick := k + 1, close := close, inClose := false } }

/-- What closes the ended frame: the clock's corrections, the bank that no sample may be written into any more, the pending
commands of the Anvils, and the hand-overs of pair and lanes. -/
def State.closeFrame (s : State) : State :=
  let k := s.frameCount
  let s := s.slewTick.copyCorrection k
  let s := s.safeLate (bankBase (k + 1)) (bankBase k)
  let s := s.forEach allRings fun n t => t.ringClose n
  s.anvilTick.eprstTick.pairTick.laneTick

/-! ### Modes and restarts (R204, R211, R214, R220) -/

/-- The effective mode of this tick. A module held under R220, or without a program (R506), is in STOP. -/
def State.nextEff (s : State) : Nat :=
  if s.fld SYS_MODE SYS_MODE_HOLD = 1 ∨ s.program.tasks.isEmpty then effStop else s.formedMode

/-- The effective mode changes: leaving PROG cancels a pending online change, entering STOP has the effect of step 1 of R204,
and leaving it performs a restart. -/
def State.modeTick (s : State) : State :=
  let s := s.when (s.fld SYS_MODE SYS_MODE_HOLD == 1 && s.modes.forces.isEmpty) fun t => t.putFld SYS_MODE SYS_MODE_HOLD 0
  let old := s.eff
  let new := s.nextEff
  let s := s.putFld SYS_MODE SYS_MODE_EFF new
  let s := s.when (old == effProg && new != effProg) fun t => t.cancelPending 5
  let s := s.when (old != effStop && new == effStop && !s.standby) State.stopOutputs
  s.when (old == effStop && new != effStop && s.modes.restart.isNone) fun t =>
    t.modModes fun m => { m with restart := some (m.coldWanted.getD .warm), coldWanted := none, restartBegun := false,
                                 restartDone := false }

/-- A restart that waits begins with step 1; one whose steps are done ends, and releases are allowed again. -/
def State.restartTick (s : State) : State :=
  if s.standby ∨ s.modes.restart.isNone then s
  else if s.modes.restartDone then
    if s.eff = effStop then s
    else (s.putFld SYS_MODE SYS_MODE_HOLD 0).modModes fun m =>
      { m with restart := none, restartBegun := false, restartDone := false, afterReset := false }
  else if s.modes.restartBegun then
    s.when (s.fld SYS_MODE SYS_MODE_HOLD == 0) fun t => t.putFld SYS_MODE SYS_MODE_HOLD 2
  else if s.eff ≠ effStop ∨ s.modes.afterReset then s.restartBegin
  else s

/-- The output points whose force was set, changed or released. -/
def changedForces (old new : List Force) : List (Bool × Nat) :=
  (((new.filter fun f => f.output && !old.contains f).map fun f => (f.analog, f.index)) ++
    ((old.filter fun f => f.output && !new.any f.samePoint).map fun f => (f.analog, f.index))).eraseDups

/-- Sets and releases of forces act (R215, R216, R219), and FORCED follows NFORCE (R510). In STOP no published cell is forced (R217). -/
def State.forceTick (s : State) : State :=
  let moved := changedForces s.modes.acting s.modes.forces
  let s := s.putFld SYS_STATUS SYS_STATUS_FORCED (bit (s.fld SYS_FORCES SYS_FORCES_NFORCE != 0))
  let s := s.modModes fun m => { m with acting := m.forces }
  if s.eff = effStop ∨ s.standby then s else s.forEach moved fun p t => t.refreshForced p.1 p.2

/-- A switch whose migration copy has been made acts, and the age of an earlier one rises (R225, R226). -/
def State.changeTick (s : State) : State :=
  let s := s.when (s.chg == chgSwitched || s.chg == chgClosed || s.chg == chgReverse) fun t =>
    t.putFld SYS_CHG SYS_CHG_AGE (min 65535 (t.fld SYS_CHG SYS_CHG_AGE + 1))
  s.when (s.change.copied && (s.chg == chgPending || s.chg == chgReverse)) State.switchNow

/-! ### Accepted work (R309, R414 to R416, R423, R436) -/

/-- Host cells are carried into the new bank, and journalled items reach their consumers. -/
def State.deliveryTick (s : State) : State :=
  let s := s.when (s.isSet WAY_CMD WAY_CMD_PURGE) State.purgeJournal
  let s := s.carryCells
  if s.standby then s
  else (s.deliverWrites.deliverMessages.deliverSafe).forEach (List.range 16) fun q t => t.readCons q

/-! ### Measurements (R456, R458, R481) -/

/-- Bellows updates the energy registers for the frame just ended. -/
def State.energyTick (s : State) (ended : Nat) : State :=
  s.firmware fun s =>
    let e (i : Nat) : Word := (Config.energy (s.free + i)).setWidth 32
    let s := ((s.setReg BLW_EFRAME (e 0)).setReg BLW_EFAB (e 1)).forEach allLanes fun l t =>
      (t.setReg (BLW_ELANE l) (e (2 + 2 * l))).setReg (BLW_EACT l) (e (3 + 2 * l))
    ({ s with free := s.free + 8 } : State).setReg BLW_EFCOUNT (BitVec.ofNat 32 ended)

/-- The accumulated time of a trial. -/
def State.trialTick (s : State) : State :=
  if allComps.any s.inTrial && (s.eff == effRun || (s.standby && s.pstate == psReady)) then
    let ns := s.update.trialNs + s.tFrame * 1000
    ({ s with update := { s.update with trialNs := ns } } : State).putFld UPD_TRIAL UPD_TRIAL_SECONDS (min 65535 (ns / 1000000000))
  else s

/-- Whether an operating point meets both conditions of R458 for a busiest count of cycles. -/
def State.pointFits (s : State) (k p : Nat) : Bool :=
  decide (p ≤ s.fld BLW_OPCAP BLW_OPCAP_EFF) &&
    decide (5 * k ≤ 4 * s.fld (BLW_OPTAB p) BLW_OPTAB_FREQ * (s.tFrame - s.frame.close))

/-- The runtime measures the cycles of the ended frame and selects the operating point of a triad. -/
def State.selectPoint (s : State) (t : Nat) : State :=
  let now := allLanes.map fun l => s.cores[coreAt l t].corecyc.toNat
  let used := (now.zip (s.triad t).marks).foldl (fun m x => max m ((x.1 + 2 ^ 64 - x.2) % 2 ^ 64)) 0
  let busiest := (used :: (s.triad t).busiest).take 16
  let eff := s.fld BLW_OPCAP BLW_OPCAP_EFF
  let fits := ([0, 1, 2].find? fun p => s.pointFits (busiest.foldl max 0) p).getD eff
  let point := if (s.triad t).high ≠ 0 then eff else fits
  s.modTriad t fun k => { k with marks := now, busiest := busiest, point := point, high := k.high - 1 }

/-! ### Placements and groups (R154, R158, R166, R168, R169, R176) -/

/-- The task's group is enabled: its first release is that of a start. A task in the SAFE_STOP state stays in it (R166). -/
def State.enableTask (s : State) (n : Nat) : State :=
  let en := s.isSet (FRM_TCFG n) FRM_TCFG_EN
  let s := s.when (en && !(s.task n).wasEnabled && !s.cycleOpen n) fun t => t.beginTask n
  s.modTask n fun k => { k with wasEnabled := en }

/-- A digest failure of a code page: a task fault in all lanes (R129). -/
def State.digestTick (s : State) (n : Nat) : State :=
  if (s.task n).digestFault then
    let policy := (s.task n).cycle.elim (s.fld (FRM_TCFG n) FRM_TCFG_POLICY) (·.policy)
    let cause := Config.digestCause s.free
    let value := Config.digestCause (s.free + 1)
    let s := ({ s with free := s.free + 2 } : State).countTaskFault n cause value none 0 0
    ((s.closeCycle n).faultOutputs n policy).modTask n fun k => { k with digestFault := false }
  else s

/-- A task that changes its placement (R176): it drains, its state is copied into lanes that lack it, and it moves. -/
def State.moveTask (s : State) (n : Nat) : State :=
  let k := s.task n
  let p := s.fld (FRM_TCFG n) FRM_TCFG_PLACE
  if !k.placed ∨ p = k.place then s.putFld (FRM_TSTAT n) FRM_TSTAT_PMOVE 0
  else
    let s := s.flag (FRM_TSTAT n) FRM_TSTAT_PMOVE
    if !s.placeExists p then s
    else if s.cycleOpen n then s.modTask n fun k => { k with placeCopy := if k.placeCopy = 3 then 1 else k.placeCopy }
    else
      let lacks := (s.placeLanes p).any fun l => !(s.placeLanes k.place).contains l
      if lacks && k.placeCopy != 3 then
        s.modTask n fun k => { k with placeCopy := if k.placeCopy = 0 then 1 else k.placeCopy }
      else (((s.advanceEpoch n).modTask n fun k => { k with place := p, placeCopy := 0 }).putFld (FRM_TSTAT n) FRM_TSTAT_PMOVE
        0).flushTasks [n]

/-- What a task undergoes at every tick, released or not: one in the SAFE_STOP state writes its substitutes, also while a
RESTART waits for the next due tick (R166). -/
def State.prepareTask (s : State) (n : Nat) : State :=
  let s := ((s.enableTask n).digestTick n).moveTask n
  s.when (s.isSet (FRM_TSTAT n) FRM_TSTAT_STOPPED) fun t => t.substitute n

/-- PERIOD and PHASE of a group allow its due ticks to be computed. -/
def State.groupTimed (s : State) (n : Nat) : Bool :=
  let p := s.fld (FRM_TDEF n) FRM_TDEF_PERIOD
  decide (1 ≤ p) && decide (p ≤ 1024) && decide (s.fld (FRM_TDEF n) FRM_TDEF_PHASE < p)

/-- Whether a group is used at this tick. -/
def State.groupUsed (s : State) (n : Nat) : Bool :=
  let p := s.fld (FRM_TDEF n) FRM_TDEF_PERIOD
  !s.groupTimed n || (s.frameCount + p * 1024 - s.fld (FRM_TDEF n) FRM_TDEF_PHASE) % p == 0

/-- The relational rule of a task group (R169, R155). A SAFE task needs a voted placement, the one that its group names and
the one that it still runs in. -/
def State.groupRule (s : State) (n : Nat) : Bool :=
  let gen := s.fld (FRM_TDEF n) FRM_TDEF_GEN
  let d := s.fld (FRM_TDL n) FRM_TDL_DEADLINE
  let policy := s.fld (FRM_TCFG n) FRM_TCFG_POLICY
  let place := s.fld (FRM_TCFG n) FRM_TCFG_PLACE
  gen == s.fld (FRM_TCFG n) FRM_TCFG_GEN && gen == s.fld (FRM_TDL n) FRM_TDL_GEN && s.groupTimed n &&
    decide (1 ≤ d) && decide (d ≤ s.tFrame - s.frame.close) && policy != 3 &&
    s.placeExists place && s.placeExists (s.placeNow n) &&
    (!s.isSafe n || (placeVoted place && placeVoted (s.placeNow n) && (policy == polSubstitute || policy == polSafeStop)))

/-- The correction sum as the last tick copied it (R283). -/
def State.copiedCorr (s : State) : Int := (BitVec.ofNat 64 (s.regPair TIME_CTICKL TIME_CTICKH)).toInt

/-- What sr.FELAPSED counts at a release, and the remainder that carries over (R103). -/
def State.elapsed (s : State) (n ftime : Nat) : Nat × Int :=
  let k := s.task n
  if k.first then (0, 0)
  else
    let c := s.copiedCorr - k.prevCorr + k.remainder
    (((ftime : Int) - k.prevFtime - c / 65536).toNat, c % 65536)

/-- The values of a release (R158). The release count has been written already. -/
def State.lockedValues (s : State) (n place ftime : Nat) : Locked where
  ftime := BitVec.ofNat 64 ftime
  felapsed := BitVec.ofNat 64 (s.elapsed n ftime).1
  firstcycle := if (s.task n).first then 1 else 0
  frelease := BitVec.ofNat 64 (s.task n).lastRelease
  fperiod := BitVec.ofNat 64 (s.fld (FRM_TDEF n) FRM_TDEF_PERIOD * s.tFrame * 1000)
  pepoch := BitVec.ofNat 64 (s.openEpoch n)
  tstate := BitVec.ofNat 64 (bit (s.isSafe n) + 2 * bit (placeVoted place) + 4 * bit (s.isSet SYS_STATUS SYS_STATUS_FORCED) +
    8 * bit (s.task n).prevOvr)

/-- The cycle that a release opens. -/
def State.newCycle (s : State) (n : Nat) (head : Bool) : Cycle :=
  let place := s.placeNow n
  { locked := s.lockedValues n place (s.grid s.frameCount / 65536),
    frame := s.frameCount, place := place, policy := s.fld (FRM_TCFG n) FRM_TCFG_POLICY,
    deadline := s.fld (FRM_TDL n) FRM_TDL_DEADLINE, prio := s.fld (FRM_TCFG n) FRM_TCFG_PRIO, safe := s.isSafe n,
    openOn := s.placeCores place, entered := [], copied := false, published := false, late := false, carried := false,
    hold := [], head := head }

/-- A task is released: its cycle opens with the values of this tick. -/
def State.release (s : State) (n : Nat) (head : Bool) : State :=
  let s := (s.reloadSlices n).modTask n Task.nextRelease
  let cy := s.newCycle n head
  let rest := (s.elapsed n (s.grid s.frameCount / 65536)).2
  let s := ((s.putFld (FRM_TSTAT n) FRM_TSTAT_RESTART 0).flag (FRM_TSTAT n) FRM_TSTAT_OPEN).verifyDeadline n
  let corr := s.copiedCorr
  s.modTask n fun k =>
    { k with cycle := some cy, first := false, prevFtime := cy.locked.ftime.toNat, prevCorr := corr, remainder := rest,
             prevOvr := false, place := cy.place, placed := true, tevents := [] }

/-- Whether a task whose group is consistent is kept from a release for a reason of its own. After a module SAFE failure no
SAFE task is released before the restart that clears it (R187). -/
def State.releaseBarred (s : State) (n : Nat) : Bool :=
  (s.taskProg n).isNone || !(s.task n).badPages.isEmpty || s.cycleOpen n || (s.isSafe n && ((s.task n).awaitsChecks || s.isSet LANE_STATUS LANE_STATUS_SAFEFAIL)) ||
    (s.isSet (FRM_TSTAT n) FRM_TSTAT_STOPPED && !s.isSet (FRM_TSTAT n) FRM_TSTAT_RESTART)

/-- After a comparator fault an STD task runs only with the verified STDCONT at 1, and no SAFE task runs (R199, R200). -/
def State.comparatorBars (s : State) (n : Nat) : Bool :=
  s.isSet ANX_STATUS ANX_STATUS_CMPFAULT && (s.isSafe n || !s.anvils.verX.stdcont)

/-- A task is released unless something keeps it. A RESTART starts it first (R158, R166). -/
def State.tryRelease (s : State) (n : Nat) (head : Bool) : State :=
  if s.comparatorBars n ∨ s.releaseBarred n then s
  else (s.when (s.isSet (FRM_TSTAT n) FRM_TSTAT_STOPPED) fun t => t.startTask n).release n head

/-- Whether tasks are released at this tick. -/
def State.releasesAllowed (s : State) : Bool :=
  s.eff != effStop && s.modes.restart.isNone && !s.standby && !s.quietFrame

/-- The outputs of a group on its safe side; a standby holds those of the records it applies (R392). -/
def State.safeSide (s : State) (n : Nat) : State := if s.standby then s else s.substitute n

/-- A consistent group is used: its task is released, or its outputs tell why not. -/
def State.useTask (s : State) (n : Nat) : State :=
  if !(s.task n).badPages.isEmpty then s.faultOutputs n (s.fld (FRM_TCFG n) FRM_TCFG_POLICY)
  else if s.comparatorBars n ∧ !s.isSafe n then s.overrunOutputs n (s.fld (FRM_TCFG n) FRM_TCFG_POLICY)
  else s.tryRelease n false

/-- A group is used at each tick at which it is due, whether or not tasks are released there (R156, R169, R154). -/
def State.useGroup (s : State) (n : Nat) : State :=
  if !s.isSet (FRM_TCFG n) FRM_TCFG_EN then s.safeSide n
  else if !s.groupRule n then
    (((s.flag FRM_STATUS FRM_STATUS_CFG_SKEW).flag (FRM_TSTAT n) FRM_TSTAT_SKEW).evGroup (srcOf FRM_STATUS) n).safeSide n
  else (s.putFld (FRM_TSTAT n) FRM_TSTAT_SKEW 0).when s.releasesAllowed fun t => t.useTask n

/-- Every task at the tick: what it undergoes, and its group where it is used. -/
def State.taskTick (s : State) : State :=
  let s := if s.standby then s
    else
      let s := s.when s.anvils.checked fun t => t.forEach allTasks fun n u => u.modTask n fun k => { k with awaitsChecks := false }
      s.forEach allTasks fun n t => t.prepareTask n
  s.forEach (allTasks.filter s.groupUsed) fun n t => t.useGroup n

/-- The ready lists are rebuilt: a released task may pre-empt a carried cycle (R159). -/
def State.rebuildReady (s : State) : State := (s.forEach allCores fun c t => t.preempt c).dispatchAll

/-- Line TICK is raised and the ready lists are rebuilt (R156). -/
def State.readyTick (s : State) : State := (s.irq lineTick).rebuildReady

/-! ### The tick (R156) -/

/-- The tick. -/
def State.tick (s : State) : State :=
  if !s.isSet FRM_CTRL FRM_CTRL_RUN then s
  else
    let ended := s.frameCount
    let s := s.stepAct.fireTick.closeFrame
    let s := s.dueTick.modeTick.restartTick.forceTick.changeTick.openRings
    let s := s.deliveryTick
    let s := ((s.dioPoints s.frameCount).doTick).loopTick
    let s := (s.energyTick ended).trialTick
    let s := s.forEach allTriads fun t u => u.selectPoint t
    s.taskTick.readyTick

/-! ### Steps of the clock inside a frame (R149) -/

/-- The clock has passed the deadline of a cycle in this frame. -/
def State.deadlinePassed (s : State) (c : Cycle) : Bool :=
  !c.late && !(c.carried && c.frame == s.frameCount) && decide (s.grid s.frameCount + c.deadline * clockUs ≤ s.time.clock)

/-- The deadlines that the clock has passed expire. -/
def State.expireDeadlines (s : State) : State := s.forEach (s.tasksWith fun _ c => s.deadlinePassed c) fun n t => t.deadline n

/-- After a step the deadlines that the clock has passed expire at once, and one tick is produced at once when it has passed a
grid instant (R149). -/
def State.catchUp (s : State) : State :=
  if !s.isSet FRM_CTRL FRM_CTRL_RUN then s
  else
    let s := s.expireDeadlines.dispatchAll
    if s.grid s.frame.nextTick ≤ s.time.clock then s.tick else s

/-- STEP_ACT. -/
def execStepAct (s : State) : Host.Outcome State Fault Refusal :=
  let t := s.stepAct
  .next (t.when (t.time.clock != s.time.clock) State.catchUp)

/-- PTP_SYNC: a Sync with its origin time (from its Follow_Up, or its own when one-step), and the raw time of its
arrival. -/
def execPtpSync (port : Fin 4) (domain sender senderPort : Nat) (origin raw : Int) (s : State) :
    Host.Outcome State Fault Refusal :=
  let t := s.ptpSync port.val domain sender senderPort origin raw
  .next (t.when (t.time.clock != s.time.clock) State.catchUp)

/-- TICK. -/
def execTick (s : State) : Host.Outcome State Fault Refusal := .next s.tick

/-! ### The close phase (R151, R179, R196, R198, R389, R400, R414, R416) -/

/-- The close phase begins: the skew windows close and the Anvils check themselves, the bridge writes the job windows, and
the coupler closes the frame's record and sends HEALTH. -/
def State.closePhase (s : State) (upset okX okY : Bool) : State :=
  if !s.isSet FRM_CTRL FRM_CTRL_RUN ∨ s.frame.inClose then s
  else
    let s := s.anvilClose upset okX okY
    let s := s.jobWindows (bankBase s.frameCount)
    let s := s.wayClose (s.cpl.member && s.partner == psReady)
    (s.inPair fun t => t.closeRecord.sendHealth).dispatchAll

/-- CLOSE_PHASE: `upset` says that a verified timing set has been damaged, `okX` and `okY` whether each Anvil's strike
test gives the verdict it must. -/
def execClosePhase (upset okX okY : Bool) (s : State) : Host.Outcome State Fault Refusal := .next (s.closePhase upset okX okY)

/-! ### Station drop-out (R274, R275, R277) -/

/-- Whether a task reads a point of a block. -/
def State.readsBlock (s : State) (n : Nat) (b : IoBlock) : Bool :=
  (s.inSlices n).any fun x => x.analog == b.analog && decide (x.start < b.start + b.count) && decide (b.start < x.start + x.count)

/-- Whether a ring's error task can be released at this tick (R154, R166, R169). -/
def State.errorTaskFree (s : State) (e : Nat) : Bool :=
  s.releasesAllowed && s.isSet (FRM_TCFG e) FRM_TCFG_EN && s.groupRule e && !s.comparatorBars e && !s.releaseBarred e

/-- Whether a task has been released at this tick and has not begun. -/
def State.justReleased (s : State) (n : Nat) : Bool :=
  (s.task n).cycle.elim false fun c => c.frame == s.frameCount && c.entered.isEmpty && !c.carried

/-- The error task of a ring is released, or moved to the head of its ready list, and the readers of the station's blocks
wait for the end of its cycle. -/
def State.releaseErrorTask (s : State) (n : Nat) (blocks : List IoBlock) : State :=
  let e := s.fld (SOP_DROPCFG n) SOP_DROPCFG_ETASK
  if !s.isSet (SOP_DROPCFG n) SOP_DROPCFG_ETEN then s
  else if !s.justReleased e ∧ !s.errorTaskFree e then s.evState (srcSop n) (SOP_DROPCFG n % 0x10000) e 0
  else
    let s := if s.justReleased e then
        s.modTask e fun k => { k with cycle := k.cycle.map fun c => { c with head := true } }
      else s.tryRelease e true
    let readers := allTasks.filter fun t => t != e && s.justReleased t && blocks.any (s.readsBlock t)
    (s.forEach readers fun t u => u.modTask t fun k => { k with cycle := k.cycle.map fun c => { c with hold := e :: c.hold } }).rebuildReady

/-- A station is declared DROPPED, in whatever state its ring is (R274). -/
def State.stationDrop (s : State) (n id : Nat) : State :=
  if s.sta n id ≠ staActive ∨
      (s.station n id).miss < max 1 (s.fld (SOP_DROPCFG n) SOP_DROPCFG_FRAMES) then s
  else
    let blocks := s.stationBlocks n id
    let s := s.forEach blocks fun b t => t.fillDropped (bankBase (t.frameCount + 1)) b
    let s := ((s.setSta n id staDropped).modStation n id fun k => { k with dropped := true }).bump (SOP_DROPCNT n)
    let s := s.event (srcSop n) 0x0106 sevFault [id]
    let s := (s.modRing n fun k => { k with discards := k.discards ++ [(id, 0)] }).notify n id 1 s.fcnt []
    s.releaseErrorTask n blocks

/-- STATION_DROP. -/
def execStationDrop (ring : Fin 6) (station : BitVec 8) (s : State) : Host.Outcome State Fault Refusal :=
  .next (s.stationDrop ring.val station.toNat)

end Sys2Proof.Machine
end

