-- ==== Sys2Proof/Machine/Dispatch.lean ====
section
/-!
DEFINITION. What each command of the opcode table does: one arm per constructor, each a call of its meaning.
-/

namespace Sys2Proof.Machine

def exec (i : Instr) (s : State) : Host.Outcome State Fault Refusal :=
  match i with
  | .tick => Sys2Proof.Machine.execTick s
  | .snapshotCopyComplete ns => Sys2Proof.Machine.execSnapshotCopyComplete ns s
  | .deadline task => Sys2Proof.Machine.execDeadline task s
  | .closePhase upset okX okY => Sys2Proof.Machine.execClosePhase upset okX okY s
  | .checkpointRecord core crcX crcY => Sys2Proof.Machine.execCheckpointRecord core crcX crcY s
  | .taskFaultReport core crcX crcY => Sys2Proof.Machine.execTaskFaultReport core crcX crcY s
  | .skewWindowClose task agree => Sys2Proof.Machine.execSkewWindowClose task agree s
  | .quenchTestStart lane => Sys2Proof.Machine.execQuenchTestStart lane s
  | .quenchTestEnd lane pass => Sys2Proof.Machine.execQuenchTestEnd lane pass s
  | .rejoinCopyStart job => Sys2Proof.Machine.execRejoinCopyStart job s
  | .rejoinCopyEnd job => Sys2Proof.Machine.execRejoinCopyEnd job s
  | .interrupt c line => Sys2Proof.Machine.execInterrupt c line s
  | .addi x rd ra imm => Sys2Proof.Machine.execAddi x rd ra imm s
  | .andi x rd ra imm => Sys2Proof.Machine.execAndi x rd ra imm s
  | .ori x rd ra imm => Sys2Proof.Machine.execOri x rd ra imm s
  | .lui x rd ra imm => Sys2Proof.Machine.execLui x rd ra imm s
  | .op x func rd ra rb => Sys2Proof.Machine.execOp x func rd ra rb s
  | .load x size rd ra off => Sys2Proof.Machine.execLoad x size rd ra off s
  | .store x size rs ra off => Sys2Proof.Machine.execStore x size rs ra off s
  | .fload x dbl rd ra off => Sys2Proof.Machine.execFload x dbl rd ra off s
  | .fstore x dbl rs ra off => Sys2Proof.Machine.execFstore x dbl rs ra off s
  | .branch x cond ra rb off => Sys2Proof.Machine.execBranch x cond ra rb off s
  | .jal x off => Sys2Proof.Machine.execJal x off s
  | .jalr x rd ra imm => Sys2Proof.Machine.execJalr x rd ra imm s
  | .fp x func rd ra rb => Sys2Proof.Machine.execFp x func rd ra rb s
  | .atom x func rd ra rb => Sys2Proof.Machine.execAtom x func rd ra rb s
  | .tret x r sr => Sys2Proof.Machine.execTret x r sr s
  | .wait x r sr => Sys2Proof.Machine.execWait x r sr s
  | .brk x r sr => Sys2Proof.Machine.execBrk x r sr s
  | .fence x r sr => Sys2Proof.Machine.execFence x r sr s
  | .ifence x r sr => Sys2Proof.Machine.execIfence x r sr s
  | .mfsr x rd sr => Sys2Proof.Machine.execMfsr x rd sr s
  | .mtsr x ra sr => Sys2Proof.Machine.execMtsr x ra sr s
  | .pld x rd rq idx => Sys2Proof.Machine.execPld x rd rq idx s
  | .pst x rd rq idx => Sys2Proof.Machine.execPst x rd rq idx s
  | .ald x rd rq idx => Sys2Proof.Machine.execAld x rd rq idx s
  | .aldu x rd rq idx => Sys2Proof.Machine.execAldu x rd rq idx s
  | .ast x rd rq idx => Sys2Proof.Machine.execAst x rd rq idx s
  | .aldf x rd rq idx => Sys2Proof.Machine.execAldf x rd rq idx s
  | .astf x rd rq idx => Sys2Proof.Machine.execAstf x rd rq idx s
  | .pldx x rd ra rb => Sys2Proof.Machine.execPldx x rd ra rb s
  | .pstx x rd ra rb => Sys2Proof.Machine.execPstx x rd ra rb s
  | .aldx x rd ra rb => Sys2Proof.Machine.execAldx x rd ra rb s
  | .astx x rd ra rb => Sys2Proof.Machine.execAstx x rd ra rb s
  | .pldb x rd ra rb => Sys2Proof.Machine.execPldb x rd ra rb s
  | .ptgb x rd ra rb => Sys2Proof.Machine.execPtgb x rd ra rb s
  | .ptor x rd ra rb => Sys2Proof.Machine.execPtor x rd ra rb s
  | .pstb x rd ra rb => Sys2Proof.Machine.execPstb x rd ra rb s
  | .pcpy x rd ra rb => Sys2Proof.Machine.execPcpy x rd ra rb s
  | .acpy x rd ra rb => Sys2Proof.Machine.execAcpy x rd ra rb s
  | .ton x rd ra rb => Sys2Proof.Machine.execTon x rd ra rb s
  | .tof x rd ra rb => Sys2Proof.Machine.execTof x rd ra rb s
  | .tp x rd ra rb => Sys2Proof.Machine.execTp x rd ra rb s
  | .edgr x rd ra rb => Sys2Proof.Machine.execEdgr x rd ra rb s
  | .edgf x rd ra rb => Sys2Proof.Machine.execEdgf x rd ra rb s
  | .edgb x rd ra rb => Sys2Proof.Machine.execEdgb x rd ra rb s
  | .ckpt x ra sr => Sys2Proof.Machine.execCkpt x ra sr s
  | .tcallTfault x r number => Sys2Proof.Machine.execTcallTfault x r number s
  | .tcallTevent x r => Sys2Proof.Machine.execTcallTevent x r s
  | .registerWrite writer address value => Sys2Proof.Machine.execRegisterWrite writer address value s
  | .frmStart => Sys2Proof.Machine.execFrmStart s
  | .frmStop => Sys2Proof.Machine.execFrmStop s
  | .taskRestart task => Sys2Proof.Machine.execTaskRestart task s
  | .modeRequest triad mode odd => Sys2Proof.Machine.execModeRequest triad mode odd s
  | .commandedQuench lane => Sys2Proof.Machine.execCommandedQuench lane s
  | .epochReset task => Sys2Proof.Machine.execEpochReset task s
  | .iommuInvalidate all ctx => Sys2Proof.Machine.execIommuInvalidate all ctx s
  | .dmaStart n => Sys2Proof.Machine.execDmaStart n s
  | .dmaStop n => Sys2Proof.Machine.execDmaStop n s
  | .dmaElement n found => Sys2Proof.Machine.execDmaElement n found s
  | .dmaDescriptorComplete n => Sys2Proof.Machine.execDmaDescriptorComplete n s
  | .scrubStep pa ecc => Sys2Proof.Machine.execScrubStep pa ecc s
  | .codeDigestCheck page good => Sys2Proof.Machine.execCodeDigestCheck page good s
  | .codePageReload page data good => Sys2Proof.Machine.execCodePageReload page data good s
  | .keyPositionStable code => Sys2Proof.Machine.execKeyPositionStable code s
  | .modecfgWrite who value => Sys2Proof.Machine.execModecfgWrite who value s
  | .programRestart => Sys2Proof.Machine.execProgramRestart s
  | .confirmTimeout channel => Sys2Proof.Machine.execConfirmTimeout channel s
  | .changeSwitchCheck partnerLoaded => Sys2Proof.Machine.execChangeSwitchCheck partnerLoaded s
  | .rollbackWindowClose => Sys2Proof.Machine.execRollbackWindowClose s
  | .ringEnable ring => Sys2Proof.Machine.execRingEnable ring s
  | .ringDisable ring => Sys2Proof.Machine.execRingDisable ring s
  | .listenTimeout ring => Sys2Proof.Machine.execListenTimeout ring s
  | .coldstartRound ring raw => Sys2Proof.Machine.execColdstartRound ring raw s
  | .ringSlotStart ring slot skew brake => Sys2Proof.Machine.execRingSlotStart ring slot skew brake s
  | .ringFrameReceived ring west raw frame => Sys2Proof.Machine.execRingFrameReceived ring west raw frame s
  | .syncReturn ring => Sys2Proof.Machine.execSyncReturn ring s
  | .inFrame ring west => Sys2Proof.Machine.execInFrame ring west s
  | .identResponse ring west => Sys2Proof.Machine.execIdentResponse ring west s
  | .schedAck ring west => Sys2Proof.Machine.execSchedAck ring west s
  | .posnAck ring west => Sys2Proof.Machine.execPosnAck ring west s
  | .cscfgResponse ring west => Sys2Proof.Machine.execCscfgResponse ring west s
  | .pwriteResponse ring west => Sys2Proof.Machine.execPwriteResponse ring west s
  | .preadResponse ring west => Sys2Proof.Machine.execPreadResponse ring west s
  | .evtgetResponse ring west => Sys2Proof.Machine.execEvtgetResponse ring west s
  | .claim ring west => Sys2Proof.Machine.execClaim ring west s
  | .breakDeclare ring => Sys2Proof.Machine.execBreakDeclare ring s
  | .breakHeal ring => Sys2Proof.Machine.execBreakHeal ring s
  | .onecopyPattern ring => Sys2Proof.Machine.execOnecopyPattern ring s
  | .stationDrop ring station => Sys2Proof.Machine.execStationDrop ring station s
  | .farSideTimeout channel ring station => Sys2Proof.Machine.execFarSideTimeout channel ring station s
  | .tdrMeasure ring eStat eLen wStat wLen => Sys2Proof.Machine.execTdrMeasure ring eStat eLen wStat wLen s
  | .queuePacketEnd q size how => Sys2Proof.Machine.execQueuePacketEnd q size how s
  | .queueTailTimeout q => Sys2Proof.Machine.execQueueTailTimeout q s
  | .queueBankDrained q => Sys2Proof.Machine.execQueueBankDrained q s
  | .ptpSync port domain sender senderPort origin raw => Sys2Proof.Machine.execPtpSync port domain sender senderPort origin raw s
  | .ptpMessage port domain m => Sys2Proof.Machine.execPtpMessage port domain m s
  | .ptpSourceLoss => Sys2Proof.Machine.execPtpSourceLoss s
  | .stepCommand => Sys2Proof.Machine.execStepCommand s
  | .stepAct => Sys2Proof.Machine.execStepAct s
  | .clockCapture => Sys2Proof.Machine.execClockCapture s
  | .hello r => Sys2Proof.Machine.execHello r s
  | .keyx r sigOk => Sys2Proof.Machine.execKeyx r sigOk s
  | .lapClose r => Sys2Proof.Machine.execLapClose r s
  | .keepalive r => Sys2Proof.Machine.execKeepalive r s
  | .lapRead r ue => Sys2Proof.Machine.execLapRead r ue s
  | .lapWrite r ue => Sys2Proof.Machine.execLapWrite r ue s
  | .failget r => Sys2Proof.Machine.execFailget r s
  | .failack r => Sys2Proof.Machine.execFailack r s
  | .job r => Sys2Proof.Machine.execJob r s
  | .mbxpostPost r => Sys2Proof.Machine.execMbxpostPost r s
  | .mbxpostStatus r => Sys2Proof.Machine.execMbxpostStatus r s
  | .mbxpostDone r => Sys2Proof.Machine.execMbxpostDone r s
  | .mbxpostWithdraw r => Sys2Proof.Machine.execMbxpostWithdraw r s
  | .subscribe r => Sys2Proof.Machine.execSubscribe r s
  | .notifyack r => Sys2Proof.Machine.execNotifyack r s
  | .notifyRetry channel reqid => Sys2Proof.Machine.execNotifyRetry channel reqid s
  | .unknownSession op r => Sys2Proof.Machine.execUnknownSession op r s
  | .arpRequest via peer address => Sys2Proof.Machine.execArpRequest via peer address s
  | .icmpEcho via peer address data => Sys2Proof.Machine.execIcmpEcho via peer address data s
  | .sessionTimeout channel => Sys2Proof.Machine.execSessionTimeout channel s
  | .halfOpenTimeout channel => Sys2Proof.Machine.execHalfOpenTimeout channel s
  | .fetchAbandon channel ring station address => Sys2Proof.Machine.execFetchAbandon channel ring station address s
  | .orphanExpire channel ring station address => Sys2Proof.Machine.execOrphanExpire channel ring station address s
  | .prefetchExpire ring station address => Sys2Proof.Machine.execPrefetchExpire ring station address s
  | .commandMode r => Sys2Proof.Machine.execCommandMode r s
  | .commandWarmrst r => Sys2Proof.Machine.execCommandWarmrst r s
  | .commandColdrst r => Sys2Proof.Machine.execCommandColdrst r s
  | .commandPurge r => Sys2Proof.Machine.execCommandPurge r s
  | .commandForceset r => Sys2Proof.Machine.execCommandForceset r s
  | .commandForcerel r => Sys2Proof.Machine.execCommandForcerel r s
  | .commandForcestart r => Sys2Proof.Machine.execCommandForcestart r s
  | .commandChgload r package check => Sys2Proof.Machine.execCommandChgload r package check s
  | .commandChgswitch r => Sys2Proof.Machine.execCommandChgswitch r s
  | .commandChgdiscard r => Sys2Proof.Machine.execCommandChgdiscard r s
  | .commandChgcommit r => Sys2Proof.Machine.execCommandChgcommit r s
  | .commandChgrollback r => Sys2Proof.Machine.execCommandChgrollback r s
  | .commandTaskrestart r => Sys2Proof.Machine.execCommandTaskrestart r s
  | .commandConfirm r => Sys2Proof.Machine.execCommandConfirm r s
  | .commandState r => Sys2Proof.Machine.execCommandState r s
  | .pkgdata r => Sys2Proof.Machine.execPkgdata r s
  | .safetyDatagram port source payload => Sys2Proof.Machine.execSafetyDatagram port source payload s
  | .safetyDatagramSend channel => Sys2Proof.Machine.execSafetyDatagramSend channel s
  | .mbxPost who c len mtype => Sys2Proof.Machine.execMbxPost who c len mtype s
  | .mbxTake who c => Sys2Proof.Machine.execMbxTake who c s
  | .mbxAck who c rcode => Sys2Proof.Machine.execMbxAck who c rcode s
  | .mbxDone who c => Sys2Proof.Machine.execMbxDone who c s
  | .mbxWithdraw who c => Sys2Proof.Machine.execMbxWithdraw who c s
  | .mbxBindWrite who c v => Sys2Proof.Machine.execMbxBindWrite who c v s
  | .mbxEprst who cores => Sys2Proof.Machine.execMbxEprst who cores s
  | .couplerLinkUp link => Sys2Proof.Machine.execCouplerLinkUp link s
  | .capPacket p cap => Sys2Proof.Machine.execCapPacket p cap s
  | .heartbeat link fcnt pstate offset => Sys2Proof.Machine.execHeartbeat link fcnt pstate offset s
  | .couplerLinkDown link => Sys2Proof.Machine.execCouplerLinkDown link s
  | .pauseWord link => Sys2Proof.Machine.execPauseWord link s
  | .resumeWord link => Sys2Proof.Machine.execResumeWord link s
  | .dataPacket p items => Sys2Proof.Machine.execDataPacket p items s
  | .marker p count fullDone => Sys2Proof.Machine.execMarker p count fullDone s
  | .couplerAck p missing ready => Sys2Proof.Machine.execCouplerAck p missing ready s
  | .recordApply => Sys2Proof.Machine.execRecordApply s
  | .recordLate => Sys2Proof.Machine.execRecordLate s
  | .healthPacket p h => Sys2Proof.Machine.execHealthPacket p h s
  | .takeoverRequest p kind => Sys2Proof.Machine.execTakeoverRequest p kind s
  | .takeoverResponse p granted tick => Sys2Proof.Machine.execTakeoverResponse p granted tick s
  | .updateRequest p => Sys2Proof.Machine.execUpdateRequest p s
  | .pairingTimeout => Sys2Proof.Machine.execPairingTimeout s
  | .partnerLost => Sys2Proof.Machine.execPartnerLost s
  | .takeover => Sys2Proof.Machine.execTakeover s
  | .plannedSwitch => Sys2Proof.Machine.execPlannedSwitch s
  | .soakComplete => Sys2Proof.Machine.execSoakComplete s
  | .handBack => Sys2Proof.Machine.execHandBack s
  | .stepDown => Sys2Proof.Machine.execStepDown s
  | .temperScan lane pass => Sys2Proof.Machine.execTemperScan lane pass s
  | .wayPurge => Sys2Proof.Machine.execWayPurge s
  | .diSample x => Sys2Proof.Machine.execDiSample x s
  | .testRunStart cause => Sys2Proof.Machine.execTestRunStart cause s
  | .testTestIssue => Sys2Proof.Machine.execTestTestIssue s
  | .testRunEnd => Sys2Proof.Machine.execTestRunEnd s
  | .faultAbsentTimeout input => Sys2Proof.Machine.execFaultAbsentTimeout input s
  | .tpOverload src mA => Sys2Proof.Machine.execTpOverload src mA s
  | .tpRetry src => Sys2Proof.Machine.execTpRetry src s
  | .doLoadMeasure c load => Sys2Proof.Machine.execDoLoadMeasure c load s
  | .doClear mask => Sys2Proof.Machine.execDoClear mask s
  | .fg1Loss => Sys2Proof.Machine.execFg1Loss s
  | .fg1Return => Sys2Proof.Machine.execFg1Return s
  | .loopSample c m => Sys2Proof.Machine.execLoopSample c m s
  | .complianceTimeout c => Sys2Proof.Machine.execComplianceTimeout c s
  | .loopThermal c hot => Sys2Proof.Machine.execLoopThermal c hot s
  | .loopModeSettled c => Sys2Proof.Machine.execLoopModeSettled c s
  | .loopLoadCompute c => Sys2Proof.Machine.execLoopLoadCompute c s
  | .loopClear mask => Sys2Proof.Machine.execLoopClear mask s
  | .fg2Loss => Sys2Proof.Machine.execFg2Loss s
  | .fg2Return => Sys2Proof.Machine.execFg2Return s
  | .powerUp => Sys2Proof.Machine.execPowerUp s
  | .moduleReset cause => Sys2Proof.Machine.execModuleReset cause s
  | .stagedStartStep f => Sys2Proof.Machine.execStagedStartStep f s
  | .laneRelease pass => Sys2Proof.Machine.execLaneRelease pass s
  | .stagedStartAbort => Sys2Proof.Machine.execStagedStartAbort s
  | .powerFailWarning joules => Sys2Proof.Machine.execPowerFailWarning joules s
  | .powerFailEnd milliseconds => Sys2Proof.Machine.execPowerFailEnd milliseconds s
  | .holdupExhausted => Sys2Proof.Machine.execHoldupExhausted s
  | .railFault rail mv => Sys2Proof.Machine.execRailFault rail mv s
  | .tempSample temps => Sys2Proof.Machine.execTempSample temps s
  | .runtimeWatchdogKey key => Sys2Proof.Machine.execRuntimeWatchdogKey key s
  | .runtimeWatchdogEnable => Sys2Proof.Machine.execRuntimeWatchdogEnable s
  | .runtimeWatchdogExpiry => Sys2Proof.Machine.execRuntimeWatchdogExpiry s
  | .bellowsWatchdogExpiry => Sys2Proof.Machine.execBellowsWatchdogExpiry s
  | .blwResetCommand => Sys2Proof.Machine.execBlwResetCommand s
  | .holdtest result => Sys2Proof.Machine.execHoldtest result s
  | .healthForm clocksDiffer => Sys2Proof.Machine.execHealthForm clocksDiffer s
  | .energyTotalSave joules => Sys2Proof.Machine.execEnergyTotalSave joules s
  | .consoleHealth crc => Sys2Proof.Machine.execConsoleHealth crc s
  | .consoleIdent crc => Sys2Proof.Machine.execConsoleIdent crc s
  | .consoleEvents crc start count => Sys2Proof.Machine.execConsoleEvents crc start count s
  | .consoleReset crc => Sys2Proof.Machine.execConsoleReset crc s
  | .eventRaise source code severity safety params => Sys2Proof.Machine.execEventRaise source code severity safety params s
  | .tokenCredit => Sys2Proof.Machine.execTokenCredit s
  | .flushComplete failed => Sys2Proof.Machine.execFlushComplete failed s
  | .logBlockErase block ok => Sys2Proof.Machine.execLogBlockErase block ok s
  | .evrRead crcOk => Sys2Proof.Machine.execEvrRead crcOk s
  | .evrFlush => Sys2Proof.Machine.execEvrFlush s
  | .evrClear => Sys2Proof.Machine.execEvrClear s
  | .sidingWrite => Sys2Proof.Machine.execSidingWrite s
  | .sidingWriteDone ok => Sys2Proof.Machine.execSidingWriteDone ok s
  | .apply now granted => Sys2Proof.Machine.execApply now granted s
  | .updConfirm => Sys2Proof.Machine.execUpdConfirm s
  | .updDiscard => Sys2Proof.Machine.execUpdDiscard s
  | .updRecover => Sys2Proof.Machine.execUpdRecover s
  | .trialConfirm => Sys2Proof.Machine.execTrialConfirm s
  | .recoveryAnnounce => Sys2Proof.Machine.execRecoveryAnnounce s
  | .recoveryBlock offset data ok => Sys2Proof.Machine.execRecoveryBlock offset data ok s
  | .recoveryEnd length images => Sys2Proof.Machine.execRecoveryEnd length images s
  | .attest => Sys2Proof.Machine.execAttest s
  | .attestComplete => Sys2Proof.Machine.execAttestComplete s
  | .enroll slot => Sys2Proof.Machine.execEnroll slot s
  | .revoke slot => Sys2Proof.Machine.execRevoke slot s
  | .backbonePortEnable port en => Sys2Proof.Machine.execBackbonePortEnable port en s
  | .bridgeDisable => Sys2Proof.Machine.execBridgeDisable s
  | .backboneLinkChange port up => Sys2Proof.Machine.execBackboneLinkChange port up s
  | .backbonePacketDiscard port why => Sys2Proof.Machine.execBackbonePacketDiscard port why s
  | .lapReservedOp op r => Sys2Proof.Machine.execLapReservedOp op r s
  | .heartbeatSend => Sys2Proof.Machine.execHeartbeatSend s
  | .ptpMessageSend port kind raw => Sys2Proof.Machine.execPtpMessageSend port kind raw s
  | .bellowsRestartEnd => Sys2Proof.Machine.execBellowsRestartEnd s
  | .copyPacketsSent full => Sys2Proof.Machine.execCopyPacketsSent full s

end Sys2Proof.Machine
end

