-- ==== Sys2Proof/Safety.lean ====
section
/-!
DEFINITION. What claims are stated in: the canonical form of a state, the parts of a state, and the parts each command can
change.
-/

namespace Sys2Proof.Machine

/-- Keys strictly rising. -/
def keysRise {V : Type} : List (Nat × V) → Bool
  | [] => true
  | e :: m => (m.all fun f => decide (e.1 < f.1)) && keysRise m

/-- The canonical form of a state: the register file, the Signal Map Table and memory list their keys in rising order and
nothing that equals what an unlisted key reads as, and the uncorrectable words stand in rising order. Two canonical states
that read alike in registers, table and memory list the same entries. -/
def State.canonical (s : State) : Bool :=
  sparseWf resetOf s.regs && sparseWf (fun _ => (0 : Word)) s.smap && Memory.wf s.mem && keysRise s.ue

/-! ### What an instruction of a core leaves -/

/-- An instruction is fetched: its core runs, fetching it leaves the state `u` (R69), and a word, where one is given, spells an
instruction (R66, R85). -/
def Fetches (s : State) (x : Site) (u : State) : Prop :=
  s.cores[x.core].run = .running ∧ s.fetch x = (u, .ok) ∧ (x.word.all fun w => (decodeHelin x w).isSome) = true

/-- The core that executes an instruction, and what its accesses find: the Helin instructions of the table. -/
def siteOf : Instr → Option Site
  | .addi x _ _ _ | .andi x _ _ _ | .ori x _ _ _ | .lui x _ _ _ | .op x _ _ _ _ | .load x _ _ _ _ | .store x _ _ _ _
  | .fload x _ _ _ _ | .fstore x _ _ _ _ | .branch x _ _ _ _ | .jal x _ | .jalr x _ _ _ | .fp x _ _ _ _ | .atom x _ _ _ _
  | .tret x _ _ | .wait x _ _ | .brk x _ _ | .fence x _ _ | .ifence x _ _ | .mfsr x _ _ | .mtsr x _ _ | .pld x _ _ _
  | .pst x _ _ _ | .ald x _ _ _ | .aldu x _ _ _ | .ast x _ _ _ | .aldf x _ _ _ | .astf x _ _ _ | .pldx x _ _ _
  | .pstx x _ _ _ | .aldx x _ _ _ | .astx x _ _ _ | .pldb x _ _ _ | .ptgb x _ _ _ | .ptor x _ _ _ | .pstb x _ _ _
  | .pcpy x _ _ _ | .acpy x _ _ _ | .ton x _ _ _ | .tof x _ _ _ | .tp x _ _ _ | .edgr x _ _ _ | .edgf x _ _ _
  | .edgb x _ _ _ | .ckpt x _ _ | .tcallTfault x _ _ | .tcallTevent x _ => some x
  | _ => none

/-- An instruction has retired: the next address, one more instruction counted (R61), and no other core changed. -/
structure Retired (s t : State) (c : Fin 12) (next : DWord) : Prop where
  pc : t.cores[c].pc = next
  instret : t.cores[c].instret = s.cores[c].instret + 1
  others : ∀ d, d ≠ c → t.cores[d] = s.cores[d]

/-- A general register holds a result, unless it is h0, and every other general register what it held (R55). -/
def WroteH (k k' : Core) (rd : BitVec 5) (v : DWord) : Prop :=
  k'.geth rd = (if rd = 0 then 0 else v) ∧ ∀ r, r ≠ rd → k'.geth r = k.geth r

/-- A floating-point register holds a result, and every other one what it held. -/
def WroteF (k k' : Core) (rd : BitVec 5) (v : DWord) : Prop := k'.getf rd = v ∧ ∀ r, r ≠ rd → k'.getf r = k.getf r

/-- Two general registers hold a value and a tag, unless they are h0, and every other one what it held. -/
def WrotePair (k k' : Core) (rd rq : BitVec 5) (v w : DWord) : Prop :=
  k'.geth rd = (if rd = 0 then 0 else v) ∧ k'.geth rq = (if rq = 0 then 0 else w) ∧ ∀ r, r ≠ rd → r ≠ rq → k'.geth r = k.geth r

/-- Two cores agree in all but what most instructions may change: general and floating-point registers, the address of the
next instruction, the counters, and the translation cache. -/
def SameRest (k k' : Core) : Prop :=
  { k' with h := k.h, f := k.f, pc := k.pc, corecyc := k.corecyc, instret := k.instret, tlb := k.tlb } = k

/-- A trap, an interrupt or an entry has been taken on a core (R70, R101): the four registers saved, K with interrupts off
and TD set, the address in the vector and its offset `off`, no general or floating-point register written, `n` instructions
counted, and no other core changed. -/
structure Entered (s t : State) (c : Fin 12) (code : Nat) (tval tpc : DWord) (off n : Nat) : Prop where
  tcause : t.cores[c].tcause = BitVec.ofNat 64 code
  tval : t.cores[c].tval = tval
  tpc : t.cores[c].tpc = tpc
  tstatus : t.cores[c].tstatus = s.cores[c].status
  status : t.cores[c].status = 5
  pc : t.cores[c].pc = (s.cores[c].tvec &&& ~~~0xFFF) + BitVec.ofNat 64 off
  instret : t.cores[c].instret = s.cores[c].instret + BitVec.ofNat 64 n
  h : ∀ r, t.cores[c].geth r = s.cores[c].geth r
  f : ∀ r, t.cores[c].getf r = s.cores[c].getf r
  others : ∀ d, d ≠ c → t.cores[d] = s.cores[d]

/-- An instruction has trapped at its own address and is not counted (R70). -/
abbrev Trapped (s t : State) (c : Fin 12) (code : Nat) (tval : DWord) : Prop := Entered s t c code tval s.cores[c].pc 0 0

/-- A counter of R45 has counted once, up to its maximum. -/
def Counted (s t : State) (a : Nat) : Prop := t.fld a CNT_COUNT = min (s.fld a CNT_COUNT + 1) 0x7FFFFFFF

/-! ### What a LAP request leaves -/

/-- A request with an OP that its port, its session and its header let through to a channel (R296, R297, R302, R511). -/
structure Admitted (s : State) (ch op : Nat) (r : LapRequest) : Prop where
  port : s.portOn r.via.val = true
  accepted : s.lapPort r.via = true
  enabled : s.isSet BRG_CTRL BRG_CTRL_EN = true
  session : s.openChannel r.sid.toNat = some ch
  length : r.payload.length ≤ 1424
  mac : lapMacOk r op (s.lap ch).key = true
  fresh : (s.lap ch).rxCount < r.dcnt.toNat
  header : lapHeaderOk r = true

/-- The state in which an admitted request is served: its port has counted the packet, and its channel has kept the counter
and the sender (R298). -/
def State.received (s : State) (ch : Nat) (r : LapRequest) : State :=
  (if r.via.val < 4 then s.bump (BKB_RXPKT r.via.val) else s).modLap ch fun c =>
    { c with rxCount := r.dcnt.toNat, peer := r.peer, via := r.via.val }

/-- The last message sent is the response to a request: its operation, its status, and what its payload is. -/
def Answered (t : State) (r : LapRequest) (op status : Nat) (holds : List Byte → Prop) : Prop :=
  ∃ d, t.outbox.head? = some (.lap r.via.val r.peer d) ∧ d.op = op + 0x80 ∧ d.reqid = r.reqid.toNat ∧ d.status = status ∧
    holds d.payload

/-- The requests of an open session in the table, each with its OP (R299) and whether a standby serves it too (R401). -/
def requestOf : Instr → Option (LapRequest × Nat × Bool)
  | .lapClose r => some (r, 0x03, false)
  | .keepalive r => some (r, 0x04, true)
  | .lapRead r _ => some (r, 0x10, true)
  | .lapWrite r _ => some (r, 0x11, false)
  | .failget r => some (r, 0x12, true)
  | .failack r => some (r, 0x13, false)
  | .job r => some (r, 0x20, false)
  | .mbxpostPost r | .mbxpostStatus r | .mbxpostDone r | .mbxpostWithdraw r => some (r, 0x21, false)
  | .subscribe r => some (r, 0x30, false)
  | .notifyack r => some (r, 0x32, false)
  | .commandMode r | .commandWarmrst r | .commandColdrst r | .commandPurge r | .commandForceset r | .commandForcerel r
  | .commandForcestart r | .commandChgload r _ _ | .commandChgswitch r | .commandChgdiscard r | .commandChgcommit r
  | .commandChgrollback r | .commandTaskrestart r | .commandConfirm r | .commandState r => some (r, 0x40, false)
  | .pkgdata r => some (r, 0x41, false)
  | _ => none

/-- A COMMAND with its CODE and its arguments as R322 lays them out. -/
def CommandForm (r : LapRequest) : Prop :=
  r.seq = 0 ∧ 4 ≤ r.payload.length ∧ field r.payload 2 2 = (r.payload.drop 4).length ∧ r.payload.length ≤ 1424

/-- A COMMAND that the module decides: it is admitted by an active module, is well formed, repeats no earlier one, and its
channel may command (R322). -/
structure Decides (s : State) (ch : Nat) (r : LapRequest) : Prop where
  admitted : Admitted s ch 0x40 r
  active : s.standby = false
  form : CommandForm r
  fresh : ((s.lap ch).answered.find? fun a => a.1 == r.reqid.toNat) = none
  permitted : s.isSet BRG_CMDEN ⟨ch, 1⟩ = true

/-- The operating commands of the table, with the CODE of each (R323). -/
def commandOf : Instr → Option (LapRequest × Nat)
  | .commandMode r => some (r, 1)
  | .commandWarmrst r => some (r, 2)
  | .commandColdrst r => some (r, 3)
  | .commandPurge r => some (r, 4)
  | .commandForceset r => some (r, 5)
  | .commandForcerel r => some (r, 6)
  | .commandForcestart r => some (r, 7)
  | .commandChgload r _ _ => some (r, 0x10)
  | .commandChgswitch r => some (r, 0x11)
  | .commandChgdiscard r => some (r, 0x12)
  | .commandChgcommit r => some (r, 0x13)
  | .commandChgrollback r => some (r, 0x14)
  | .commandTaskrestart r => some (r, 0x18)
  | .commandConfirm r => some (r, 0x20)
  | .commandState r => some (r, 0x30)
  | _ => none

/-- A module reset has acted (R441, R442): its cause and the one before it, the staged start at its begin, every register outside
the always-on domain at its reset value, memory that needs power empty, and the units as after reset. -/
structure ResetTo (s t : State) (cause prev : Nat) : Prop where
  cause : t.fld SYS_RSTCAUSE SYS_RSTCAUSE_CAUSE = cause
  prev : t.fld SYS_RSTCAUSE SYS_RSTCAUSE_PREV = prev
  stage : t.reg BLW_STAGE = 0
  watchdog : t.fld BLW_WDTIME BLW_WDTIME_EN = 0
  warning : t.fld BLW_STATUS BLW_STATUS_PFAIL = 0
  units : ∀ a, alwaysOn a = false → a ≠ SYS_RSTCAUSE → t.reg a = resetOf a
  memory : t.mem = s.mem.filter fun e => keepsContent e.1
  cores : t.cores = State.reset.cores
  lanes : t.lanes = State.reset.lanes
  dio : t.dio = State.reset.dio
  loop : t.loop = State.reset.loop
  rings : t.rings = State.reset.rings
  queues : t.queues = State.reset.queues

/-- Every byte of memory reads as before. -/
def SameMemory (s t : State) : Prop := ∀ a, t.readByte a = s.readByte a

/-- The bytes from `pa` up spell a number, little-endian, and every other byte reads as before (R115). -/
def Stored (s t : State) (pa n v : Nat) : Prop :=
  (∀ i < n, t.readByte (pa + i) = BitVec.ofNat 8 (v >>> (8 * i))) ∧ ∀ a, a < pa ∨ pa + n ≤ a → t.readByte a = s.readByte a

/-- The parts of a state, one for each field. -/
inductive Part where
  | pending
  | regs
  | smap
  | mem
  | ue
  | cores
  | program
  | tasks
  | lanes
  | triads
  | anvils
  | frame
  | modes
  | change
  | time
  | dma
  | recorder
  | cpl
  | dio
  | loop
  | calib
  | bellows
  | update
  | rings
  | held
  | bridge
  | queues
  | outbox
  | free
  deriving DecidableEq, Repr

/-- Two states agree in a part. -/
def Part.agree (p : Part) (s t : State) : Prop :=
  match p with
  | .pending => t.pending = s.pending
  | .regs => t.regs = s.regs
  | .smap => t.smap = s.smap
  | .mem => t.mem = s.mem
  | .ue => t.ue = s.ue
  | .cores => t.cores = s.cores
  | .program => t.program = s.program
  | .tasks => t.tasks = s.tasks
  | .lanes => t.lanes = s.lanes
  | .triads => t.triads = s.triads
  | .anvils => t.anvils = s.anvils
  | .frame => t.frame = s.frame
  | .modes => t.modes = s.modes
  | .change => t.change = s.change
  | .time => t.time = s.time
  | .dma => t.dma = s.dma
  | .recorder => t.recorder = s.recorder
  | .cpl => t.cpl = s.cpl
  | .dio => t.dio = s.dio
  | .loop => t.loop = s.loop
  | .calib => t.calib = s.calib
  | .bellows => t.bellows = s.bellows
  | .update => t.update = s.update
  | .rings => t.rings = s.rings
  | .held => t.held = s.held
  | .bridge => t.bridge = s.bridge
  | .queues => t.queues = s.queues
  | .outbox => t.outbox = s.outbox
  | .free => t.free = s.free

/-- Two states agree in every part but those listed. -/
def AgreeBut (l : List Part) (s t : State) : Prop := ∀ p, p ∉ l → p.agree s t

/-- What recording an event changes: the registers of the recorder, its log, and the trial time (R464, R481). -/
def eventParts : List Part := [.regs, .recorder, .update]

/-- What a fence, a trap and the verdicts of the Anvils can change (R71, R184, R190). -/
def fenceParts : List Part :=
  [.regs, .mem, .ue, .cores, .tasks, .lanes, .triads, .change, .recorder, .cpl, .dio, .loop, .update, .outbox]

/-- What a tick can change, and with it a step of the clock that produces one (R149, R156). -/
def tickParts : List Part :=
  [.regs, .smap, .mem, .ue, .cores, .program, .tasks, .lanes, .triads, .anvils, .frame, .modes, .change, .time, .dma,
   .recorder, .cpl, .dio, .loop, .bellows, .update, .rings, .bridge, .outbox, .free]

/-- Every part but the queue: what a reset of the module can change (R202). -/
def resetParts : List Part :=
  [.regs, .smap, .mem, .ue, .cores, .program, .tasks, .lanes, .triads, .anvils, .frame, .modes, .change, .time, .dma,
   .recorder, .cpl, .dio, .loop, .calib, .bellows, .update, .rings, .held, .bridge, .queues, .outbox, .free]

/-- The parts that a command can change. -/
def footprint : Instr → List Part
  | .interrupt _ _ => [.cores]
  | .iommuInvalidate _ _ => [.dma]
  | .tokenCredit => [.recorder]
  | .loopModeSettled _ => [.loop]
  | .prefetchExpire _ _ _ => [.bridge]
  | .pauseWord _ | .stepDown => [.cpl]
  | .faultAbsentTimeout _ | .tpRetry _ => [.dio]
  | .consoleHealth _ | .consoleIdent _ | .consoleEvents _ _ _ | .recoveryAnnounce | .heartbeatSend => [.outbox]
  | .rollbackWindowClose | .listenTimeout _ | .wayPurge | .doClear _ | .fg1Return | .loopLoadCompute _ | .fg2Return
  | .healthForm _ | .energyTotalSave _ | .evrFlush | .backboneLinkChange _ _ | .backbonePacketDiscard _ _ => [.regs]
  | .runtimeWatchdogEnable => [.regs, .bellows]
  | .ringEnable _ => [.regs, .rings]
  | .orphanExpire _ _ _ _ => [.cpl, .bridge]
  | .frmStart | .epochReset _ => [.regs, .frame]
  | .testRunStart _ | .testTestIssue => [.regs, .dio]
  | .loopClear _ | .fg2Loss => [.regs, .loop]
  | .quenchTestStart _ | .attest => [.regs, .update]
  | .queueTailTimeout _ | .queueBankDrained _ => [.regs, .queues]
  | .clockCapture | .evrRead _ => [.regs, .free]
  | .resumeWord _ | .soakComplete => [.cpl, .outbox]
  | .arpRequest _ _ _ | .icmpEcho _ _ _ _ | .updateRequest _ => [.regs, .outbox]
  | .frmStop => [.regs, .cores, .tasks]
  | .stepCommand => [.regs, .cores, .time]
  | .ptpMessageSend _ _ _ => [.regs, .time, .outbox]
  | .attestComplete => [.regs, .update, .free]
  | .ringDisable _ => [.regs, .rings, .queues]
  | .couplerLinkUp _ | .takeoverRequest _ _ => [.regs, .cpl, .outbox]
  | .keepalive _ | .failget _ | .mbxpostStatus _ | .subscribe _ | .notifyack _ | .unknownSession _ _
  | .commandState _ | .lapReservedOp _ _ => [.regs, .bridge, .outbox]
  | .taskRestart _ | .syncReturn _ | .breakDeclare _ | .powerFailEnd _ | .holdtest _ | .eventRaise _ _ _ _ _
  | .logBlockErase _ _ | .evrClear | .sidingWrite | .updConfirm | .updDiscard | .trialConfirm | .enroll _
  | .revoke _ => eventParts
  | .ptpMessage _ _ _ => [.regs, .cores, .time, .outbox]
  | .rejoinCopyStart _ => [.regs, .tasks, .lanes, .triads]
  | .modeRequest _ _ _ => eventParts ++ [.triads]
  | .pkgdata _ => [.regs, .change, .bridge, .outbox]
  | .halfOpenTimeout _ => eventParts ++ [.bridge]
  | .queuePacketEnd _ _ _ => eventParts ++ [.queues]
  | .failack _ => [.regs, .cpl, .bridge, .outbox]
  | .hello _ => [.regs, .bridge, .outbox, .free]
  | .modecfgWrite _ _ | .confirmTimeout _ => eventParts ++ [.modes]
  | .tdrMeasure _ _ _ _ _ | .bellowsRestartEnd => eventParts ++ [.bellows]
  | .breakHeal _ | .onecopyPattern _ => eventParts ++ [.rings]
  | .mbxBindWrite _ _ _ | .takeoverResponse _ _ _ | .pairingTimeout => eventParts ++ [.cpl]
  | .loopSample _ _ | .complianceTimeout _ | .loopThermal _ _ => eventParts ++ [.loop]
  | .testRunEnd | .tpOverload _ _ | .doLoadMeasure _ _ | .fg1Loss => eventParts ++ [.dio]
  | .sidingWriteDone _ => eventParts ++ [.mem, .ue]
  | .quenchTestEnd _ _ => eventParts ++ [.cores, .lanes]
  | .ptpSourceLoss => eventParts ++ [.cores, .time]
  | .powerFailWarning _ => eventParts ++ [.cores, .bellows]
  | .codeDigestCheck _ _ => eventParts ++ [.tasks, .change]
  | .keyPositionStable _ => eventParts ++ [.modes, .change]
  | .fetchAbandon _ _ _ _ => eventParts ++ [.cpl, .bridge]
  | .plannedSwitch => eventParts ++ [.cpl, .outbox]
  | .diSample _ => eventParts ++ [.dio, .free]
  | .coldstartRound _ _ => eventParts ++ [.rings, .outbox]
  | .schedAck _ _ | .posnAck _ _ | .cscfgResponse _ _ => eventParts ++ [.rings, .queues]
  | .notifyRetry _ _ | .commandMode _ | .commandForcestart _ | .commandTaskrestart _ => eventParts ++ [.bridge, .outbox]
  | .mbxPost _ _ _ _ | .mbxTake _ _ | .mbxAck _ _ _ | .mbxDone _ _ | .mbxWithdraw _ _ | .mbxEprst _ _
  | .capPacket _ _ | .recordLate | .healthPacket _ _ | .partnerLost => eventParts ++ [.cores, .cpl]
  | .recoveryBlock _ _ _ => eventParts ++ [.mem, .ue, .outbox]
  | .scrubStep _ _ => eventParts ++ [.mem, .ue, .free]
  | .safetyDatagramSend _ => eventParts ++ [.dma, .outbox, .free]
  | .ringFrameReceived _ _ _ _ => eventParts ++ [.rings, .queues, .outbox]
  | .commandWarmrst _ | .commandColdrst _ | .commandPurge _ | .commandChgswitch _ | .commandChgrollback _
  | .commandConfirm _ => eventParts ++ [.modes, .bridge, .outbox]
  | .codePageReload _ _ _ => eventParts ++ [.mem, .ue, .tasks, .change]
  | .changeSwitchCheck _ => eventParts ++ [.mem, .ue, .change, .cpl]
  | .marker _ _ _ => eventParts ++ [.cores, .modes, .cpl, .outbox]
  | .couplerLinkDown _ => eventParts ++ [.cores, .cpl, .queues, .outbox]
  | .copyPacketsSent _ => eventParts ++ [.dma, .cpl, .outbox, .free]
  | .preadResponse _ _ => eventParts ++ [.cpl, .rings, .bridge, .queues]
  | .commandChgdiscard _ | .commandChgcommit _ => eventParts ++ [.mem, .change, .bridge, .outbox]
  | .mbxpostDone _ | .mbxpostWithdraw _ => eventParts ++ [.cores, .cpl, .bridge, .outbox]
  | .commandForceset _ | .commandForcerel _ => eventParts ++ [.modes, .cpl, .bridge, .outbox]
  | .snapshotCopyComplete _ => eventParts ++ [.mem, .ue, .cores, .tasks, .anvils]
  | .farSideTimeout _ _ _ => eventParts ++ [.mem, .ue, .cores, .cpl, .bridge]
  | .rejoinCopyEnd _ => eventParts ++ [.mem, .ue, .tasks, .lanes, .triads]
  | .inFrame _ _ => eventParts ++ [.mem, .ue, .rings, .held, .queues]
  | .commandChgload _ _ _ => eventParts ++ [.mem, .change, .cpl, .bridge, .outbox]
  | .lapRead _ _ => eventParts ++ [.dma, .cpl, .bridge, .outbox, .free]
  | .evtgetResponse _ _ => eventParts ++ [.cpl, .rings, .bridge, .queues, .outbox]
  | .identResponse _ _ | .claim _ _ => eventParts ++ [.cores, .bellows, .rings, .queues, .free]
  | .dmaStart _ | .dmaStop _ | .dmaDescriptorComplete _ => eventParts ++ [.mem, .ue, .cores, .dma, .free]
  | .job _ | .mbxpostPost _ | .couplerAck _ _ _ => eventParts ++ [.mem, .ue, .cpl, .bridge, .outbox]
  | .sessionTimeout _ | .backbonePortEnable _ _ | .bridgeDisable => eventParts ++ [.cores, .modes, .cpl, .bridge, .queues]
  | .laneRelease _ => eventParts ++ [.smap, .mem, .cores, .program, .modes, .cpl]
  | .safetyDatagram _ _ _ => eventParts ++ [.mem, .ue, .dma, .cpl, .bridge, .free]
  | .keyx _ _ | .lapClose _ => eventParts ++ [.cores, .modes, .cpl, .bridge, .queues, .outbox]
  | .deadline _ => eventParts ++ [.mem, .ue, .cores, .tasks, .triads, .anvils, .cpl]
  | .pwriteResponse _ _ => eventParts ++ [.mem, .ue, .cores, .cpl, .rings, .bridge, .queues]
  | .ringSlotStart _ _ _ _ => eventParts ++ [.mem, .ue, .cores, .cpl, .rings, .bridge, .outbox]
  | .stagedStartStep _ => eventParts ++ [.mem, .ue, .modes, .change, .dio, .loop, .calib]
  | .bellowsWatchdogExpiry => eventParts ++ [.mem, .ue, .cores, .modes, .change, .cpl, .calib, .bellows]
  | .lapWrite _ _ => eventParts ++ [.mem, .ue, .cores, .dma, .cpl, .bridge, .outbox, .free]
  | .stationDrop _ _ => eventParts ++ [.mem, .ue, .cores, .tasks, .anvils, .cpl, .rings, .bridge, .outbox]
  | .takeover | .handBack
    => eventParts ++ [.mem, .ue, .cores, .tasks, .lanes, .triads, .modes, .dma, .cpl, .bridge, .queues, .free]
  | .checkpointRecord _ _ _ | .taskFaultReport _ _ _ | .skewWindowClose _ _ | .commandedQuench _ => fenceParts ++ [.anvils]
  | .heartbeat _ _ _ _ | .dataPacket _ _ | .recordApply
    => eventParts ++ [.smap, .mem, .ue, .cores, .program, .tasks, .modes, .change, .dma, .cpl, .rings, .bridge, .free]
  | .addi _ _ _ _ | .andi _ _ _ _ | .ori _ _ _ _ | .lui _ _ _ _ | .op _ _ _ _ _ | .load _ _ _ _ _ | .fload _ _ _ _ _
  | .fstore _ _ _ _ _ | .branch _ _ _ _ _ | .jal _ _ | .jalr _ _ _ _ | .fp _ _ _ _ _ | .tret _ _ _ | .wait _ _ _
  | .brk _ _ _ | .fence _ _ _ | .ifence _ _ _ | .mfsr _ _ _ | .mtsr _ _ _ | .pld _ _ _ _ | .pst _ _ _ _
  | .ald _ _ _ _ | .aldu _ _ _ _ | .ast _ _ _ _ | .aldf _ _ _ _ | .astf _ _ _ _ | .pldx _ _ _ _ | .pstx _ _ _ _
  | .aldx _ _ _ _ | .astx _ _ _ _ | .pldb _ _ _ _ | .ptgb _ _ _ _ | .ptor _ _ _ _ | .pstb _ _ _ _ | .pcpy _ _ _ _
  | .acpy _ _ _ _ | .ton _ _ _ _ | .tof _ _ _ _ | .tp _ _ _ _ | .edgr _ _ _ _ | .edgf _ _ _ _ | .edgb _ _ _ _
  | .ckpt _ _ _ | .tcallTfault _ _ _ | .tcallTevent _ _ => fenceParts ++ [.anvils, .free]
  | .programRestart
    => eventParts ++ [.mem, .ue, .cores, .tasks, .lanes, .triads, .anvils, .frame, .modes, .change, .cpl, .dio, .loop, .bridge]
  | .atom _ _ _ _ _ => fenceParts ++ [.anvils, .dma, .free]
  | .closePhase _ _ _ => fenceParts ++ [.anvils, .frame, .dma, .bridge, .free]
  | .temperScan _ _ => fenceParts ++ [.smap, .program, .modes, .dma, .rings, .bridge, .free]
  | .tick | .ptpSync _ _ _ _ _ _ | .stepAct => tickParts
  | .store _ _ _ _ _ | .registerWrite _ _ _ | .dmaElement _ _ | .powerUp | .moduleReset _ | .stagedStartAbort
  | .holdupExhausted | .railFault _ _ | .tempSample _ | .runtimeWatchdogKey _ | .runtimeWatchdogExpiry
  | .blwResetCommand | .consoleReset _ | .flushComplete _ | .apply _ _ | .updRecover | .recoveryEnd _ _ => resetParts

/-- The blocks of the rings' controllers (R507). -/
def ringBlocks : List Nat := [0x10, 0x11, 0x12, 0x13, 0x14, 0x15]

/-- The blocks of the ports of the backbone (R507). -/
def portBlocks : List Nat := [0x19, 0x1A, 0x1B, 0x1C]

/-- The blocks that recording an event changes: the recorder and the update unit's trial time (R464, R481). -/
def eventBlocks : List Nat := [0x31, 0x32]

/-- The blocks that a fence, a trap and the verdicts of the Anvils can change. -/
def fenceBlocks : List Nat := [0x00, 0x01, 0x02, 0x03, 0x04, 0x05, 0x07, 0x23, 0x28] ++ eventBlocks

/-- The register blocks (R507) in which a command can change a register: block b holds the addresses from b × 10000h. -/
def registerBlocks : Instr → List Nat
  | .interrupt _ _ | .iommuInvalidate _ _ | .orphanExpire _ _ _ _ | .prefetchExpire _ _ _ | .pauseWord _
  | .resumeWord _ | .soakComplete | .stepDown | .faultAbsentTimeout _ | .tpRetry _ | .loopModeSettled _
  | .consoleHealth _ | .consoleIdent _ | .consoleEvents _ _ _ | .tokenCredit | .recoveryAnnounce | .heartbeatSend => []
  | .rollbackWindowClose => [0x00]
  | .rejoinCopyStart _ => [0x04]
  | .wayPurge => [0x22]
  | .frmStart | .frmStop => [0x01]
  | .stepCommand | .clockCapture => [0x18]
  | .doClear _ | .fg1Return => [0x28]
  | .testRunStart _ | .testTestIssue => [0x2A]
  | .evrRead _ | .evrFlush => [0x31]
  | .attest | .attestComplete => [0x33]
  | .couplerLinkUp _ | .takeoverRequest _ _ | .updateRequest _ => [0x24]
  | .runtimeWatchdogEnable | .healthForm _ | .energyTotalSave _ => [0x30]
  | .loopLoadCompute _ | .loopClear _ | .fg2Loss | .fg2Return => [0x29]
  | .epochReset _ => [0x02, 0x03]
  | .quenchTestStart _ => [0x04, 0x32]
  | .onecopyPattern _ | .pairingTimeout | .eventRaise _ _ _ _ _ | .logBlockErase _ _ | .evrClear | .sidingWrite
  | .updConfirm | .updDiscard | .trialConfirm => eventBlocks
  | .taskRestart _ => [0x01] ++ eventBlocks
  | .codeDigestCheck _ _ => [0x05] ++ eventBlocks
  | .ptpSourceLoss => [0x18] ++ eventBlocks
  | .doLoadMeasure _ _ => [0x28] ++ eventBlocks
  | .quenchTestEnd _ _ | .modeRequest _ _ _ => [0x04] ++ eventBlocks
  | .halfOpenTimeout _ | .fetchAbandon _ _ _ _ => [0x20] ++ eventBlocks
  | .enroll _ | .revoke _ => [0x33] ++ eventBlocks
  | .keyPositionStable _ | .modecfgWrite _ _ | .confirmTimeout _ => [0x00] ++ eventBlocks
  | .loopSample _ _ | .complianceTimeout _ | .loopThermal _ _ => [0x29] ++ eventBlocks
  | .powerFailWarning _ | .powerFailEnd _ | .holdtest _ | .bellowsRestartEnd => [0x30] ++ eventBlocks
  | .mbxPost _ _ _ _ | .mbxTake _ _ | .mbxAck _ _ _ | .mbxDone _ _ | .mbxWithdraw _ _ | .mbxBindWrite _ _ _
  | .mbxEprst _ _ => [0x23] ++ eventBlocks
  | .capPacket _ _ | .marker _ _ _ | .recordLate | .healthPacket _ _ | .takeoverResponse _ _ _ | .partnerLost
  | .plannedSwitch => [0x24] ++ eventBlocks
  | .arpRequest _ _ _ | .icmpEcho _ _ _ _ | .backboneLinkChange _ _ | .ptpMessageSend _ _ _ => portBlocks
  | .diSample _ | .testRunEnd | .tpOverload _ _ | .fg1Loss => [0x28, 0x2A] ++ eventBlocks
  | .rejoinCopyEnd _ | .scrubStep _ _ | .codePageReload _ _ _ | .sidingWriteDone _ | .recoveryBlock _ _ _
  | .copyPacketsSent _ => [0x05, 0x07] ++ eventBlocks
  | .bellowsWatchdogExpiry => [0x05, 0x07, 0x23] ++ eventBlocks
  | .ptpMessage _ _ _ => [0x18] ++ portBlocks
  | .snapshotCopyComplete _ | .deadline _ => [0x01, 0x05, 0x07] ++ eventBlocks
  | .dmaStart _ | .dmaStop _ | .dmaDescriptorComplete _ => [0x05, 0x06, 0x07] ++ eventBlocks
  | .hello _ | .keepalive _ | .failget _ | .failack _ | .mbxpostStatus _ | .subscribe _ | .notifyack _
  | .unknownSession _ _ | .commandState _ | .pkgdata _ | .backbonePacketDiscard _ _ | .lapReservedOp _ _
    => [0x20] ++ portBlocks
  | .changeSwitchCheck _ => [0x00, 0x01, 0x05, 0x07] ++ eventBlocks
  | .farSideTimeout _ _ _ => [0x05, 0x07, 0x20, 0x22] ++ eventBlocks
  | .couplerAck _ _ _ => [0x05, 0x07, 0x22, 0x24] ++ eventBlocks
  | .ringEnable _ | .listenTimeout _ => ringBlocks
  | .stagedStartStep _ => [0x05, 0x07, 0x28, 0x29, 0x30] ++ eventBlocks
  | .notifyRetry _ _ | .commandWarmrst _ | .commandColdrst _ => [0x20] ++ portBlocks ++ eventBlocks
  | .commandTaskrestart _ => [0x01, 0x20] ++ portBlocks ++ eventBlocks
  | .mbxpostDone _ | .mbxpostWithdraw _ => [0x20, 0x23] ++ portBlocks ++ eventBlocks
  | .ringDisable _ | .queueTailTimeout _ | .queueBankDrained _ => [0x20, 0x24] ++ ringBlocks
  | .coldstartRound _ _ | .breakDeclare _ | .breakHeal _ | .tdrMeasure _ _ _ _ _ => ringBlocks ++ eventBlocks
  | .commandMode _ | .commandPurge _ | .commandForceset _ | .commandForcerel _ | .commandForcestart _
  | .commandChgload _ _ _ | .commandChgswitch _ | .commandChgdiscard _ | .commandChgcommit _ | .commandChgrollback _
  | .commandConfirm _ => [0x00, 0x20] ++ portBlocks ++ eventBlocks
  | .safetyDatagramSend _ => [0x05, 0x07, 0x2A] ++ portBlocks ++ eventBlocks
  | .syncReturn _ => [0x24] ++ ringBlocks ++ eventBlocks
  | .lapRead _ _ => [0x05, 0x07, 0x20, 0x21] ++ portBlocks ++ eventBlocks
  | .safetyDatagram _ _ _ => [0x05, 0x07, 0x22, 0x2A] ++ portBlocks ++ eventBlocks
  | .job _ | .mbxpostPost _ => [0x05, 0x07, 0x20, 0x22] ++ portBlocks ++ eventBlocks
  | .ringFrameReceived _ _ _ _ | .schedAck _ _ | .posnAck _ _ | .cscfgResponse _ _ | .preadResponse _ _
  | .queuePacketEnd _ _ _ | .couplerLinkDown _ => [0x20, 0x24] ++ ringBlocks ++ eventBlocks
  | .lapWrite _ _ => [0x05, 0x07, 0x20, 0x21, 0x22] ++ portBlocks ++ eventBlocks
  | .identResponse _ _ | .claim _ _ => [0x20, 0x24, 0x30] ++ ringBlocks ++ eventBlocks
  | .checkpointRecord _ _ _ | .taskFaultReport _ _ _ | .skewWindowClose _ _ | .addi _ _ _ _ | .andi _ _ _ _
  | .ori _ _ _ _ | .lui _ _ _ _ | .op _ _ _ _ _ | .load _ _ _ _ _ | .fload _ _ _ _ _ | .fstore _ _ _ _ _
  | .branch _ _ _ _ _ | .jal _ _ | .jalr _ _ _ _ | .fp _ _ _ _ _ | .tret _ _ _ | .wait _ _ _ | .brk _ _ _
  | .fence _ _ _ | .ifence _ _ _ | .mfsr _ _ _ | .mtsr _ _ _ | .pld _ _ _ _ | .pst _ _ _ _ | .ald _ _ _ _
  | .aldu _ _ _ _ | .ast _ _ _ _ | .aldf _ _ _ _ | .astf _ _ _ _ | .pldx _ _ _ _ | .pstx _ _ _ _ | .aldx _ _ _ _
  | .astx _ _ _ _ | .pldb _ _ _ _ | .ptgb _ _ _ _ | .ptor _ _ _ _ | .pstb _ _ _ _ | .pcpy _ _ _ _ | .acpy _ _ _ _
  | .ton _ _ _ _ | .tof _ _ _ _ | .tp _ _ _ _ | .edgr _ _ _ _ | .edgf _ _ _ _ | .edgb _ _ _ _ | .ckpt _ _ _
  | .tcallTfault _ _ _ | .tcallTevent _ _ | .commandedQuench _ => fenceBlocks
  | .atom _ _ _ _ _ => [0x06] ++ fenceBlocks
  | .closePhase _ _ _ => [0x22] ++ fenceBlocks
  | .ringSlotStart _ _ _ _ => [0x05, 0x07, 0x20, 0x22] ++ ringBlocks ++ eventBlocks
  | .inFrame _ _ => [0x05, 0x07, 0x20, 0x24] ++ ringBlocks ++ eventBlocks
  | .sessionTimeout _ | .bridgeDisable => [0x00, 0x20, 0x23, 0x24] ++ ringBlocks ++ eventBlocks
  | .pwriteResponse _ _ => [0x05, 0x07, 0x20, 0x22, 0x24] ++ ringBlocks ++ eventBlocks
  | .evtgetResponse _ _ => [0x20, 0x24] ++ ringBlocks ++ portBlocks ++ eventBlocks
  | .programRestart => [0x20, 0x22, 0x29, 0x2A] ++ fenceBlocks
  | .keyx _ _ | .lapClose _ | .backbonePortEnable _ _ => [0x00, 0x20, 0x23, 0x24] ++ ringBlocks ++ portBlocks ++ eventBlocks
  | .stationDrop _ _ => [0x01, 0x02, 0x03, 0x05, 0x07] ++ ringBlocks ++ portBlocks ++ eventBlocks
  | .takeover => [0x00, 0x02, 0x03, 0x04, 0x05, 0x07, 0x20, 0x22, 0x23, 0x24] ++ ringBlocks ++ eventBlocks
  | .handBack => [0x00, 0x01, 0x02, 0x03, 0x04, 0x05, 0x07, 0x20, 0x22, 0x23, 0x24] ++ ringBlocks ++ eventBlocks
  | .tick | .store _ _ _ _ _ | .registerWrite _ _ _ | .dmaElement _ _ | .ptpSync _ _ _ _ _ _ | .stepAct
  | .heartbeat _ _ _ _ | .dataPacket _ _ | .recordApply | .temperScan _ _ | .powerUp | .moduleReset _
  | .laneRelease _ | .stagedStartAbort | .holdupExhausted | .railFault _ _ | .tempSample _ | .runtimeWatchdogKey _
  | .runtimeWatchdogExpiry | .blwResetCommand | .consoleReset _ | .flushComplete _ | .apply _ _ | .updRecover
  | .recoveryEnd _ _ => List.range 64

end Sys2Proof.Machine
end

