-- ==== Sys2Proof/Certificates/Slice0/Obligations.lean ====
section
/-!
DEFINITION. The statements for the provers.
-/

open Sys2Proof Sys2Proof.Machine

/-! ### The machine as a whole -/

/-- O1. A step with a command at the front of the queue is that command's effect on the state with the rest of the queue; on an
empty queue the module idles, which is the model's (DESIGN CHOICE, log entry 1). -/
def Obligations.StepRunsFront : Prop :=
  (∀ (c : Instr) (q : List Instr) (s : State), step (s.withPending (c :: q)) = exec c (s.withPending q)) ∧
  ∀ s : State, s.pending = [] → step s = .next s

/-- O2. Every command completes in every state: no command faults or is refused, and none touches the queue. -/
def Obligations.EveryCommandCompletes : Prop := ∀ (c : Instr) (s : State), ∃ t, exec c s = .next t ∧ t.pending = s.pending

/-- O3. A command changes no part of the state outside its footprint. -/
def Obligations.CommandsKeepParts : Prop := ∀ (c : Instr) (s t : State), exec c s = .next t → ∀ p, p ∉ footprint c → p.agree s t

/-- O4. A command changes no register (R507) outside the blocks that belong to it. -/
def Obligations.CommandsKeepBlocks : Prop :=
  ∀ (c : Instr) (s t : State), exec c s = .next t → ∀ a < 0x400000, a / 0x10000 ∉ registerBlocks c → t.reg a = s.reg a

/-- O5. Every step keeps the canonical form of the state. -/
def Obligations.StepKeepsCanonical : Prop := ∀ s t : State, s.canonical = true → step s = .next t → t.canonical = true

/-! ### Helin instructions (03_helin_base.md, 04_helin_control.md) -/

/-- O6. ADDI, ANDI, ORI, LUI and the operations of OP that give a value: h[rd] takes the result, and nothing else changes. R74 in
its own words: a zero divisor traps, the one signed quotient that does not fit wraps, and so do ADD, SUB and MUL. -/
def Obligations.IntegerResults : Prop :=
  ∀ (s u : State) (x : Site), Fetches s x u →
    let k := s.cores[x.core]
    let into (c : Instr) (rd : BitVec 5) (v : DWord) : Prop :=
      ∃ t, exec c s = .next t ∧ Retired s t x.core (k.pc + 4) ∧ WroteH k t.cores[x.core] rd v ∧
        (∀ r, t.cores[x.core].getf r = k.getf r) ∧ SameRest k t.cores[x.core] ∧ SameMemory s t ∧ AgreeBut [.cores, .free] u t
    ∀ rd ra rb : BitVec 5,
      (∀ imm, into (.addi x rd ra imm) rd (k.geth ra + sext17 imm)) ∧
      (∀ imm, into (.andi x rd ra imm) rd (k.geth ra &&& zext17 imm)) ∧
      (∀ imm, into (.ori x rd ra imm) rd (k.geth ra ||| zext17 imm)) ∧
      (∀ imm, into (.lui x rd 0 imm) rd (luiValue imm)) ∧
      (∀ func v, opEval func (k.geth ra) (k.geth rb) rb = .value v → into (.op x func rd ra rb) rd v) ∧
      let a := k.geth ra
      let b := k.geth rb
      let low (v : DWord) : Word := v.setWidth 32
      (k.td = false → ∀ func : BitVec 12,
        ((func ∈ [0x014, 0x015, 0x016, 0x017] ∧ b = 0) ∨ (func ∈ [0x034, 0x035, 0x036, 0x037] ∧ low b = 0)) →
        ∃ t, exec (.op x func rd ra rb) s = .next t ∧ Trapped s t x.core 0x0A (wordTval (encA 1 rd ra rb func))) ∧
      (a = 0x8000000000000000 → b = -1 → into (.op x 0x014 rd ra rb) rd a ∧ into (.op x 0x016 rd ra rb) rd 0) ∧
      (low a = 0x80000000 → low b = -1 →
        into (.op x 0x034 rd ra rb) rd ((low a).signExtend 64) ∧ into (.op x 0x036 rd ra rb) rd 0) ∧
      into (.op x 0x000 rd ra rb) rd (a + b) ∧ into (.op x 0x020 rd ra rb) rd ((low a + low b).signExtend 64) ∧
      into (.op x 0x001 rd ra rb) rd (a - b) ∧ into (.op x 0x021 rd ra rb) rd ((low a - low b).signExtend 64) ∧
      into (.op x 0x010 rd ra rb) rd (a * b) ∧ into (.op x 0x030 rd ra rb) rd ((low a * low b).signExtend 64)

/-- O7. Branches, JAL and JALR: where the core goes on, the link register, and nothing else. -/
def Obligations.BranchesAndJumps : Prop :=
  ∀ (s u : State) (x : Site), Fetches s x u →
    let k := s.cores[x.core]
    let goes (c : Instr) (next : DWord) (keep : Core → Prop) : Prop :=
      ∃ t, exec c s = .next t ∧ Retired s t x.core next ∧ keep t.cores[x.core] ∧ (∀ r, t.cores[x.core].getf r = k.getf r) ∧
        SameRest k t.cores[x.core] ∧ SameMemory s t ∧ AgreeBut [.cores, .free] u t
    (∀ cond ra rb off, goes (.branch x cond ra rb off)
      (if condHolds cond (k.geth ra) (k.geth rb) then k.pc + branchDisp off else k.pc + 4) fun k' => ∀ r, k'.geth r = k.geth r) ∧
    (∀ off, goes (.jal x off) (k.pc + jalDisp off) fun k' => WroteH k k' 1 (k.pc + 4)) ∧
    ∀ rd ra imm, (k.geth ra + sext17 imm).toNat % 4 = 0 →
      goes (.jalr x rd ra imm) (k.geth ra + sext17 imm) fun k' => WroteH k k' rd (k.pc + 4)

/-- O8. FENCE, IFENCE, WAIT, TRET, MFSR and MTSR (R84, R60 to R62): where the core goes on, the state register that is read or written, and
nothing else. -/
def Obligations.SystemFunctions : Prop :=
  ∀ (s u : State) (x : Site), Fetches s x u →
    let k := s.cores[x.core]
    let does (c : Instr) (next : DWord) (keep : Core → Prop) : Prop :=
      ∃ t, exec c s = .next t ∧ Retired s t x.core next ∧ keep t.cores[x.core] ∧ (∀ r, t.cores[x.core].getf r = k.getf r) ∧
        SameMemory s t ∧ AgreeBut [.cores, .free] u t
    let sameH (k' : Core) : Prop := ∀ r, k'.geth r = k.geth r
    does (.fence x 0 0) (k.pc + 4) (fun k' => sameH k' ∧ SameRest k k') ∧
    does (.ifence x 0 0) (k.pc + 4) (fun k' => sameH k' ∧ SameRest k k') ∧
    (k.atK = true → does (.wait x 0 0) (k.pc + 4) fun k' =>
      sameH k' ∧ SameRest { k with run := if k.lines = 0 then .gated else .running } k') ∧
    (k.atK = true → does (.tret x 0 0) k.tpc fun k' => sameH k' ∧ SameRest { k with status := k.tstatus &&& 7 } k') ∧
    (∀ rd sr v, k.readSr x.core (BitVec.toNat sr) = some v → (k.atK = true ∨ srReadableAtT sr.toNat = true) →
      does (.mfsr x rd sr) (k.pc + 4) fun k' => WroteH k k' rd v ∧ SameRest k k') ∧
    ∀ ra sr, (k.atK = true ∨ sr = 0x010) →
      (∀ k₁, k.writeSr (BitVec.toNat sr) (k.geth ra) = some k₁ → (sr = 0x041 → (k.geth ra).toNat % 256 < 65) →
        does (.mtsr x ra sr) (k.pc + 4) fun k' => sameH k' ∧ SameRest k₁ k' ∧ (sr = 0x043 → k'.tlb = tlbFlush (k.geth ra) u.cores[x.core].tlb)) ∧
      (sr = 0x048 → ∀ l, u.readSlices 33 (k.geth ra &&& 0xFFFFFFFFF0).toNat = some l →
        does (.mtsr x ra sr) (k.pc + 4) fun k' =>
          sameH k' ∧ SameRest { k with islice := k.geth ra &&& 0xFFFFFFFFF0, slices := some l } k')

/-- O9. The traps of the instructions that memory does not decide (R68, R70): where TD is 0, the core enters K at its vector with
the cause and value the manual gives. -/
def Obligations.InstructionTraps : Prop :=
  ∀ (s u : State) (x : Site), Fetches s x u → s.cores[x.core].td = false →
    let k := s.cores[x.core]
    let traps (c : Instr) (code : Nat) (tval : DWord) : Prop := ∃ t, exec c s = .next t ∧ Trapped s t x.core code tval
    traps (.brk x 0 0) 0x0D k.pc ∧
    (∀ rd ra imm, ra ≠ 0 → traps (.lui x rd ra imm) 0x00 (wordTval (encI 5 rd ra imm))) ∧
    (∀ func rd ra rb,
      (opEval func (k.geth ra) (k.geth rb) rb = .illegal → traps (.op x func rd ra rb) 0x00 (wordTval (encA 1 rd ra rb func))) ∧
      (opEval func (k.geth ra) (k.geth rb) rb = .divideByZero →
        traps (.op x func rd ra rb) 0x0A (wordTval (encA 1 rd ra rb func))) ∧
      (opEval func (k.geth ra) (k.geth rb) rb = .overflow →
        traps (.op x func rd ra rb) 0x0B (wordTval (encA 1 rd ra rb func)))) ∧
    (∀ rd ra imm, (k.geth ra + sext17 imm).toNat % 4 ≠ 0 → traps (.jalr x rd ra imm) 0x04 (k.geth ra + sext17 imm)) ∧
    (k.atK = false → traps (.tret x 0 0) 0x01 (wordTval (encS 0 0 0x000)) ∧ traps (.wait x 0 0) 0x01 (wordTval (encS 0 0 0x001)) ∧
      (∀ rd sr v, k.readSr x.core (BitVec.toNat sr) = some v → srReadableAtT sr.toNat = false →
        traps (.mfsr x rd sr) 0x01 (wordTval (encS rd sr 0x010)) ∧ (sr ≠ 0x010 → traps (.mtsr x rd sr) 0x01 (wordTval (encS rd sr 0x011))))) ∧
    (∀ r sr, r ≠ 0 ∨ sr ≠ 0 →
      traps (.tret x r sr) 0x00 (wordTval (encS r sr 0x000)) ∧ traps (.wait x r sr) 0x00 (wordTval (encS r sr 0x001)) ∧
      traps (.brk x r sr) 0x00 (wordTval (encS r sr 0x002)) ∧ traps (.fence x r sr) 0x00 (wordTval (encS r sr 0x003)) ∧
      traps (.ifence x r sr) 0x00 (wordTval (encS r sr 0x004))) ∧
    (∀ rd sr, k.readSr x.core (BitVec.toNat sr) = none →
      traps (.mfsr x rd sr) 0x00 (wordTval (encS rd sr 0x010)) ∧ traps (.mtsr x rd sr) 0x00 (wordTval (encS rd sr 0x011))) ∧
    (k.atK = true → ∀ ra sr, sr ≠ 0x048 →
      (k.writeSr (BitVec.toNat sr) (k.geth ra) = none ∨ (sr = 0x041 ∧ 65 ≤ (k.geth ra).toNat % 256)) →
        traps (.mtsr x ra sr) 0x00 (wordTval (encS ra sr 0x011)))

/-- O10. A running or gated core takes an interrupt at an instruction boundary where a line is pending, at K while IE is 1 and at T always: the address
of the next instruction is saved, the cause is the line's, the line is no longer pending, and a gated core runs; otherwise nothing happens. -/
def Obligations.InterruptEntry : Prop :=
  ∀ (s : State) (c line : Fin 12),
    let k := s.cores[c]
    let taken : Prop := (k.run = .running ∨ k.run = .gated) ∧ k.lines.getLsbD line.val = true ∧ (k.atK = false ∨ k.ie = true)
    (taken → ∃ t, exec (.interrupt c line) s = .next t ∧ Entered s t c (0x80000000 + line.val) 0 k.pc 0x100 0 ∧ t.cores[c].run = .running ∧
      (∀ i < 12, t.cores[c].lines.getLsbD i = (k.lines.getLsbD i && i != line.val)) ∧
      AgreeBut [.cores] s t) ∧
    (¬ taken → exec (.interrupt c line) s = .next s)

/-- O11. Loads: the value that memory holds at the effective address, sign-extended, or bits of a floating-point register; LW of a
register (R32) loads what the register shows. -/
def Obligations.Loads : Prop :=
  ∀ (s u w : State) (x : Site) (ra : BitVec 5) (off : BitVec 17) (pa : Nat), Fetches s x u →
    let k := s.cores[x.core]
    let va := k.effAddr ra off
    let same (v t : State) : Prop :=
      Retired s t x.core (k.pc + 4) ∧ SameRest k t.cores[x.core] ∧ SameMemory s t ∧ AgreeBut [.cores, .free] v t
    (∀ size rd v, u.dataAddr x.core .load va (sizeBytes size) (sizeBytes size == 4) = (w, .at pa) → regionOf pa ≠ .regs →
      w.memCheck x.core pa x.dataL1 x.dataEcc = (v, false) →
      ∃ t, exec (.load x size rd ra off) s = .next t ∧ same v t ∧ (∀ r, t.cores[x.core].getf r = k.getf r) ∧
        WroteH k t.cores[x.core] rd (extendLoad (sizeBytes size) (s.readLe pa (sizeBytes size)))) ∧
    (∀ rd q, u.dataAddr x.core .load va 4 true = (w, .at pa) → regionOf pa = .regs → w.busRead (pa - 0x40000000) = some q →
      ∃ t, exec (.load x .word rd ra off) s = .next t ∧ same w t ∧ (∀ r, t.cores[x.core].getf r = k.getf r) ∧
        WroteH k t.cores[x.core] rd (q.signExtend 64)) ∧
    ∀ dbl rd v, u.dataAddr x.core .load va (if dbl then 8 else 4) false = (w, .at pa) →
      w.memCheck x.core pa x.dataL1 x.dataEcc = (v, false) →
      ∃ t, exec (.fload x dbl rd ra off) s = .next t ∧ same v t ∧ (∀ r, t.cores[x.core].geth r = k.geth r) ∧
        WroteF k t.cores[x.core] rd (BitVec.ofNat 64 (s.readLe pa (if dbl then 8 else 4)))

/-- O12. Stores: the low bytes of the register at the effective address, folded into the signature of an open cycle (R106); SW to
a register (R32) is that register's write. -/
def Obligations.Stores : Prop :=
  ∀ (s u w : State) (x : Site) (ra : BitVec 5) (off : BitVec 17) (pa : Nat), Fetches s x u →
    let k := s.cores[x.core]
    let va := k.effAddr ra off
    let checked (n : Nat) (v : State) : Prop := if n = 8 then v = w else w.memCheck x.core pa x.dataL1 x.dataEcc = (v, false)
    let stores (n q : Nat) (v t : State) : Prop :=
      Retired s t x.core (k.pc + 4) ∧ Stored s t pa n q ∧ (∀ r, t.cores[x.core].geth r = k.geth r) ∧
        (∀ r, t.cores[x.core].getf r = k.getf r) ∧ SameRest (k.foldStore (v.taskRoutine x.core) va.toNat (storeKind n) q) t.cores[x.core] ∧
        AgreeBut [.cores, .free, .mem, .ue, .cpl] v t
    (∀ size rs v, u.dataAddr x.core .store va (sizeBytes size) (sizeBytes size == 4) = (w, .at pa) → regionOf pa ≠ .regs →
      checked (sizeBytes size) v →
      ∃ t, exec (.store x size rs ra off) s = .next t ∧
        stores (sizeBytes size) ((k.geth rs).toNat % 2 ^ (8 * sizeBytes size)) v t) ∧
    (∀ rs w', u.dataAddr x.core .store va 4 true = (w, .at pa) → regionOf pa = .regs →
      w.busWrite (.core x.core) (pa - 0x40000000) (BitVec.ofNat 32 ((k.geth rs).toNat % 2 ^ 32)) x.lost = some w' →
      exec (.store x .word rs ra off) s = .next ((w'.modCore x.core fun k' =>
        k'.foldStore (w.taskRoutine x.core) va.toNat (storeKind 4) ((k.geth rs).toNat % 2 ^ 32)).retire x.core (k.pc + 4))) ∧
    ∀ dbl rs v, u.dataAddr x.core .store va (if dbl then 8 else 4) false = (w, .at pa) → checked (if dbl then 8 else 4) v →
      ∃ t, exec (.fstore x dbl rs ra off) s = .next t ∧
        stores (if dbl then 8 else 4) ((k.getf rs).toNat % 2 ^ (8 * if dbl then 8 else 4)) v t

/-- O13. The atomics: h[rd] takes what memory held, and memory what the operation gives (R79). -/
def Obligations.Atomics : Prop :=
  ∀ (s u w v : State) (x : Site) (func : BitVec 12) (rd ra rb : BitVec 5) (pa : Nat), Fetches s x u → func.toNat < 10 →
    let k := s.cores[x.core]
    let n := if func.toNat % 2 = 0 then 8 else 4
    let old := s.readLe pa n
    let new := atomResult (func.toNat / 2) (8 * n) old ((k.geth rb).toNat % 2 ^ (8 * n)) ((k.geth rd).toNat % 2 ^ (8 * n))
    u.dataAddr x.core .atomic (k.geth ra) n false = (w, .at pa) → w.memCheck x.core pa x.dataL1 x.dataEcc = (v, false) →
    x.dataEcc ≠ .writeFault →
    ∃ t, exec (.atom x func rd ra rb) s = .next t ∧ Retired s t x.core (k.pc + 4) ∧ Stored s t pa n new ∧
      WroteH k t.cores[x.core] rd (if n = 4 then sx32 (BitVec.ofNat 32 old) else BitVec.ofNat 64 old) ∧
      (∀ r, t.cores[x.core].getf r = k.getf r) ∧
      SameRest (k.foldStore (v.taskRoutine x.core) (k.geth ra).toNat (storeKind n) new) t.cores[x.core] ∧
      AgreeBut [.cores, .free, .mem, .ue, .cpl] v t

/-- O14. The traps of accesses to memory (R69, R70, R112): an address that is refused, and a machine check. -/
def Obligations.AccessTraps : Prop :=
  ∀ (s u w v : State) (x : Site) (ra rb rd : BitVec 5) (off : BitVec 17) (code pa : Nat), Fetches s x u →
    s.cores[x.core].td = false →
    let k := s.cores[x.core]
    let va := k.effAddr ra off
    let traps (c : Instr) (code : Nat) (va : DWord) : Prop := ∃ t, exec c s = .next t ∧ Trapped s t x.core code va
    (∀ size, u.dataAddr x.core .load va (sizeBytes size) (sizeBytes size == 4) = (w, .trap code) →
      traps (.load x size rd ra off) code va) ∧
    (∀ size, u.dataAddr x.core .store va (sizeBytes size) (sizeBytes size == 4) = (w, .trap code) →
      traps (.store x size rd ra off) code va) ∧
    (∀ dbl, u.dataAddr x.core .load va (if dbl then 8 else 4) false = (w, .trap code) → traps (.fload x dbl rd ra off) code va) ∧
    (∀ dbl, u.dataAddr x.core .store va (if dbl then 8 else 4) false = (w, .trap code) → traps (.fstore x dbl rd ra off) code va) ∧
    (∀ func : BitVec 12, func.toNat < 10 →
      u.dataAddr x.core .atomic (k.geth ra) (if func.toNat % 2 = 0 then 8 else 4) false = (w, .trap code) →
      traps (.atom x func rd ra rb) code (k.geth ra)) ∧
    (∀ func : BitVec 12, 10 ≤ func.toNat → traps (.atom x func rd ra rb) 0x00 (wordTval (encA 25 rd ra rb func))) ∧
    (w.memCheck x.core pa x.dataL1 x.dataEcc = (v, true) →
      (∀ dbl, u.dataAddr x.core .load va (if dbl then 8 else 4) false = (w, .at pa) → traps (.fload x dbl rd ra off) 0x0E va) ∧
      (u.dataAddr x.core .store va 4 false = (w, .at pa) → traps (.fstore x false rd ra off) 0x0E va))

/-- O15. Before any instruction takes effect: a core that does not run executes nothing, a fetch that is refused traps with its
cause and the address (R69, R70), and a word that spells no instruction traps with 0x00 and the word (R66, R85). -/
def Obligations.FetchComesFirst : Prop :=
  ∀ (c : Instr) (x : Site) (s u : State), siteOf c = some x →
    (s.cores[x.core].run ≠ .running → exec c s = .next s) ∧
    (s.cores[x.core].run = .running → s.cores[x.core].td = false →
      (∀ code, s.fetch x = (u, .trap code) → ∃ t, exec c s = .next t ∧ Trapped s t x.core code s.cores[x.core].pc) ∧
      ∀ w, s.fetch x = (u, .ok) → x.word = some w → decodeHelin x w = none →
        ∃ t, exec c s = .next t ∧ Trapped s t x.core 0x00 (wordTval w))

/-- O16. Floating-point operations: the result in its register, the raised flags in sr.FCSR, and the trap where a raised flag has its
enable set or dynamic rounding finds a reserved mode (R83). -/
def Obligations.FloatingPoint : Prop :=
  ∀ (s u : State) (x : Site) (func : BitVec 12) (rd ra rb : BitVec 5) (flags : Nat), Fetches s x u →
    let k := s.cores[x.core]
    let e := fpEval func rb (k.getf ra) (k.getf rb) (k.getf rd) (k.geth ra) (bitsAt k.fcsr.toNat 10 3)
    let runs (keep : Core → Prop) : Prop :=
      ∃ t, exec (.fp x func rd ra rb) s = .next t ∧ Retired s t x.core (k.pc + 4) ∧ keep t.cores[x.core] ∧
        SameRest (k.raiseFlags flags) t.cores[x.core] ∧ SameMemory s t ∧ AgreeBut [.cores, .free] u t
    (k.fpTraps flags = false →
      (∀ bits, e = .toF bits flags → runs fun k' => WroteF k k' rd (BitVec.ofNat 64 bits) ∧ ∀ r, k'.geth r = k.geth r) ∧
      ∀ v, e = .toH v flags → runs fun k' => WroteH k k' rd v ∧ ∀ r, k'.getf r = k.getf r) ∧
    (k.td = false →
      ((k.fpTraps flags = true → ((∃ bits, e = .toF bits flags) ∨ ∃ v, e = .toH v flags) →
        ∃ t, exec (.fp x func rd ra rb) s = .next t ∧ Trapped s t x.core 0x0C (wordTval (encA 24 rd ra rb func)) ∧
          t.cores[x.core].fcsr = k.fcsr ||| BitVec.ofNat 64 (flags % 32)) ∧
      (fpTakesRm (bitsAt func.toNat 6 6) = true → bitsAt func.toNat 2 3 = 7 → bitsAt k.fcsr.toNat 10 3 ∈ [5, 6, 7] →
        ∃ t, exec (.fp x func rd ra rb) s = .next t ∧ Trapped s t x.core 0x00 (wordTval (encA 24 rd ra rb func)) ∧
          t.cores[x.core].fcsr = k.fcsr) ∧
      (e = .illegal → ∃ t, exec (.fp x func rd ra rb) s = .next t ∧ Trapped s t x.core 0x00 (wordTval (encA 24 rd ra rb func)) ∧
        t.cores[x.core].fcsr = k.fcsr)))

/-- O17. Loads of points (R88, R89, R93 to R96): value and tag, or the packed form, of the cell that the slice table gives. -/
def Obligations.PointLoads : Prop :=
  ∀ (s u v : State) (x : Site) (pa : Nat), Fetches s x u →
    let k := s.cores[x.core]
    let found (analog : Bool) (i : Nat) : Prop :=
      k.pick (laneOf x.core) analog i 1 false = .at pa ∧ u.cellCheck x pa (cellSize analog) = (v, false)
    let runs (c : Instr) (keep : Core → Prop) : Prop :=
      ∃ t, exec c s = .next t ∧ Retired s t x.core (k.pc + 4) ∧ keep t.cores[x.core] ∧ SameRest k t.cores[x.core] ∧
        SameMemory s t ∧ AgreeBut [.cores, .free] v t
    let d := s.cellAt false pa
    let a := s.cellAt true pa
    (∀ rd rq idx, (rd ≠ rq ∨ rd = 0) → found false (BitVec.toNat idx) → runs (.pld x rd rq idx) fun k' =>
      WrotePair k k' rd rq (BitVec.ofNat 64 d.value) (BitVec.ofNat 64 d.tag) ∧ ∀ r, k'.getf r = k.getf r) ∧
    (∀ rd rq idx, (rd ≠ rq ∨ rd = 0) → found true (BitVec.toNat idx) →
      (runs (.ald x rd rq idx) fun k' =>
        WrotePair k k' rd rq (sx32 (BitVec.ofNat 32 a.value)) (BitVec.ofNat 64 a.tag) ∧ ∀ r, k'.getf r = k.getf r) ∧
      runs (.aldu x rd rq idx) fun k' =>
        WrotePair k k' rd rq ((BitVec.ofNat 32 a.value).setWidth 64) (BitVec.ofNat 64 a.tag) ∧ ∀ r, k'.getf r = k.getf r) ∧
    (∀ rd rq idx, found true (BitVec.toNat idx) → runs (.aldf x rd rq idx) fun k' =>
      WroteF k k' rd ((BitVec.ofNat 32 a.value).setWidth 64) ∧ WroteH k k' rq (BitVec.ofNat 64 a.tag)) ∧
    (∀ rd ra i, indexOf false (k.geth ra) = some i → found false i → runs (.pldx x rd ra 0) fun k' =>
      WroteH k k' rd (BitVec.ofNat 64 (packed d)) ∧ ∀ r, k'.getf r = k.getf r) ∧
    ∀ rd ra i, indexOf true (k.geth ra) = some i → found true i → runs (.aldx x rd ra 0) fun k' =>
      WroteH k k' rd (BitVec.ofNat 64 (packed a)) ∧ ∀ r, k'.getf r = k.getf r

/-- O18. Stores of points (R88, R89, R93 to R96): the cell of an output slice, folded into the signature of an open cycle (R106). -/
def Obligations.PointStores : Prop :=
  ∀ (s u v : State) (x : Site) (pa : Nat), Fetches s x u →
    let k := s.cores[x.core]
    let found (analog : Bool) (i : Nat) : Prop :=
      k.pick (laneOf x.core) analog i 1 true = .at pa ∧ if analog then pa % 8 = 0 ∧ v = u else u.cellCheck x pa 1 = (v, false)
    let runs (c : Instr) (analog : Bool) (i : Nat) (p : Point) : Prop :=
      ∃ t, exec c s = .next t ∧ Retired s t x.core (k.pc + 4) ∧ Stored s t pa (cellSize analog) (cellOfPoint analog p) ∧
        (∀ r, t.cores[x.core].geth r = k.geth r) ∧ (∀ r, t.cores[x.core].getf r = k.getf r) ∧
        SameRest (k.foldStore (v.taskRoutine x.core) i (if analog then 5 else 4) (packed p)) t.cores[x.core] ∧ AgreeBut [.cores, .free, .mem, .ue] v t
    (∀ rd rq idx, found false (BitVec.toNat idx) →
      runs (.pst x rd rq idx) false idx.toNat { value := (k.geth rd).toNat % 2, tag := (k.geth rq).toNat % 8 }) ∧
    (∀ rd rq idx, found true (BitVec.toNat idx) →
      runs (.ast x rd rq idx) true idx.toNat { value := (k.geth rd).toNat % 2 ^ 32, tag := (k.geth rq).toNat % 8 } ∧
      runs (.astf x rd rq idx) true idx.toNat { value := (k.getf rd).toNat % 2 ^ 32, tag := (k.geth rq).toNat % 8 }) ∧
    (∀ ra rb i, indexOf false (k.geth ra) = some i → found false i →
      runs (.pstx x 0 ra rb) false i { value := (k.geth rb).toNat % 2, tag := bitsAt (k.geth rb).toNat 32 3 }) ∧
    ∀ ra rb i, indexOf true (k.geth ra) = some i → found true i →
      runs (.astx x 0 ra rb) true i { value := (k.geth rb).toNat % 2 ^ 32, tag := bitsAt (k.geth rb).toNat 32 3 }

/-- O19. Loads, a store and copies of ranges (R95 to R97): bit i or the OR of the tags of the points of the range, the bits of a
register into the range, and a range copied cell by cell. -/
def Obligations.RangeOperations : Prop :=
  ∀ (s u v : State) (x : Site) (rd ra rb : BitVec 5) (start count tag pa qa : Nat), Fetches s x u →
    let k := s.cores[x.core]
    let at_ (analog store : Bool) : Prop :=
      k.pick (laneOf x.core) analog start count store = .at pa ∧ u.cellCheck x pa (count * cellSize analog) = (v, false)
    let points (analog : Bool) (a : Nat) (t : State) : List Point :=
      (List.range count).map fun i => t.cellAt analog (a + i * cellSize analog)
    let loads (c : Instr) (r : Nat) : Prop :=
      ∃ t, exec c s = .next t ∧ Retired s t x.core (k.pc + 4) ∧ WroteH k t.cores[x.core] rd (BitVec.ofNat 64 r) ∧
        (∀ r, t.cores[x.core].getf r = k.getf r) ∧ SameRest k t.cores[x.core] ∧ SameMemory s t ∧ AgreeBut [.cores, .free] v t
    let moves (c : Instr) (analog : Bool) (a : Nat) (ps : List Point) : Prop :=
      ∃ t, exec c s = .next t ∧ Retired s t x.core (k.pc + 4) ∧ points analog a t = ps ∧
        (∀ b, b < a ∨ a + count * cellSize analog ≤ b → t.readByte b = s.readByte b) ∧
        (∀ r, t.cores[x.core].geth r = k.geth r) ∧ (∀ r, t.cores[x.core].getf r = k.getf r) ∧
        SameRest { k with cksigl := t.cores[x.core].cksigl, cksigh := t.cores[x.core].cksigh } t.cores[x.core] ∧
        AgreeBut [.cores, .free, .mem, .ue] v t
    (descOf false false (k.geth ra) = some (start, count, tag) → at_ false false →
      loads (.pldb x rd ra 0) (pointBits (fun p => p.value == 1) (points false pa s)) ∧
      loads (.ptgb x rd ra 0) (pointBits (fun p => p.tag != 0) (points false pa s)) ∧
      loads (.ptor x rd ra 0) ((points false pa s).foldl (fun t p => t ||| p.tag) 0)) ∧
    (descOf false true (k.geth ra) = some (start, count, tag) → at_ false true →
      moves (.pstb x 0 ra rb) false pa
        ((List.range count).map fun i => { value := bit ((k.geth rb).getLsbD i), tag := tag })) ∧
    ∀ analog dst, descOf analog false (k.geth ra) = some (start, count, tag) → indexOf analog (k.geth rb) = some dst →
      at_ analog false → k.pickSlice (laneOf x.core) analog dst count true true = .at qa →
      (if analog then qa % 8 = 0 else v.rangeUe qa count = false) →
      moves (if analog then .acpy x 0 ra rb else .pcpy x 0 ra rb) analog qa
        ((points analog pa s).map fun p => { p with tag := p.tag % 8 })

/-- O20. Timers and edges (R104, R105): the record's new word and the result, from the record, the input and the time since the last
cycle, which the first cycle takes as 0. -/
def Obligations.TimersAndEdges : Prop :=
  ∀ (s u w v : State) (x : Site) (rd ra rb : BitVec 5) (pa : Nat), Fetches s x u →
    let k := s.cores[x.core]
    let found (size : Nat) : Prop :=
      u.recordAddr x.core (k.geth ra) size = (w, .at pa) ∧ w.memCheck x.core pa x.dataL1 x.dataEcc = (v, false) ∧
        v.rangeUe pa size = false
    let runs (c : Instr) (q : DWord) (keep : State → Prop) (k₁ : Core) : Prop :=
      ∃ t, exec c s = .next t ∧ Retired s t x.core (k.pc + 4) ∧ WroteH k t.cores[x.core] rd q ∧ keep t ∧
        (∀ r, t.cores[x.core].getf r = k.getf r) ∧ SameRest k₁ t.cores[x.core] ∧ AgreeBut [.cores, .free, .mem, .ue] v t
    let d := if k.firstcycle.getLsbD 0 then 0 else k.felapsed.toNat
    let timer (c : Instr) (r : Timer × Bool) : Prop :=
      runs c (boolWord r.2) (fun t => Stored s t pa 8 r.1.word) (k.foldStore (v.taskRoutine x.core) (k.geth ra).toNat 3 r.1.word)
    let p := k.geth rb
    let edge (c : Instr) (f : Bool → Bool → Bool) : Prop :=
      let old := s.readLe pa 4
      if p.getLsbD 32 || p.getLsbD 34 then runs c 2 (fun t => SameMemory s t) k
      else runs c (if old.testBit 1 then boolWord (f (old.testBit 0) (p.getLsbD 0)) else 4)
        (fun t => Stored s t pa 4 (2 + bit (p.getLsbD 0))) (k.foldStore (v.taskRoutine x.core) (k.geth ra).toNat 2 (2 + bit (p.getLsbD 0)))
    (found 16 →
      timer (.ton x rd ra rb) (tonStep (timerOf (s.readLe pa 16)) (p.getLsbD 0) d) ∧
      timer (.tof x rd ra rb) (tofStep (timerOf (s.readLe pa 16)) (p.getLsbD 0) d) ∧
      timer (.tp x rd ra rb) (tpStep (timerOf (s.readLe pa 16)) (p.getLsbD 0) d)) ∧
    (found 4 →
      edge (.edgr x rd ra rb) (fun prev v => !prev && v) ∧ edge (.edgf x rd ra rb) (fun prev v => prev && !v) ∧
      edge (.edgb x rd ra rb) (fun prev v => prev != v))

/-- O21. CKPT and the task calls (R64, R101, R106 to R110): the record that goes to the Anvils, the end of the cycle on the core, the entry to K,
and the forms that trap because no cycle is open or a field that must be 0 is not. -/
def Obligations.TaskCalls : Prop :=
  (∀ (s u : State) (x : Site), Fetches s x u → s.cores[x.core].isOpen = true → s.cores[x.core].td = false →
    let k := s.cores[x.core]
    let sends (t : State) (is : Record → Prop) : Prop :=
      t.cores[x.core].isOpen = false ∧ ∃ r, t.anvils.flight = u.anvils.flight ++ [(x.core, r)] ∧ r.task = k.taskid.toNat % 64 ∧
        r.lane = laneOf x.core ∧ r.release = k.frelease.toNat ∧ r.epoch = k.pepoch.toNat % 65536 ∧ is r
    (∀ ra, ∃ t, exec (.ckpt x ra 0) s = .next t ∧ Entered s t x.core 0x14 k.frelease (k.pc + 4) 0x200 1 ∧ sends t fun r =>
      r.fault = false ∧ r.sig = (k.foldClosing (k.geth ra)).cksigh ++ (k.foldClosing (k.geth ra)).cksigl) ∧
    (∀ number, number ≠ 1 →
      ∃ t, exec (.tcallTfault x 0 number) s = .next t ∧ Entered s t x.core 0x13 (number.setWidth 64) (k.pc + 4) 0x200 1 ∧
        sends t fun r => r.fault = true ∧ r.cause = BitVec.ofNat 64 ((k.geth 3).toNat % 65536) ∧ r.tval = number.setWidth 64) ∧
    ∃ t, exec (.tcallTevent x 0) s = .next t ∧ Retired s t x.core (k.pc + 4) ∧
      t.cores[x.core].status = k.status &&& 7 ∧ t.cores[x.core].tcause = 0x13 ∧ t.cores[x.core].tval = 1 ∧
      t.cores[x.core].isOpen = true ∧
      (let n := k.taskid.toNat % 64
       let full := decide (8 ≤ ((s.task n).tevents.filter fun e => e.1 == laneOf x.core).length)
       WroteH k t.cores[x.core] 3 (boolWord full) ∧
        (t.task n).tevents = (s.task n).tevents ++ if full then [] else
          [(laneOf x.core, (k.geth 3).toNat % 65536,
            [4, 5, 6, 7, 8, 9].map fun (r : BitVec 5) => (k.geth r).toNat % 0x100000000)])) ∧
  (∀ (s u : State) (x : Site), Fetches s x u → s.cores[x.core].td = false →
    let k := s.cores[x.core]
    let traps (c : Instr) (code : Nat) (w : Word) : Prop := ∃ t, exec c s = .next t ∧ Trapped s t x.core code (wordTval w)
    (∀ ra sr, sr ≠ 0 → traps (.ckpt x ra sr) 0x00 (encS ra sr 0x100)) ∧
    (∀ r number, r ≠ 0 → traps (.tcallTfault x r number) 0x00 (encS r number 0x101)) ∧
    (∀ r, r ≠ 0 → traps (.tcallTevent x r) 0x00 (encS r 1 0x101)) ∧
    (k.isOpen = false →
      (∀ ra, traps (.ckpt x ra 0) 0x12 (encS ra 0 0x100)) ∧ (∀ number, traps (.tcallTfault x 0 number) 0x12 (encS 0 number 0x101)) ∧
      traps (.tcallTevent x 0) 0x12 (encS 0 1 0x101)))

/-! ### The frame scheduler, the Anvils and the lanes (06_tasks_frame.md, 07_lanes_anvil.md) -/

/-- O22. The tick generator starts and stops (R148, R150), and a tick (R147, R156): the frame count of its grid instant, the
clock at that instant or later, line TICK on every core, the verified timing sets that act now (R196) and epoch resets done
(R193); without RUN nothing happens (R150). -/
def Obligations.TickOpensFrame : Prop :=
  ∀ s : State,
    (s.fld FRM_CTRL FRM_CTRL_RUN = 0 → ∃ t, exec .frmStart s = .next t ∧ t.fld FRM_CTRL FRM_CTRL_RUN = 1 ∧
      (let period := clampNat 250 16000 (s.fld FRM_PERIOD FRM_PERIOD_PERIOD)
       let phase := s.fld FRM_PHASE FRM_PHASE_PHASE
       t.tFrame = period ∧ t.tPhase = if phase < period then phase else 0) ∧
      (∀ k, t.frame.nextTick ≤ k ↔ s.time.clock + 100 * clockUs ≤ t.grid k) ∧
      t.fld FRM_STATUS FRM_STATUS_PPEND =
        bit (s.fld FRM_PERIOD FRM_PERIOD_PERIOD != t.tFrame || s.fld FRM_PHASE FRM_PHASE_PHASE != t.tPhase)) ∧
    (s.fld FRM_CTRL FRM_CTRL_RUN ≠ 0 → exec .frmStart s = .next s) ∧
    (∃ t, exec .frmStop s = .next t ∧ t.fld FRM_CTRL FRM_CTRL_RUN = 0 ∧ t.fld FRM_STATUS FRM_STATUS_PPEND = 0 ∧
      ∀ a, a ≠ FRM_CTRL → a ≠ FRM_STATUS → t.reg a = s.reg a) ∧
    (s.fld FRM_CTRL FRM_CTRL_RUN = 0 → exec .tick s = .next s) ∧
    (s.fld FRM_CTRL FRM_CTRL_RUN ≠ 0 → ∃ t, exec .tick s = .next t ∧
      (let k := s.stepAct.tickCount
       t.frame.nextTick = k + 1 ∧ t.reg FRM_FCOUNTL = BitVec.ofNat 32 k ∧ t.reg FRM_FCOUNTH = BitVec.ofNat 32 (k / 0x100000000) ∧
       s.grid k ≤ t.time.clock) ∧
      t.frame.inClose = false ∧ t.frame.epochResets = [] ∧
      t.fld ANX_EPRST ANX_EPRST_GO = 0 ∧ t.fld ANY_EPRST ANY_EPRST_GO = 0 ∧
      (let acts (v w : VerifiedSet) : Prop := (w.skew, w.stdcont, w.crc) = s.anvils.verNext.getD (v.skew, v.stdcont, v.crc)
       acts s.anvils.verX t.anvils.verX ∧ acts s.anvils.verY t.anvils.verY) ∧
      ∀ c : Fin 12, t.cores[c].lines.getLsbD lineTick = true)

/-- O23. The close phase (R179, R198, R199): the strike test of the frame count shows in both Anvils, and a test that fails is a
comparator fault. It happens once in a frame. -/
def Obligations.ClosePhaseTests : Prop :=
  ∀ (s : State) (upset okX okY : Bool),
    (s.fld FRM_CTRL FRM_CTRL_RUN = 0 ∨ s.frame.inClose = true → exec (.closePhase upset okX okY) s = .next s) ∧
    (s.fld FRM_CTRL FRM_CTRL_RUN ≠ 0 → s.frame.inClose = false → ∃ t, exec (.closePhase upset okX okY) s = .next t ∧
      t.frame.inClose = true ∧
      (let k := s.frameCount
       t.fld ANX_STRIKE ANX_STRIKE_POS = k % 640 ∧ t.fld ANX_STRIKE ANX_STRIKE_LANE = k % 3 ∧
       t.fld ANX_STRIKE ANX_STRIKE_PASS = bit okX ∧
       t.fld ANY_STRIKE ANX_STRIKE_POS = k % 640 ∧ t.fld ANY_STRIKE ANX_STRIKE_LANE = k % 3 ∧
       t.fld ANY_STRIKE ANX_STRIKE_PASS = bit okY) ∧
      (okX = false → t.fld ANX_STATUS ANX_STATUS_STRIKEFAIL = 1) ∧ (okY = false → t.fld ANY_STATUS ANX_STATUS_STRIKEFAIL = 1) ∧
      (okX = false ∨ okY = false ∨ upset = true →
        t.fld ANX_STATUS ANX_STATUS_CMPFAULT = 1))

/-- O24. The snapshot copier and deadlines (R156, R162, R164): a copy completes and SNAPEND shows when; a cycle that has published is
late, one under HOLD_ONE is carried once, and every other one overruns and closes. -/
def Obligations.CopiesAndDeadlines : Prop :=
  ∀ s : State,
    (∀ ns, (s.copyQueue = [] → exec (.snapshotCopyComplete ns) s = .next s) ∧
      ∀ n l, s.copyQueue = n :: l → ∃ t, exec (.snapshotCopyComplete ns) s = .next t ∧
        t.fld FRM_SNAPEND FRM_SNAPEND_SNAPEND = ns.toNat ∧
        ((s.taskProg n).isSome = true → ∀ cy, (t.task n).cycle = some cy → cy.copied = true)) ∧
    ∀ (n : Fin 64) (cy : Cycle), (s.task n).cycle = some cy →
      (cy.published = true → ∃ t, exec (.deadline n) s = .next t ∧ ∀ cy', (t.task n).cycle = some cy' → cy'.late = true) ∧
      (cy.published = false →
        let overran (t : State) : Prop :=
          t.fld FRM_OVRCNT CNT_COUNT = min (s.fld FRM_OVRCNT CNT_COUNT + 1) 0x7FFFFFFF ∧
            t.fld FRM_STATUS FRM_STATUS_OVR = 1 ∧ (t.task n).prevOvr = true
        (cy.carried = false → cy.policy = polHoldOne → s.fld FRM_CTRL FRM_CTRL_RUN ≠ 0 →
          ∃ t, exec (.deadline n) s = .next t ∧ overran t ∧ ∀ cy', (t.task n).cycle = some cy' → cy'.carried = true) ∧
        (cy.carried = false → cy.policy ≠ polHoldOne ∨ s.fld FRM_CTRL FRM_CTRL_RUN = 0 →
          ∃ t, exec (.deadline n) s = .next t ∧ overran t ∧ (t.task n).cycle = none) ∧
        (cy.carried = true → cy.frame ≠ s.frameCount →
          ∃ t, exec (.deadline n) s = .next t ∧ overran t ∧ (t.task n).cycle = none))

/-- O25. Records at the Anvils (R177 to R184, R194): of a TRIAD whose two other lanes have decided the vote, a lane whose record is
missing when the window closes, or differs or fails its CRC, is fenced; a record of an epoch that is neither open nor closed is discarded and
counted. Every other vote has ended (`quiet`). -/
def Obligations.RecordsAndWindows : Prop :=
  ∀ (s : State) (n l : Nat) (v : Vote) (a b : Record), n < 64 →
    let quiet : Prop := ∀ m < 64, (m ≠ n → ∀ w, (s.task m).vote = some w → w.judged = true) ∧
      ∀ w, (s.task m).oldVote = some w → w.judged = true
    let decided : Prop := (s.task n).vote = some v ∧ v.judged = false ∧ v.decided ≠ [] ∧ v.records = [a, b] ∧
      (∀ y, (a.seen y).same (b.seen y) = true) ∧
      s.voters (placeTriad v.place) = [0, 1, 2] ∧ [a.lane, b.lane, l].Perm [0, 1, 2] ∧
      (∀ k < 3, s.laneState k = lsAvailable) ∧ s.anvils.named = none ∧ s.fld ANX_STATUS ANX_STATUS_CMPFAULT = 0
    let fenced (t : State) (cause : Nat) : Prop :=
      t.laneState l = lsFenced ∧ t.fld (LANE_LSTATE l) LANE_LSTATE_CAUSE = cause ∧ t.fld LANE_STATUS LANE_STATUS_FENCE = 1 ∧
        t.fld ANX_MISCNT CNT_COUNT = min (s.fld ANX_MISCNT CNT_COUNT + 1) 0x7FFFFFFF ∧ t.anvils.named = some l
    (voteRecords (s.task n).vote + voteRecords (s.task n).oldVote = 0 → ∀ h agree,
      exec (.skewWindowClose ⟨n, h⟩ agree) s = .next s) ∧
    (quiet → decided → ∀ h, ∃ t, exec (.skewWindowClose ⟨n, h⟩ true) s = .next t ∧ fenced t 2) ∧
    ∀ (c : Fin 12) (r : Record) (u : State), s.takeRecord c = some (r, u) →
      let command (x y : Bool) : Instr := if r.fault then .taskFaultReport c x y else .checkpointRecord c x y
      (∀ whole, quiet → decided → v.carried = false → r.task = n → laneOf c = l → r.lane = l → triadOf c = placeTriad v.place →
        (s.task n).cycle.elim (s.task n).place (·.place) = v.place → placeVoted v.place = true → r.release = v.release →
        r.release = (s.task n).lastRelease → (s.task n).closedRelease < r.release → s.frame.inClose = false →
        r.epoch = s.openEpoch n → (whole = false ∨ r.crc ≠ r.checksum ∨ a.bytes ≠ r.bytes) →
        ∃ t, exec (command whole whole) s = .next t ∧ fenced t 1) ∧
      (r.epoch ≠ s.openEpoch r.task → r.epoch ≠ s.closedEpoch r.task → ∀ x y,
        ∃ t, exec (command x y) s = .next t ∧
          t.fld ANX_STALE_CNT CNT_COUNT = min (s.fld ANX_STALE_CNT CNT_COUNT + 1) 0x7FFFFFFF ∧
          t.fld ANX_STATUS ANX_STATUS_STALE = 1 ∧ t.fld ANY_STATUS ANX_STATUS_STALE = 1)

/-- O26. Quench tests and state copies (R185, R186, R188, R191): the states of a lane, the counts of its passes, and the copies that
start and end. -/
def Obligations.QuenchAndCopies : Prop :=
  ∀ (s : State) (l : Fin 3),
    (s.laneState l = lsFenced → ∃ t, exec (.quenchTestStart l) s = .next t ∧ t.laneState l = lsQuench) ∧
    (s.laneState l ≠ lsFenced → exec (.quenchTestStart l) s = .next s) ∧
    (∀ pass, s.laneState l ≠ lsQuench → exec (.quenchTestEnd l pass) s = .next s) ∧
    (s.laneState l = lsQuench →
      let tooMany : Prop := s.fld LANE_CFG LANE_CFG_QLIMIT < (s.passesInWindow l).length + 1
      (∃ t, exec (.quenchTestEnd l false) s = .next t ∧ t.laneState l = lsOut ∧ t.fld (LANE_LSTATE l) LANE_LSTATE_QRES = 2 ∧
        t.fld LANE_STATUS LANE_STATUS_QDONE = 1) ∧
      ∃ t, exec (.quenchTestEnd l true) s = .next t ∧ t.fld (LANE_LSTATE l) LANE_LSTATE_QRES = 1 ∧
        t.fld LANE_STATUS LANE_STATUS_QDONE = 1 ∧
        t.fld (LANE_TRANS l) CNT_COUNT = min (s.fld (LANE_TRANS l) CNT_COUNT + 1) 0x7FFFFFFF ∧
        (tooMany → t.laneState l = lsOut) ∧
        (¬ tooMany → t.laneState l = if (s.lane l).commanded then lsAvailable else lsRejoin)) ∧
    (s.copyRuns = true → ∀ job, exec (.rejoinCopyStart job) s = .next s) ∧
    (s.copyRuns = false →
      (∀ m, s.laneState l = lsRejoin → s.nextCopy l = some m → s.triadCarries m = false → s.voters m ≠ [] →
        ∃ t, exec (.rejoinCopyStart (.rejoin l)) s = .next t ∧ (t.lane l).copying = some m) ∧
      (∀ m : Fin 4, (s.triad m).joining.isSome = true → (s.triad m).joinCopied = false → s.triadCarries m = false →
        ∃ t, exec (.rejoinCopyStart (.join m)) s = .next t ∧ (t.triad m).joinRuns = true ∧
          t.fld (LANE_TRIAD m) LANE_TRIAD_STATE = if (s.triad m).lost.isSome then 3 else 2) ∧
      ∀ n : Fin 64, (s.task n).placeCopy = 1 → s.taskCarries n = false →
        ∃ t, exec (.rejoinCopyStart (.place n)) s = .next t ∧ (t.task n).placeCopy = 2) ∧
    (∀ m u, (s.lane l).copying = some m → s.copyTasks (s.voters m) [l.val] (s.votedOn m) = (u, true) →
      ∃ t, exec (.rejoinCopyEnd (.rejoin l)) s = .next t ∧ SameMemory u t ∧ (t.lane l).copying = none ∧
        (t.lane l).copiedNow = (s.lane l).copiedNow ++ [m]) ∧
    ∀ n : Fin 64, (s.task n).placeCopy = 2 → ∃ t, exec (.rejoinCopyEnd (.place n)) s = .next t ∧
      ((t.task n).placeCopy = 3 ∨ (t.task n).placeCopy = 1)

/-- O27. TASK_RESTART, MODE_REQUEST, COMMANDED_QUENCH and EPOCH_RESET (R166, R173, R191, R193, R213): what the registers show of a request
that is taken and of one that is refused. -/
def Obligations.LaneAndTaskRequests : Prop :=
  ∀ s : State,
    (∀ n : Fin 64,
      (s.restartPermitted n = true → s.fld (FRM_TSTAT n) FRM_TSTAT_STOPPED ≠ 0 →
        ∃ t, exec (.taskRestart n) s = .next t ∧ t.fld (FRM_TSTAT n) FRM_TSTAT_RESTART = 1) ∧
      (s.restartPermitted n = true → s.fld (FRM_TSTAT n) FRM_TSTAT_STOPPED = 0 → exec (.taskRestart n) s = .next s) ∧
      (s.restartPermitted n = false → ∃ t, exec (.taskRestart n) s = .next t ∧ t.reg (FRM_TSTAT n) = s.reg (FRM_TSTAT n))) ∧
    (∀ (m : Fin 4) (mode odd : BitVec 2),
      ∃ t, exec (.modeRequest m mode odd) s = .next t ∧ t.fld (LANE_MODE m) LANE_MODE_MODE = mode.toNat ∧
        t.fld (LANE_MODE m) LANE_MODE_ODD = odd.toNat ∧
        (s.fld (LANE_MODE m) LANE_MODE_GO = 0 →
          let code := s.modeRefusal m mode.toNat odd.toNat
          t.fld (LANE_MODE m) LANE_MODE_REFUSED = code ∧ t.fld (LANE_MODE m) LANE_MODE_GO = (if code = 0 then 1 else 0) ∧
            (code = 0 → t.fld (LANE_TRIAD m) LANE_TRIAD_STATE = 1 ∧ (t.triad m).request = some (mode.toNat, odd.toNat)))) ∧
    ((∀ n < 64, (∀ v, (s.task n).vote = some v → v.judged = true) ∧ ∀ v, (s.task n).oldVote = some v → v.judged = true) →
     (∃ t, exec (.commandedQuench 3) s = .next t ∧ ∀ l < 3, t.reg (LANE_LSTATE l) = s.reg (LANE_LSTATE l)) ∧
     ∀ l : Fin 3,
      let free : Prop := ∀ m < 4, s.triadMode m = modeFree ∨ (s.triadMode m = modePair ∧ s.triadOdd m = l)
      ∃ t, exec (.commandedQuench (BitVec.ofNat 2 l)) s = .next t ∧ t.fld LANE_QUENCH LANE_QUENCH_GO = 0 ∧
        (s.laneState l = lsAvailable → free → s.otherRejoins l = false →
          t.laneState l = lsFenced ∧ t.fld (LANE_LSTATE l) LANE_LSTATE_CAUSE = 4) ∧
        (s.laneState l ≠ lsAvailable ∨ ¬ free →
          t.laneState l = s.laneState l ∧ t.fld (LANE_LSTATE l) LANE_LSTATE_CAUSE = 6)) ∧
    ∀ n : Fin 64,
      ∃ t, exec (.epochReset n) s = .next t ∧ t.fld ANX_EPRST ANX_EPRST_TASK = n ∧ t.fld ANY_EPRST ANX_EPRST_TASK = n ∧
        (s.fld ANX_EPRST ANX_EPRST_GO = 0 → t.fld ANX_EPRST ANX_EPRST_GO = 1 ∧ t.fld ANY_EPRST ANX_EPRST_GO = 1 ∧
          t.frame.epochResets = s.frame.epochResets ++ [n.val]) ∧
        (s.fld ANX_EPRST ANX_EPRST_GO ≠ 0 → t.frame.epochResets = s.frame.epochResets)

/-! ### DMA, the IOMMU and memory upkeep (05_memory_dma.md) -/

/-- O28. The DMA channels and the IOMMU (R138, R140 to R144): what a start, a stop, an element and the end of a descriptor leave. -/
def Obligations.DmaChannels : Prop :=
  ∀ (s u w v : State) (n : Fin 16) (d : Desc) (src dst z pa leaf : Nat) (found : ElementFinding),
    let idle (t : State) (last : Nat) : Prop :=
      t.desc n = none ∧ t.fld (DMA_CH_STATE n) DMA_CH_STATE_STATE = 0 ∧ t.fld (DMA_CH_CMD n) DMA_CH_CMD_START = 0 ∧
        t.fld (DMA_CH_STATE n) DMA_CH_STATE_LAST = last
    let written (ok : Bool) (status : Nat) : Nat := if ok then status else dmaLostWriteback
    (∀ all ctx, ∃ t, exec (.iommuInvalidate all ctx) s = .next t ∧
      ∀ e, e ∈ t.dma.tlb ↔ e ∈ s.dma.tlb ∧ all = false ∧ e.asid ≠ ctx) ∧
    (s.fld (DMA_CH_CMD n) DMA_CH_CMD_START ≠ 0 → exec (.dmaStart n) s = .next s) ∧
    (s.fld (DMA_CH_CMD n) DMA_CH_CMD_START = 0 →
      let addr := s.fld (DMA_CH_DESC n) DMA_CH_DESC_ADDR * 32 + s.fld (DMA_CH_DESCH n) DMA_CH_DESCH_ADDRH * 2 ^ 32
      ((s.flag (DMA_CH_CMD n) DMA_CH_CMD_START).putFld (DMA_CH_STATE n) DMA_CH_STATE_STATE 1).ctxTranslate n addr =
        (u, .page pa leaf) → ctxPermits .load pa leaf = true → regionOf pa ≠ .regs → u.rangeUe pa 32 = false →
      ((s.descAt addr pa).malformed = false → ∃ t, exec (.dmaStart n) s = .next t ∧ t.desc n = some (s.descAt addr pa) ∧
        t.fld (DMA_CH_STATE n) DMA_CH_STATE_STATE = 1 ∧ t.fld (DMA_CH_CMD n) DMA_CH_CMD_START = 1) ∧
      ((s.descAt addr pa).malformed = true → ∃ t ok, exec (.dmaStart n) s = .next t ∧ idle t (written ok dmaMalformed) ∧
        (t.reg DMA_FAULT).getLsbD n = true)) ∧
    (s.desc n = none → exec (.dmaStop n) s = .next s ∧ exec (.dmaElement n found) s = .next s ∧
      exec (.dmaDescriptorComplete n) s = .next s) ∧
    (s.desc n = some d →
      (∀ ok, s.descBack n d dmaStopped = (u, ok) → ∃ t, exec (.dmaStop n) s = .next t ∧ idle t (written ok dmaStopped) ∧
        SameMemory u t) ∧
      (d.count = 0 → (∃ t, exec (.dmaDescriptorComplete n) s = .next t ∧ (t.reg DMA_STATUS).getLsbD n = true) ∧
        ∀ ok, s.descBack n d dmaCompleted = (u, ok) → d.ctl.testBit 5 = false →
          ∃ t, exec (.dmaDescriptorComplete n) s = .next t ∧ idle t (written ok dmaCompleted) ∧ SameMemory u t) ∧
      (d.count ≠ 0 → d.size = some z → s.dmaSide n d.src z .load 3 5 = (u, .inl src) →
        u.dmaSide n d.dst z .store 4 6 = (w, .inl dst) → regionOf src ≠ .regs → regionOf dst ≠ .regs →
        w.dmaCheck src z found.ecc = (v, false) → dst % z = 0 → (z < 8 → v.hasUe dst = false) →
        ∃ t, exec (.dmaElement n found) s = .next t ∧ t.desc n = some (d.advance z) ∧
          (∀ i < z, t.readByte (dst + i) = s.readByte (src + i)) ∧
          ∀ a, a < dst ∨ dst + z ≤ a → t.readByte a = s.readByte a) ∧
      ∀ code, d.count ≠ 0 → d.size = some z → s.dmaSide n d.src z .load 3 5 = (u, .inr code) →
        ∃ t ok, exec (.dmaElement n found) s = .next t ∧ idle t (written ok code) ∧ (t.reg DMA_FAULT).getLsbD n = true)

/-- O29. Scrubbing and code digests (R112, R128, R129): errors are counted and flagged where the word lies, and a page of the active program bank whose digest
fails keeps the tasks that map it from running until a reload makes it good. -/
def Obligations.ScrubbingAndDigests : Prop :=
  ∀ s : State,
    (∀ pa : BitVec 40,
      let counted (a : Nat) (t : State) : Prop := t.fld a CNT_COUNT = min (s.fld a CNT_COUNT + 1) 0x7FFFFFFF
      let ce (a : Nat) : Prop := ∃ t, exec (.scrubStep pa .corrected) s = .next t ∧ SameMemory s t ∧ counted a t
      let ue (a status : Nat) (f : Field) : Prop := ∃ t, exec (.scrubStep pa .uncorrectable) s = .next t ∧ t.hasUe pa.toNat = true ∧
        counted a t ∧ t.fld status f = 1
      match regionOf pa.toNat with
      | .image => ce IMG_CE ∧ ue IMG_UE IMG_STATUS IMG_STATUS_UE
      | .mram => ce MMU_MRAM_CE ∧ ue MMU_MRAM_UE MMU_STATUS MMU_STATUS_MRAM_UE
      | .dram => ce MMU_DRAM_CE ∧ ue MMU_DRAM_UE MMU_STATUS MMU_STATUS_DRAM_UE
      | .flash => ce MMU_FLASH_CE ∧ ue MMU_FLASH_UE MMU_STATUS MMU_STATUS_FLASH_UE
      | _ => ∀ ecc, exec (.scrubStep pa ecc) s = .next s) ∧
    ∀ page : BitVec 28,
      let p := page.toNat
      exec (.codeDigestCheck page true) s = .next s ∧
      (s.inProgBank p = false → exec (.codeDigestCheck page false) s = .next s) ∧
      (s.inProgBank p = true → ∃ t, exec (.codeDigestCheck page false) s = .next t ∧ p ∈ t.change.failedPages ∧ t.fld MMU_STATUS MMU_STATUS_DIGEST = 1 ∧
        t.fld MMU_DIGEST_FAIL CNT_COUNT = min (s.fld MMU_DIGEST_FAIL CNT_COUNT + 1) 0x7FFFFFFF ∧
        ∀ n < 64, n ∈ s.tasksMapping p → (t.task n).digestFault = true ∧ p ∈ (t.task n).badPages) ∧
      ∀ data good, (p ∉ s.change.failedPages → exec (.codePageReload page data good) s = .next s) ∧
        (p ∈ s.change.failedPages → data.length = 4096 → ∃ t, exec (.codePageReload page data good) s = .next t ∧
          (∀ i < 4096, t.readByte (p * 4096 + i) = data.getD i 0) ∧ (good = true → p ∉ t.change.failedPages ∧ ∀ n < 64, p ∉ (t.task n).badPages))

/-! ### Modes, restarts, forces and online change (08_restart_change_modes.md) -/

/-- O30. The key, the mode settings, confirmations and the states of a change (R209, R212, R218, R224 to R226), and PROGRAM_RESTART (R204): the
fault flags fall, every task of the program starts with its epochs at 0, and the tick generator runs; a standby does not
restart its program (R385). -/
def Obligations.KeyModesAndChange : Prop :=
  (∀ s : State,
    (∀ code : BitVec 2, ∃ t, exec (.keyPositionStable code) s = .next t ∧ t.fld SYS_KEY SYS_KEY_KC1 = code.toNat % 2 ∧
      t.fld SYS_KEY SYS_KEY_KC2 = code.toNat / 2 ∧ t.keyPos = keyOf code.toNat ∧
      (code = 2 → t.fld SYS_KEY SYS_KEY_INVALID = 1) ∧
      (s.keyPos = keyProg → code ≠ 3 → t.modes.waiting = [] ∧ t.modes.due = [])) ∧
    (∀ (who : Initiator) (v : Word),
      (who = .bellows ∨ s.keyPos = keyProg → ∃ t, exec (.modecfgWrite who v) s = .next t ∧ t.reg SYS_MODECFG = v &&& 0x1B ∧
        t.modes.storedCfg = v &&& 0x1B) ∧
      (who ≠ .bellows → s.keyPos ≠ keyProg → ∃ t, exec (.modecfgWrite who v) s = .next t ∧
        t.reg SYS_MODECFG = s.reg SYS_MODECFG ∧ t.modes = s.modes)) ∧
    (∀ ch : Fin 17, ch.val < 16 →
      (s.waitingOf ch = none → exec (.confirmTimeout ch) s = .next s) ∧
      ∀ c w, s.waitingOf ch = some (c, w) → ∃ t, exec (.confirmTimeout ch) s = .next t ∧ t.waitingOf ch = none ∧
        t.chg = if w = .switch ∧ s.chg = chgArmed then chgLoaded else s.chg) ∧
    (∀ w, s.update.waiting = some w → ∃ t, exec (.confirmTimeout 16) s = .next t ∧ t.update.waiting = none ∧
      (w = .apply → s.fld UPD_SIDING UPD_SIDING_STATE = 2 → t.fld UPD_SIDING UPD_SIDING_STATE = 1)) ∧
    (∃ t, exec .rollbackWindowClose s = .next t ∧
      t.chg = if s.chg = chgSwitched ∧ 1000 ≤ s.fld SYS_CHG SYS_CHG_AGE then chgClosed else s.chg) ∧
    ∀ loaded : Bool,
      ((s.chg ≠ chgPending ∧ s.chg ≠ chgReverse) ∨ s.change.copied = true → exec (.changeSwitchCheck loaded) s = .next s) ∧
      (s.chg = chgPending ∨ s.chg = chgReverse → s.change.copied = false → ∀ p ms, s.changeTarget = some (p, ms) →
        let ready : Prop := s.switchReady (affectedTasks s.program p) = true ∧ (s.cpl.member = true → loaded = true)
        (ready → ∃ t, exec (.changeSwitchCheck loaded) s = .next t ∧ t.change.copied = true ∧ t.chg = s.chg) ∧
        (¬ ready → ∃ t, exec (.changeSwitchCheck loaded) s = .next t ∧ Counted s t SYS_CHGDEF ∧
          (s.change.deferrals < 999 → t.change.deferrals = s.change.deferrals + 1 ∧ t.chg = s.chg) ∧
          (999 ≤ s.change.deferrals → t.chg = if s.chg = chgPending then chgLoaded else chgSwitched)))) ∧
  (∀ s : State,
    (s.modes.restart = none ∨ s.standby = true ∨ s.modes.restartDone = true ∨ s.lanesTesting = true → exec .programRestart s = .next s) ∧
    ∀ kind, s.modes.restart = some kind → s.standby = false → s.modes.restartDone = false → s.lanesTesting = false →
      (s.modes.restartBegun = true ∨ s.modes.afterReset = true) → 9 ≤ s.fld BLW_STAGE BLW_STAGE_STAGE →
      ∃ t, exec .programRestart s = .next t ∧ t.modes.restartDone = true ∧ t.modes.restart = some kind ∧
        t.fld ANX_STATUS ANX_STATUS_CMPFAULT = 0 ∧ t.fld ANY_STATUS ANX_STATUS_CMPFAULT = 0 ∧
        t.fld LANE_STATUS LANE_STATUS_SAFEFAIL = 0 ∧ t.fld FRM_CTRL FRM_CTRL_RUN = 1 ∧ t.anvils.checked = false ∧
        ∀ n ∈ s.taskNumbers, t.openEpoch n = 0 ∧ t.closedEpoch n = 0)

/-- O31. Every operating command (R322, R323): a repetition gets the answer of the first, one that is malformed gets status 3, and on a
channel without the right to command RESULT is 4 and nothing is done. -/
def Obligations.CommandsAnswerOnce : Prop :=
  ∀ (c : Instr) (s : State) (r : LapRequest) (code ch : Nat), commandOf c = some (r, code) → Admitted s ch 0x40 r → s.standby = false →
    (¬ CommandForm r → ∃ t, exec c s = .next t ∧ Answered t r 0x40 3 fun p => p = []) ∧
    (CommandForm r →
      (∀ n p, ((s.lap ch).answered.find? fun a => a.1 == r.reqid.toNat) = some (n, p) →
        ∃ t, exec c s = .next t ∧ Answered t r 0x40 0 (fun q => q = p) ∧ AgreeBut [.regs, .bridge, .outbox] s t) ∧
      (((s.lap ch).answered.find? fun a => a.1 == r.reqid.toNat) = none →
        (s.isSet BRG_CMDEN ⟨ch, 1⟩ = false → ∃ t, exec c s = .next t ∧ AgreeBut [.regs, .bridge, .outbox] s t ∧
          Answered t r 0x40 0 fun p => field p 0 2 = code ∧ field p 2 1 = 4) ∧
        ∃ t d, exec c s = .next t ∧ t.outbox.head? = some (.lap r.via.val r.peer d) ∧
          ((t.lap ch).answered.find? fun a => a.1 == r.reqid.toNat) = some (r.reqid.toNat, d.payload)))

/-- O32. Commands of modes, restarts, forces and tasks (R202, R208, R211, R214, R215, R218, R220): what each does where it is allowed, and
the RESULT that answers it. A confirmed purge or change of forces waits for the next tick. -/
def Obligations.ModeAndForceCommands : Prop :=
  ∀ (s : State) (ch : Nat) (r : LapRequest), Decides s ch r →
    let args := r.payload.drop 4
    let gives (c : Instr) (result : Nat) (keep : State → Prop) : Prop :=
      ∃ t, exec c s = .next t ∧ keep t ∧ Answered t r 0x40 0 fun p => field p 2 1 = result
    let challenged (w : Waiting) (t : State) : Prop := ∃ x, t.waitingOf ch = some (x, w)
    (args.length = 1 →
      (field args 0 1 ≤ 2 → gives (.commandMode r) resDone fun t => t.fld SYS_MODE SYS_MODE_REMOTE = field args 0 1) ∧
      (2 < field args 0 1 → gives (.commandMode r) resMalformed fun t => t.reg SYS_MODE = s.reg SYS_MODE) ∧
      (field args 0 1 < 64 → (if s.isSafe (field args 0 1) then s.eff = effProg ∧ s.keyPos = keyProg else s.eff ≠ effStop) →
        gives (.commandTaskrestart r) resDone fun t =>
          s.fld (FRM_TSTAT (field args 0 1)) FRM_TSTAT_STOPPED ≠ 0 → t.fld (FRM_TSTAT (field args 0 1)) FRM_TSTAT_RESTART = 1) ∧
      (64 ≤ field args 0 1 → gives (.commandTaskrestart r) resMalformed fun t => t.modes = s.modes)) ∧
    (args = [] →
      (s.modes.restart = none → s.eff = effProg →
        gives (.commandWarmrst r) resDone (fun t => t.modes.restart = some .warm) ∧
        gives (.commandColdrst r) resDone (fun t => t.modes.restart = some .cold) ∧
        ((s.modes.due.any fun w => w.2 == .purge) = false →
          (s.keyPos = keyProg → gives (.commandPurge r) resChallenge fun t => challenged .purge t ∧ t.modes.restart = none) ∧
          (s.keyPos ≠ keyProg → gives (.commandPurge r) resRefused fun t => t.modes = s.modes)) ∧
        ((s.modes.due.any fun w => w.2 == .purge) = true → gives (.commandPurge r) resDone fun t => t.modes = s.modes)) ∧
      (s.modes.restart = none → s.eff = effStop →
        gives (.commandColdrst r) resDone fun t => t.modes.restart = none ∧ t.modes.coldWanted.isSome = true) ∧
      (s.modes.restart = none → s.eff = effRun →
        gives (.commandWarmrst r) resRefused (fun t => t.modes = s.modes) ∧
        gives (.commandColdrst r) resRefused fun t => t.modes = s.modes) ∧
      (s.keyPos = keyProg → s.fld SYS_MODE SYS_MODE_HOLD = 1 →
        gives (.commandForcestart r) resDone fun t => t.fld SYS_MODE SYS_MODE_HOLD = 0) ∧
      (s.keyPos = keyProg → s.fld SYS_MODE SYS_MODE_HOLD ≠ 1 →
        gives (.commandForcestart r) resState fun t => t.reg SYS_MODE = s.reg SYS_MODE) ∧
      gives (.commandState r) resDone fun t => AgreeBut [.regs, .bridge, .outbox] s t) ∧
    (∀ fs, parseForces args = some fs → s.eff = effProg → (∀ f ∈ fs, f.index < kindPoints f.analog) →
      (fs.foldl setForce s.modes.forces).length ≤ 1024 →
      ((∀ f ∈ fs, s.safePoint f.analog f.index = false) → gives (.commandForceset r) resDone fun t =>
        t.modes.forces = fs.foldl setForce s.modes.forces) ∧
      ((∃ f ∈ fs, s.safePoint f.analog f.index = true) → s.keyPos = keyProg →
        gives (.commandForceset r) resChallenge fun t => challenged (.forceSet fs) t ∧ t.modes.forces = s.modes.forces)) ∧
    (∀ ps, parsePoints args = some ps → s.eff = effProg → ps ≠ [] →
      (∀ p ∈ ps, s.safePoint p.1 p.2.2 = false) →
      gives (.commandForcerel r) resDone fun t =>
        ∀ f, f ∈ t.modes.forces ↔ f ∈ s.modes.forces ∧ (f.analog, f.output, f.index) ∉ ps) ∧
    (args.length = 4 →
      (s.waitingOf ch = none → gives (.commandConfirm r) resMismatch fun t => t.modes = s.modes) ∧
      ∀ x w, s.waitingOf ch = some (x, w) →
        (x = BitVec.ofNat 32 (field args 0 4) → s.keyPos = keyProg →
          (s.confirmAllowed w = true → gives (.commandConfirm r) resDone fun t =>
            t.waitingOf ch = none ∧ t.modes.forces = s.modes.forces ∧
              (w = .switch → s.chg = chgArmed → t.chg = chgPending) ∧ (w = .rollback → s.chg = chgSwitched → t.chg = chgReverse) ∧
              (w ≠ .switch → w ≠ .rollback → t.modes.due = s.modes.due ++ [(ch, w)])) ∧
          (s.confirmAllowed w = false → gives (.commandConfirm r) resRefused fun t => t.modes = s.modes)) ∧
        (x ≠ BitVec.ofNat 32 (field args 0 4) ∨ s.keyPos ≠ keyProg →
          gives (.commandConfirm r) resMismatch fun t => t.waitingOf ch = none ∧ t.modes.forces = s.modes.forces))

/-- O33. Commands of an online change, and PKGDATA (R222, R223, R226, R324): the state of the change that each leaves, the RESULT,
the staging area, and that a package that fails a load check is refused. -/
def Obligations.ChangeCommands : Prop :=
  ∀ (s : State) (ch : Nat) (r : LapRequest),
    (Decides s ch r →
      let args := r.payload.drop 4
      let gives (c : Instr) (result : Nat) (keep : State → Prop) : Prop :=
        ∃ t, exec c s = .next t ∧ keep t ∧ Answered t r 0x40 0 fun p => field p 2 1 = result
      (∀ p, args.length = 4 → field args 0 4 ≤ 0x4000000 → s.eff = effProg ∨ s.eff = effStop →
        s.chg = chgNone ∨ s.chg = chgLoaded →
        ((s.received ch r).loadFails p = none →
          gives (.commandChgload r p 0) resDone fun t => t.chg = chgLoaded ∧ t.change.package = some p) ∧
        ∀ check, check ≠ 0 ∨ (s.received ch r).loadFails p ≠ none →
          gives (.commandChgload r p check) resRefused fun t => t.chg = chgNone ∧ t.change.package = none) ∧
      (args = [] →
        (s.eff = effProg → s.chg = chgLoaded → s.changeSafe = false →
          gives (.commandChgswitch r) resDone fun t => t.chg = chgPending) ∧
        (s.eff = effProg → s.chg = chgLoaded → s.changeSafe = true → s.keyPos = keyProg →
          gives (.commandChgswitch r) resChallenge fun t => t.chg = chgArmed ∧ ∃ x, t.waitingOf ch = some (x, .switch)) ∧
        (s.eff = effProg ∨ s.eff = effStop → s.chg = chgLoaded →
          gives (.commandChgdiscard r) resDone fun t => t.chg = chgNone ∧ t.change.package = none) ∧
        (s.eff = effProg → s.chg = chgSwitched ∨ s.chg = chgClosed →
          gives (.commandChgcommit r) resDone fun t => t.chg = chgNone ∧ t.change.flash = s.program ∧ t.program = s.program) ∧
        (s.eff = effProg → s.chg = chgSwitched → s.changeSafe = false →
          gives (.commandChgrollback r) resDone fun t => t.chg = chgReverse) ∧
        (s.eff = effRun →
          gives (.commandChgswitch r) resRefused (fun t => t.chg = s.chg) ∧
          gives (.commandChgdiscard r) resRefused (fun t => t.chg = s.chg) ∧
          gives (.commandChgcommit r) resRefused (fun t => t.chg = s.chg) ∧
          gives (.commandChgrollback r) resRefused fun t => t.chg = s.chg))) ∧
    (Admitted s ch 0x41 r → s.standby = false →
      let off := field r.payload 0 4
      let data := r.payload.drop 8
      r.seq = 0 → 9 ≤ r.payload.length → data.length ≤ 1024 → field r.payload 4 4 = 0 → off % 1024 = 0 →
      (s.eff = effRun → ∃ t, exec (.pkgdata r) s = .next t ∧ t.change = s.change ∧ Answered t r 0x41 4 fun p => p = []) ∧
      (s.eff ≠ effRun → s.isSet BRG_CMDEN ⟨ch, 1⟩ = true → s.isSet (MMU_CTX_BASE bridgeCtx) MMU_CTX_BASE_EN = true → off + data.length ≤ stagingSize → s.chg = chgNone ∨ s.chg = chgLoaded →
        ∃ t, exec (.pkgdata r) s = .next t ∧ (Answered t r 0x41 0 fun p => field p 0 1 = itOk) ∧
          (∀ i < data.length, sparseGet (fun _ => 0) t.change.staging (off + i) = data.getD i 0) ∧
          ∀ a, a < off ∨ off + data.length ≤ a →
            sparseGet (fun _ => 0) t.change.staging a = sparseGet (fun _ => 0) s.change.staging a))

/-! ### The rings (09_sopin_ring.md, 10_ring_healing_stations.md) and the queues (13_queues.md) -/

/-- O34. A ring starts and stops (R251, R253, R333): what EN changes, the leader's time-out, and the rounds of a cold start. -/
def Obligations.RingStartsAndStops : Prop :=
  ∀ (s : State) (n : Fin 6),
    (s.fld (SOP_CTRL n) SOP_CTRL_EN ≠ 0 → exec (.ringEnable n) s = .next s) ∧
    (s.fld (SOP_CTRL n) SOP_CTRL_EN = 0 → ∃ t, exec (.ringEnable n) s = .next t ∧ t.fld (SOP_CTRL n) SOP_CTRL_EN = 1 ∧
      (if s.fld BLW_STAGE ⟨8 + n.val, 1⟩ = 0 then t.ringState n = s.ringState n
       else t.ringState n = ringListen ∧ t.fld (SOP_LOOP n) SOP_LOOP_VALID = 0 ∧ t.fld (SOP_STATE n) SOP_STATE_CLEAN = 0)) ∧
    (∃ t, exec (.ringDisable n) s = .next t ∧ t.fld (SOP_CTRL n) SOP_CTRL_EN = 0 ∧ t.ringState n = ringOff ∧
      (∀ west, t.queue (.ring n west) = Queue.reset ∧ t.bankState (.ring n west) 0 = bankEmpty ∧
        t.bankState (.ring n west) 1 = bankEmpty) ∧
      ∀ id, 1 ≤ id → id ≤ 254 → t.sta n id = staAbsent ∨ t.sta n id = staRejected) ∧
    (∃ t, exec (.listenTimeout n) s = .next t ∧
      t.ringState n = if s.ringState n = ringListen ∧ s.ringSends n = true ∧ s.heardZero n = false then ringColdstart else s.ringState n) ∧
    ∀ raw : Int,
      (s.ringState n ≠ ringColdstart → exec (.coldstartRound n raw) s = .next s) ∧
      (s.ringState n = ringColdstart →
        let k := s.ring n
        ((k.roundAt = none ∧ k.starting = none) ∨ (k.roundAt ≠ none ∧ k.foreign = true) → s.ringSends n = true →
          ∃ t a b e w, exec (.coldstartRound n raw) s = .next t ∧ (t.ring n).round = k.round + 1 ∧
            (t.ring n).roundAt.isSome = true ∧ t.outbox = .ring n true a w :: .ring n false b e :: s.outbox ∧
            (ringHeader e).typ = typCstart ∧ (ringHeader w).typ = typCstart) ∧
        (k.roundAt.isSome = true → k.garbled = true → k.foreign = false →
          ∃ t, exec (.coldstartRound n raw) s = .next t ∧ t.ringState n = ringListen) ∧
        ∀ east west e w, k.roundAt = some (east, west) → k.garbled = false → k.foreign = false → k.retE = some e → k.retW = some w →
          ∃ t, exec (.coldstartRound n raw) s = .next t ∧
            t.fld (SOP_STATE n) SOP_STATE_CLEAN = min 3 (s.fld (SOP_STATE n) SOP_STATE_CLEAN + 1) ∧
            (2 ≤ s.fld (SOP_STATE n) SOP_STATE_CLEAN → k.starting = none →
              (t.ring n).starting = some (some (((e - west) + (w - east)) / 2 / unit8).toNat)))

/-- O35. Slots and frames of a running ring (R231, R240, R247, R249, R250): what a slot uses, how an arriving frame is policed, the loop
delay from the returned SYNC, and an accepted input frame in the filling bank. -/
def Obligations.RingFramesAndSlots : Prop :=
  ∀ (s : State) (n : Fin 6), s.ringState n = ringRun →
    (∀ (i : Fin 1024) (skew brake : Int),
      (s.ring n).nslot ≤ i ∨ (s.ring n).slots.any (fun u => u.index == i.val) = true →
        exec (.ringSlotStart n i skew brake) s = .next s) ∧
    (∀ (i : Fin 1024) (skew brake : Int), i.val < (s.ring n).nslot →
      (s.ring n).slots.any (fun u => u.index == i.val) = false →
      let skewed : Prop := i.val = 0 ∧ s.ringSends n = true ∧ s.gUse n < 2 * (skew.natAbs : Int)
      (skewed → ∃ t, exec (.ringSlotStart n i skew brake) s = .next t ∧ t.ringState n = ringHalt) ∧
      (¬ skewed → ∃ t, exec (.ringSlotStart n i skew brake) s = .next t ∧
        ∃ u ∈ (t.ring n).slots, u.index = i ∧ u.typ = s.slotType n i ∧ u.start = s.slotStart n i ∧
          (u.ok = true → (s.slotEnabled n i && s.slotRule n i) = true) ∧
          (s.slotIdts n i = [] → u.ok = (s.slotEnabled n i && s.slotRule n i)))) ∧
    (∀ (west : Bool) (raw : Int) (f : List Byte),
      let h := ringHeader f
      let rel := s.stampIn (2 * n.val + bit west) raw - s.grid s.frameCount
      let known : Bool := h.src == 0 || s.inConsist n h.src
      let window := (s.ring n).slots.find? fun u => s.inWindow n u west rel
      let runs (keep : State → Prop) : Prop := ∃ t, exec (.ringFrameReceived n west raw f) s = .next t ∧ keep t
      (headerValid n f = false → runs fun t => Counted s t (SOP_HDRERR n)) ∧
      (headerValid n f = true →
        (window = none ∨ h.typ = typCstart → known = true ∨ h.typ = typCstart → runs fun t => Counted s t (SOP_OUTWIN n)) ∧
        (window = none → h.typ ≠ typCstart → known = false → runs fun t => Counted s t (SOP_STRCNT n) ∧
          t.fld (SOP_LASTSTR n) SOP_LASTSTR_ID = h.src ∧ t.fld (SOP_STATUS n) SOP_STATUS_STRANGER = 1) ∧
        ∀ u, window = some u → h.typ ≠ typCstart →
          (known = true → s.slotSender n u ≠ some h.src ∨ u.typ ≠ h.typ → runs fun t => Counted s t (SOP_SLOTVIOL n h.src) ∧
            t.fld (SOP_LASTVIOL n) SOP_LASTVIOL_SRC = h.src ∧ t.fld (SOP_STATUS n) SOP_STATUS_VIOL = 1) ∧
          (known = false → s.slotSender n u ≠ some h.src → runs fun t => Counted s t (SOP_STRCNT n)))) ∧
    (s.standby = false →
      (∀ c, s.fld (SOP_BREAK n) SOP_BREAK_VALID = 0 → (s.ring n).broken = false → s.loopSample n = some c →
        ∃ t, exec (.syncReturn n) s = .next t ∧ t.fld (SOP_LOOP n) SOP_LOOP_C = c % 2 ^ SOP_LOOP_C.len ∧
          t.fld (SOP_LOOP n) SOP_LOOP_VALID = 1) ∧
      (s.fld (SOP_BREAK n) SOP_BREAK_VALID ≠ 0 ∨ (s.ring n).broken = true ∨ s.loopSample n = none →
        exec (.syncReturn n) s = .next s)) ∧
    ∀ (west : Bool) (v : State) (p : Packet), s.headPacket (.ring n west) = (v, some p) →
      let h := ringHeader p.data
      (h.typ ≠ slIn → exec (.inFrame n west) s = .next v) ∧
      ∀ u b, h.typ = slIn → h.fcnt = s.fcnt → s.ue = [] →
        ((s.ring n).slots.find? fun u => u.index == h.slot && u.owner == h.src && u.ok) = some u → u.payload = none →
        u.blocks.filter (·.ok) = [b] →
        ∃ t, exec (.inFrame n west) s = .next t ∧
          (∀ j < b.count, t.point (bankBase s.frameCount) b.analog (b.start + j) = blockPoint b (framePayload p.data) j) ∧
          ∀ x ∈ (t.ring n).slots, x.index = h.slot → x.payload = some (framePayload p.data)

/-- O36. Answers of stations that are integrated (R252, R258, R260, R272): the next packet of the port's queue, when it is the answer.
Two copies of an identity record make the station load or reject it; a RESULT other than 0 to SCHED or POSN rejects it; CSCFG sets the
configuration. -/
def Obligations.StationAnswers : Prop :=
  ∀ (s v : State) (n : Fin 6) (west : Bool) (h : RingHeader) (pl : List Byte) (at' : Int),
    let result := ofLe ((pl.drop 2).take 1)
    let rejected (reason : Nat) (t : State) : Prop :=
      t.sta n h.src = staRejected ∧ t.fld (SOP_STA n h.src) SOP_STA_REASON = reason ∧ t.fld (SOP_STATUS n) SOP_STATUS_REJ = 1
    (s.takeAnswer n west slMrsp (some 1) = (v, none) → exec (.identResponse n west) s = .next v) ∧
    (s.takeAnswer n west slClaim none = (v, none) → exec (.claim n west) s = .next v) ∧
    (s.takeAnswer n west slMrsp (some 3) = (v, none) → exec (.schedAck n west) s = .next v) ∧
    (s.takeAnswer n west slMrsp (some 4) = (v, none) → exec (.posnAck n west) s = .next v) ∧
    (s.takeAnswer n west slMrsp (some 8) = (v, none) → exec (.cscfgResponse n west) s = .next v) ∧
    (∀ u x, ((v.ring n).slots.find? fun u => u.index == h.slot) = some u → (if west then u.respE else u.respW) = some x →
      v.sta n h.src = staAbsent ∨ v.sta n h.src = staDropped → v.inConsist n h.src = true →
      let c : Copies := if west then ⟨u.start, some x, some (at', pl)⟩ else ⟨u.start, some (at', pl), some x⟩
      (s.takeAnswer n west slMrsp (some 1) = (v, some (h, pl, at')) → result = 0 →
        let reason := v.identityReason n h.src 8 c
        ∃ t, exec (.identResponse n west) s = .next t ∧
          if reason = 0 then t.sta n h.src = staLoading else rejected reason t) ∧
      (s.takeAnswer n west slClaim none = (v, some (h, pl, at')) →
        let reason := v.identityReason n h.src 0 c
        ∃ t, exec (.claim n west) s = .next t ∧
          if reason = 0 then t.sta n h.src = staLoading ∨ rejected 12 t else rejected reason t)) ∧
    ∀ u, ((v.ring n).slots.find? fun u => u.index == h.slot) = some u → u.payload = none →
      (∀ c : Instr × Nat, c = (.schedAck n west, 3) ∨ c = (.posnAck n west, 4) →
        s.takeAnswer n west slMrsp (some c.2) = (v, some (h, pl, at')) →
        (result ≠ 0 → v.sta n h.src = staLoading ∨ v.sta n h.src = staActive →
          ∃ t, exec c.1 s = .next t ∧ rejected 9 t) ∧
        (result = 0 → ∃ t, exec c.1 s = .next t ∧ t.sta n h.src = v.sta n h.src ∧
          (t.station n h.src).needs = (v.station n h.src).needs - 1 ∧
          ∀ y ∈ (t.ring n).slots, y.index = h.slot → y.payload = some pl)) ∧
      (s.takeAnswer n west slMrsp (some 8) = (v, some (h, pl, at')) → result = 0 →
        ∃ t, exec (.cscfgResponse n west) s = .next t ∧ (t.station n h.src).csidx = v.fld (SOP_CON_W0 n h.src) SOP_CON_W0_CSIDX)

/-- O37. Answers to bridge commands, and the lack of one (R310, R311, R313, R317 to R319): a write that succeeds leaves its stream, one
that fails fences it and enters the failure list; a read completes its fetch; event records end the wait for them. -/
def Obligations.BridgeCommandAnswers : Prop :=
  ∀ (s v : State) (n : Fin 6) (west : Bool) (h : RingHeader) (pl : List Byte) (at' : Int) (u : SlotUse) (x : RemStream),
    let seq := ofLe ((pl.drop 1).take 1)
    let result := ofLe ((pl.drop 2).take 1)
    let answers (cmd : Nat) : Prop :=
      s.takeAnswer n west slMrsp (some cmd) = (v, some (h, pl, at')) ∧
        ((v.ring n).slots.find? fun u => u.index == h.slot) = some u ∧ u.payload = none ∧
        v.answeredStream n h.src cmd seq = some x ∧ v.stream x.channel n h.src = x
    let done (t : State) : Prop :=
      (t.stream x.channel n h.src).work = x.work.drop 1 ∧ (t.stream x.channel n h.src).out = none
    let fails (code : Nat) (b t : State) (ring station : Nat) : Prop :=
      ∃ f, (t.lap x.channel).failures = (b.lap x.channel).failures ++ [f] ∧ f.code = code ∧ f.ring = ring ∧ f.station = station ∧
        (t.stream x.channel ring station).fenced = true ∧ t.fld BRG_STATUS BRG_STATUS_FAIL = 1
    (∀ a l w b item ws, x.work = .write a l w b item :: ws →
      (answers 0x20 →
        (result = 0 → ∃ t, exec (.pwriteResponse n west) s = .next t ∧ done t) ∧
        (result ≠ 0 → x.channel < 16 → (v.lap x.channel).failures.length < 16 →
          ∃ t, exec (.pwriteResponse n west) s = .next t ∧ fails (min result 3) v t n h.src)) ∧
      ∀ (ch : Fin 17) (id : BitVec 8) (q first sends : Nat), s.stream ch n id.toNat = x → x.channel = ch → x.ring = n.val →
        x.station = id.toNat → x.out = some (q, first, sends) →
        (s.frameCount < first + max 4 (s.fld BRG_FARTO BRG_FARTO_FARTO) → exec (.farSideTimeout ch n id) s = .next s) ∧
        (first + max 4 (s.fld BRG_FARTO BRG_FARTO_FARTO) ≤ s.frameCount → ch.val < 16 → (s.lap ch).failures.length < 16 →
          ∃ t, exec (.farSideTimeout ch n id) s = .next t ∧ fails 4 s t n id.toNat)) ∧
    (∀ (ch : Fin 17) (id : BitVec 8), (s.stream ch n id.toNat).out = none → exec (.farSideTimeout ch n id) s = .next s) ∧
    (∀ a c ws, x.work = .read a c :: ws → 1 ≤ c → answers 0x21 →
      ∃ t, exec (.preadResponse n west) s = .next t ∧ done t ∧
        ∀ f, (v.lap x.channel).fetches = [f] → x.channel < 16 → f.ring = n.val → f.station = h.src → f.addr = a →
          f.result = none → f.abandoned = false →
          (t.lap x.channel).fetches = [{ f with result := some (if result = 0 then
            some (BitVec.ofNat 32 (ofLe ((pl.drop 8).take 4))) else none) }]) ∧
    ∀ first ws, x.work = .events first :: ws → answers 0x22 →
      ∃ t, exec (.evtgetResponse n west) s = .next t ∧ done t ∧
        (t.station n h.src).evt = if result = 0 ∧ ofLe ((pl.drop 3).take 1) < 8 then none else (v.station n h.src).evt

/-- O38. Breaks, one-copy patterns, dropped stations and cables (R263, R264, R269, R274, R281): when each is declared, what the
registers show and count, and that nothing happens otherwise. -/
def Obligations.RingHealth : Prop :=
  ∀ (s : State) (n : Fin 6),
    (let breaks : Prop := s.ringState n = ringRun ∧ s.standby = false ∧ s.fld (SOP_BREAK n) SOP_BREAK_VALID = 0 ∧
        1 ≤ (s.ring n).missed ∧ s.syncBoth n = false
     (breaks → ∃ t, exec (.breakDeclare n) s = .next t ∧ t.fld (SOP_BREAK n) SOP_BREAK_VALID = 1 ∧ Counted s t (SOP_BREAKCNT n)) ∧
     (¬ breaks → exec (.breakDeclare n) s = .next s)) ∧
    (let heals : Prop := s.ringState n = ringRun ∧ (s.fld (SOP_BREAK n) SOP_BREAK_VALID ≠ 0 ∨ (s.ring n).broken = true) ∧
        16 ≤ (s.ring n).intact + bit (s.syncBoth n)
     (heals → ∃ t, exec (.breakHeal n) s = .next t ∧ t.fld (SOP_BREAK n) SOP_BREAK_VALID = 0 ∧
       t.fld (SOP_BREAK n) SOP_BREAK_WRAPX = 0 ∧ t.fld (SOP_BREAK n) SOP_BREAK_WRAPY = 0 ∧ (t.ring n).broken = false) ∧
     (¬ heals → exec (.breakHeal n) s = .next s)) ∧
    (let shows : Prop := 16 ≤ (s.ring n).ones ∧ (s.ring n).onesRaised = false
     (shows → ∃ t, exec (.onecopyPattern n) s = .next t ∧ (t.ring n).onesRaised = true) ∧
     (¬ shows → exec (.onecopyPattern n) s = .next s)) ∧
    (∀ id : BitVec 8,
      let drops : Prop := s.sta n id.toNat = staActive ∧
        max 1 (s.fld (SOP_DROPCFG n) SOP_DROPCFG_FRAMES) ≤ (s.station n id.toNat).miss
      (drops → ∃ t, exec (.stationDrop n id) s = .next t ∧ t.sta n id.toNat = staDropped ∧ Counted s t (SOP_DROPCNT n)) ∧
      (¬ drops → exec (.stationDrop n id) s = .next s)) ∧
    ∀ (eStat wStat : BitVec 2) (eLen wLen : BitVec 6), ∃ t, exec (.tdrMeasure n eStat eLen wStat wLen) s = .next t ∧
      t.fld (SOP_TDR n) SOP_TDR_VALID = 1 ∧ t.fld (SOP_TDR n) SOP_TDR_ESTAT = eStat.toNat ∧
      t.fld (SOP_TDR n) SOP_TDR_ELEN = eLen.toNat ∧ t.fld (SOP_TDR n) SOP_TDR_WSTAT = wStat.toNat ∧
      t.fld (SOP_TDR n) SOP_TDR_WLEN = wLen.toNat ∧ (40 < eLen.toNat ∨ 40 < wLen.toNat → t.bellows.cableBad = true)

/-- O39. The queues (R326, R327, R329, R332): a packet's end, a bank handed over by the tail time-out, and a bank drained. -/
def Obligations.QueuePackets : Prop :=
  ∀ (s : State) (q : QueueId),
    (∀ n west size how, q = .ring n west → s.openPacket q = none → exec (.queuePacketEnd q size how) s = .next s) ∧
    (∀ size how, (∀ n west, q ≠ .ring n west) → s.openPacket q = none → s.fillingBank q = none →
      s.bankState q (s.queue q).next = bankEmpty → s.fld (queueCfg q) SOP_QE_CFG_THRESH = 0 →
      let b := (s.queue q).next
      ∃ t, exec (.queuePacketEnd q size how) s = .next t ∧
        ((t.queue q).banks[b]).packets = ((s.queue q).banks[b]).packets ++
          [{ data := [], size := size, start := 0, good := some (decide (how = .good)) }] ∧
        (how ≠ .good → t.fld (queueStatus q) SOP_QE_STATUS_BAD = 1) ∧ (how = .ecc → t.fld (queueStatus q) SOP_QE_STATUS_ECC = 1)) ∧
    (s.fillingBank q = none → exec (.queueTailTimeout q) s = .next s) ∧
    (∀ b, s.fillingBank q = some b →
      ((((s.queue q).banks[b]).packets.any fun p => p.good.isSome) = false → exec (.queueTailTimeout q) s = .next s) ∧
      ((((s.queue q).banks[b]).packets.any fun p => p.good.isSome) = true → ∃ t, exec (.queueTailTimeout q) s = .next t ∧
        t.bankState q b = bankReady ∧ (t.queue q).handed = (s.queue q).handed ++ [b] ∧ Counted s t (queueTout q))) ∧
    ((s.queue q).handed = [] → exec (.queueBankDrained q) s = .next s) ∧
    ∀ b rest, (s.queue q).handed = b :: rest → ((s.queue q).banks[b]).closed = true → (s.queue q).waiting = [] →
      (∀ n west, q = .ring n west → ∀ p ∈ ((s.queue q).banks[b]).packets, p.good = some false) →
      ∃ t, exec (.queueBankDrained q) s = .next t ∧ t.bankState q b = bankEmpty ∧ (t.queue q).handed = rest ∧
        ((t.queue q).banks[b]).packets = []

/-! ### The time base (11_time.md) and the mailboxes (19_mailboxes.md) -/

/-- O40. The clock (R149, R282 to R284, R287, R288): a commanded step is announced or refused, and acts at its tick, at once with one tick
where the clock has then passed a grid instant; a capture shows one instant; the loss of the only source heard. -/
def Obligations.ClockStepsAndCaptures : Prop :=
  ∀ s : State,
    (s.fld TIME_STEPCMD TIME_STEPCMD_GO ≠ 0 → exec .stepCommand s = .next s) ∧
    (s.fld TIME_STEPCMD TIME_STEPCMD_GO = 0 →
      let v := (s.reg TIME_STEPV).toInt
      let refused : Prop := v = 0 ∨ (s.frame.close : Int) * 1000 < 2 * v ∨ 4 * v < -((s.tFrame : Int) * 1000)
      (refused → ∃ t, exec .stepCommand s = .next t ∧ t.fld TIME_STATUS TIME_STATUS_STEPREF = 1 ∧
        t.fld TIME_STEPCMD TIME_STEPCMD_GO = 0 ∧ t.time = s.time) ∧
      (¬ refused → ∃ t, exec .stepCommand s = .next t ∧ t.fld TIME_STEPCMD TIME_STEPCMD_GO = 1 ∧
        t.fld TIME_STATUS TIME_STATUS_STEPPEND = 1 ∧ t.time = { s.time with step := some (v, s.frameCount + 3) })) ∧
    (s.time.step = none → exec .stepAct s = .next s) ∧
    (∀ v f, s.time.step = some (v, f) →
      (s.frameCount < f → exec .stepAct s = .next s) ∧
      let clock := ((s.time.clock : Int) + v * 65536).toNat
      (f ≤ s.frameCount → s.fld FRM_CTRL FRM_CTRL_RUN ≠ 0 → clock ≠ s.time.clock → s.grid s.frame.nextTick ≤ clock →
        ∃ t, exec .stepAct s = .next t ∧ s.frame.nextTick < t.frame.nextTick) ∧
      (f ≤ s.frameCount → s.fld FRM_CTRL FRM_CTRL_RUN = 0 ∨ clock < s.grid s.frame.nextTick →
        ∃ t, exec .stepAct s = .next t ∧ t.time.step = none ∧ t.time.clock = clock ∧ t.time.corr = s.time.corr + v * 65536 ∧
        Counted s t TIME_STEPCNT ∧ t.fld TIME_STATUS TIME_STATUS_STEPDONE = 1 ∧ t.fld TIME_STATUS TIME_STATUS_STEPPEND = 0 ∧
        t.fld TIME_STEPCMD TIME_STEPCMD_GO = 0)) ∧
    (∃ t x, exec .clockCapture s = .next t ∧
      let k := s.time.clock + x
      t.reg TIME_CFRAC = BitVec.ofNat 32 (k % 65536) ∧ t.reg TIME_CNS = BitVec.ofNat 32 (k / 65536 % 1000000000) ∧
        t.reg TIME_CSECL = BitVec.ofNat 32 (k / 65536000000000) ∧
        t.reg TIME_CSECH = BitVec.ofNat 32 (k / 65536000000000 / 0x100000000 % 65536)) ∧
    let alone : Prop := ∀ p < 4, ∀ e ∈ (s.ptpPort p).masters, ∃ m, s.parent = some m ∧ s.slavePort = some p ∧ sameSender e.1 m = true
    alone → ∃ t, exec .ptpSourceLoss s = .next t ∧
      (s.timeState = tsLocked → t.timeState = tsHoldover ∧ t.fld TIME_STATUS TIME_STATUS_LOCKLOSS = 1 ∧ Counted s t TIME_LOSSCNT ∧
        t.time.slewLeft = 0) ∧
      (s.timeState = tsAcquiring → t.timeState = tsFree ∧ t.reg TIME_RATE = 0) ∧
      (s.timeState = tsFree ∨ s.timeState = tsHoldover → t.timeState = s.timeState)

/-- O41. PTP on the backbone ports (R284, R286, R289, R294, R511): a Sync of the followed source gives the offset and may step the clock, an Announce is heard, requests
are answered, and a port sends what its role allows. -/
def Obligations.PtpMessages : Prop :=
  ∀ (s : State) (p : Fin 4) (domain : Nat),
    let used : Prop := p.val ∈ s.ptpPorts
    let stamped (raw : Int) : Int := s.stampIn (12 + p.val) raw
    (s.portOn p = false → (∀ a b o r, exec (.ptpSync p domain a b o r) s = .next s) ∧
      ∀ m, exec (.ptpMessage p domain m) s = .next s) ∧
    (s.portOn p = true →
      (∀ a b o r, s.fld TIME_CTRL TIME_CTRL_SRC = 0 →
        ∃ t, exec (.ptpSync p domain a b o r) s = .next t ∧ t.timeState = tsFree ∧ Counted s t (BKB_RXPKT p)) ∧
      (∀ m origin raw, s.fld TIME_CTRL TIME_CTRL_SRC ≠ 0 → s.slavePort = some p.val → domain = s.ptpDomain → s.parent = some m →
        let offset := stamped raw - origin - (s.ptpPort p).pathDelay
        (s.time.stepped = false → s.fld TIME_CTRL TIME_CTRL_AUTOSTEP = 0 ∨ s.fld FRM_CTRL FRM_CTRL_RUN = 0 →
          ∃ t, exec (.ptpSync p domain m.sender m.senderPort origin raw) s = .next t ∧
            t.reg TIME_OFFS = satWord (offset / 65536) ∧ t.reg TIME_GMIDL = BitVec.ofNat 32 m.identity ∧
            (s.mayStep = true → s.stepThreshold < offset.natAbs → t.time.clock = ((s.time.clock : Int) - offset).toNat ∧
              t.time.corr = s.time.corr - offset)) ∧
        (s.time.stepped = true → ∃ t, exec (.ptpSync p domain m.sender m.senderPort origin raw) s = .next t ∧
          t.time.stepped = false ∧ t.reg TIME_OFFS = s.reg TIME_OFFS)) ∧
      (¬ used ∨ domain ≠ s.ptpDomain → ∀ m, ∃ t, exec (.ptpMessage p domain m) s = .next t ∧ AgreeBut [.regs] s t) ∧
      (used → domain = s.ptpDomain →
        (∀ m, ∃ t, exec (.ptpMessage p domain (.announce m)) s = .next t ∧
          (t.ptpPort p).masters.head? = some (m, (((s.ptpPort p).masters.find? fun e => sameSender e.1 m).elim 0 (·.2)) + 1)) ∧
        (∀ r rp q raw, (s.ptpPort p).role = .master → s.peerToPeer p = false →
          ∃ t, exec (.ptpMessage p domain (.delayReq r rp q raw)) s = .next t ∧
            t.outbox.head? = some (.ptp p domain (bitAt (s.fld TIME_PTPCFG TIME_PTPCFG_UDP) p) (.delayResp r rp q (clampNat 0 5 (s.fld TIME_PTPINT TIME_PTPINT_LOGMINDELAY) : Nat)
                (stamped raw)))) ∧
        (∀ r rp q raw sent, s.peerToPeer p = true →
          ∃ t, exec (.ptpMessage p domain (.pdelayReq r rp q raw sent)) s = .next t ∧
            t.outbox.head? = some (.ptp p domain (bitAt (s.fld TIME_PTPCFG TIME_PTPCFG_UDP) p)
              (.pdelayResp r rp q (stamped raw) (s.stampOut (12 + p.val) sent)))) ∧
        (∀ t2 t3 raw t1, s.peerToPeer p = true → (s.ptpPort p).asked = some t1 →
          ∃ t, exec (.ptpMessage p domain (.pdelayResp t2 t3 raw)) s = .next t ∧
            (t.ptpPort p).pathDelay = ((stamped raw - t1) - (t3 - t2)) / 2 ∧ (t.ptpPort p).asked = none)) ∧
      ∀ raw, used →
        ((s.ptpPort p).role = .master → ∃ t m, exec (.ptpMessageSend p .sync raw) s = .next t ∧
          t.outbox = .ptp p s.ptpDomain (bitAt (s.fld TIME_PTPCFG TIME_PTPCFG_UDP) p) m :: s.outbox ∧
          (t.ptpPort p).seq = (s.ptpPort p).seq + 1) ∧
        ((s.ptpPort p).role = .slave → s.peerToPeer p = false →
          ∃ t, exec (.ptpMessageSend p .delayReq raw) s = .next t ∧ (t.ptpPort p).asked = some (s.stampOut (12 + p.val) raw)))

/-- O42. Mailbox commands (R425 to R431, R437): who may issue each in which state and what it leaves; the code of each refusal, which
changes no state of a channel. -/
def Obligations.MailboxCommands : Prop :=
  ∀ (s : State) (who : Initiator) (c : Fin 32),
    let id := identityOf who
    let done (i : Instr) (st : Nat) (keep : State → Prop) : Prop := ∃ t, exec i s = .next t ∧ t.mbxState c = st ∧ keep t
    let refused (i : Instr) (code : Nat) : Prop :=
      done i (s.mbxState c) fun t => t.fld (MBX_CH_STAT c) MBX_CH_STAT_LASTERR = code ∧ Counted s t MBX_DENY ∧
        t.fld MBX_STATUS MBX_STATUS_DENY = 1
    let sends : Prop := s.standby = false ∧ id = some (s.mbxSender c) ∧ s.mbxEnabled c = true
    let receives : Prop := s.standby = false ∧ id = some (s.mbxReceiver c) ∧ s.mbxEnabled c = true
    (∀ (len : BitVec 4) (mtype : BitVec 16), sends →
      (s.mbxState c = mbxEmpty → len.toNat ≤ 12 → done (.mbxPost who c len mtype) mbxPosted fun t =>
        t.fld (MBX_CH_HDR c) MBX_CH_HDR_LEN = len.toNat ∧ t.fld (MBX_CH_HDR c) MBX_CH_HDR_MTYPE = mtype.toNat ∧
          t.fld (MBX_CH_HDR c) MBX_CH_HDR_REDELIVERED = 0 ∧ (t.reg MBX_RXPEND).getLsbD c = decide (s.mbxReceiver c < 12)) ∧
      (s.mbxState c = mbxEmpty → 12 < len.toNat → refused (.mbxPost who c len mtype) 3) ∧
      (s.mbxState c ≠ mbxEmpty → refused (.mbxPost who c len mtype) 2)) ∧
    (receives →
      (s.mbxState c = mbxPosted → done (.mbxTake who c) mbxTaken fun t => (t.reg MBX_RXPEND).getLsbD c = false) ∧
      (s.mbxState c ≠ mbxPosted → refused (.mbxTake who c) 2) ∧
      (∀ rcode, s.mbxState c = mbxTaken → done (.mbxAck who c rcode) mbxAcked fun t =>
        t.fld (MBX_CH_ACK c) MBX_CH_ACK_RCODE = rcode.toNat ∧ (t.reg MBX_ACKPEND).getLsbD c = decide (s.mbxSender c < 12)) ∧
      (∀ rcode, s.mbxState c ≠ mbxTaken → refused (.mbxAck who c rcode) 2)) ∧
    (sends →
      (s.mbxState c = mbxAcked → done (.mbxDone who c) mbxEmpty fun t => (t.reg MBX_ACKPEND).getLsbD c = false) ∧
      (s.mbxState c ≠ mbxAcked → refused (.mbxDone who c) 2) ∧
      (s.mbxState c = mbxPosted → done (.mbxWithdraw who c) mbxEmpty fun t => (t.reg MBX_RXPEND).getLsbD c = false) ∧
      (s.mbxState c ≠ mbxPosted → refused (.mbxWithdraw who c) 2)) ∧
    (s.standby = true → refused (.mbxTake who c) 6 ∧ refused (.mbxDone who c) 6) ∧
    (s.standby = false → id ≠ some (s.mbxReceiver c) → refused (.mbxTake who c) 1) ∧
    (s.standby = false → id = some (s.mbxReceiver c) → s.mbxEnabled c = false → refused (.mbxTake who c) 4) ∧
    (∀ v : Word,
      let runtime : Prop := isCoreId id = true ∨ id = some 0x20
      let same : Prop := MBX_BIND_SENDER.get v = s.mbxSender c ∧ MBX_BIND_RECEIVER.get v = s.mbxReceiver c
      (¬ runtime → refused (.mbxBindWrite who c v) 1) ∧
      (runtime → same ∨ s.mbxState c = mbxEmpty → done (.mbxBindWrite who c v) (s.mbxState c) fun t =>
        t.reg (MBX_BIND c) = v &&& 0x8000FFFF) ∧
      (runtime → ¬ same → s.mbxState c ≠ mbxEmpty → refused (.mbxBindWrite who c v) 5)) ∧
    ∀ cores : BitVec 12,
      (isCoreId id = false → ∃ t, exec (.mbxEprst who cores) s = .next t ∧ Counted s t MBX_DENY ∧ t.cores = s.cores) ∧
      (isCoreId id = true → ∃ t, exec (.mbxEprst who cores) s = .next t ∧
        (s.mbxReceiver c < 12 → cores.getLsbD (s.mbxReceiver c) = true → s.mbxState c = mbxTaken →
          t.mbxState c = mbxPosted ∧ t.fld (MBX_CH_HDR c) MBX_CH_HDR_REDELIVERED = 1) ∧
        (s.mbxState c ≠ mbxTaken → t.mbxState c = s.mbxState c) ∧
        (s.mbxSender c < 12 → cores.getLsbD (s.mbxSender c) = true →
          t.fld (MBX_CH_STAT c) MBX_CH_STAT_SENDER_RESTARTED = 1))

/-! ### LAP: sessions and requests (12_bridge_lap.md) -/

/-- O43. The checks before a request is served (R296, R298, R299, R302, R401, R511): a disabled port delivers nothing, LAP must be accepted on the
port and the bridge enabled, at most 1,424 bytes long, the MAC right, the datagram counter above the last one, the header well formed; a standby serves
only some requests; and a SID that names no session is answered once per second. That a request is discarded uncounted while
EN is 0, and in a half-open session, is the model's (log entries 60 and 61). -/
def Obligations.RequestChecks : Prop :=
  ∀ (s : State) (r : LapRequest),
    let u := if r.via.val < 4 then s.bump (BKB_RXPKT r.via.val) else s
    let sessions (c : Instr) (op : Nat) : Prop :=
      (s.portOn r.via.val = false → exec c s = .next s) ∧
      (s.portOn r.via.val = true → s.lapPort r.via = false ∨ 1424 < r.payload.length → exec c s = .next (u.bump BRG_MALF)) ∧
      (s.portOn r.via.val = true → s.lapAccepts r = true → s.isSet BRG_CTRL BRG_CTRL_EN = false → exec c s = .next u) ∧
      (s.portOn r.via.val = true → s.lapAccepts r = true → s.isSet BRG_CTRL BRG_CTRL_EN = true →
        s.openChannel r.sid.toNat = none → s.halfChannel r.sid.toNat = none →
        ((∃ x ∈ s.bridge.unknown, x.1 = r.peer ∧ s.time.clock < x.2 + 65536 * 1000000000) → exec c s = .next (u.bump BRG_MALF)) ∧
        ((∀ x ∈ s.bridge.unknown, x.1 = r.peer → x.2 + 65536 * 1000000000 ≤ s.time.clock) →
          ∃ t, exec c s = .next t ∧ Counted s t BRG_MALF ∧ (r.peer, s.time.clock) ∈ t.bridge.unknown ∧
            Answered t r op 2 fun p => p = []))
    (∀ op : BitVec 8, s.openChannel r.sid.toNat = none → s.halfChannel r.sid.toNat = none →
      sessions (.unknownSession op r) (op.toNat % 128)) ∧
    ∀ (c : Instr) (op : Nat) (both : Bool), requestOf c = some (r, op, both) →
      sessions c op ∧
      ∀ ch h, s.portOn r.via.val = true → s.lapAccepts r = true → s.isSet BRG_CTRL BRG_CTRL_EN = true →
        ((s.openChannel r.sid.toNat = some ch ∧ lapMacOk r op (s.lap ch).key = false) ∨
          (s.openChannel r.sid.toNat = none ∧ s.halfChannel r.sid.toNat = some (ch, h) ∧ lapMacOk r op h.key = false) →
          ∃ t, exec c s = .next t ∧ Counted s t BRG_MACERR ∧ t.fld BRG_STATUS BRG_STATUS_MAC = 1 ∧
            t.bridge = s.bridge ∧ t.outbox = s.outbox) ∧
        (s.openChannel r.sid.toNat = none → s.halfChannel r.sid.toNat = some (ch, h) → lapMacOk r op h.key = true →
          exec c s = .next u) ∧
        (s.openChannel r.sid.toNat = some ch → lapMacOk r op (s.lap ch).key = true →
          (r.dcnt.toNat ≤ (s.lap ch).rxCount → exec c s = .next (u.bump BRG_REPLAY)) ∧
          ((s.lap ch).rxCount < r.dcnt.toNat →
            (s.standby = true → both = false → ∃ t, exec c s = .next t ∧ (Answered t r op 4 fun p => p = []) ∧
              AgreeBut [.regs, .bridge, .outbox] s t) ∧
            (s.standby = false ∨ both = true → lapHeaderOk r = false → ∃ t, exec c s = .next t ∧ (Answered t r op 3 fun p => p = []) ∧
              AgreeBut [.regs, .bridge, .outbox] s t)))

/-- O44. Sessions begin and end (R300, R301, R333): HELLO leaves a half-open session, a valid KEYX opens it and ends an older one,
and CLOSE, the time-outs and a disabled bridge end them. KEEPALIVE changes nothing but counters. The SID and the bytes of the
module's answer are free values. That the older session ends only at KEYX is the model's (log entry 62). -/
def Obligations.Sessions : Prop :=
  ∀ s : State,
    (∀ r : LapRequest, s.portOn r.via.val = true → s.lapAccepts r = true → s.isSet BRG_CTRL BRG_CTRL_EN = true →
      let ch := field r.payload 0 1
      let form : Prop := lapHeaderOk r = true ∧ r.sid = 0 ∧ r.dcnt = 0 ∧ r.payload.length = 84 ∧ field r.payload 1 3 = 0 ∧ ch < 16
      (form → ∃ t h d, exec (.hello r) s = .next t ∧ (t.lap ch).half = some h ∧ h.peer = r.peer ∧ h.via = r.via.val ∧
        t.sessionState ch = max 1 (s.sessionState ch) ∧ t.outbox.head? = some (.lap r.via.val r.peer d) ∧ d.op = 0x81 ∧
        d.sid = h.sid ∧ d.dcnt = 1 ∧ d.status = 0 ∧ d.payload.length = 148 ∧ field d.payload 144 4 = s.wayNext ch) ∧
      (¬ form → ∃ t, exec (.hello r) s = .next t ∧ t.bridge = s.bridge ∧ Answered t r 1 3 fun p => p = []) ∧
      ∀ c h, s.halfChannel r.sid.toNat = some (c, h) →
        (∀ sig, lapMacOk r 2 h.key = false → ∃ t, exec (.keyx r sig) s = .next t ∧ Counted s t BRG_MACERR ∧ t.bridge = s.bridge) ∧
        (lapMacOk r 2 h.key = true → r.dcnt = 1 → lapHeaderOk r = true → r.payload.length = 64 →
          (∃ t, exec (.keyx r false) s = .next t ∧ (t.lap c).half = none ∧ t.sessionState c ≠ 1 ∧ t.outbox = s.outbox) ∧
          ∃ t, exec (.keyx r true) s = .next t ∧ t.sessionState c = 2 ∧ (t.lap c).half = none ∧ (t.lap c).sid = h.sid ∧ (t.lap c).key = h.key ∧
            (t.lap c).rxCount = r.dcnt.toNat ∧ (s.sessionState c = 2 → (t.lap c).subs = [] ∧ (t.lap c).answered = []) ∧
            Answered t r 2 0 fun p => p = [])) ∧
    (∀ ch r,
      (Admitted s ch 4 r →
        (r.payload = [] → ∃ t, exec (.keepalive r) s = .next t ∧ Answered t r 4 0 fun p => p = []) ∧
        (r.payload ≠ [] → ∃ t, exec (.keepalive r) s = .next t ∧ Answered t r 4 3 fun p => p = [])) ∧
      (Admitted s ch 3 r → s.standby = false →
        (r.payload = [] → ∃ t, exec (.lapClose r) s = .next t ∧ (Answered t r 3 0 fun p => p = []) ∧
          t.sessionState ch = bit (s.lap ch).half.isSome ∧ (t.lap ch).subs = [] ∧ (t.lap ch).notes = [] ∧ t.waitingOf ch = none) ∧
        (r.payload ≠ [] → ∃ t, exec (.lapClose r) s = .next t ∧ (Answered t r 3 3 fun p => p = []) ∧ t.sessionState ch = 2)) ∧
      ∀ op : BitVec 8, op.toNat ∉ lapOps → Admitted s ch (op.toNat % 128) r → s.standby = false →
        ∃ t, exec (.lapReservedOp op r) s = .next t ∧ (Answered t r (op.toNat % 128) 3 fun p => p = []) ∧
          AgreeBut [.regs, .bridge, .outbox] s t) ∧
    (∀ ch : Fin 16,
      (s.sessionState ch = 2 → ∃ t, exec (.sessionTimeout ch) s = .next t ∧ t.sessionState ch = bit (s.lap ch).half.isSome ∧
        (t.lap ch).subs = [] ∧ (t.lap ch).notes = [] ∧ t.waitingOf ch = none ∧ ∀ f ∈ (t.lap ch).fetches, f.abandoned = true) ∧
      (s.sessionState ch ≠ 2 → exec (.sessionTimeout ch) s = .next s) ∧
      ((s.lap ch).half.isSome = true → ∃ t, exec (.halfOpenTimeout ch) s = .next t ∧ (t.lap ch).half = none ∧ t.sessionState ch ≠ 1) ∧
      ((s.lap ch).half = none → exec (.halfOpenTimeout ch) s = .next s)) ∧
    ∃ t, exec .bridgeDisable s = .next t ∧ t.isSet BRG_CTRL BRG_CTRL_EN = false ∧
      ∀ ch < 16, t.sessionState ch = 0 ∧ (t.lap ch).half = none

/-- O45. A READ (R33, R138, R304, R306, R308, R312, R313): one item of 8 bytes for each index, with the value, the tag and the item status
that its entry gives; an image signal is read through the bridge's context. That an index above 16,383 makes the request malformed,
and the address that the context translates, are the model's (log entries 144 and 137). -/
def Obligations.SignalReads : Prop :=
  ∀ (s : State) (ch : Nat) (r : LapRequest), Admitted s ch 0x10 r →
    let pl := r.payload
    let n := pl.length / 2
    let form : Prop := pl.length % 2 = 0 ∧ 1 ≤ n ∧ n ≤ 178 ∧ ∀ i < n, field pl (2 * i) 2 < 16384
    (∀ ue, ¬ form → ∃ t, exec (.lapRead r ue) s = .next t ∧ Answered t r 0x10 3 fun p => p = []) ∧
    (∀ ue, form → ∃ t, exec (.lapRead r ue) s = .next t ∧ Answered t r 0x10 0 fun p => p.length = 8 * n) ∧
    (pl.length = 2 → field pl 0 2 < 16384 →
      let i := field pl 0 2
      let g := s.signal i
      let u := s.received ch r
      let gives (ue : List Nat) (value tag status : Nat) (keep : State → Prop) : Prop :=
        ∃ t, exec (.lapRead r ue) s = .next t ∧ keep t ∧ Answered t r 0x10 0 fun p =>
          field p 0 4 = value ∧ field p 4 1 = tag ∧ field p 5 1 = status
      (gives [i] 0 0 itNotMapped fun t => t.fld SMAP_STATUS SMAP_STATUS_UE = 1 ∧ Counted s t SMAP_BAD) ∧
      (s.signalEnabled i = false → gives [] 0 0 itNotMapped fun _ => True) ∧
      (s.signalEnabled i = true → s.signalGood i = false → gives [] 0 0 itNotMapped fun t =>
        t.fld SMAP_STATUS SMAP_STATUS_CFG_SKEW = 1 ∧ Counted s t SMAP_BAD ∧ t.reg SMAP_LAST = BitVec.ofNat 32 i) ∧
      (s.signalEnabled i = true → s.signalGood i = true →
        (g.dir = 1 → gives [] 0 0 itAccess fun _ => True) ∧
        (g.dir ≠ 1 → g.kind ≠ kindRem → ∀ v p,
          u.bridgePoint (if g.src then pubBase else bankBase (s.frameCount + 1)) (g.kind == kindAna) g.index = (v, some (some p)) →
          gives [] (g.toHost p.value p.tag).1.toNat ((g.toHost p.value p.tag).2 % 256) itOk fun t => t.mem = v.mem) ∧
        (g.dir ≠ 1 → g.kind ≠ kindRem → ∀ v,
          (u.bridgePoint (if g.src then pubBase else bankBase (s.frameCount + 1)) (g.kind == kindAna) g.index = (v, some none) →
            gives [] 0 0 itUnreadable fun _ => True) ∧
          (u.bridgePoint (if g.src then pubBase else bankBase (s.frameCount + 1)) (g.kind == kindAna) g.index = (v, none) →
            gives [] 0 0 itAccess fun _ => True)) ∧
        (g.dir ≠ 1 → g.kind = kindRem →
          (∀ o ∈ s.bridge.orphans, ¬ (o.channel = ch ∧ o.ring = g.ring ∧ o.station = g.station ∧ o.addr = g.index)) →
          (∀ f ∈ (s.lap ch).fetches, ¬ (f.ring = g.ring ∧ f.station = g.station ∧ f.addr = g.index)) →
          (∀ c ∈ s.bridge.cache, ¬ (c.1 = g.ring ∧ c.2.1 = g.station ∧ c.2.2.1 = g.index)) →
          (s.sta g.ring g.station ≠ staActive → gives [] 0 (tagS + tagE) itStation fun t => (t.lap ch).fetches = (s.lap ch).fetches) ∧
          (s.sta g.ring g.station = staActive → gives [] 0 0 itPending fun t =>
            ∃ f ∈ (t.lap ch).fetches, f.ring = g.ring ∧ f.station = g.station ∧ f.addr = g.index ∧ f.result = none))))

/-- O46. A WRITE of one item (R33, R138, R299, R304, R307, R309, R316, R411, R412): a PLAIN item is applied to the bank being filled, through
the bridge's context, a COMMITTED one enters the journal at its SEQ. The address that the context translates is the model's (log
entry 137). -/
def Obligations.SignalWrites : Prop :=
  ∀ (s : State) (ch : Nat) (r : LapRequest), Admitted s ch 0x11 r → s.standby = false →
    let pl := r.payload
    let cls := field pl 0 1
    let i := field pl 4 4
    let w := BitVec.ofNat 32 (field pl 8 4)
    let g := s.signal i
    let u := s.received ch r
    let gives (status : Nat) (keep : State → Prop) : Prop :=
      ∃ t, exec (.lapWrite r []) s = .next t ∧ keep t ∧ Answered t r 0x11 0 fun p => p = [BitVec.ofNat 8 status, 0, 0, 0]
    (pl.length < 12 ∨ pl.length % 8 ≠ 4 ∨ 1 < cls ∨ field pl 1 3 ≠ 0 →
      ∃ t, exec (.lapWrite r []) s = .next t ∧ (Answered t r 0x11 3 fun p => p = []) ∧ AgreeBut [.regs, .bridge, .outbox] s t) ∧
    (pl.length = 12 → field pl 1 3 = 0 → i < 16384 →
      (cls = 0 →
        (s.signalEnabled i = false → gives itNotMapped fun t => t.mem = s.mem) ∧
        (s.signalEnabled i = true → s.signalGood i = true →
          (g.dir = 0 ∨ g.cmt = true → gives itAccess fun t => t.mem = s.mem) ∧
          (g.dir ≠ 0 → g.cmt = false → g.kind ≠ kindRem → s.isHostCell (g.kind == kindAna) g.index = true →
            (g.toField w = none → gives itRange fun t => t.mem = s.mem) ∧
            (∀ v, g.toField w = some v → 1024 ≤ s.bridge.writes → gives itBusy fun t => t.mem = s.mem) ∧
            (∀ v x, g.toField w = some v → s.bridge.writes < 1024 →
              u.bridgePoint (bankBase s.frameCount) (g.kind == kindAna) g.index = (x, none) → gives itAccess fun t => t.mem = s.mem) ∧
            (∀ v x p y, g.toField w = some v → s.bridge.writes < 1024 →
              u.bridgePoint (bankBase s.frameCount) (g.kind == kindAna) g.index = (x, some (some p)) →
              x.unitAddr bridgeCtx .store (cellAddr (bankBase s.frameCount) (g.kind == kindAna) g.index) =
                (y, some (cellAddr (bankBase s.frameCount) (g.kind == kindAna) g.index)) → gives itOk fun t =>
                t.point (bankBase s.frameCount) (g.kind == kindAna) g.index =
                  { value := if g.kind = kindAna then ((⟨g.lsb, g.width⟩ : Field).put v (BitVec.ofNat 32 p.value)).toNat else v,
                    tag := 0 } ∧ t.bridge.writes = s.bridge.writes + 1)) ∧
          (g.dir ≠ 0 → g.cmt = false → g.kind = kindRem → ∀ v, g.toField w = some v →
            (s.isFenced ch g.ring g.station = true → gives itFenced fun t => t.bridge.streams = s.bridge.streams) ∧
            (s.isFenced ch g.ring g.station = false → s.sta g.ring g.station = staActive → gives itOk fun t =>
              (t.stream ch g.ring g.station).work = (s.stream ch g.ring g.station).work ++ [remoteWork g v none])))) ∧
      (cls = 1 →
        let back := (BitVec.ofNat 32 (s.wayNext ch) - r.seq).toNat
        (s.isSet WAY_STATUS WAY_STATUS_REPLAY = true → gives itBusy fun t => t.wayNext ch = s.wayNext ch) ∧
        (s.isSet WAY_STATUS WAY_STATUS_REPLAY = false → s.quietFrame = false →
          (65536 < back → ∃ t, exec (.lapWrite r []) s = .next t ∧ Answered t r 0x11 3 fun p => p = []) ∧
          (0 < back → back ≤ 65536 → gives itDuplicate fun t => Counted s t WAY_DUPCNT ∧ t.mem = s.mem ∧ t.wayNext ch = s.wayNext ch) ∧
          (back = 0 → s.signalEnabled i = true → s.signalGood i = true → g.dir ≠ 0 →
            (g.kind ≠ kindRem → s.isHostCell (g.kind == kindAna) g.index = true) →
            (g.kind = kindRem → s.isFenced ch g.ring g.station = false) → ∀ v, g.toField w = some v → ∀ x,
            u.journalItem wayWrite ch r.seq.toNat i w.toNat (leBytes 4 i ++ leBytes 4 w.toNat) (g.kind == kindRem) = some x →
            gives itOk fun t => t.wayNext ch = (s.wayNext ch + 1) % 0x100000000 ∧ Counted s t WAY_ACCCNT ∧
              ∃ e ∈ t.bridge.entries, e.kind = wayWrite ∧ e.stream = ch ∧ e.seq = r.seq.toNat ∧ e.key = i ∧ e.key2 = w.toNat))))

/-- O47. Covered work of one request (R411, R412, R416, R435, R436): a job, and a mailbox message of a host, enter the journal at their SEQ;
the other mailbox functions act at once. -/
def Obligations.JobsAndMessages : Prop :=
  ∀ (s : State) (ch : Nat) (r : LapRequest), s.standby = false →
    let pl := r.payload
    let u := s.received ch r
    let open' : Prop := s.isSet WAY_STATUS WAY_STATUS_REPLAY = false ∧ s.quietFrame = false ∧ r.seq.toNat = s.wayNext ch
    let entered (t : State) (kind key key2 : Nat) (bytes : List Byte) : Prop :=
      t.wayNext ch = (s.wayNext ch + 1) % 0x100000000 ∧ Counted s t WAY_ACCCNT ∧ ∃ e ∈ t.bridge.entries,
        e.kind = kind ∧ e.stream = ch ∧ e.seq = r.seq.toNat ∧ e.key = key ∧ e.key2 = key2 ∧ e.payload = bytes ∧ e.state = wayAcc
    let q := field pl 0 1
    let job (status : Nat) (keep : State → Prop) : Prop :=
      ∃ t, exec (.job r) s = .next t ∧ keep t ∧ Answered t r 0x20 0 fun p => p = [BitVec.ofNat 8 status, 0, 0, 0]
    let c := field pl 1 1
    let answers (i : Instr) (status : Nat) (keep : State → Prop) : Prop :=
      ∃ t, exec i s = .next t ∧ keep t ∧ Answered t r 0x21 0 fun p =>
        p.length = 16 ∧ field p 0 4 = status ∧ (c < 32 → field p 8 1 = t.mbxState c)
    (Admitted s ch 0x20 r → pl.length < 4 ∨ 16 ≤ q ∨ c = 0 ∨ field pl 2 2 ≠ 0 → ∃ t, exec (.job r) s = .next t ∧
      (Answered t r 0x20 3 fun p => p = []) ∧ AgreeBut [.regs, .bridge, .outbox] s t) ∧
    (Admitted s ch 0x20 r → pl.length = 8 + 4 * field pl 4 2 → field pl 6 2 = 0 → q < 16 → c = 1 → field pl 2 2 = 0 → open' →
      (s.jqGood q = false → job itAccess fun t => t.wayNext ch = s.wayNext ch ∧ t.bridge.entries = s.bridge.entries) ∧
      (s.jqGood q = true → s.jqWords q < field pl 4 2 + 3 → job itRange fun t => t.wayNext ch = s.wayNext ch) ∧
      (s.jqGood q = true → field pl 4 2 + 3 ≤ s.jqWords q →
        (u.journalItem wayJob ch r.seq.toNat (s.queueNext q) q (pl.drop 8) = none → job itBusy fun t =>
          Counted s t WAY_BUSYCNT ∧ t.wayNext ch = s.wayNext ch) ∧
        ∀ x, u.journalItem wayJob ch r.seq.toNat (s.queueNext q) q (pl.drop 8) = some x → job itOk fun t =>
          entered t wayJob (s.queueNext q) q (pl.drop 8) ∧ t.reg (WAY_JQ_QNEXT q) = s.reg (WAY_JQ_QNEXT q) + 1)) ∧
    (Admitted s ch 0x21 r → pl.length = 8 + 4 * field pl 6 1 → field pl 2 2 = 0 → field pl 7 1 = 0 → field pl 6 1 ≤ 12 → open' →
      (s.mbxOfLap ch c = false → answers (.mbxpostPost r) itAccess fun t => t.wayNext ch = s.wayNext ch) ∧
      (s.mbxOfLap ch c = true → ∀ x, u.journalItem wayMbx ch r.seq.toNat c 0 (pl.drop 4) = some x →
        answers (.mbxpostPost r) itOk fun t => entered t wayMbx c 0 (pl.drop 4) ∧ t.mbxState c = s.mbxState c)) ∧
    (Admitted s ch 0x21 r → pl.length < 8 → ∃ t, exec (.mbxpostPost r) s = .next t ∧ Answered t r 0x21 3 fun p => p = []) ∧
    (Admitted s ch 0x21 r → pl.length ≠ 4 ∨ field pl 2 2 ≠ 0 → ∀ i ∈ [Instr.mbxpostStatus r, .mbxpostDone r, .mbxpostWithdraw r],
      ∃ t, exec i s = .next t ∧ (Answered t r 0x21 3 fun p => p = []) ∧ AgreeBut [.regs, .bridge, .outbox] s t) ∧
    (Admitted s ch 0x21 r → pl.length = 4 → field pl 2 2 = 0 →
      (s.mbxOfLap ch c = false → ∀ i ∈ [Instr.mbxpostStatus r, .mbxpostDone r, .mbxpostWithdraw r],
        answers i itAccess fun t => AgreeBut [.regs, .bridge, .outbox] s t) ∧
      (s.mbxOfLap ch c = true →
        (answers (.mbxpostStatus r) itOk fun t => AgreeBut [.regs, .bridge, .outbox] s t) ∧
        (s.mbxState c = mbxAcked → answers (.mbxpostDone r) itOk fun t => t.mbxState c = mbxEmpty) ∧
        (s.mbxState c ≠ mbxAcked → answers (.mbxpostDone r) itAccess fun t => t.mbxState c = s.mbxState c) ∧
        (s.mbxState c = mbxPosted → answers (.mbxpostWithdraw r) itOk fun t => t.mbxState c = mbxEmpty) ∧
        (s.mbxState c ≠ mbxPosted → answers (.mbxpostWithdraw r) itAccess fun t => t.mbxState c = s.mbxState c)))

/-- O48. FAILGET, FAILACK, SUBSCRIBE and NOTIFYACK, a NOTIFY that is sent again or dropped, and the ends of fetches, orphans and
prefetched values (R312 to R314, R318 to R320). -/
def Obligations.FailuresAndEvents : Prop :=
  ∀ s : State,
    (∀ ch r,
      let pl := r.payload
      (Admitted s ch 0x12 r → pl = [] → ∃ t, exec (.failget r) s = .next t ∧ Answered t r 0x12 0 fun p => p = (s.lap ch).failures.flatMap Failure.bytes) ∧
      (Admitted s ch 0x12 r → pl ≠ [] → ∃ t, exec (.failget r) s = .next t ∧ Answered t r 0x12 3 fun p => p = []) ∧
      (s.standby = false →
        (Admitted s ch 0x13 r → pl.length = 8 → field pl 2 2 = 0 →
          let names (f : Failure) : Bool := f.ring == field pl 0 1 && f.station == field pl 1 1 && f.fseq == field pl 4 4
          (∀ f, (s.lap ch).failures.find? names = some f → ∃ t, exec (.failack r) s = .next t ∧
            (t.lap ch).failures = (s.lap ch).failures.erase f ∧ t.isFenced ch f.ring f.station = false ∧
            Answered t r 0x13 0 fun p => p = [0, 0, 0, 0]) ∧
          ((s.lap ch).failures.find? names = none → ∃ t, exec (.failack r) s = .next t ∧
            (t.lap ch).failures = (s.lap ch).failures ∧ t.bridge.streams = s.bridge.streams ∧
            Answered t r 0x13 0 fun p => p = [BitVec.ofNat 8 itAccess, 0, 0, 0])) ∧
        (Admitted s ch 0x13 r → pl.length ≠ 8 → ∃ t, exec (.failack r) s = .next t ∧ Answered t r 0x13 3 fun p => p = []) ∧
        (Admitted s ch 0x30 r → pl.length = 192 → ∃ t, exec (.subscribe r) s = .next t ∧ (Answered t r 0x30 0 fun p => p = []) ∧
          ∀ ring < 6, ∀ id < 256, ring * 256 + id ∈ (t.lap ch).subs ↔
            1 ≤ id ∧ id ≤ 254 ∧ (pl.getD (32 * ring + id / 8) 0).getLsbD (id % 8) = true) ∧
        (Admitted s ch 0x30 r → pl.length ≠ 192 → ∃ t, exec (.subscribe r) s = .next t ∧ (t.lap ch).subs = (s.lap ch).subs ∧
          Answered t r 0x30 3 fun p => p = []) ∧
        (Admitted s ch 0x32 r → pl.length = 4 → ∃ t, exec (.notifyack r) s = .next t ∧ (Answered t r 0x32 0 fun p => p = []) ∧
          ∀ n, n ∈ (t.lap ch).notes ↔ n ∈ (s.lap ch).notes ∧ n.reqid ≠ field pl 0 4) ∧
        (Admitted s ch 0x32 r → pl.length ≠ 4 → ∃ t, exec (.notifyack r) s = .next t ∧ (t.lap ch).notes = (s.lap ch).notes ∧
          Answered t r 0x32 3 fun p => p = []))) ∧
    (∀ (ch : Fin 16) (reqid : Nat),
      (∀ n, ((s.lap ch).notes.find? fun x => x.reqid == reqid) = some n →
        (n.sends < 17 → s.portOn (s.lap ch).via = true → ∃ t d, exec (.notifyRetry ch reqid) s = .next t ∧
          t.outbox.head? = some (.lap (s.lap ch).via (s.lap ch).peer d) ∧ d.op = 0xB1 ∧ d.reqid = reqid ∧ d.fcnt = n.fcnt ∧
          d.payload = n.payload ∧ ∃ x ∈ (t.lap ch).notes, x.reqid = reqid ∧ x.sends = n.sends + 1) ∧
        (17 ≤ n.sends → ∃ t, exec (.notifyRetry ch reqid) s = .next t ∧ n ∉ (t.lap ch).notes ∧ Counted s t BRG_NOTIFYDROP ∧
          t.outbox = s.outbox)) ∧
      (((s.lap ch).notes.find? fun x => x.reqid == reqid) = none → exec (.notifyRetry ch reqid) s = .next s)) ∧
    ∀ (ch : Fin 16) (ring : Fin 6) (station : BitVec 8) (address : BitVec 16),
      let due (f : Fetch) : Bool := f.ring == ring.val && f.station == station.toNat && f.addr == address.toNat && !f.abandoned
      ((s.lap ch).fetches.find? due = none → exec (.fetchAbandon ch ring station address) s = .next s) ∧
      (∀ f, (s.lap ch).fetches.find? due = some f → ∃ t, exec (.fetchAbandon ch ring station address) s = .next t ∧
        f ∉ (t.lap ch).fetches ∧
        (f.sideEffect = true → f.result = none → { f with abandoned := true } ∈ (t.lap ch).fetches) ∧
        (∀ v, f.sideEffect = true → f.result = some (some v) → t.isSet BRG_STATUS BRG_STATUS_ORPH = true ∧
          { channel := ch, ring := ring, station := station.toNat, addr := address.toNat, value := v, taken := false } ∈
            t.bridge.orphans)) ∧
      (∃ t, exec (.orphanExpire ch ring station address) s = .next t ∧ ∀ o, o ∈ t.bridge.orphans ↔ o ∈ s.bridge.orphans ∧
        ¬ (o.channel = ch ∧ o.ring = ring ∧ o.station = station.toNat ∧ o.addr = address.toNat)) ∧
      ∃ t, exec (.prefetchExpire ring station address) s = .next t ∧ ∀ c, c ∈ t.bridge.cache ↔ c ∈ s.bridge.cache ∧
        ¬ (c.1 = ring ∧ c.2.1 = station.toNat ∧ c.2.2.1 = address.toNat)

/-! ### The backbone and the register port (16_safety_channels.md, 28_backbone.md, 02_register_conventions.md) -/

/-- O49. Traffic of the backbone ports (R138, R296, R349, R350, R511): what arrives is counted and answered, safety datagrams carry words into
the bank being filled and out of the published image, through the bridge's context, and links come and go. That BKBn_RXPKT counts
packets, and the address that the context translates, are the model's (log entries 63 and 137). -/
def Obligations.BackboneTraffic : Prop :=
  ∀ s : State,
    (∀ (via : Fin 5) (peer : Nat) (address : Word) (data : List Byte),
      (s.portOn via = false → exec (.arpRequest via peer address) s = .next s ∧ exec (.icmpEcho via peer address data) s = .next s) ∧
      (s.portOn via = true → address = s.portAddress via →
        (∃ t, exec (.arpRequest via peer address) s = .next t ∧ t.outbox = .arp via peer address :: s.outbox ∧
          (via.val < 4 → Counted s t (BKB_RXPKT via) ∧ Counted s t (BKB_TXPKT via))) ∧
        ∃ t, exec (.icmpEcho via peer address data) s = .next t ∧ t.outbox = .echo via peer data :: s.outbox ∧
          (via.val < 4 → Counted s t (BKB_RXPKT via) ∧ Counted s t (BKB_TXPKT via))) ∧
      (s.portOn via = true → address ≠ s.portAddress via →
        (∃ t, exec (.arpRequest via peer address) s = .next t ∧ AgreeBut [.regs] s t) ∧
        ∃ t, exec (.icmpEcho via peer address data) s = .next t ∧ AgreeBut [.regs] s t)) ∧
    (∀ (port : Fin 4) (source : Word) (pl : List Byte),
      let c := field pl 1 1
      let n := field pl 2 2
      let form : Prop := c < 32 ∧ 32 ≤ pl.length ∧ pl.length ≤ 284 ∧ pl.length = 8 + 4 * n ∧ field pl 0 1 = 1
      let mine : Prop := s.bchEnabled c = true ∧ s.bchRule c = true ∧ s.bchPort c = port ∧ s.reg (SAF_BCH_PEER c) = source ∧ n = s.bchIn c
      s.portOn port = true → s.isSet BRG_CTRL BRG_CTRL_EN = true →
        (¬ (form ∧ mine) → ∃ t, exec (.safetyDatagram port source pl) s = .next t ∧ Counted s t SAF_BBDROP ∧
          t.fld SAF_STATUS SAF_STATUS_BBDROP = 1 ∧ t.mem = s.mem) ∧
        (form → mine → s.bridge.line < wayLines → ∃ t, exec (.safetyDatagram port source pl) s = .next t ∧ c ∈ t.bridge.safeGot ∧
          let bank := bankBase s.frameCount
          let at' (i : Nat) : Nat := cellAddr bank true (s.bchInStart c + i)
          let before (i : Nat) : State := (s.bump (BKB_RXPKT port)).putWords bank (s.bchInStart c) 0 ((payloadWords (pl.drop 8)).take i)
          (∀ i < n, ((before i).unitAddr bridgeCtx .store (at' i)).2 = some (at' i)) →
          ∀ i < n, t.point bank true (s.bchInStart c + i) = { value := field pl (8 + 4 * i) 4, tag := 0 })) ∧
    (∀ c : Fin 32,
      (s.standby = true ∨ s.bchEnabled c = false ∨ s.bchOut c = 0 → exec (.safetyDatagramSend c) s = .next s) ∧
      (s.standby = false → s.bchEnabled c = true → s.bchOut c ≠ 0 → s.bchRule c = true → s.portOn (s.bchPort c) = true →
        (let v := s.bridgeWords (s.bchOutStart c) (s.bchOut c)
         v.2 = none → ∃ t, exec (.safetyDatagramSend c) s = .next t ∧ t.outbox = s.outbox) ∧
        (let at' (i : Nat) : Nat := cellAddr pubBase true (s.bchOutStart c + i)
         (∀ i < s.bchOut c, s.hasUe (at' i) = false ∧
          ((s.bridgeWords (s.bchOutStart c) i).1.unitAddr bridgeCtx .load (at' i)).2 = some (at' i)) →
        ∃ t, exec (.safetyDatagramSend c) s = .next t ∧ t.outbox =
          .safety (s.bchPort c) (s.reg (SAF_BCH_PEER c)) (s.fld (SAF_BCH_W0 c) SAF_BCH_W0_RCH) s.fcnt
            ((List.range (s.bchOut c)).map fun i => BitVec.ofNat 32 (s.point pubBase true (s.bchOutStart c + i)).value) :: s.outbox))) ∧
    ∀ p : Fin 4,
      (∃ t, exec (.backbonePortEnable p true) s = .next t ∧ t.isSet (BKB_CTRL p) BKB_CTRL_EN = true ∧ AgreeBut [.regs] s t) ∧
      (∃ t, exec (.backbonePortEnable p false) s = .next t ∧ t.isSet (BKB_CTRL p) BKB_CTRL_EN = false ∧
        t.fld (BKB_STATUS p) BKB_STATUS_LINK = 0 ∧ ∀ ch < 16, (s.lap ch).via = p → t.sessionState ch ≠ 2) ∧
      (s.isSet (BKB_STATUS p) BKB_STATUS_LINK = true → ∃ t, exec (.backboneLinkChange p false) s = .next t ∧
        t.fld (BKB_STATUS p) BKB_STATUS_LINK = 0 ∧ t.fld (BKB_STATUS p) BKB_STATUS_LOSS = 1) ∧
      (s.isSet (BKB_STATUS p) BKB_STATUS_LINK = false → exec (.backboneLinkChange p false) s = .next s) ∧
      (s.isSet (BKB_CTRL p) BKB_CTRL_EN = true → bitAt (s.fld BLW_STAGE BLW_STAGE_BKBOK) p = true →
        ∃ t, exec (.backboneLinkChange p true) s = .next t ∧ t.fld (BKB_STATUS p) BKB_STATUS_LINK = 1) ∧
      let here : Fin 5 := p.castSucc
      (∃ t, exec (.backbonePacketDiscard 4 .malformed) s = .next t ∧ Counted s t BRG_MALF ∧ ∀ a, a ≠ BRG_MALF → t.reg a = s.reg a) ∧
      (s.portOn p = false → ∀ why, exec (.backbonePacketDiscard here why) s = .next s) ∧
      (s.portOn p = true →
        (∃ t, exec (.backbonePacketDiscard here .noConsumer) s = .next t ∧ Counted s t (BKB_RXDISC p) ∧ Counted s t (BKB_RXPKT p)) ∧
        (∃ t, exec (.backbonePacketDiscard here .malformed) s = .next t ∧ Counted s t BRG_MALF ∧ Counted s t (BKB_RXPKT p)) ∧
        ∃ t, exec (.backbonePacketDiscard here .badFcs) s = .next t ∧ Counted s t (BKB_FCSERR p) ∧
          t.fld (BKB_STATUS p) BKB_STATUS_FCS = 1)

/-- O50. A write of a register (R19, R32 to R34, R37, R38, R42, R44, R52, R53): a misaligned one, one of an empty window and one by a core that
runs a task of a voted placement change no register but the recorder's, and are an access fault of their initiator: the trap of a
core, the end of a DMA channel's work; one of a register whose fields have no behaviour of their own writes its RW fields, clears what is
written 1 of its W1C fields, and keeps the rest, and LOST is set when it loses a hardware update; and WAY_CMD.PURGE asks for a purge
(R423). -/
def Obligations.RegisterWrites : Prop :=
  (∀ (s : State) (who : Initiator) (lost : Bool) (a : BitVec 24) (v : Word),
    let writes := exec (.registerWrite ⟨who, lost⟩ a v) s
    let barred : Prop := ∃ c : Fin 12, who = .core c ∧ s.cores[c].atK = false ∧ ∃ n : Fin 64,
      n.val = s.cores[c].taskid.toNat % 64 ∧ placeVoted s.tasks[n].place = true
    (a.toNat % 4 ≠ 0 ∨ aliasOf a.toNat = none ∨ barred →
      ((∃ n, who = .lap n) ∨ who = .bellows → ∃ t, writes = .next t ∧ AgreeBut eventParts s t ∧
        ∀ x < 0x400000, x / 0x10000 ∉ eventBlocks → t.reg x = s.reg x) ∧
      (∀ c : Fin 12, who = .core c → s.cores[c].td = false → s.cores[c].atK = true ∨ s.cores[c].isOpen = false → ∃ t, writes = .next t ∧
        Trapped s t c AccessKind.store.accessCode (BitVec.ofNat 64 (0x40000000 + a.toNat))) ∧
      (∀ n : Fin 16, who = .dma n → s.dma.ch[n].isSome = true → ∃ t, writes = .next t ∧ t.dma.ch[n] = none ∧
        (t.reg DMA_FAULT).getLsbD n = true ∧ t.fld (DMA_CH_STATE n) DMA_CH_STATE_STATE = 0)) ∧
    ∀ x r, ¬ barred → a.toNat % 4 = 0 → aliasOf a.toNat = some x → rowOf x = some r →
      x / 0x10000 ∈ [0x00, 0x02, 0x03, 0x07, 0x22] →
      x ∉ [SYS_MODECFG, ANX_EPRST, ANY_EPRST, WAY_CMD] → ∃ t, writes = .next t ∧
        AgreeBut [.regs, .cpl] s t ∧ (∀ y, y ≠ x → t.reg y = s.reg y) ∧
        (lost = true → r.rw ≠ 0 → r.w1c.testBit 31 = true → (t.reg x).getLsbD 31 = true) ∧
        ∀ i < 32, lost = false ∨ i ≠ 31 → (r.rw.testBit i = true → r.w1c.testBit i = false → (t.reg x).getLsbD i = v.getLsbD i) ∧
          (r.rw.testBit i = false → r.w1c.testBit i = true → (t.reg x).getLsbD i = ((s.reg x).getLsbD i && !v.getLsbD i)) ∧
          (r.rw.testBit i = false → r.w1c.testBit i = false → (t.reg x).getLsbD i = (s.reg x).getLsbD i)) ∧
  ∀ s : State, ∃ t, exec .wayPurge s = .next t ∧ t.fld WAY_CMD WAY_CMD_PURGE = 1 ∧ AgreeBut [.regs] s t

/-! ### Redundant pairs (17_redundant_pair.md) -/

/-- O51. The coupler links (R386, R387, R389, R394): what comes up, goes down, pauses and resumes, the heartbeats, and what the copy engine
sends. A module that is no member of a pair does nothing of it. -/
def Obligations.CouplerLinks : Prop :=
  ∀ s : State,
    (s.cpl.member = false → ∀ (link : Fin 4) (w : Word) (b : BitVec 2) (o : Int) (full : Bool),
      ∀ c ∈ [Instr.couplerLinkUp link, .couplerLinkDown link, .pauseWord link, .resumeWord link, .heartbeat link w b o,
        .heartbeatSend, .copyPacketsSent full, .recordApply, .recordLate, .pairingTimeout, .partnerLost, .takeover, .soakComplete,
        .handBack, .stepDown], exec c s = .next s) ∧
    (s.cpl.member = true → ∀ link : Fin 4,
      let linkOn : Prop := bitAt (s.fld CPL_STATE CPL_STATE_LINKS) link = true
      (linkOn ∨ bitAt (s.fld BLW_STAGE BLW_STAGE_CPLOK) link = false → exec (.couplerLinkUp link) s = .next s) ∧
      (¬ linkOn → bitAt (s.fld BLW_STAGE BLW_STAGE_CPLOK) link = true → ∃ t bytes, exec (.couplerLinkUp link) s = .next t ∧
        bitAt (t.fld CPL_STATE CPL_STATE_LINKS) link = true ∧ t.cpl.contact = true ∧ .cplCap link s.pairEpoch bytes ∈ t.outbox) ∧
      (¬ linkOn → exec (.couplerLinkDown link) s = .next s) ∧
      (linkOn → ∃ t, exec (.couplerLinkDown link) s = .next t ∧ bitAt (t.fld CPL_STATE CPL_STATE_LINKS) link = false ∧
        t.fld CPL_STATUS CPL_STATUS_LINKDOWN = 1 ∧ Counted s t CPL_HBLOSS ∧ t.cpl.soak = 0 ∧
        (∀ p, (link.val, p) ∈ s.cpl.sent → p ∈ t.cpl.unsent ∨ ∃ l, l ≠ link.val ∧ (l, p) ∈ t.cpl.sent) ∧
        (s.upLinks = [link.val] → t.partner = psIsolated)) ∧
      (∃ t, exec (.pauseWord link) s = .next t ∧ t.cpl.paused.getLsbD link = true ∧ link.val ∉ t.usableLinks ∧ AgreeBut [.cpl] s t) ∧
      (∃ t, exec (.resumeWord link) s = .next t ∧ t.cpl.paused.getLsbD link = false ∧ (linkOn → t.cpl.unsent = []) ∧
        AgreeBut [.cpl, .outbox] s t) ∧
      (∀ w b o, ¬ linkOn → exec (.heartbeat link w b o) s = .next s) ∧
      (∀ w b o, linkOn → ∃ t, exec (.heartbeat link w b o) s = .next t ∧ t.cpl.contact = true ∧ t.cpl.peer = b.toNat ∧
        t.cpl.offset = o ∧
        (s.pstate = psReady → (∃ n < 6, s.ringState n = ringRun ∧ (s.ring n).guard < o.natAbs) → t.pstate = psSyncing))) ∧
    (s.cpl.member = true →
      (∃ t, exec .heartbeatSend s = .next t ∧ AgreeBut [.outbox] s t ∧
        ∀ l ∈ s.upLinks, .cplBeat l (s.frameCount % 0x100000000) s.pstate ∈ t.outbox) ∧
      (s.sendsRecords = false ∨ s.usableLinks = [] → ∀ full, exec (.copyPacketsSent full) s = .next s) ∧
      (s.sendsRecords = true → s.usableLinks ≠ [] →
        (∃ t, exec (.copyPacketsSent false) s = .next t ∧ AgreeBut [.outbox] s t ∧
          ∀ r ∈ s.cpl.records, .cplMarker s.pairEpoch r.frame r.count ∈ t.outbox) ∧
        (s.cpl.fullDue = true → ∃ t, exec (.copyPacketsSent true) s = .next t ∧ t.cpl.fullDue = false ∧ t.cpl.unsent = [] ∧
          .cplMarker s.pairEpoch ((s.frameCount + bit s.frame.inClose) % 0x100000000) t.cpl.nextSeq ∈ t.outbox)))

/-- O52. Frame records (R387, R389 to R393, R406): a bad or stale packet changes only counters; a SYNCING standby applies items at once, a READY one
stages them and applies a complete record; markers and acknowledgements; a late record. -/
def Obligations.FrameRecords : Prop :=
  ∀ s : State, s.cpl.member = true →
    (∀ (p : PairHead) (items : List PairItem) (count : Nat) (full ready granted : Bool) (missing : List Nat) (kind : SwitchKind)
        (tick : Word), ∀ c ∈ [Instr.dataPacket p items, .marker p count full, .couplerAck p missing ready, .takeoverRequest p kind,
          .takeoverResponse p granted tick, .updateRequest p],
      (p.ok = false → exec c s = .next (s.bump CPL_PKTERR)) ∧
      (p.ok = true → p.pepoch.toNat ≠ s.pairEpoch → ∃ t, exec c s = .next t ∧ Counted s t CPL_STALE_CNT ∧
        t.fld CPL_STATUS CPL_STATUS_STALE = 1 ∧ AgreeBut [.regs] s t)) ∧
    (∀ p : PairHead, p.ok = true → p.pepoch.toNat = s.pairEpoch →
      let frame := p.fcnt.toNat
      (∀ items,
        (s.pstate = psReady → ∃ t, exec (.dataPacket p items) s = .next t ∧ AgreeBut [.cpl] s t ∧
          t.cpl.staged = s.cpl.staged ++ items.map fun i => { frame := frame, pseq := p.pseq, item := i }) ∧
        (s.pstate ≠ psReady → s.pstate ≠ psSyncing → exec (.dataPacket p items) s = .next s)) ∧
      (s.pstate = psSyncing →
        (∀ a v r, copiedReg a = true → a ≠ SYS_CHG → rowOf a = some r → ∃ t, exec (.dataPacket p [.register a v]) s = .next t ∧
          ∀ i < 32, (t.reg a).getLsbD i = if r.rw.testBit i then v.getLsbD i else (s.reg a).getLsbD i) ∧
        (∀ l, ∃ t, exec (.dataPacket p [.orphans l]) s = .next t ∧ t.bridge.orphans = l) ∧
        ∀ l, ∃ t, exec (.dataPacket p [.forces l]) s = .next t ∧ t.modes.forces = l) ∧
      (∀ count full, s.pstate = psSyncing ∨ s.pstate = psReady → ∃ t, exec (.marker p count full) s = .next t ∧
        t.outbox = .cplAck s.pairEpoch frame (s.missingPackets frame count) :: s.outbox ∧
        (s.missingPackets frame count ≠ [] → t.cpl = s.cpl ∧ t.regs = s.regs) ∧
        (s.missingPackets frame count = [] →
          (s.pstate = psReady → frame ∈ t.cpl.complete ∧ t.regs = s.regs) ∧
          (s.pstate = psSyncing → t.reg CPL_APPLIED = p.fcnt ∧ (full = true → t.cpl.fullDone = true) ∧
            (∀ q ∈ t.cpl.staged, q.frame ≠ frame) ∧
            (full = true → s.offsetGood = true → s.cpl.strike = true → s.isSet LANE_STATUS LANE_STATUS_SAFEFAIL = false →
              (∀ l < 3, s.laneState l ≠ lsOut) → t.pstate = psReady)))) ∧
      (∀ ready r, (s.cpl.records.find? fun x => x.frame == frame) = some r → r.bytes < 2 ^ 32 →
        ∃ t, exec (.couplerAck p [] ready) s = .next t ∧ (t.reg CPL_COPYLAST).toNat = r.bytes ∧
          (t.reg CPL_COPYMAX).toNat = max r.bytes (s.reg CPL_COPYMAX).toNat ∧ (∀ x ∈ t.cpl.records, x.frame ≠ frame) ∧
          (ready = true → ∀ e ∈ t.bridge.entries, e.line ∈ r.lines → e.cmt = true) ∧
          (ready = false → t.bridge.entries = s.bridge.entries)) ∧
      ∀ missing ready, missing ≠ [] → ∃ t, exec (.couplerAck p missing ready) s = .next t ∧ t.cpl.records = s.cpl.records ∧
        ∀ l q, (l, q) ∈ s.cpl.sent → q.frame = frame → q.pseq ∈ missing → q ∈ t.cpl.unsent ∨ ∃ k, (k, q) ∈ t.cpl.sent) ∧
    (s.cpl.complete = [] → exec .recordApply s = .next s) ∧
    (s.pstate ≠ psReady → exec .recordApply s = .next s) ∧
    (∀ f, s.nextRecord = some f → f ∈ s.cpl.complete ∧ (∀ g ∈ s.cpl.complete, s.framesAhead f ≤ s.framesAhead g) ∧
      (s.pstate = psReady → ∃ t, exec .recordApply s = .next t ∧ (t.pstate = psReady → t.reg CPL_APPLIED = BitVec.ofNat 32 f) ∧
        (t.pstate = psReady ∨ t.pstate = psSyncing) ∧ f ∉ t.cpl.complete ∧ ∀ q ∈ t.cpl.staged, q.frame ≠ f)) ∧
    let late (f : Nat) : Prop := 2 ≤ (BitVec.ofNat 32 s.frameCount - BitVec.ofNat 32 f).toNat
    (s.pstate = psActive →
      ((∃ r ∈ s.cpl.records, late r.frame) → ∃ t, exec .recordLate s = .next t ∧ Counted s t CPL_COPYLATE ∧
        t.fld CPL_STATUS CPL_STATUS_COPYLATE = 1 ∧ t.cpl.records = [] ∧ t.cpl.fullDue = true) ∧
      ((∀ r ∈ s.cpl.records, ¬ late r.frame) → exec .recordLate s = .next s)) ∧
    (s.pstate = psReady →
      let behind : Prop := late ((s.reg CPL_APPLIED).toNat + 1) ∧ (s.frameCount - 2) % 0x100000000 ∉ s.cpl.complete
      (s.cpl.lost = false → behind → ∃ t, exec .recordLate s = .next t ∧
        Counted s t CPL_COPYLATE ∧ t.pstate = psSyncing ∧ t.cpl.fullDone = false) ∧
      (s.cpl.lost = true ∨ ¬ behind → exec .recordLate s = .next s))

/-- O53. Pairing, fail-over and hand-back (R385, R386, R399, R400, R402, R403, R405 to R407, R409, R484): what CAP, HEALTH, request and
response packets leave, when a takeover, a planned switch or a hand-back happens and what it leaves, and the temper scans. -/
def Obligations.PairingAndSwitches : Prop :=
  ∀ s : State, s.cpl.member = true →
    let soon := s.frame.nextTick
    (∀ (p : PairHead) (cap : CapWord), p.ok = true →
      (s.capCheck cap ≠ 0 → ∃ t, exec (.capPacket p cap) s = .next t ∧ t.fld CPL_STATE CPL_STATE_REFUSE = s.capCheck cap ∧
        t.fld CPL_STATUS CPL_STATUS_REFUSED = 1 ∧ t.cpl.paired = false ∧
        t.pstate = if s.pstate = psActive then psActive else psIsolated) ∧
      (s.capCheck cap = 0 → ∃ t, exec (.capPacket p cap) s = .next t ∧ t.cpl.paired = true ∧
        (s.pstate = psIsolated → s.cpl.peer = psActive → t.pstate = psSyncing ∧ t.pairEpoch = p.pepoch.toNat) ∧
        (s.pstate = psIsolated → s.cpl.peer ≠ psActive →
          if s.alternate then t.pstate = psSyncing else t.pstate = psIsolated ∧ t.cpl.activeDue = true))) ∧
    (s.pstate ≠ psIsolated ∨ s.cpl.contact = true → exec .pairingTimeout s = .next s) ∧
    (s.pstate = psIsolated → s.cpl.contact = false →
      let heard : Prop := ∃ n < 6, s.dualHomed n = true ∧ (s.ring n).zero.isSome = true
      ∃ t, exec .pairingTimeout s = .next t ∧ (heard → AgreeBut eventParts s t) ∧ (¬ heard → t.cpl.activeDue = true ∧ t.regs = s.regs)) ∧
    (∀ (p : PairHead) (h : PairHealth), p.ok = true → p.pepoch.toNat = s.pairEpoch ∨ (s.standby = true ∧ h.pstate = 0) →
      ∃ t, exec (.healthPacket p h) s = .next t ∧ t.partner = h.pstate.toNat ∧ t.pairEpoch = p.pepoch.toNat ∧
        (s.pstate = psActive → h.pstate.toNat = psSyncing → s.partner = psIsolated ∨ s.partner = psActive → t.cpl.fullDue = true)) ∧
    (s.pstate = psActive → exec .partnerLost s = .next s ∧ exec .takeover s = .next s) ∧
    (s.pstate ≠ psActive → ∃ t, exec .partnerLost s = .next t ∧ t.cpl.lost = true ∧ t.partner = psIsolated ∧
      ∀ q ∈ t.cpl.staged, q.frame ∈ s.cpl.complete) ∧
    (s.pstate ≠ psActive → s.cpl.lost = true → s.switchDue = true →
      (s.pstate = psReady → s.cpl.complete ≠ [] → exec .takeover s = .next s) ∧
      (s.pstate = psReady ∧ s.cpl.complete = [] ∨ s.pstate ≠ psReady → ∃ t, exec .takeover s = .next t ∧ t.pstate = psActive ∧
        t.pairEpoch = (s.pairEpoch + 1) % 65536 ∧ t.fld CPL_STATUS CPL_STATUS_TAKEOVER = 1 ∧ Counted s t CPL_TAKEOVER ∧
        (∀ n < 6, s.dualHomed n = true → t.fld (SOP_CTRL n) SOP_CTRL_LISTENONLY = 0) ∧
        (s.pstate = psReady → t.modes.restart = none ∧ ∀ ch < 16, t.sessionState ch ≠ 2) ∧
        (s.pstate ≠ psReady → t.modes.restart.isSome = true))) ∧
    (s.cpl.lost = false → exec .takeover s = .next s) ∧
    (∀ p : PairHead, p.ok = true → p.pepoch.toNat = s.pairEpoch →
      (s.pstate = psReady →
        (∃ t, exec (.takeoverRequest p .takeover) s = .next t ∧ t.cpl.lost = true ∧ t.cpl.switchAt = some (soon, false) ∧
          t.outbox = .cplResponse 1 true (soon % 0x100000000) :: s.outbox) ∧
        ∃ t, exec (.takeoverRequest p .planned) s = .next t ∧ t.cpl.switchAt = some (soon + 3, true) ∧
          t.outbox = .cplResponse 4 true ((soon + 3) % 0x100000000) :: s.outbox) ∧
      (s.pstate ≠ psReady →
        (∃ t, exec (.takeoverRequest p .takeover) s = .next t ∧ t.cpl = s.cpl ∧ t.outbox = .cplResponse 1 false 0 :: s.outbox) ∧
        ∃ t, exec (.takeoverRequest p .planned) s = .next t ∧ t.cpl = s.cpl ∧ t.outbox = .cplResponse 4 false 0 :: s.outbox) ∧
      (∃ t, exec (.takeoverRequest p .handBack) s = .next t ∧
        if s.pstate = psActive ∧ s.alternate = true ∧ s.partner = psReady then t.cpl.switchAt = some (soon + 3, true) ∧
          t.outbox = .cplResponse 2 true ((soon + 3) % 0x100000000) :: s.outbox
        else t.cpl = s.cpl ∧ t.outbox = .cplResponse 2 false 0 :: s.outbox) ∧
      (∀ tick granted, ∃ t, exec (.takeoverResponse p granted tick) s = .next t ∧ t.cpl.asked = 0 ∧
        (s.cpl.asked ∈ [1, 2, 4] → granted = true →
          t.cpl.switchAt = some (s.frameCount + (tick - BitVec.ofNat 32 s.frameCount).toNat, s.cpl.asked != 1)) ∧
        (s.cpl.asked = 4 → granted = false → t.fld CPL_COMMAND CPL_COMMAND_SWITCH = 0) ∧
        (s.cpl.asked = 2 → granted = false → t.cpl.soak = 0)) ∧
      ∃ t, exec (.updateRequest p) s = .next t ∧
        t.outbox = .cplResponse 3 (!allComps.any s.inTrial && s.siding != sdPending) 0 :: s.outbox) ∧
    (s.isSet CPL_COMMAND CPL_COMMAND_SWITCH = true → exec .plannedSwitch s = .next s) ∧
    (s.isSet CPL_COMMAND CPL_COMMAND_SWITCH = false → ∃ t, exec .plannedSwitch s = .next t ∧
      if s.eff = effProg ∧ s.pstate = psActive ∧ s.partner = psReady then
        t.fld CPL_COMMAND CPL_COMMAND_SWITCH = 1 ∧ t.cpl.asked = 4 ∧ t.outbox = .cplRequest 4 :: s.outbox
      else AgreeBut eventParts s t) ∧
    (let due : Prop := s.pstate = psReady ∧ s.alternate = false ∧ s.partner = psActive ∧ s.cpl.asked = 0 ∧ s.cpl.switchAt = none ∧
        clampNat 10 3600 (s.fld CPL_SOAK CPL_SOAK_SOAK) * 1000000000 ≤ s.cpl.soak
     (due → ∃ t, exec .soakComplete s = .next t ∧ t.cpl.asked = 2 ∧ t.outbox = .cplRequest 2 :: s.outbox) ∧
     (¬ due → exec .soakComplete s = .next s)) ∧
    (∀ j, s.cpl.switchAt = some (j, true) → j ≤ soon → s.quietFrame = true →
      (s.quietRecordDone = true → s.pstate = psActive ∨ s.pstate = psReady → ∃ t, exec .handBack s = .next t ∧
        t.fld CPL_STATUS CPL_STATUS_HANDBACK = 1 ∧ Counted s t CPL_HANDBACK ∧ t.cpl.switchAt = none ∧
        (s.pstate = psActive → t.pstate = psSyncing ∧ ∀ n < 6, s.dualHomed n = true → t.fld (SOP_CTRL n) SOP_CTRL_LISTENONLY = 1) ∧
        (s.pstate = psReady → t.pstate = psActive ∧ t.pairEpoch = (s.pairEpoch + 1) % 65536)) ∧
      (s.quietRecordDone = false → ∃ t, exec .handBack s = .next t ∧ t.pstate = s.pstate ∧
        if s.cpl.quiet < 9 then t.cpl.switchAt = some (soon + 1, true)
        else t.cpl.switchAt = none ∧ t.fld CPL_COMMAND CPL_COMMAND_SWITCH = 0)) ∧
    (s.cpl.switchAt = none → exec .handBack s = .next s) ∧
    (let hears : Prop := s.pstate = psActive ∧ s.alternate = true ∧ ∃ n < 6, 2 ≤ (s.ring n).rivals
     (hears → ∃ t, exec .stepDown s = .next t ∧ t.cpl.stepDownDue = true) ∧ (¬ hears → exec .stepDown s = .next s)) ∧
    ∀ lane : Fin 3,
      (s.standby = true → s.laneState lane ≠ lsOut →
        (let n := (s.cpl.scanning.filter fun x => x.1 == lane.val).elim 0 (·.2)
         ∃ t, exec (.temperScan lane true) s = .next t ∧ AgreeBut [.cpl] s t ∧
          t.cpl.scanning = if 5 ≤ n then none else some (lane.val, n + 1)) ∧
        ∃ t, exec (.temperScan lane false) s = .next t ∧ t.laneState lane = lsOut ∧ t.cpl.scanFailed = true ∧ t.pstate ≠ psReady) ∧
      (s.standby = false → exec (.temperScan lane true) s = .next s ∧
        ∃ t, exec (.temperScan lane false) s = .next t ∧ t.cpl.scanFailed = true ∧
          (s.laneState lane = lsAvailable → s.otherRejoins lane = false →
            t.laneState lane = lsFenced ∧ t.fld (LANE_LSTATE lane) LANE_LSTATE_CAUSE = 3))

/-! ### Safety inputs and outputs, and current loops (14_safety.md to 16_current_loops.md) -/

/-- O54. The inputs and outputs of block DIO (R352 to R354, R359, R360, R363, R366, R368, R371): samples, test runs, overloads, loads, clears
and the field group. The raw value in a fault row is free (log entry 30). -/
def Obligations.InputsAndOutputs : Prop :=
  ∀ s : State,
    (∀ x, s.dio.fg1 = false → exec (.diSample x) s = .next s) ∧
    (∀ x, s.dio.fg1 = true → ∃ t, exec (.diSample x) s = .next t ∧
      (∀ i < 16, (s.diCfgNow i).en = false → t.di i = s.di i) ∧
      (∀ i < 16, (s.diCfgNow i).en = true → s.dio.run = none →
        let tp := (s.diCfgNow i).testPulse
        let row := currentRow (s.effCurrent i (x.adc.getD i 0))
        let raw := if row ≤ 2 then false else if row = 3 then s.bitOf DIO_DIRAW 0 i else true
        (faultRow tp row = false → t.bitOf DIO_DIRAW 0 i = raw ∧
          t.filtered i = if raw ≠ s.filtered i ∧ (s.diCfgNow i).filt ≤ (s.di i).count + 1 then raw else s.filtered i) ∧
        (faultRow tp row = true → (s.di i).row = row → (s.di i).rowCount = 2 →
          t.diLatched i = true ∧ (t.di i).kind = if row = 0 then 0 else 1)) ∧
      ∀ c < 8, s.doLatched c = false →
        (x.excess.getLsbD c = true ∧ s.doCmd c = true) ∨ (x.settled.getLsbD c = true ∧ x.back.getLsbD c ≠ s.doCmd c ∧
          s.isSet DIO_STATUS DIO_STATUS_FG1OFF = false ∧ (s.dout c).mismatch = 2) → t.doLatched c = true ∧ t.doCmd c = false) ∧
    (∀ cause, s.dio.run.isSome = true → exec (.testRunStart cause) s = .next s) ∧
    (s.dio.run = none →
      let starts (c : Instr) : Prop := ∃ t, exec c s = .next t ∧ t.dio.run.isSome = true ∧ t.fld SAF_STATUS SAF_STATUS_RUNNING = 1 ∧
        AgreeBut [.regs, .dio] s t
      starts (.testRunStart .periodic) ∧ starts .testTestIssue ∧
      (if s.dio.startPending ∧ s.dio.fg1 then starts (.testRunStart .startup) else exec (.testRunStart .startup) s = .next s) ∧
      (if s.isSet SAF_TPCTRL SAF_TPCTRL_AUTOREC ∧ allInputs.any (fun i => s.diLatched i && (s.di i).ready && !(s.di i).ran) then
        starts (.testRunStart .recovery) else exec (.testRunStart .recovery) s = .next s) ∧
      (if (List.range 8).any (fun g => s.gstate g == 2 && (s.guardOf g).closed && !(s.guardOf g).ran) then starts (.testRunStart .guardTest)
        else exec (.testRunStart .guardTest) s = .next s) ∧
      exec .testRunEnd s = .next s) ∧
    (∀ r, s.dio.run = some r →
      (∃ t, exec .testTestIssue s = .next t ∧ t.dio.queued = true ∧ t.fld SAF_TPCTRL SAF_TPCTRL_TEST = 1 ∧ t.dio.run = some r) ∧
      ∃ t, exec .testRunEnd s = .next t ∧ (if s.dio.queued then t.dio.run.isSome ∧ t.dio.queued = false
          else t.dio.run = none ∧ t.fld SAF_STATUS SAF_STATUS_RUNNING = 0 ∧ t.fld SAF_TPCTRL SAF_TPCTRL_TEST = 0) ∧
        ∀ i < 16, t.fld SAF_TPRES ⟨2 * i, 2⟩ = r.result i ∧ (r.result i = 2 → t.diLatched i = true ∧ (t.di i).kind = 2) ∧
          (r.result i = 1 → s.diLatched i = true → (s.di i).ready = true → (s.di i).ran = true → t.diLatched i = false)) ∧
    (∀ i : Fin 16,
      (s.diLatched i = true → s.faultPresent i = false → ∃ t, exec (.faultAbsentTimeout i) s = .next t ∧ (t.di i).ready = true ∧
        AgreeBut [.dio] s t) ∧
      (s.diLatched i = false ∨ s.faultPresent i = true → exec (.faultAbsentTimeout i) s = .next s)) ∧
    (∀ (src : Fin 4) (mA : Nat),
      (s.dio.fg1 = true → s.isSet DIO_STATUS DIO_STATUS_FG1OFF = false → s.dio.srcOff.getLsbD src = false →
        ∃ t, exec (.tpOverload src mA) s = .next t ∧ t.dio.srcOff.getLsbD src = true ∧ t.fld DIO_STATUS DIO_STATUS_TPOVL = 1 ∧
          ∀ i < 16, (s.diCfg i).en = true → (s.diCfgNow i).src = src → t.diLatched i = true ∧ (t.di i).kind = 3) ∧
      (s.dio.fg1 = false ∨ s.isSet DIO_STATUS DIO_STATUS_FG1OFF = true ∨ s.dio.srcOff.getLsbD src = true →
        exec (.tpOverload src mA) s = .next s) ∧
      ∃ t, exec (.tpRetry src) s = .next t ∧ t.dio.srcOff.getLsbD src = false ∧ AgreeBut [.dio] s t) ∧
    (∀ (c : Fin 8) (load : Fin 4),
      let e := s.doDriver c
      (s.bellows.restarting = true ∨ s.doCmd c = true ∨ load = 0 → exec (.doLoadMeasure c load) s = .next s) ∧
      (s.bellows.restarting = false → s.doCmd c = false → load ≠ 0 → ∃ t, exec (.doLoadMeasure c load) s = .next t ∧
        t.fld DIO_DOLOAD ⟨2 * e, 2⟩ = load ∧ (load = 2 → t.fld DIO_STATUS DIO_STATUS_LOADW = 1) ∧
        (load = 3 → t.doLatched c = true))) ∧
    (∀ mask : BitVec 8, ∃ t, exec (.doClear mask) s = .next t ∧ AgreeBut [.regs] s t ∧ t.fld DIO_DOCLR DIO_DOCLR_GO = 0 ∧
      ∀ c < 8, t.doLatched c = (s.doLatched c && !(mask.getLsbD c && !(s.dout c).present && s.fld DIO_DOLOAD ⟨2 * s.doDriver c, 2⟩ != 3))) ∧
    (s.isSet DIO_STATUS DIO_STATUS_FG1OFF = true → exec .fg1Loss s = .next s) ∧
    (s.isSet DIO_STATUS DIO_STATUS_FG1OFF = false → ∃ t, exec .fg1Loss s = .next t ∧ t.fld DIO_STATUS DIO_STATUS_FG1OFF = 1 ∧
      (∀ c < 8, t.doCmd c = false) ∧ ∀ i < 16, (s.diCfgNow i).en = true → (s.diCfgNow i).testPulse = true →
        t.diLatched i = true ∧ (t.di i).kind = 4) ∧
    ∃ t, exec .fg1Return s = .next t ∧ t.fld DIO_STATUS DIO_STATUS_FG1OFF = 0 ∧ AgreeBut [.regs] s t

/-- O55. The current loops (R373 to R377, R379 to R383): what a measurement latches, what each row drives, and what clears a latch. -/
def Obligations.CurrentLoops : Prop :=
  ∀ (s : State) (c : Fin 4),
    let k := s.loopCh c
    let latches (cause : Nat) : Nat := if s.loopCause c = 3 then 3 else cause
    (∀ m, LOOP_CFG_EN.get k.cfg = 0 → exec (.loopSample c m) s = .next s) ∧
    (∀ m, LOOP_CFG_EN.get k.cfg = 1 → ∃ t, exec (.loopSample c m) s = .next t ∧
      t.fld (LOOP_MEAS c) LOOP_MEAS_IRB = m.current / 1000 % 65536 ∧ toSigned 16 (t.fld (LOOP_MEAS c) LOOP_MEAS_VTERM) = m.volts.bmod 65536 ∧
      (s.loop.fg2 = false ∨ s.isSet LOOP_STATUS LOOP_STATUS_FG2OFF = true → t.bitOf LOOP_COMPLIANCE 0 c = false ∧
        t.loopCause c = s.loopCause c) ∧
      (s.loop.fg2 = true → s.isSet LOOP_STATUS LOOP_STATUS_FG2OFF = false →
        let opens := openSample m k.drive
        let wired := wireSample m (LOOP_CFG_MODE.get k.cfg == 1)
        let short := nonCompliant m k.drive && !opens
        let back := backSample m k.drive && !short && !opens
        t.bitOf LOOP_COMPLIANCE 0 c = short ∧
        (opens = true → wired = false → k.openRun = 9 → t.loopCause c = latches 2 ∧ t.fld LOOP_STATUS LOOP_STATUS_OPEN = 1 ∧
          Counted s t LOOP_FLTCNT) ∧
        (back = true → wired = false → k.backRun = 9 → t.loopCause c = latches 5 ∧ Counted s t LOOP_FLTCNT) ∧
        (wired = true → k.wireRun = 9 → t.loopCause c = 3 ∧ t.fld LOOP_STATUS LOOP_STATUS_MISWIRE = 1 ∧
          (s.loopRow c ≠ 1 → (t.loopCh c).connected = false)) ∧
        (opens = false → wired = false → back = false → t.loopCause c = s.loopCause c))) ∧
    (let due : Prop := s.bitOf LOOP_COMPLIANCE 0 c = true ∧ s.loopCause c = 0 ∧ loopRowFault (s.loopRow c) = false
     (due → ∃ t, exec (.complianceTimeout c) s = .next t ∧ t.loopCause c = 1 ∧ Counted s t LOOP_FLTCNT) ∧
     (¬ due → exec (.complianceTimeout c) s = .next s)) ∧
    (k.thermal = false → ∃ t, exec (.loopThermal c true) s = .next t ∧ (t.loopCh c).thermal = true ∧ t.loopCause c = latches 4 ∧
      t.fld LOOP_STATUS LOOP_STATUS_THERM = 1 ∧ (3 ≤ s.loopRow c → k.settling = false → (t.loopCh c).drive = 3500000)) ∧
    (∃ t, exec (.loopThermal c false) s = .next t ∧ (t.loopCh c).thermal = false ∧ AgreeBut [.loop] s t) ∧
    (∃ t, exec (.loopModeSettled c) s = .next t ∧ (t.loopCh c).settling = false ∧ AgreeBut [.loop] s t ∧
      let d := (t.loopCh c).drive
      (s.loopRow c ≤ 2 → d = 0 ∧ (t.loopCh c).code = 0) ∧ (s.loopRow c = 3 → d = 3500000) ∧
      (4 ≤ s.loopRow c → s.loopRow c ≤ 6 → d = faultLevel (LOOP_CFG_FRESP.get k.cfg)) ∧
      (s.loopRow c = 7 → d = loopTarget (LOOP_CFG_NE43.get k.cfg == 1) k.value) ∧
      (3 ≤ s.loopRow c → (t.loopCh c).code = s.dacCode c d)) ∧
    (let i := s.fld (LOOP_MEAS c) LOOP_MEAS_IRB
     let ready : Prop := s.bellows.restarting = false ∧ LOOP_CFG_EN.get k.cfg = 1 ∧ 1000 ≤ i
     (ready → LOOP_CFG_MODE.get k.cfg = 0 → ∃ t, exec (.loopLoadCompute c) s = .next t ∧ t.fld (LOOP_LOAD c) LOOP_LOAD_VALID = 1 ∧
       t.fld (LOOP_LOAD c) LOOP_LOAD_RLOAD = min 65535 (toSigned 16 (s.fld (LOOP_MEAS c) LOOP_MEAS_VTERM) * 1000 / i).toNat) ∧
     (¬ ready → exec (.loopLoadCompute c) s = .next s)) ∧
    (∀ mask : BitVec 4, ∃ t, exec (.loopClear mask) s = .next t ∧ t.fld LOOP_CLR LOOP_CLR_GO = 0 ∧
      t.loopCause c = if mask.getLsbD c ∧ s.loopPresent c = false then 0 else s.loopCause c) ∧
    (∃ t, exec .fg2Loss s = .next t ∧ t.fld LOOP_STATUS LOOP_STATUS_FG2OFF = 1 ∧ (t.loopCh c).drive = 0 ∧ (t.loopCh c).code = 0) ∧
    ∃ t, exec .fg2Return s = .next t ∧ t.fld LOOP_STATUS LOOP_STATUS_FG2OFF = 0 ∧ AgreeBut [.regs] s t

/-! ### Bellows, the event recorder, updates and identity (20_bellows.md to 22_update_identity.md) -/

/-- O56. Module resets and the staged start (R440 to R447, R451): what a reset leaves, what defers it, and each step of the start;
indicators hold through a Bellows restart (R503, log entry 112). That a flash program which fails a load check is not taken into use is
the model's (log entry 133). That registers of the always-on domain and memory without power are kept or lost as here is R438 and R442; the rest of what a
reset leaves is the state after reset (log entry 5). -/
def Obligations.ResetsAndStart : Prop :=
  ∀ s : State,
    let was := s.fld SYS_RSTCAUSE SYS_RSTCAUSE_CAUSE
    let resets (c : Instr) (cause : Nat) : Prop :=
      ∃ t, exec c s = .next t ∧
        if s.isSet BLW_STATUS BLW_STATUS_PFAIL ∧ s.isSet EVR_STATUS EVR_STATUS_FLUSHING ∧ 5 ≤ cause then
          t.bellows.deferred = some (min cause (s.bellows.deferred.getD cause)) ∧ AgreeBut [.regs, .bellows, .outbox] s t ∧
            ∀ a, a ≠ BLW_CMD → t.reg a = s.reg a
        else ResetTo s t cause was ∧ t.reg BLW_PWRCYC = s.reg BLW_PWRCYC + (if cause ≤ 2 then 1 else 0) ∧
          t.recorder = s.recorder ∧ t.modes.forces = s.modes.forces ∧
          t.fld BLW_CMD BLW_CMD_RESET = 0 ∧
          ∀ a, alwaysOn a = true → a ∉ [BLW_STAGE, BLW_WDTIME, BLW_STATUS, BLW_PWRCYC, BLW_CMD] → t.reg a = s.reg a
    (exec (.moduleReset 0) s = .next s) ∧
    (∀ cause : BitVec 3, cause ≠ 0 → resets (.moduleReset cause) cause.toNat) ∧
    (s.isSet BLW_CMD BLW_CMD_RESET = true → exec .blwResetCommand s = .next s) ∧
    (s.isSet BLW_CMD BLW_CMD_RESET = false → resets .blwResetCommand 6 ∧
      (s.isSet BLW_STATUS BLW_STATUS_PFAIL = true → s.isSet EVR_STATUS EVR_STATUS_FLUSHING = true →
        ∃ t, exec .blwResetCommand s = .next t ∧ t.fld BLW_CMD BLW_CMD_RESET = 1)) ∧
    (s.isSet BLW_WDTIME BLW_WDTIME_EN = true → resets .runtimeWatchdogExpiry 5 ∧ exec .runtimeWatchdogEnable s = .next s ∧
      ∀ key : BitVec 8,
        if key = (if s.bellows.second then 0x5A else 0xA5) then ∃ t, exec (.runtimeWatchdogKey key) s = .next t ∧
          t.bellows.second = !s.bellows.second ∧ AgreeBut [.bellows] s t
        else resets (.runtimeWatchdogKey key) 5) ∧
    (s.isSet BLW_WDTIME BLW_WDTIME_EN = false → exec .runtimeWatchdogExpiry s = .next s ∧
      (∀ key, exec (.runtimeWatchdogKey key) s = .next s) ∧ ∃ t, exec .runtimeWatchdogEnable s = .next t ∧
        t.fld BLW_WDTIME BLW_WDTIME_EN = 1 ∧ t.bellows.second = false ∧ AgreeBut [.regs, .bellows] s t) ∧
    let right : BitVec 16 := BitVec.ofNat 16 (crc16 [4, 0])
    (∀ crc, crc ≠ right → exec (.consoleReset crc) s = .next s) ∧
    (s.bellows.restarting = true → exec (.consoleReset right) s = .next s) ∧
    (s.bellows.restarting = false →
      if s.keyPos = keyProg ∨ s.keyPos = keyStop then resets (.consoleReset right) 6 ∧
        ∃ t, exec (.consoleReset right) s = .next t ∧ t.outbox = .console 4 [] :: s.outbox
      else ∃ t, exec (.consoleReset right) s = .next t ∧ AgreeBut eventParts s t) ∧
    (∃ t, exec .powerUp s = .next t ∧ ResetTo s t 1 0 ∧ t.reg BLW_PWRCYC = s.reg BLW_PWRCYC + 1 ∧ t.recorder.log = s.recorder.log ∧
      t.recorder.buffer = []) ∧
    (s.isSet BLW_STATUS BLW_STATUS_PFAIL = true → ∃ t, exec .holdupExhausted s = .next t ∧ ResetTo s t 2 was) ∧
    (s.isSet BLW_STATUS BLW_STATUS_PFAIL = false → exec .holdupExhausted s = .next s) ∧
    (s.bellows.restarting = true → exec .bellowsWatchdogExpiry s = .next s ∧ ∃ t, exec .bellowsRestartEnd s = .next t ∧
      t.bellows.restarting = false ∧ t.fld BLW_STATUS BLW_STATUS_BRESTART = 1 ∧ Counted s t BLW_BRSTCNT ∧ t.recorder.held = [] ∧
      t.lamps = t.lampsNow) ∧
    (s.bellows.restarting = false → exec .bellowsRestartEnd s = .next s ∧ ∃ t, exec .bellowsWatchdogExpiry s = .next t ∧
      t.bellows.restarting = true ∧ t.fld UPD_TRIAL UPD_TRIAL_SECONDS = 0 ∧ t.reg SYS_RSTCAUSE = s.reg SYS_RSTCAUSE ∧
      t.lamps = s.lampsNow) ∧
    (s.startStage < 10 → ∃ t, exec .stagedStartAbort s = .next t ∧ t.reg SYS_RSTCAUSE = s.reg SYS_RSTCAUSE ∧ t.startStage = 0 ∧
      t.cores = State.reset.cores ∧ t.lanes = State.reset.lanes ∧ t.mem = s.mem.filter fun e => keepsContent e.1) ∧
    (10 ≤ s.startStage → exec .stagedStartAbort s = .next s) ∧
    (∀ f pass, s.stageAllowed = false → exec (.stagedStartStep f) s = .next s ∧ exec (.laneRelease pass) s = .next s) ∧
    (s.stageAllowed = true → ∀ f : StageFinding,
      let gives (stage : Nat) (keep : State → Prop) : Prop :=
        ∃ t, exec (.stagedStartStep f) s = .next t ∧ t.startStage = stage ∧ keep t
      let passes := f.good.getLsbD 0
      let flushed := if was = 2 ∧ !s.recorder.buffer.isEmpty then s.startFlush else s
      let checked : State := { flushed with calib := { s.calib with ulatOk := s.calib.ulatOk && f.calib.getLsbD 0,
                                                                    diOk := s.calib.diOk && f.calib.getLsbD 1,
                                                                    loopOk := s.calib.loopOk && f.calib.getLsbD 2 } }
      (s.startStage = 0 → ∀ u ok, checked.boot f = (u, ok) →
        (ok = false → exec (.stagedStartStep f) s = .next u) ∧ (ok = true → passes = true → gives 1 fun _ => True) ∧
        (ok = true → passes = false → gives 15 fun t => t.fld BLW_STAGE BLW_STAGE_ROMFAIL = 1)) ∧
      (s.startStage = 1 → passes = true → gives 2 fun t => AgreeBut [.regs] s t) ∧
      (s.startStage = 1 → passes = false → gives 15 fun t => t.fld BLW_STAGE BLW_STAGE_DRAMFAIL = 1) ∧
      (∀ n ∈ [2, 3, 4], s.startStage = n → gives (n + 1) fun t => AgreeBut [.regs] s t) ∧
      (s.startStage = 5 → gives 6 fun t => t.fld BLW_STAGE BLW_STAGE_RINGOK = f.good.toNat) ∧
      (s.startStage = 6 → gives 7 fun t => t.fld BLW_STAGE BLW_STAGE_BKBOK = f.good.toNat % 16) ∧
      (s.startStage = 7 → gives 8 fun t => t.fld BLW_STAGE BLW_STAGE_CPLOK = f.good.toNat % 16) ∧
      (s.startStage = 9 → gives 10 fun t => t.loop.fg2 = true ∧ t.fld LOOP_STATUS LOOP_STATUS_FG2OFF = 0 ∧
        if passes then t.dio.fg1 = true ∧ t.dio.startPending = true ∧ t.fld DIO_STATUS DIO_STATUS_FG1OFF = 0
        else t.fld DIO_STATUS DIO_STATUS_FG1OFF = 1 ∧ t.dio.fg1 = s.dio.fg1) ∧
      (s.startStage = 8 ∨ 10 ≤ s.startStage → exec (.stagedStartStep f) s = .next s)) ∧
    ∀ pass : BitVec 3, s.stageAllowed = true → s.startStage = 8 →
      let passing := (List.range 3).filter fun l => pass.getLsbD l
      ∃ t, exec (.laneRelease pass) s = .next t ∧ t.fld BLW_STAGE BLW_STAGE_LANEPASS = pass.toNat ∧
        (passing.length < 2 → t.startStage = 15 ∧ ∀ l < 3, t.laneState l = if pass.getLsbD l then s.laneState l else lsOut) ∧
        let b := s.activeBank 4
        let v := ((s.putFld BLW_STAGE BLW_STAGE_LANEPASS pass.toNat).setReg SYS_MODECFG s.modes.storedCfg).takeConfig
          (if h : b < 2 then s.update.configs[b] else ConfigData.empty)
        (2 ≤ passing.length → t.startStage = 9 ∧ t.modes.restart.isSome = true ∧
          t.program = (if (v.programFails s.change.flash).isNone then s.change.flash else Program.empty) ∧
          (∀ l < 3, t.laneState l = if pass.getLsbD l then lsAvailable else lsOut) ∧
          ∀ c : Fin 12, pass.getLsbD (laneOf c) = true → t.cores[c].run = .running ∧ t.cores[c].pc = 0)

/-- O57. Supplies, temperatures, measurements and the console (R448, R450, R452, R453, R456, R459, R460, R470). That operating time advances at
HEALTH_FORM, and the layout of an EVENTS request, are the model's (log entries 78 and 152). -/
def Obligations.SuppliesAndConsole : Prop :=
  ∀ s : State,
    (s.isSet BLW_STATUS BLW_STATUS_PFAIL = true → ∀ j, exec (.powerFailWarning j) s = .next s) ∧
    (s.isSet BLW_STATUS BLW_STATUS_PFAIL = false → ∀ j, ∃ t, exec (.powerFailWarning j) s = .next t ∧
      t.fld BLW_STATUS BLW_STATUS_PFAIL = 1 ∧ t.fld BLW_STATUS BLW_STATUS_PFEVT = 1 ∧ Counted s t BLW_PFCNT ∧
      t.fld EVR_STATUS EVR_STATUS_FLUSHING = 1 ∧ t.regPair BLW_ETOTL BLW_ETOTH = (s.regPair BLW_ETOTL BLW_ETOTH + j) % 2 ^ 64 ∧
      t.bellows.savedOptime = s.optime) ∧
    (s.isSet BLW_STATUS BLW_STATUS_PFAIL = true → ∀ ms, ∃ t, exec (.powerFailEnd ms) s = .next t ∧
      t.fld BLW_STATUS BLW_STATUS_PFAIL = 0 ∧ AgreeBut eventParts s t) ∧
    (s.isSet BLW_STATUS BLW_STATUS_PFAIL = false → ∀ ms, exec (.powerFailEnd ms) s = .next s) ∧
    (∀ (r : Fin 12) (mv : BitVec 16), ∃ t, exec (.railFault r mv) s = .next t ∧
      (s.bellows.restarting = false → t.fld (BLW_RAIL r) BLW_RAIL_MV = mv.toNat ∧ t.isSet (BLW_RAIL r) BLW_RAIL_OUT = !s.railGood r mv.toNat) ∧
      (s.bellows.restarting = true → t.reg (BLW_RAIL r) = s.reg (BLW_RAIL r)) ∧
      (s.railGood r mv.toNat = false →
        (4 ≤ r.val → r.val < 9 → ResetTo s t 3 (s.fld SYS_RSTCAUSE SYS_RSTCAUSE_CAUSE)) ∧
        (r.val = 1 → s.isSet BLW_STATUS BLW_STATUS_PFAIL = true → ResetTo s t 2 (s.fld SYS_RSTCAUSE SYS_RSTCAUSE_CAUSE)) ∧
        (9 ≤ r.val → t.fld BLW_STATUS BLW_STATUS_RAILF = 1 ∧ Counted s t BLW_RAILCNT ∧
          (s.laneState (r.val - 9) = lsAvailable → s.otherRejoins (r.val - 9) = false →
            t.laneState (r.val - 9) = lsFenced ∧ t.fld (LANE_LSTATE (r.val - 9)) LANE_LSTATE_CAUSE = 3)))) ∧
    (∀ temps : Vector (BitVec 12) 8,
      let critical : Prop := ∃ i : Fin 8, ∃ k, (tempLevels i).2.2.1 = some k ∧ k ≤ temps[i].toInt
      (s.bellows.restarting = true → ¬ critical → exec (.tempSample temps) s = .next s) ∧
      (critical → ∃ t, exec (.tempSample temps) s = .next t ∧ ResetTo s t 4 (s.fld SYS_RSTCAUSE SYS_RSTCAUSE_CAUSE)) ∧
      (s.bellows.restarting = false → ∃ t, exec (.tempSample temps) s = .next t ∧
        (∀ i : Fin 8, t.fld (BLW_TEMP i) BLW_TEMP_TEMP = temps[i].toNat ∧
          t.fld (BLW_TEMP i) BLW_TEMP_LEVEL = tempLevel i (s.fld (BLW_TEMP i) BLW_TEMP_LEVEL) temps[i].toInt) ∧
        t.fld BLW_OPCAP BLW_OPCAP_EFF = min (s.fld BLW_OPCAP BLW_OPCAP_USER) (t.fld BLW_OPCAP BLW_OPCAP_THERM) ∧
        ((∀ i < 5, t.fld (BLW_TEMP i) BLW_TEMP_LEVEL < 2) → t.fld BLW_OPCAP BLW_OPCAP_THERM = 2))) ∧
    (s.bellows.restarting = true → ∀ (w crc : BitVec 16) (b : Bool) (j start count : Nat),
      ∀ c ∈ [Instr.holdtest w, .healthForm b, .energyTotalSave j, .consoleHealth crc, .consoleIdent crc, .consoleEvents crc start count],
        exec c s = .next s) ∧
    let right (cmd : Nat) (data : List Byte) : BitVec 16 := BitVec.ofNat 16 (crc16 (leBytes 1 cmd ++ leBytes 1 data.length ++ data))
    (∀ crc, (crc ≠ right 1 [] → exec (.consoleHealth crc) s = .next s) ∧ (crc ≠ right 2 [] → exec (.consoleIdent crc) s = .next s) ∧
      ∀ start count, crc ≠ right 3 (leBytes 8 start ++ leBytes 2 count) → exec (.consoleEvents crc start count) s = .next s) ∧
    (s.bellows.restarting = false →
      (∀ w : BitVec 16, ∃ t, exec (.holdtest w) s = .next t ∧ t.fld BLW_CMD BLW_CMD_HOLDTEST = 0 ∧
        (s.isSet BLW_STATUS BLW_STATUS_PFAIL = true → t.reg BLW_HOLDUP = s.reg BLW_HOLDUP) ∧
        (s.isSet BLW_STATUS BLW_STATUS_PFAIL = false → t.fld BLW_HOLDUP BLW_HOLDUP_HTIME = w.toNat ∧
          t.fld BLW_HOLDUP BLW_HOLDUP_VALID = 1 ∧ (w.toNat < 200 → t.fld BLW_STATUS BLW_STATUS_HOLDLOW = 1))) ∧
      (∀ b, (s.reg BLW_OPTIMEH).toNat < 256 → ∃ t, exec (.healthForm b) s = .next t ∧ t.optime = (s.optime + 1) % 2 ^ 40 ∧
        t.reg BLW_HEALTH = BitVec.ofNat 32 (s.healthWord b) ∧ (b = true → t.fld BLW_STATUS BLW_STATUS_CLKDIFF = 1)) ∧
      (∀ j, ∃ t, exec (.energyTotalSave j) s = .next t ∧
        t.regPair BLW_ETOTL BLW_ETOTH = (s.regPair BLW_ETOTL BLW_ETOTH + j) % 2 ^ 64) ∧
      (∃ t bytes, exec (.consoleHealth (right 1 [])) s = .next t ∧ t.outbox = .console 1 bytes :: s.outbox ∧ bytes.length = 84 ∧
        field bytes 0 4 = (s.reg BLW_HEALTH).toNat ∧ (∀ r < 12, field bytes (4 + 4 * r) 4 = (s.reg (BLW_RAIL r)).toNat) ∧
        ∀ i < 8, field bytes (52 + 4 * i) 4 = (s.reg (BLW_TEMP i)).toNat) ∧
      (∃ t, exec (.consoleIdent (right 2 [])) s = .next t ∧ AgreeBut [.outbox] s t ∧
        t.outbox = .console 2 (s.capBytes ++ leBytes 8 s.serial ++ leBytes 4 (s.reg SYS_RSTCAUSE).toNat) :: s.outbox) ∧
      ∀ start count, ∃ t, exec (.consoleEvents (right 3 (leBytes 8 start ++ leBytes 2 count)) start count) s = .next t ∧ AgreeBut [.outbox] s t ∧
        t.outbox = .console 3 (((s.recorder.log ++ s.recorder.buffer).filter fun r =>
          decide (s.evrFirst ≤ r.seq ∧ start ≤ r.seq ∧ r.seq < start + count)).flatMap EvRec.bytes) :: s.outbox)

/-- O58. The event recorder (R439, R464 to R471): what a raised event takes and leaves, the credit of tokens, the flush, the log blocks,
reading, and clearing. -/
def Obligations.EventRecorder : Prop :=
  ∀ s : State,
    (∀ (source : BitVec 8) (code : BitVec 16) (sev : BitVec 2) (safety : Bool) (params : List Word),
      let raises := exec (.eventRaise source code sev safety params) s
      let b := s.bucketOf source.toNat code.toNat
      (s.bellows.restarting = true → ∃ t, raises = .next t ∧ AgreeBut [.recorder] s t ∧ t.recorder.buffer = s.recorder.buffer ∧
        t.recorder.held.length = s.recorder.held.length + 1) ∧
      (s.bellows.restarting = false → (∀ k ∈ s.overridesFor source.toNat code.toNat, s.overrideConsistent k = true) →
        (1000 ≤ b.tokens → s.recorder.buffer.length < 4096 → ∃ t r, raises = .next t ∧
          t.recorder.buffer = s.recorder.buffer ++ [r] ∧ r.seq = s.evrNext ∧ r.code = code.toNat ∧ r.source = source.toNat ∧
          r.optime = s.optime ∧ r.supp = min b.suppressed 65535 ∧ r.flags % 4 = sev.toNat ∧
          r.params = (params.take 6).map BitVec.toNat ∧ t.fld EVR_BUFCNT EVR_BUFCNT_BUFCNT = s.recorder.buffer.length + 1 ∧
          (t.bucketOf source.toNat code.toNat).tokens = b.tokens - 1000 ∧ (t.bucketOf source.toNat code.toNat).suppressed = 0 ∧
          (2 ≤ sev.toNat → t.fld EVR_STATUS EVR_STATUS_FLUSHING = 1) ∧
          (2 ≤ sev.toNat → source.toNat < 0x80 → t.fld UPD_TRIAL UPD_TRIAL_SECONDS = 0)) ∧
        (1000 ≤ b.tokens → 4096 ≤ s.recorder.buffer.length → ∃ t, raises = .next t ∧ t.recorder.buffer = s.recorder.buffer ∧
          Counted s t EVR_BUFLOST ∧ t.fld EVR_STATUS EVR_STATUS_LOST = 1 ∧ t.recorder.overflowed = true) ∧
        (b.tokens < 1000 → ∃ t, raises = .next t ∧ t.recorder.buffer = s.recorder.buffer ∧ Counted s t EVR_SUPPTOT ∧
          (t.bucketOf source.toNat code.toNat).suppressed = b.suppressed + 1))) ∧
    (s.bellows.restarting = true → exec .tokenCredit s = .next s ∧ (∀ n, exec (.flushComplete n) s = .next s) ∧
      ∀ k ok, exec (.logBlockErase k ok) s = .next s) ∧
    (s.bellows.restarting = false →
      (∃ t, exec .tokenCredit s = .next t ∧ AgreeBut [.recorder] s t ∧ t.recorder.buffer = s.recorder.buffer ∧
        ∀ b ∈ s.recorder.buckets, (∀ x ∈ s.recorder.buckets, x.source = b.source → x.code = b.code → x = b) →
          let rate := s.rateOf b.source b.code
          t.bucketOf b.source b.code = { b with tokens := min (b.tokens + rate.1) (1000 * rate.2) }) ∧
      (s.isSet EVR_STATUS EVR_STATUS_FLUSHING = false → ∀ n, exec (.flushComplete n) s = .next s) ∧
      (s.isSet EVR_STATUS EVR_STATUS_FLUSHING = true → s.recorder.clearWaits = false →
        (s.bellows.deferred = none → ∃ t, exec (.flushComplete 0) s = .next t ∧ t.recorder.log = s.recorder.log ++ s.recorder.buffer ∧
          t.recorder.buffer = [] ∧ t.fld EVR_STATUS EVR_STATUS_FLUSHING = 0 ∧ t.fld EVR_CMD EVR_CMD_FLUSH = 0) ∧
        ∀ c, s.bellows.deferred = some c → c < 8 → ∃ t, exec (.flushComplete 0) s = .next t ∧
          ResetTo s t c (s.fld SYS_RSTCAUSE SYS_RSTCAUSE_CAUSE) ∧ t.recorder.log = s.recorder.log ++ s.recorder.buffer) ∧
      (4 ≤ s.recorder.erasedAhead → ∀ k ok, exec (.logBlockErase k ok) s = .next s) ∧
      (s.recorder.erasedAhead < 4 → ∀ k,
        (∃ t, exec (.logBlockErase k true) s = .next t ∧ t.recorder.log = s.recorder.log.drop 1024 ∧
          t.recorder.erases = s.recorder.erases + 1) ∧
        ∃ t, exec (.logBlockErase k false) s = .next t ∧ Counted s t EVR_BADBLK ∧ t.recorder.log = s.recorder.log ∧
          t.recorder.retired = s.recorder.retired + 1)) ∧
    (∃ t, exec .evrFlush s = .next t ∧ t.fld EVR_STATUS EVR_STATUS_FLUSHING = 1 ∧ t.fld EVR_CMD EVR_CMD_FLUSH = 1 ∧
      AgreeBut [.regs] s t) ∧
    (let seq := s.regPair EVR_RDSEQL EVR_RDSEQH
     let result (crc : Bool) (res : Nat) (keep : State → Prop) : Prop :=
       ∃ t, exec (.evrRead crc) s = .next t ∧ t.fld EVR_RDSTAT EVR_RDSTAT_RES = res ∧ keep t
     ∀ crc,
       (s.evrNext ≤ seq → result crc 1 fun t => t.free = s.free) ∧
       (seq < s.evrNext → s.findRecord seq = none → result crc 2 fun t => t.free = s.free) ∧
       (seq < s.evrNext → ∀ r, s.findRecord seq = some r → result true 0 (fun t =>
           ∀ i < 12, (t.reg (EVR_RDATA i)).toNat = field r.bytes (4 * i) 4) ∧ result false 3 fun t => t.free = s.free + 12)) ∧
    (s.isSet EVR_CMD EVR_CMD_CLEAR = true → exec .evrClear s = .next s) ∧
    (s.eff = effProg ∧ s.keyPos = keyProg →
      (s.isSet EVR_CMD EVR_CMD_CLEAR = false → s.isSet EVR_STATUS EVR_STATUS_FLUSHING = true → ∃ t, exec .evrClear s = .next t ∧ t.recorder.clearWaits = true ∧
        t.fld EVR_CMD EVR_CMD_CLEAR = 1 ∧ t.evrFirst = s.evrFirst) ∧
      (s.isSet EVR_CMD EVR_CMD_CLEAR = false → s.isSet EVR_STATUS EVR_STATUS_FLUSHING = false → s.recorder.buffer.length < 4096 →
        (s.reg EVR_NEXTH).toNat < 65536 →
        (s.reg EVR_FIRSTH).toNat < 65536 → ∃ t r, exec .evrClear s = .next t ∧ t.evrFirst = s.evrNext ∧
          t.recorder.buffer = s.recorder.buffer ++ [r] ∧ r.seq = s.evrNext ∧ r.source = 0x31 ∧ r.code = 0x0101 ∧
          t.fld EVR_CMD EVR_CMD_CLEAR = 0)) ∧
    (¬ (s.eff = effProg ∧ s.keyPos = keyProg) → ∃ t, exec .evrClear s = .next t ∧ t.evrFirst = s.evrFirst ∧ AgreeBut eventParts s t)

/-- O59. Updates, recovery mode, keys and attestation (R218, R477 to R481, R484 to R486, R489, R490): the state of the siding, of the banks and
of the key slots that each command leaves. -/
def Obligations.UpdatesAndIdentity : Prop :=
  ∀ s : State,
    let off := (s.reg UPD_OFF).toNat
    let len := (s.reg UPD_LEN).toNat
    let refused (c : Instr) : Prop := ∃ t, exec c s = .next t ∧ AgreeBut eventParts s t ∧ t.reg UPD_SIDING = s.reg UPD_SIDING
    let right : Prop := s.reg UPD_RESP = s.reg UPD_CHAL ∧ s.keyPos = keyProg
    (s.update.writing.isSome = true → exec .sidingWrite s = .next s) ∧
    (s.update.writing = none → s.siding = sdPending ∨ len = 0 ∨ 0x4000000 < off + len → refused .sidingWrite) ∧
    (s.update.writing = none → s.siding ≠ sdPending → 0 < len → off + len ≤ 0x4000000 → ∃ t, exec .sidingWrite s = .next t ∧
      t.siding = sdLoaded ∧ t.sidingNext = 0 ∧ t.fld UPD_CMD UPD_CMD_WRITE = 1 ∧
      t.update.writing = some ((s.reg UPD_SRC).toNat * 256, off, len) ∧ t.mem = s.mem) ∧
    (s.bellows.restarting = true ∨ s.update.writing = none → ∀ ok, exec (.sidingWriteDone ok) s = .next s) ∧
    (s.bellows.restarting = false → ∀ src o n, s.update.writing = some (src, o, n) →
      (∃ t, exec (.sidingWriteDone false) s = .next t ∧ t.fld UPD_STATUS UPD_STATUS_WERR = 1 ∧ t.update.writing = none ∧ t.mem = s.mem) ∧
      ∃ t, exec (.sidingWriteDone true) s = .next t ∧ t.fld UPD_STATUS UPD_STATUS_WDONE = 1 ∧ t.update.writing = none ∧
        t.fld UPD_CMD UPD_CMD_WRITE = 0 ∧ (o + n ≤ 0x4000000 → ∀ i < n, t.readByte (sidingBase + o + i) = s.readByte (src + i))) ∧
    (s.siding = sdPending → refused .updDiscard) ∧
    (s.siding ≠ sdPending → ∃ t, exec .updDiscard s = .next t ∧ t.siding = sdEmpty) ∧
    (s.cpl.member = false →
      (s.siding ≠ sdLoaded → s.siding ≠ sdArmed → ∀ now ok, refused (.apply now ok)) ∧
      (s.siding = sdLoaded ∨ s.siding = sdArmed → ∀ now ok,
        (s.update.waiting ≠ some .apply → s.keyPos = keyProg → s.chg = chgNone → (∀ c < 5, s.inTrial c = false) →
          ∃ t, exec (.apply now ok) s = .next t ∧ t.siding = sdArmed ∧ t.update.waiting = some .apply) ∧
        (s.update.waiting ≠ some .apply → s.keyPos ≠ keyProg → ∃ t, exec (.apply now ok) s = .next t ∧ t.siding = s.siding ∧
          t.fld UPD_SIDING UPD_SIDING_RESULT = 12) ∧
        (s.update.waiting = some .apply → ¬ right → ∃ t, exec (.apply now ok) s = .next t ∧ t.siding = sdLoaded ∧
          t.update.waiting = none ∧ t.fld UPD_SIDING UPD_SIDING_RESULT = if s.applyReason ok = 0 then 12 else s.applyReason ok) ∧
        (s.update.waiting = some .apply → right → s.chg = chgNone → (∀ c < 5, s.inTrial c = false) →
          (∃ t, exec (.apply false ok) s = .next t ∧ t.siding = sdPending ∧ t.update.waiting = none) ∧
          (s.isSet BLW_STATUS BLW_STATUS_PFAIL = false → ∃ t, exec (.apply true ok) s = .next t ∧ t.siding = sdPending ∧
            t.fld SYS_RSTCAUSE SYS_RSTCAUSE_CAUSE = 7)))) ∧
    (let confirms (c : Instr) : Prop := ∃ t, exec c s = .next t ∧
        ((∀ k < 5, s.inTrial k = false) → t = s) ∧
        ((∃ k < 5, s.inTrial k = true) → t.fld UPD_STATUS UPD_STATUS_CONFIRMED = 1 ∧ t.fld UPD_STATUS UPD_STATUS_TRIAL = 0 ∧
          ∀ k < 5, s.inTrial k = true → t.bankState' k (s.activeBank k) = bkConfirmed)
     let due : Prop := s.bellows.restarting = false ∧ 600 ≤ s.fld UPD_TRIAL UPD_TRIAL_SECONDS ∧ s.update.journalTrial = false
     (s.eff = effProg → confirms .updConfirm) ∧ (s.eff ≠ effProg → refused .updConfirm) ∧
     (due → confirms .trialConfirm) ∧ (¬ due → exec .trialConfirm s = .next s)) ∧
    (s.update.waiting ≠ some .recover → s.keyPos = keyProg → ∃ t, exec .updRecover s = .next t ∧ t.update.waiting = some .recover) ∧
    (s.update.waiting ≠ some .recover → s.keyPos ≠ keyProg → refused .updRecover) ∧
    (s.update.waiting = some .recover → right → ∃ t, exec .updRecover s = .next t ∧ t.update.recovery = true ∧ t.startStage = 0 ∧
      t.cores = State.reset.cores ∧ t.reg SYS_RSTCAUSE = s.reg SYS_RSTCAUSE) ∧
    (s.update.waiting = some .recover → ¬ right → ∃ t, exec .updRecover s = .next t ∧ t.update.recovery = s.update.recovery ∧
      t.update.waiting = none) ∧
    (s.update.recovery = false → exec .recoveryAnnounce s = .next s ∧ (∀ o d ok, exec (.recoveryBlock o d ok) s = .next s) ∧
      ∀ n images, exec (.recoveryEnd n images) s = .next s) ∧
    (s.update.recovery = true →
      (∃ t, exec .recoveryAnnounce s = .next t ∧
        t.outbox = .recovery ([0x01, 0] ++ leBytes 8 s.serial ++ leBytes 4 (s.fld SYS_COMPAT SYS_COMPAT_COMPAT)) :: s.outbox) ∧
      (∀ o d ok,
        let good : Prop := ok = true ∧ o % 1024 = 0 ∧ o + 1024 ≤ 0x4000000 ∧ d.length = 1024
        (good → ∃ t, exec (.recoveryBlock o d ok) s = .next t ∧ (∀ i < 1024, t.readByte (sidingBase + o + i) = d.getD i 0) ∧
          t.outbox = .recovery ([0x03, 0, 0, 0] ++ leBytes 4 o) :: s.outbox) ∧
        (¬ good → ∃ t, exec (.recoveryBlock o d ok) s = .next t ∧ t.mem = s.mem ∧
          t.outbox = .recovery ([0x03, 0, 1, 0] ++ leBytes 4 o) :: s.outbox)) ∧
      ∀ n images,
        let form : Prop := n ≤ 0x4000000 ∧ images ≠ [] ∧ images.length ≤ 5 ∧ ofLe (s.bytes sidingBase 4) = images.length
        (¬ form → ∃ t, exec (.recoveryEnd n images) s = .next t ∧ AgreeBut [.outbox] s t ∧
          t.outbox = .recovery ([0x05, 0, 1, 0] ++ leBytes 4 0) :: s.outbox) ∧
        (form → ∀ i r, s.recoveryCheck images = some (i, r) → ∃ t, exec (.recoveryEnd n images) s = .next t ∧ AgreeBut [.outbox] s t ∧
          t.outbox = .recovery ([0x05, 0] ++ leBytes 1 r ++ [0] ++ leBytes 4 i) :: s.outbox) ∧
        (form → s.recoveryCheck images = none → ∃ t, exec (.recoveryEnd n images) s = .next t ∧ t.update.recovery = false ∧
          t.fld UPD_STATUS UPD_STATUS_RECOVERED = 1 ∧ t.fld SYS_RSTCAUSE SYS_RSTCAUSE_CAUSE = 7 ∧ t.cores = State.reset.cores)) ∧
    (∀ k : Fin 4,
      let slot := s.fld (SEC_PKEY k) SEC_PKEY_SLOT
      let digest := digestWord (s.secKey.flatMap fun w => leBytes 4 w.toNat)
      let denied (c : Instr) : Prop := ∃ t, exec c s = .next t ∧ t.fld SEC_STATUS SEC_STATUS_REFUSED = 1 ∧
        t.fld (SEC_PKEY k) SEC_PKEY_SLOT = slot
      (slot ≠ 0 → denied (.enroll k)) ∧ (slot ≠ 1 → denied (.revoke k)) ∧
      (slot = 0 →
        (s.update.waiting ≠ some (.enroll k) → s.keyPos ≠ keyProg → denied (.enroll k)) ∧
        (s.update.waiting ≠ some (.enroll k) → s.keyPos = keyProg → ∃ t, exec (.enroll k) s = .next t ∧
          t.update.waiting = some (.enroll k) ∧ t.reg UPD_CHAL = digest) ∧
        (s.update.waiting = some (.enroll k) → right → s.reg UPD_CHAL = digest →
          ∃ t, exec (.enroll k) s = .next t ∧ t.fld (SEC_PKEY k) SEC_PKEY_SLOT = 1 ∧ t.update.waiting = none) ∧
        (s.update.waiting = some (.enroll k) → ¬ right → denied (.enroll k))) ∧
      (slot = 1 →
        (s.update.waiting ≠ some (.revoke k) → s.keyPos = keyProg → ∃ t, exec (.revoke k) s = .next t ∧
          t.update.waiting = some (.revoke k) ∧ t.reg UPD_CHAL = s.keyDigestOf k) ∧
        (s.update.waiting = some (.revoke k) → right → ∃ t, exec (.revoke k) s = .next t ∧ t.fld (SEC_PKEY k) SEC_PKEY_SLOT = 2) ∧
        (s.update.waiting = some (.revoke k) → ¬ right → denied (.revoke k)))) ∧
    (s.isSet SEC_CMD SEC_CMD_ATTEST = true → exec .attest s = .next s) ∧
    (s.isSet SEC_CMD SEC_CMD_ATTEST = false → ∃ t, exec .attest s = .next t ∧ t.fld SEC_CMD SEC_CMD_ATTEST = 1 ∧
      t.update.attest = some ((List.range 8).map fun w => s.reg (SEC_NONCE w))) ∧
    (s.bellows.restarting = true ∨ s.update.attest = none → exec .attestComplete s = .next s) ∧
    (s.bellows.restarting = false → ∀ nonce, s.update.attest = some nonce → ∃ t, exec .attestComplete s = .next t ∧
      t.fld SEC_STATUS SEC_STATUS_RPTDONE = 1 ∧ t.fld SEC_CMD SEC_CMD_ATTEST = 0 ∧ t.update.attest = none ∧
      ∀ i < 82, (t.reg (SEC_RPT i)).toNat = field (s.report nonce) (4 * i) 4)

/-! ### The state after reset -/

/-- O60. The state after reset is canonical, and holds what the manual gives: every register at its reset value but the three bank states of a
spare module, no command waits, no memory is listed, every core stands, no triad runs, and nothing has been sent. That the
first restart is warm, and the values of the three registers, are R202, R204 and R506. -/
def Obligations.ResetState : Prop :=
  State.reset.canonical = true ∧ State.reset.pending = [] ∧ State.reset.mem = [] ∧ State.reset.ue = [] ∧ State.reset.outbox = [] ∧
    State.reset.eff = effStop ∧ State.reset.siding = sdEmpty ∧ State.reset.chg = chgNone ∧
    (∀ a, a ∉ [UPD_COMP_STATE 0, UPD_COMP_STATE 1, UPD_COMP_STATE 2] → State.reset.reg a = resetOf a) ∧
    (∀ c < 3, State.reset.bankState' c 0 = bkConfirmed ∧ State.reset.activeBank c = 0) ∧
    (∀ c : Fin 12, State.reset.cores[c].run ≠ .running) ∧ (∀ ch < 16, State.reset.sessionState ch = 0) ∧
    State.reset.modes.restart = some .warm ∧ State.reset.bridge.entries = [] ∧ State.reset.recorder.log = []
end

