-- ==== Sys2Proof/Laws/Anvil.lean ====
section
/-!
SUPPORT. The strike test of the Anvils (R198): logic that works gives the verdicts expected, and logic that does not gives others.
-/

namespace Sys2Proof.Machine

set_option Elab.async false

/-- Where a list and the list with one place changed first differ. -/
theorem firstDiff_set (l : List Byte) (i o : Nat) (x : Byte) (hi : i < l.length) (hx : x ≠ l.getD i 0) :
    firstDiff l (l.set i x) o = some (o + i) ∧ firstDiff (l.set i x) l o = some (o + i) := by
  induction l generalizing i o with
  | nil => exact absurd hi (Nat.not_lt_zero _)
  | cons a as ih =>
    cases i with
    | zero =>
      have h : x ≠ a := hx
      simp [firstDiff, h, h.symm]
    | succ j =>
      have h := ih j (o + 1) (by simpa using hi) (by simpa using hx)
      simp only [List.set_cons_succ, firstDiff, if_true]
      rw [h.1, h.2, Nat.add_right_comm, Nat.add_assoc]
      exact ⟨rfl, rfl⟩

theorem ne_of_firstDiff {l m : List Byte} {o i : Nat} (h : firstDiff l m o = some i) : l ≠ m := by
  intro e
  subst e
  induction l generalizing o with
  | nil => cases h
  | cons a as ih =>
    simp only [firstDiff, if_true] at h
    exact ih h

theorem strikeBytes_length (k : Nat) : (strikeBytes k).length = 128 := by
  simp [strikeBytes, leBytes]

theorem strikeOffset_lt {p : Nat} (h : p < 640) : strikeOffset p < 128 := by
  unfold strikeOffset
  split <;> omega

/-- Inverting a bit changes the byte. -/
theorem xor_bit_ne (b : Byte) (i : Nat) (h : i < 8) : b ^^^ BitVec.ofNat 8 (2 ^ i) ≠ b := by
  intro e
  have h0 : BitVec.ofNat 8 (2 ^ i) = 0 := by
    have := congrArg (b ^^^ ·) e
    simpa [← BitVec.xor_assoc] using this
  clear e b
  revert i
  decide

theorem strikeFlipped_diff (k : Nat) :
    firstDiff (strikeBytes k) (strikeFlipped k (k % 640)) 0 = some (strikeOffset (k % 640)) ∧
    firstDiff (strikeFlipped k (k % 640)) (strikeBytes k) 0 = some (strikeOffset (k % 640)) := by
  have h := firstDiff_set (strikeBytes k) (strikeOffset (k % 640)) 0 _
    (by rw [strikeBytes_length]; exact strikeOffset_lt (Nat.mod_lt _ (by decide)))
    (xor_bit_ne ((strikeBytes k).getD (strikeOffset (k % 640)) 0) (k % 640 % 8) (Nat.mod_lt _ (by decide)))
  rw [Nat.zero_add] at h
  exact h

/-- The two votes of the strike test give the verdicts expected. -/
theorem strike_verdicts (k : Nat) : (strikeTriad k, strikePair k) = strikeExpected k := by
  have h := (strikeFlipped_diff k).1
  have n := ne_of_firstDiff h
  have n' := n.symm
  have l := strikeOffset_lt (Nat.mod_lt k (by decide : 640 > 0))
  have c : k % 3 = 0 ∨ k % 3 = 1 ∨ k % 3 = 2 := by omega
  unfold strikeTriad strikePair strikeExpected
  obtain c | c | c := c <;>
    simp [c, judge, equalPair, strikeSeen, Seen.same, Seen.diff, allLanes, diffPos, h, n, n', List.zipIdx] <;>
    omega

/-- Logic that works passes the strike test of every frame. -/
theorem strikePasses_working (k : Nat) : strikePasses k true = true := by
  unfold strikePasses
  rw [if_pos rfl, strike_verdicts]
  exact beq_self_eq_true _

/-- Logic that gives no verdict fails it. -/
theorem strikePasses_broken (k : Nat) : strikePasses k false = false := by
  simp [strikePasses, strikeExpected]

@[simp] theorem strikePasses_eq (k : Nat) (works : Bool) : strikePasses k works = works := by
  cases works
  · exact strikePasses_broken k
  · exact strikePasses_working k

end Sys2Proof.Machine
end

