-- ==== Sys2Proof/Laws/Sparse.lean ====
section
/-!
SUPPORT. Laws of sparse data: reading after writing, and the canonical form.
-/

namespace Sys2Proof.Machine

set_option Elab.async false

section Lookup
variable {V : Type}

theorem lookup_cons_ne (m : List (Nat × V)) (j x : Nat) (v : V) (h : x ≠ j) : ((j, v) :: m).lookup x = m.lookup x := by
  have : (x == j) = false := by simp [h]
  simp [List.lookup, this]

theorem lookup_cons_self (m : List (Nat × V)) (j : Nat) (v : V) : ((j, v) :: m).lookup j = some v := by simp

theorem lookup_filter_ne (m : List (Nat × V)) (k x : Nat) (h : x ≠ k) :
    (m.filter fun e => e.1 != k).lookup x = m.lookup x := by
  induction m with
  | nil => rfl
  | cons e m ih =>
    obtain ⟨j, v⟩ := e
    by_cases hj : j = k
    · subst hj
      rw [lookup_cons_ne m j x v h]
      simpa using ih
    · rw [List.filter_cons_of_pos (by simp [hj])]
      by_cases hx : x = j
      · subst hx; rw [lookup_cons_self, lookup_cons_self]
      · rw [lookup_cons_ne _ j x v hx, lookup_cons_ne _ j x v hx, ih]

theorem lookup_filter_self (m : List (Nat × V)) (k : Nat) : (m.filter fun e => e.1 != k).lookup k = none := by
  induction m with
  | nil => rfl
  | cons e m ih =>
    obtain ⟨j, v⟩ := e
    by_cases hj : j = k
    · subst hj; simpa using ih
    · rw [List.filter_cons_of_pos (by simp [hj]), lookup_cons_ne _ j k v (fun h => hj h.symm), ih]

theorem lookup_put_ne (m : List (Nat × V)) (k x : Nat) (v : V) (h : x ≠ k) : (sparsePut k v m).lookup x = m.lookup x := by
  induction m with
  | nil => exact lookup_cons_ne [] k x v h
  | cons e m ih =>
    obtain ⟨j, u⟩ := e
    unfold sparsePut
    split
    · exact lookup_cons_ne _ k x v h
    · by_cases hx : x = j
      · subst hx; rw [lookup_cons_self, lookup_cons_self]
      · rw [lookup_cons_ne _ j x u hx, lookup_cons_ne _ j x u hx, ih]

theorem lookup_put_self (m : List (Nat × V)) (k : Nat) (v : V) (h : m.lookup k = none) :
    (sparsePut k v m).lookup k = some v := by
  induction m with
  | nil => exact lookup_cons_self [] k v
  | cons e m ih =>
    obtain ⟨j, u⟩ := e
    have hj : k ≠ j := by
      intro hc
      subst hc
      rw [lookup_cons_self] at h
      cases h
    rw [lookup_cons_ne _ j k u hj] at h
    unfold sparsePut
    split
    · exact lookup_cons_self _ k v
    · rw [lookup_cons_ne _ j k u hj, ih h]

end Lookup

section Sparse
variable {V : Type} [DecidableEq V] (d : Nat → V)

/-- Reading what was written. -/
theorem sparseGet_set_self (m : List (Nat × V)) (k : Nat) (v : V) : sparseGet d (sparseSet d m k v) k = v := by
  unfold sparseGet sparseSet
  dsimp only
  split
  · rename_i h; simp [lookup_filter_self, h]
  · simp [lookup_put_self _ _ _ (lookup_filter_self m k)]

/-- Reading beside what was written. -/
theorem sparseGet_set_ne (m : List (Nat × V)) (k x : Nat) (v : V) (h : x ≠ k) :
    sparseGet d (sparseSet d m k v) x = sparseGet d m x := by
  unfold sparseGet sparseSet
  dsimp only
  split
  · rw [lookup_filter_ne m k x h]
  · rw [lookup_put_ne _ k x v h, lookup_filter_ne m k x h]

/-- Reading after writing. -/
theorem sparseGet_set (m : List (Nat × V)) (k x : Nat) (v : V) :
    sparseGet d (sparseSet d m k v) x = if x = k then v else sparseGet d m x := by
  split
  · rename_i h; subst h; exact sparseGet_set_self d m x v
  · rename_i h; exact sparseGet_set_ne d m k x v h

/-! ### The canonical form -/

theorem sparseWf_cons (k : Nat) (v : V) (m : List (Nat × V)) :
    sparseWf d ((k, v) :: m) = true ↔ v ≠ d k ∧ (∀ e ∈ m, k < e.1) ∧ sparseWf d m = true := by
  simp [sparseWf, and_assoc]

/-- Dropping entries keeps the form. -/
theorem sparseWf_filter (p : Nat × V → Bool) (m : List (Nat × V)) (h : sparseWf d m = true) : sparseWf d (m.filter p) = true := by
  induction m with
  | nil => rfl
  | cons e m ih =>
    obtain ⟨j, u⟩ := e
    obtain ⟨h1, h2, h3⟩ := (sparseWf_cons d j u m).1 h
    by_cases hp : p (j, u) = true
    · rw [List.filter_cons_of_pos hp]
      exact (sparseWf_cons d j u _).2 ⟨h1, fun e he => h2 e ((List.mem_filter.1 he).1), ih h3⟩
    · rw [List.filter_cons_of_neg hp]
      exact ih h3

omit [DecidableEq V] in
theorem mem_sparsePut (k : Nat) (v : V) (m : List (Nat × V)) (e : Nat × V) : e ∈ sparsePut k v m ↔ e = (k, v) ∨ e ∈ m := by
  induction m with
  | nil => simp [sparsePut]
  | cons f m ih =>
    unfold sparsePut
    split
    · simp
    · simp only [List.mem_cons, ih, or_left_comm]

theorem sparseWf_put (k : Nat) (v : V) (m : List (Nat × V)) (h : sparseWf d m = true) (hv : v ≠ d k)
    (hk : ∀ e ∈ m, e.1 ≠ k) : sparseWf d (sparsePut k v m) = true := by
  induction m with
  | nil => simp [sparsePut, sparseWf, hv]
  | cons e m ih =>
    obtain ⟨j, u⟩ := e
    obtain ⟨h1, h2, h3⟩ := (sparseWf_cons d j u m).1 h
    unfold sparsePut
    split
    · rename_i hlt
      refine (sparseWf_cons d k v _).2 ⟨hv, ?_, h⟩
      intro e he
      cases List.mem_cons.1 he with
      | inl h => subst h; exact hlt
      | inr h => exact Nat.lt_trans hlt (h2 e h)
    · rename_i hlt
      refine (sparseWf_cons d j u _).2 ⟨h1, ?_, ih h3 fun e he => hk e (List.mem_cons_of_mem _ he)⟩
      intro e he
      cases (mem_sparsePut k v m e).1 he with
      | inl h => subst h; exact Nat.lt_of_le_of_ne (Nat.le_of_not_lt hlt) (hk (j, u) (List.mem_cons_self ..))
      | inr h => exact h2 e h

/-- Writing keeps the form. -/
theorem sparseWf_set (m : List (Nat × V)) (k : Nat) (v : V) (h : sparseWf d m = true) : sparseWf d (sparseSet d m k v) = true := by
  unfold sparseSet
  dsimp only
  split
  · exact sparseWf_filter d _ m h
  · rename_i hv
    refine sparseWf_put d k v _ (sparseWf_filter d _ m h) hv ?_
    intro e he
    simpa using (List.mem_filter.1 he).2

end Sparse

end Sys2Proof.Machine
end

