-- ==== Sys2Proof/Laws/Windows.lean ====
section
/-!
SUPPORT. The row of the register map that each register lies in (R507): the rows of all blocks are numbered one after
another, and a set of rows is a number, whose bit n is the row n.
-/

namespace Sys2Proof.Machine

set_option Elab.async false

/-- The number of the first row of a window's block, and its rows. The controllers of the rings share their rows, and so do
the ports of the backbone. A block is followed by one number for the offsets where it has no register. -/
def windowRows : Nat → Nat × List RegRow
  | 0x00 => (0, rowsSYS)
  | 0x01 => (11, rowsFRM)
  | 0x02 => (29, rowsANX)
  | 0x03 => (41, rowsANY)
  | 0x04 => (53, rowsLANE)
  | 0x05 => (63, rowsMMU)
  | 0x06 => (78, rowsDMA)
  | 0x07 => (85, rowsIMG)
  | 0x10 => (93, rowsSOP)
  | 0x11 => (93, rowsSOP)
  | 0x12 => (93, rowsSOP)
  | 0x13 => (93, rowsSOP)
  | 0x14 => (93, rowsSOP)
  | 0x15 => (93, rowsSOP)
  | 0x18 => (139, rowsTIME)
  | 0x19 => (166, rowsBKB)
  | 0x1A => (166, rowsBKB)
  | 0x1B => (166, rowsBKB)
  | 0x1C => (166, rowsBKB)
  | 0x20 => (175, rowsBRG)
  | 0x21 => (199, rowsSMAP)
  | 0x22 => (208, rowsWAY)
  | 0x23 => (222, rowsMBX)
  | 0x24 => (246, rowsCPL)
  | 0x28 => (266, rowsDIO)
  | 0x29 => (282, rowsLOOP)
  | 0x2A => (294, rowsSAF)
  | 0x30 => (306, rowsBLW)
  | 0x31 => (333, rowsEVR)
  | 0x32 => (351, rowsUPD)
  | 0x33 => (363, rowsSEC)
  | _ => (375, [])

/-- The row of a register. -/
def rowIndex (x : Nat) : Nat := (windowRows (x / 0x10000 % 64)).1 + (windowRows (x / 0x10000 % 64)).2.findIdx (·.has (x % 0x10000))

/-- A register lies in one of a set of rows. -/
def InRows (w a : Nat) : Prop := w.testBit (rowIndex a) = true

theorem rowIndex_lt (x : Nat) : rowIndex x < 376 := by
  unfold rowIndex
  have h : x / 0x10000 % 64 < 64 := Nat.mod_lt _ (by decide)
  generalize x / 0x10000 % 64 = k at h
  have h1 : ∀ k < 64, (windowRows k).1 + (windowRows k).2.length < 376 := by decide
  have h2 := h1 k h
  have := List.findIdx_le_length (xs := (windowRows k).2) (p := fun r => r.has (x % 0x10000))
  omega

theorem inRows_all {a : Nat} : InRows 0xffffffffffffffffffffffffffffffffffffffffffffffffffffffffffffffffffffffffffffffffffffffffffffff a := by
  have h := rowIndex_lt a
  unfold InRows
  generalize rowIndex a = k at h
  have h1 : ((List.range 376).all fun k => Nat.testBit 0xffffffffffffffffffffffffffffffffffffffffffffffffffffffffffffffffffffffffffffffffffffffffffffff k) = true := by decide +kernel
  exact List.all_eq_true.1 h1 k (List.mem_range.2 h)

theorem InRows.of_eq {w a k : Nat} (h : rowIndex a = k) (hk : w.testBit k = true) : InRows w a := by
  unfold InRows
  rw [h, hk]

theorem InRows.mono {v w a : Nat} (h : InRows v a) (hw : v ||| w = w) : InRows w a := by
  unfold InRows at *
  rw [← hw, Nat.testBit_or, h, Bool.true_or]

/-- A register of a row, by its window and offset. -/
theorem rowIndex_eq {a w e b k : Nat} {r : List RegRow} (h1 : a / 0x10000 % 64 = w) (h2 : a % 0x10000 = e)
    (h3 : windowRows w = (b, r)) (h4 : r.findIdx (·.has e) = k) : rowIndex a = b + k := by
  unfold rowIndex
  rw [h1, h2, h3, h4]

theorem windowRows_ring (n : Nat) : windowRows (0x10 + n % 6) = (93, rowsSOP) := by
  have h : n % 6 < 6 := Nat.mod_lt _ (by decide)
  generalize n % 6 = k at h
  match k, h with
  | 0, _ | 1, _ | 2, _ | 3, _ | 4, _ | 5, _ => rfl

theorem windowRows_port (n : Nat) : windowRows (0x19 + n % 4) = (166, rowsBKB) := by
  have h : n % 4 < 4 := Nat.mod_lt _ (by decide)
  generalize n % 4 = k at h
  match k, h with
  | 0, _ | 1, _ | 2, _ | 3, _ => rfl

/-- No register of a row has a place that belongs to a later row: the row ends below it, or the two rows run side by side. -/
def RegRow.clear (x y : RegRow) : Bool :=
  decide (x.off + x.stride * (x.count - 1) < y.off) ||
    (x.stride == y.stride && decide (x.off ≤ y.off) && (y.off - x.off) % x.stride != 0 && decide (1 < x.count))

theorem RegRow.clear_has {x y : RegRow} (h : x.clear y = true) (i : Nat) : x.has (y.off + y.stride * i) = false := by
  unfold RegRow.clear at h
  unfold RegRow.has
  rw [Bool.or_eq_true] at h
  cases h with
  | inl h =>
    have h := of_decide_eq_true h
    have h0 := Nat.zero_le (x.stride * (x.count - 1))
    split
    · simp only [beq_eq_false_iff_ne, ne_eq]
      omega
    · rename_i hc
      rw [Bool.eq_false_iff]
      intro hh
      simp only [Bool.and_eq_true, decide_eq_true_eq, beq_iff_eq] at hh
      obtain ⟨⟨h1, h2⟩, h3⟩ := hh
      have h4 := Nat.div_add_mod (y.off + y.stride * i - x.off) x.stride
      rw [h2] at h4
      have h5 : x.stride * ((y.off + y.stride * i - x.off) / x.stride) ≤ x.stride * (x.count - 1) :=
        Nat.mul_le_mul_left _ (by omega)
      omega
  | inr h =>
    simp only [Bool.and_eq_true, decide_eq_true_eq, beq_iff_eq, bne_iff_ne, ne_eq] at h
    obtain ⟨⟨⟨h1, h2⟩, h3⟩, h4⟩ := h
    rw [if_neg (by omega), Bool.eq_false_iff]
    intro hh
    simp only [Bool.and_eq_true, decide_eq_true_eq, beq_iff_eq] at hh
    apply h3
    have e : y.off + y.stride * i - x.off = (y.off - x.off) + x.stride * i := by rw [h1]; omega
    rw [← hh.1.2, e, Nat.add_mul_mod_self_left]

theorem RegRow.has_self {x : RegRow} {i : Nat} (hi : i < x.count) (hs : x.count ≤ 1 ∨ 0 < x.stride) :
    x.has (x.off + x.stride * i) = true := by
  unfold RegRow.has
  split
  · have : i = 0 := by omega
    subst this
    simp
  · have hs := hs.resolve_left (by assumption)
    have e : x.off + x.stride * i - x.off = x.stride * i := by omega
    rw [e, Nat.mul_mod_right, Nat.mul_div_cancel_left _ hs]
    simp [hi]

/-- The rows of a block stand apart. -/
def rowsApart (r : List RegRow) : Bool :=
  r.zipIdx.all fun y => (r.take y.2).all (fun x => x.clear y.1) && (decide (y.1.count ≤ 1) || decide (0 < y.1.stride))

/-- Every register of a row finds its row. -/
theorem found_of {r : List RegRow} (h : rowsApart r = true) {k i : Nat} {x : RegRow} (hk : r[k]? = some x) (hi : i < x.count) :
    r.findIdx (·.has (x.off + x.stride * i)) = k := by
  have h1 := List.all_eq_true.1 h (x, k) (List.mem_zipIdx_iff_getElem?.2 hk)
  rw [Bool.and_eq_true] at h1
  obtain ⟨hlt, hx⟩ := List.getElem?_eq_some_iff.1 hk
  rw [List.findIdx_eq hlt]
  refine ⟨?_, fun j hj => ?_⟩
  · rw [hx]
    refine RegRow.has_self hi ?_
    simpa using h1.2
  · have := List.all_eq_true.1 h1.1 (r[j]'(by omega)) (List.mem_take_iff_getElem.2 ⟨j, by omega, rfl⟩)
    exact RegRow.clear_has this i

theorem rowsSYS_found : rowsApart rowsSYS = true := by decide +kernel
theorem rowsFRM_found : rowsApart rowsFRM = true := by decide +kernel
theorem rowsANX_found : rowsApart rowsANX = true := by decide +kernel
theorem rowsANY_found : rowsApart rowsANY = true := by decide +kernel
theorem rowsLANE_found : rowsApart rowsLANE = true := by decide +kernel
theorem rowsMMU_found : rowsApart rowsMMU = true := by decide +kernel
theorem rowsDMA_found : rowsApart rowsDMA = true := by decide +kernel
theorem rowsIMG_found : rowsApart rowsIMG = true := by decide +kernel
theorem rowsSOP_found : rowsApart rowsSOP = true := by decide +kernel
theorem rowsTIME_found : rowsApart rowsTIME = true := by decide +kernel
theorem rowsBKB_found : rowsApart rowsBKB = true := by decide +kernel
theorem rowsBRG_found : rowsApart rowsBRG = true := by decide +kernel
theorem rowsSMAP_found : rowsApart rowsSMAP = true := by decide +kernel
theorem rowsWAY_found : rowsApart rowsWAY = true := by decide +kernel
theorem rowsMBX_found : rowsApart rowsMBX = true := by decide +kernel
theorem rowsCPL_found : rowsApart rowsCPL = true := by decide +kernel
theorem rowsDIO_found : rowsApart rowsDIO = true := by decide +kernel
theorem rowsLOOP_found : rowsApart rowsLOOP = true := by decide +kernel
theorem rowsSAF_found : rowsApart rowsSAF = true := by decide +kernel
theorem rowsBLW_found : rowsApart rowsBLW = true := by decide +kernel
theorem rowsEVR_found : rowsApart rowsEVR = true := by decide +kernel
theorem rowsUPD_found : rowsApart rowsUPD = true := by decide +kernel
theorem rowsSEC_found : rowsApart rowsSEC = true := by decide +kernel
theorem SYS_ID_in : InRows 0x1 SYS_ID := .of_eq rfl rfl
theorem SYS_COMPAT_in : InRows 0x2 SYS_COMPAT := .of_eq rfl rfl
theorem SYS_STATUS_in : InRows 0x4 SYS_STATUS := .of_eq rfl rfl
theorem SYS_RSTCAUSE_in : InRows 0x8 SYS_RSTCAUSE := .of_eq rfl rfl
theorem SYS_FORCES_in : InRows 0x10 SYS_FORCES := .of_eq rfl rfl
theorem SYS_KEY_in : InRows 0x20 SYS_KEY := .of_eq rfl rfl
theorem SYS_MODE_in : InRows 0x40 SYS_MODE := .of_eq rfl rfl
theorem SYS_MODECFG_in : InRows 0x80 SYS_MODECFG := .of_eq rfl rfl
theorem SYS_CHG_in : InRows 0x100 SYS_CHG := .of_eq rfl rfl
theorem SYS_CHGDEF_in : InRows 0x200 SYS_CHGDEF := .of_eq rfl rfl
theorem FRM_STATUS_in : InRows 0x800 FRM_STATUS := .of_eq rfl rfl
theorem FRM_CTRL_in : InRows 0x1000 FRM_CTRL := .of_eq rfl rfl
theorem FRM_PERIOD_in : InRows 0x2000 FRM_PERIOD := .of_eq rfl rfl
theorem FRM_PHASE_in : InRows 0x4000 FRM_PHASE := .of_eq rfl rfl
theorem FRM_CLOSE_in : InRows 0x8000 FRM_CLOSE := .of_eq rfl rfl
theorem FRM_ACTIVE_in : InRows 0x10000 FRM_ACTIVE := .of_eq rfl rfl
theorem FRM_FCOUNTL_in : InRows 0x20000 FRM_FCOUNTL := .of_eq rfl rfl
theorem FRM_FCOUNTH_in : InRows 0x40000 FRM_FCOUNTH := .of_eq rfl rfl
theorem FRM_TICKSKIP_in : InRows 0x80000 FRM_TICKSKIP := .of_eq rfl rfl
theorem FRM_OVRCNT_in : InRows 0x100000 FRM_OVRCNT := .of_eq rfl rfl
theorem FRM_FLTCNT_in : InRows 0x200000 FRM_FLTCNT := .of_eq rfl rfl
theorem FRM_SNAPEND_in : InRows 0x400000 FRM_SNAPEND := .of_eq rfl rfl
theorem FRM_IRQEN_in {i : Nat} : InRows 0x800000 (FRM_IRQEN i) :=
  .of_eq (rowIndex_eq (w := 0x1) (e := 0x40 + 0x4 * (i % 12)) (by unfold FRM_IRQEN; omega) (by unfold FRM_IRQEN; omega) rfl (found_of rowsFRM_found (k := 12) rfl (Nat.mod_lt _ (by decide)))) rfl
theorem FRM_TDEF_in {i : Nat} : InRows 0x1000000 (FRM_TDEF i) :=
  .of_eq (rowIndex_eq (w := 0x1) (e := 0x100 + 0x10 * (i % 64)) (by unfold FRM_TDEF; omega) (by unfold FRM_TDEF; omega) rfl (found_of rowsFRM_found (k := 13) rfl (Nat.mod_lt _ (by decide)))) rfl
theorem FRM_TCFG_in {i : Nat} : InRows 0x2000000 (FRM_TCFG i) :=
  .of_eq (rowIndex_eq (w := 0x1) (e := 0x104 + 0x10 * (i % 64)) (by unfold FRM_TCFG; omega) (by unfold FRM_TCFG; omega) rfl (found_of rowsFRM_found (k := 14) rfl (Nat.mod_lt _ (by decide)))) rfl
theorem FRM_TDL_in {i : Nat} : InRows 0x4000000 (FRM_TDL i) :=
  .of_eq (rowIndex_eq (w := 0x1) (e := 0x108 + 0x10 * (i % 64)) (by unfold FRM_TDL; omega) (by unfold FRM_TDL; omega) rfl (found_of rowsFRM_found (k := 15) rfl (Nat.mod_lt _ (by decide)))) rfl
theorem FRM_TSTAT_in {i : Nat} : InRows 0x8000000 (FRM_TSTAT i) :=
  .of_eq (rowIndex_eq (w := 0x1) (e := 0x10c + 0x10 * (i % 64)) (by unfold FRM_TSTAT; omega) (by unfold FRM_TSTAT; omega) rfl (found_of rowsFRM_found (k := 16) rfl (Nat.mod_lt _ (by decide)))) rfl
theorem ANX_STATUS_in : InRows 0x20000000 ANX_STATUS := .of_eq rfl rfl
theorem ANX_SKEW_in : InRows 0x40000000 ANX_SKEW := .of_eq rfl rfl
theorem ANX_CFG_in : InRows 0x80000000 ANX_CFG := .of_eq rfl rfl
theorem ANX_TCTL_in : InRows 0x100000000 ANX_TCTL := .of_eq rfl rfl
theorem ANX_TCRC_in : InRows 0x200000000 ANX_TCRC := .of_eq rfl rfl
theorem ANX_MISCNT_in : InRows 0x400000000 ANX_MISCNT := .of_eq rfl rfl
theorem ANX_STALE_CNT_in : InRows 0x800000000 ANX_STALE_CNT := .of_eq rfl rfl
theorem ANX_LASTMIS_in : InRows 0x1000000000 ANX_LASTMIS := .of_eq rfl rfl
theorem ANX_STRIKE_in : InRows 0x2000000000 ANX_STRIKE := .of_eq rfl rfl
theorem ANX_EPRST_in : InRows 0x4000000000 ANX_EPRST := .of_eq rfl rfl
theorem ANX_EPOCH_in {i : Nat} : InRows 0x8000000000 (ANX_EPOCH i) :=
  .of_eq (rowIndex_eq (w := 0x2) (e := 0x100 + 0x4 * (i % 64)) (by unfold ANX_EPOCH; omega) (by unfold ANX_EPOCH; omega) rfl (found_of rowsANX_found (k := 10) rfl (Nat.mod_lt _ (by decide)))) rfl
theorem ANY_STATUS_in : InRows 0x20000000000 ANY_STATUS := .of_eq rfl rfl
theorem ANY_SKEW_in : InRows 0x40000000000 ANY_SKEW := .of_eq rfl rfl
theorem ANY_CFG_in : InRows 0x80000000000 ANY_CFG := .of_eq rfl rfl
theorem ANY_TCTL_in : InRows 0x100000000000 ANY_TCTL := .of_eq rfl rfl
theorem ANY_TCRC_in : InRows 0x200000000000 ANY_TCRC := .of_eq rfl rfl
theorem ANY_MISCNT_in : InRows 0x400000000000 ANY_MISCNT := .of_eq rfl rfl
theorem ANY_STALE_CNT_in : InRows 0x800000000000 ANY_STALE_CNT := .of_eq rfl rfl
theorem ANY_LASTMIS_in : InRows 0x1000000000000 ANY_LASTMIS := .of_eq rfl rfl
theorem ANY_STRIKE_in : InRows 0x2000000000000 ANY_STRIKE := .of_eq rfl rfl
theorem ANY_EPRST_in : InRows 0x4000000000000 ANY_EPRST := .of_eq rfl rfl
theorem ANY_EPOCH_in {i : Nat} : InRows 0x8000000000000 (ANY_EPOCH i) :=
  .of_eq (rowIndex_eq (w := 0x3) (e := 0x100 + 0x4 * (i % 64)) (by unfold ANY_EPOCH; omega) (by unfold ANY_EPOCH; omega) rfl (found_of rowsANY_found (k := 10) rfl (Nat.mod_lt _ (by decide)))) rfl
theorem LANE_STATUS_in : InRows 0x20000000000000 LANE_STATUS := .of_eq rfl rfl
theorem LANE_CFG_in : InRows 0x40000000000000 LANE_CFG := .of_eq rfl rfl
theorem LANE_MODE_in {i : Nat} : InRows 0x80000000000000 (LANE_MODE i) :=
  .of_eq (rowIndex_eq (w := 0x4) (e := 0x10 + 0x4 * (i % 4)) (by unfold LANE_MODE; omega) (by unfold LANE_MODE; omega) rfl (found_of rowsLANE_found (k := 2) rfl (Nat.mod_lt _ (by decide)))) rfl
theorem LANE_TRIAD_in {i : Nat} : InRows 0x100000000000000 (LANE_TRIAD i) :=
  .of_eq (rowIndex_eq (w := 0x4) (e := 0x20 + 0x4 * (i % 4)) (by unfold LANE_TRIAD; omega) (by unfold LANE_TRIAD; omega) rfl (found_of rowsLANE_found (k := 3) rfl (Nat.mod_lt _ (by decide)))) rfl
theorem LANE_LSTATE_in {i : Nat} : InRows 0x200000000000000 (LANE_LSTATE i) :=
  .of_eq (rowIndex_eq (w := 0x4) (e := 0x30 + 0x4 * (i % 3)) (by unfold LANE_LSTATE; omega) (by unfold LANE_LSTATE; omega) rfl (found_of rowsLANE_found (k := 4) rfl (Nat.mod_lt _ (by decide)))) rfl
theorem LANE_TRANS_in {i : Nat} : InRows 0x400000000000000 (LANE_TRANS i) :=
  .of_eq (rowIndex_eq (w := 0x4) (e := 0x40 + 0x4 * (i % 3)) (by unfold LANE_TRANS; omega) (by unfold LANE_TRANS; omega) rfl (found_of rowsLANE_found (k := 5) rfl (Nat.mod_lt _ (by decide)))) rfl
theorem LANE_QUENCH_in : InRows 0x800000000000000 LANE_QUENCH := .of_eq rfl rfl
theorem LANE_L1ERR_in {i : Nat} : InRows 0x1000000000000000 (LANE_L1ERR i) :=
  .of_eq (rowIndex_eq (w := 0x4) (e := 0x60 + 0x4 * (i % 12)) (by unfold LANE_L1ERR; omega) (by unfold LANE_L1ERR; omega) rfl (found_of rowsLANE_found (k := 7) rfl (Nat.mod_lt _ (by decide)))) rfl
theorem LANE_CFAULT_in : InRows 0x2000000000000000 LANE_CFAULT := .of_eq rfl rfl
theorem MMU_STATUS_in : InRows 0x8000000000000000 MMU_STATUS := .of_eq rfl rfl
theorem MMU_UEADDR_in : InRows 0x10000000000000000 MMU_UEADDR := .of_eq rfl rfl
theorem MMU_SCRUB_in : InRows 0x20000000000000000 MMU_SCRUB := .of_eq rfl rfl
theorem MMU_IOINV_in : InRows 0x40000000000000000 MMU_IOINV := .of_eq rfl rfl
theorem MMU_CTX_BASE_in {i : Nat} : InRows 0x80000000000000000 (MMU_CTX_BASE i) :=
  .of_eq (rowIndex_eq (w := 0x5) (e := 0x40 + 0x4 * (i % 18)) (by unfold MMU_CTX_BASE; omega) (by unfold MMU_CTX_BASE; omega) rfl (found_of rowsMMU_found (k := 4) rfl (Nat.mod_lt _ (by decide)))) rfl
theorem MMU_L2_CE_in : InRows 0x100000000000000000 MMU_L2_CE := .of_eq rfl rfl
theorem MMU_L2_UE_in : InRows 0x200000000000000000 MMU_L2_UE := .of_eq rfl rfl
theorem MMU_DRAM_CE_in : InRows 0x400000000000000000 MMU_DRAM_CE := .of_eq rfl rfl
theorem MMU_DRAM_UE_in : InRows 0x800000000000000000 MMU_DRAM_UE := .of_eq rfl rfl
theorem MMU_MRAM_CE_in : InRows 0x1000000000000000000 MMU_MRAM_CE := .of_eq rfl rfl
theorem MMU_MRAM_UE_in : InRows 0x2000000000000000000 MMU_MRAM_UE := .of_eq rfl rfl
theorem MMU_FLASH_CE_in : InRows 0x4000000000000000000 MMU_FLASH_CE := .of_eq rfl rfl
theorem MMU_FLASH_UE_in : InRows 0x8000000000000000000 MMU_FLASH_UE := .of_eq rfl rfl
theorem MMU_DIGEST_FAIL_in : InRows 0x10000000000000000000 MMU_DIGEST_FAIL := .of_eq rfl rfl
theorem DMA_STATUS_in : InRows 0x40000000000000000000 DMA_STATUS := .of_eq rfl rfl
theorem DMA_FAULT_in : InRows 0x80000000000000000000 DMA_FAULT := .of_eq rfl rfl
theorem DMA_CH_DESC_in {i : Nat} : InRows 0x100000000000000000000 (DMA_CH_DESC i) :=
  .of_eq (rowIndex_eq (w := 0x6) (e := 0x100 + 0x10 * (i % 16)) (by unfold DMA_CH_DESC; omega) (by unfold DMA_CH_DESC; omega) rfl (found_of rowsDMA_found (k := 2) rfl (Nat.mod_lt _ (by decide)))) rfl
theorem DMA_CH_DESCH_in {i : Nat} : InRows 0x200000000000000000000 (DMA_CH_DESCH i) :=
  .of_eq (rowIndex_eq (w := 0x6) (e := 0x104 + 0x10 * (i % 16)) (by unfold DMA_CH_DESCH; omega) (by unfold DMA_CH_DESCH; omega) rfl (found_of rowsDMA_found (k := 3) rfl (Nat.mod_lt _ (by decide)))) rfl
theorem DMA_CH_CMD_in {i : Nat} : InRows 0x400000000000000000000 (DMA_CH_CMD i) :=
  .of_eq (rowIndex_eq (w := 0x6) (e := 0x108 + 0x10 * (i % 16)) (by unfold DMA_CH_CMD; omega) (by unfold DMA_CH_CMD; omega) rfl (found_of rowsDMA_found (k := 4) rfl (Nat.mod_lt _ (by decide)))) rfl
theorem DMA_CH_STATE_in {i : Nat} : InRows 0x800000000000000000000 (DMA_CH_STATE i) :=
  .of_eq (rowIndex_eq (w := 0x6) (e := 0x10c + 0x10 * (i % 16)) (by unfold DMA_CH_STATE; omega) (by unfold DMA_CH_STATE; omega) rfl (found_of rowsDMA_found (k := 5) rfl (Nat.mod_lt _ (by decide)))) rfl
theorem IMG_STATUS_in : InRows 0x2000000000000000000000 IMG_STATUS := .of_eq rfl rfl
theorem IMG_CE_in : InRows 0x4000000000000000000000 IMG_CE := .of_eq rfl rfl
theorem IMG_UE_in : InRows 0x8000000000000000000000 IMG_UE := .of_eq rfl rfl
theorem IMG_UEADDR_in : InRows 0x10000000000000000000000 IMG_UEADDR := .of_eq rfl rfl
theorem IMG_SCRUB_in : InRows 0x20000000000000000000000 IMG_SCRUB := .of_eq rfl rfl
theorem IMG_IDTBAD_in : InRows 0x40000000000000000000000 IMG_IDTBAD := .of_eq rfl rfl
theorem IMG_IDTLAST_in : InRows 0x80000000000000000000000 IMG_IDTLAST := .of_eq rfl rfl
theorem SOP_STATUS_in {n : Nat} : InRows 0x200000000000000000000000 (SOP_STATUS n) :=
  .of_eq (rowIndex_eq (w := 0x10 + n % 6) (e := 0x0) (k := 0) (by unfold SOP_STATUS; omega) (by unfold SOP_STATUS; omega) (windowRows_ring n) rfl) rfl
theorem SOP_CTRL_in {n : Nat} : InRows 0x400000000000000000000000 (SOP_CTRL n) :=
  .of_eq (rowIndex_eq (w := 0x10 + n % 6) (e := 0x4) (k := 1) (by unfold SOP_CTRL; omega) (by unfold SOP_CTRL; omega) (windowRows_ring n) rfl) rfl
theorem SOP_GUARD_in {n : Nat} : InRows 0x800000000000000000000000 (SOP_GUARD n) :=
  .of_eq (rowIndex_eq (w := 0x10 + n % 6) (e := 0x8) (k := 2) (by unfold SOP_GUARD; omega) (by unfold SOP_GUARD; omega) (windowRows_ring n) rfl) rfl
theorem SOP_NSLOT_in {n : Nat} : InRows 0x1000000000000000000000000 (SOP_NSLOT n) :=
  .of_eq (rowIndex_eq (w := 0x10 + n % 6) (e := 0xc) (k := 3) (by unfold SOP_NSLOT; omega) (by unfold SOP_NSLOT; omega) (windowRows_ring n) rfl) rfl
theorem SOP_SCHEDID_in {n : Nat} : InRows 0x2000000000000000000000000 (SOP_SCHEDID n) :=
  .of_eq (rowIndex_eq (w := 0x10 + n % 6) (e := 0x10) (k := 4) (by unfold SOP_SCHEDID; omega) (by unfold SOP_SCHEDID; omega) (windowRows_ring n) rfl) rfl
theorem SOP_STATE_in {n : Nat} : InRows 0x4000000000000000000000000 (SOP_STATE n) :=
  .of_eq (rowIndex_eq (w := 0x10 + n % 6) (e := 0x14) (k := 5) (by unfold SOP_STATE; omega) (by unfold SOP_STATE; omega) (windowRows_ring n) rfl) rfl
theorem SOP_LOOP_in {n : Nat} : InRows 0x8000000000000000000000000 (SOP_LOOP n) :=
  .of_eq (rowIndex_eq (w := 0x10 + n % 6) (e := 0x18) (k := 6) (by unfold SOP_LOOP; omega) (by unfold SOP_LOOP; omega) (windowRows_ring n) rfl) rfl
theorem SOP_BREAK_in {n : Nat} : InRows 0x10000000000000000000000000 (SOP_BREAK n) :=
  .of_eq (rowIndex_eq (w := 0x10 + n % 6) (e := 0x1c) (k := 7) (by unfold SOP_BREAK; omega) (by unfold SOP_BREAK; omega) (windowRows_ring n) rfl) rfl
theorem SOP_DROPCFG_in {n : Nat} : InRows 0x20000000000000000000000000 (SOP_DROPCFG n) :=
  .of_eq (rowIndex_eq (w := 0x10 + n % 6) (e := 0x20) (k := 8) (by unfold SOP_DROPCFG; omega) (by unfold SOP_DROPCFG; omega) (windowRows_ring n) rfl) rfl
theorem SOP_CNOM_in {n : Nat} : InRows 0x40000000000000000000000000 (SOP_CNOM n) :=
  .of_eq (rowIndex_eq (w := 0x10 + n % 6) (e := 0x24) (k := 9) (by unfold SOP_CNOM; omega) (by unfold SOP_CNOM; omega) (windowRows_ring n) rfl) rfl
theorem SOP_TDR_in {n : Nat} : InRows 0x80000000000000000000000000 (SOP_TDR n) :=
  .of_eq (rowIndex_eq (w := 0x10 + n % 6) (e := 0x28) (k := 10) (by unfold SOP_TDR; omega) (by unfold SOP_TDR; omega) (windowRows_ring n) rfl) rfl
theorem SOP_OUTWIN_in {n : Nat} : InRows 0x100000000000000000000000000 (SOP_OUTWIN n) :=
  .of_eq (rowIndex_eq (w := 0x10 + n % 6) (e := 0x40) (k := 11) (by unfold SOP_OUTWIN; omega) (by unfold SOP_OUTWIN; omega) (windowRows_ring n) rfl) rfl
theorem SOP_STRCNT_in {n : Nat} : InRows 0x200000000000000000000000000 (SOP_STRCNT n) :=
  .of_eq (rowIndex_eq (w := 0x10 + n % 6) (e := 0x44) (k := 12) (by unfold SOP_STRCNT; omega) (by unfold SOP_STRCNT; omega) (windowRows_ring n) rfl) rfl
theorem SOP_HDRERR_in {n : Nat} : InRows 0x400000000000000000000000000 (SOP_HDRERR n) :=
  .of_eq (rowIndex_eq (w := 0x10 + n % 6) (e := 0x48) (k := 13) (by unfold SOP_HDRERR; omega) (by unfold SOP_HDRERR; omega) (windowRows_ring n) rfl) rfl
theorem SOP_FCSERR_in {n : Nat} : InRows 0x800000000000000000000000000 (SOP_FCSERR n) :=
  .of_eq (rowIndex_eq (w := 0x10 + n % 6) (e := 0x4c) (k := 14) (by unfold SOP_FCSERR; omega) (by unfold SOP_FCSERR; omega) (windowRows_ring n) rfl) rfl
theorem SOP_LONG_in {n : Nat} : InRows 0x1000000000000000000000000000 (SOP_LONG n) :=
  .of_eq (rowIndex_eq (w := 0x10 + n % 6) (e := 0x50) (k := 15) (by unfold SOP_LONG; omega) (by unfold SOP_LONG; omega) (windowRows_ring n) rfl) rfl
theorem SOP_BRKCNT_in {n : Nat} : InRows 0x2000000000000000000000000000 (SOP_BRKCNT n) :=
  .of_eq (rowIndex_eq (w := 0x10 + n % 6) (e := 0x54) (k := 16) (by unfold SOP_BRKCNT; omega) (by unfold SOP_BRKCNT; omega) (windowRows_ring n) rfl) rfl
theorem SOP_FCOLDCNT_in {n : Nat} : InRows 0x4000000000000000000000000000 (SOP_FCOLDCNT n) :=
  .of_eq (rowIndex_eq (w := 0x10 + n % 6) (e := 0x58) (k := 17) (by unfold SOP_FCOLDCNT; omega) (by unfold SOP_FCOLDCNT; omega) (windowRows_ring n) rfl) rfl
theorem SOP_COLLCNT_in {n : Nat} : InRows 0x8000000000000000000000000000 (SOP_COLLCNT n) :=
  .of_eq (rowIndex_eq (w := 0x10 + n % 6) (e := 0x5c) (k := 18) (by unfold SOP_COLLCNT; omega) (by unfold SOP_COLLCNT; omega) (windowRows_ring n) rfl) rfl
theorem SOP_ONECOPY_in {n : Nat} : InRows 0x10000000000000000000000000000 (SOP_ONECOPY n) :=
  .of_eq (rowIndex_eq (w := 0x10 + n % 6) (e := 0x60) (k := 19) (by unfold SOP_ONECOPY; omega) (by unfold SOP_ONECOPY; omega) (windowRows_ring n) rfl) rfl
theorem SOP_SLOTSKEW_in {n : Nat} : InRows 0x20000000000000000000000000000 (SOP_SLOTSKEW n) :=
  .of_eq (rowIndex_eq (w := 0x10 + n % 6) (e := 0x64) (k := 20) (by unfold SOP_SLOTSKEW; omega) (by unfold SOP_SLOTSKEW; omega) (windowRows_ring n) rfl) rfl
theorem SOP_DROPCNT_in {n : Nat} : InRows 0x40000000000000000000000000000 (SOP_DROPCNT n) :=
  .of_eq (rowIndex_eq (w := 0x10 + n % 6) (e := 0x68) (k := 21) (by unfold SOP_DROPCNT; omega) (by unfold SOP_DROPCNT; omega) (windowRows_ring n) rfl) rfl
theorem SOP_OUTDISC_in {n : Nat} : InRows 0x80000000000000000000000000000 (SOP_OUTDISC n) :=
  .of_eq (rowIndex_eq (w := 0x10 + n % 6) (e := 0x6c) (k := 22) (by unfold SOP_OUTDISC; omega) (by unfold SOP_OUTDISC; omega) (windowRows_ring n) rfl) rfl
theorem SOP_BREAKCNT_in {n : Nat} : InRows 0x100000000000000000000000000000 (SOP_BREAKCNT n) :=
  .of_eq (rowIndex_eq (w := 0x10 + n % 6) (e := 0x70) (k := 23) (by unfold SOP_BREAKCNT; omega) (by unfold SOP_BREAKCNT; omega) (windowRows_ring n) rfl) rfl
theorem SOP_LASTSTR_in {n : Nat} : InRows 0x200000000000000000000000000000 (SOP_LASTSTR n) :=
  .of_eq (rowIndex_eq (w := 0x10 + n % 6) (e := 0x80) (k := 24) (by unfold SOP_LASTSTR; omega) (by unfold SOP_LASTSTR; omega) (windowRows_ring n) rfl) rfl
theorem SOP_LASTVIOL_in {n : Nat} : InRows 0x400000000000000000000000000000 (SOP_LASTVIOL n) :=
  .of_eq (rowIndex_eq (w := 0x10 + n % 6) (e := 0x84) (k := 25) (by unfold SOP_LASTVIOL; omega) (by unfold SOP_LASTVIOL; omega) (windowRows_ring n) rfl) rfl
theorem SOP_QE_CFG_in {n : Nat} : InRows 0x800000000000000000000000000000 (SOP_QE_CFG n) :=
  .of_eq (rowIndex_eq (w := 0x10 + n % 6) (e := 0xc0) (k := 26) (by unfold SOP_QE_CFG; omega) (by unfold SOP_QE_CFG; omega) (windowRows_ring n) rfl) rfl
theorem SOP_QE_STATUS_in {n : Nat} : InRows 0x1000000000000000000000000000000 (SOP_QE_STATUS n) :=
  .of_eq (rowIndex_eq (w := 0x10 + n % 6) (e := 0xc4) (k := 27) (by unfold SOP_QE_STATUS; omega) (by unfold SOP_QE_STATUS; omega) (windowRows_ring n) rfl) rfl
theorem SOP_QE_DROP_in {n : Nat} : InRows 0x2000000000000000000000000000000 (SOP_QE_DROP n) :=
  .of_eq (rowIndex_eq (w := 0x10 + n % 6) (e := 0xc8) (k := 28) (by unfold SOP_QE_DROP; omega) (by unfold SOP_QE_DROP; omega) (windowRows_ring n) rfl) rfl
theorem SOP_QE_TOUT_in {n : Nat} : InRows 0x4000000000000000000000000000000 (SOP_QE_TOUT n) :=
  .of_eq (rowIndex_eq (w := 0x10 + n % 6) (e := 0xcc) (k := 29) (by unfold SOP_QE_TOUT; omega) (by unfold SOP_QE_TOUT; omega) (windowRows_ring n) rfl) rfl
theorem SOP_QW_CFG_in {n : Nat} : InRows 0x8000000000000000000000000000000 (SOP_QW_CFG n) :=
  .of_eq (rowIndex_eq (w := 0x10 + n % 6) (e := 0xd0) (k := 30) (by unfold SOP_QW_CFG; omega) (by unfold SOP_QW_CFG; omega) (windowRows_ring n) rfl) rfl
theorem SOP_QW_STATUS_in {n : Nat} : InRows 0x10000000000000000000000000000000 (SOP_QW_STATUS n) :=
  .of_eq (rowIndex_eq (w := 0x10 + n % 6) (e := 0xd4) (k := 31) (by unfold SOP_QW_STATUS; omega) (by unfold SOP_QW_STATUS; omega) (windowRows_ring n) rfl) rfl
theorem SOP_QW_DROP_in {n : Nat} : InRows 0x20000000000000000000000000000000 (SOP_QW_DROP n) :=
  .of_eq (rowIndex_eq (w := 0x10 + n % 6) (e := 0xd8) (k := 32) (by unfold SOP_QW_DROP; omega) (by unfold SOP_QW_DROP; omega) (windowRows_ring n) rfl) rfl
theorem SOP_QW_TOUT_in {n : Nat} : InRows 0x40000000000000000000000000000000 (SOP_QW_TOUT n) :=
  .of_eq (rowIndex_eq (w := 0x10 + n % 6) (e := 0xdc) (k := 33) (by unfold SOP_QW_TOUT; omega) (by unfold SOP_QW_TOUT; omega) (windowRows_ring n) rfl) rfl
theorem SOP_SLOTVIOL_in {n i : Nat} : InRows 0x80000000000000000000000000000000 (SOP_SLOTVIOL n i) :=
  .of_eq (rowIndex_eq (w := 0x10 + n % 6) (e := 0x400 + 0x4 * (i % 256)) (by unfold SOP_SLOTVIOL; omega) (by unfold SOP_SLOTVIOL; omega) (windowRows_ring n) (found_of rowsSOP_found (k := 34) rfl (Nat.mod_lt _ (by decide)))) rfl
theorem SOP_STA_in {n i : Nat} : InRows 0x100000000000000000000000000000000 (SOP_STA n i) :=
  .of_eq (rowIndex_eq (w := 0x10 + n % 6) (e := 0x800 + 0x4 * (i % 256)) (by unfold SOP_STA; omega) (by unfold SOP_STA; omega) (windowRows_ring n) (found_of rowsSOP_found (k := 35) rfl (Nat.mod_lt _ (by decide)))) rfl
theorem SOP_CON_W0_in {n i : Nat} : InRows 0x200000000000000000000000000000000 (SOP_CON_W0 n i) :=
  .of_eq (rowIndex_eq (w := 0x10 + n % 6) (e := 0x1000 + 0x10 * (i % 256)) (by unfold SOP_CON_W0; omega) (by unfold SOP_CON_W0; omega) (windowRows_ring n) (found_of rowsSOP_found (k := 36) rfl (Nat.mod_lt _ (by decide)))) rfl
theorem SOP_CON_W1_in {n i : Nat} : InRows 0x400000000000000000000000000000000 (SOP_CON_W1 n i) :=
  .of_eq (rowIndex_eq (w := 0x10 + n % 6) (e := 0x1004 + 0x10 * (i % 256)) (by unfold SOP_CON_W1; omega) (by unfold SOP_CON_W1; omega) (windowRows_ring n) (found_of rowsSOP_found (k := 37) rfl (Nat.mod_lt _ (by decide)))) rfl
theorem SOP_CON_W2_in {n i : Nat} : InRows 0x800000000000000000000000000000000 (SOP_CON_W2 n i) :=
  .of_eq (rowIndex_eq (w := 0x10 + n % 6) (e := 0x1008 + 0x10 * (i % 256)) (by unfold SOP_CON_W2; omega) (by unfold SOP_CON_W2; omega) (windowRows_ring n) (found_of rowsSOP_found (k := 38) rfl (Nat.mod_lt _ (by decide)))) rfl
theorem SOP_CON_W3_in {n i : Nat} : InRows 0x1000000000000000000000000000000000 (SOP_CON_W3 n i) :=
  .of_eq (rowIndex_eq (w := 0x10 + n % 6) (e := 0x100c + 0x10 * (i % 256)) (by unfold SOP_CON_W3; omega) (by unfold SOP_CON_W3; omega) (windowRows_ring n) (found_of rowsSOP_found (k := 39) rfl (Nat.mod_lt _ (by decide)))) rfl
theorem SOP_PNOM_in {n i : Nat} : InRows 0x2000000000000000000000000000000000 (SOP_PNOM n i) :=
  .of_eq (rowIndex_eq (w := 0x10 + n % 6) (e := 0x2000 + 0x4 * (i % 256)) (by unfold SOP_PNOM; omega) (by unfold SOP_PNOM; omega) (windowRows_ring n) (found_of rowsSOP_found (k := 40) rfl (Nat.mod_lt _ (by decide)))) rfl
theorem SOP_SLOT_W0_in {n i : Nat} : InRows 0x4000000000000000000000000000000000 (SOP_SLOT_W0 n i) :=
  .of_eq (rowIndex_eq (w := 0x10 + n % 6) (e := 0x4000 + 0x10 * (i % 1024)) (by unfold SOP_SLOT_W0; omega) (by unfold SOP_SLOT_W0; omega) (windowRows_ring n) (found_of rowsSOP_found (k := 41) rfl (Nat.mod_lt _ (by decide)))) rfl
theorem SOP_SLOT_W1_in {n i : Nat} : InRows 0x8000000000000000000000000000000000 (SOP_SLOT_W1 n i) :=
  .of_eq (rowIndex_eq (w := 0x10 + n % 6) (e := 0x4004 + 0x10 * (i % 1024)) (by unfold SOP_SLOT_W1; omega) (by unfold SOP_SLOT_W1; omega) (windowRows_ring n) (found_of rowsSOP_found (k := 42) rfl (Nat.mod_lt _ (by decide)))) rfl
theorem SOP_SLOT_W2_in {n i : Nat} : InRows 0x10000000000000000000000000000000000 (SOP_SLOT_W2 n i) :=
  .of_eq (rowIndex_eq (w := 0x10 + n % 6) (e := 0x4008 + 0x10 * (i % 1024)) (by unfold SOP_SLOT_W2; omega) (by unfold SOP_SLOT_W2; omega) (windowRows_ring n) (found_of rowsSOP_found (k := 43) rfl (Nat.mod_lt _ (by decide)))) rfl
theorem SOP_SLOT_W3_in {n i : Nat} : InRows 0x20000000000000000000000000000000000 (SOP_SLOT_W3 n i) :=
  .of_eq (rowIndex_eq (w := 0x10 + n % 6) (e := 0x400c + 0x10 * (i % 1024)) (by unfold SOP_SLOT_W3; omega) (by unfold SOP_SLOT_W3; omega) (windowRows_ring n) (found_of rowsSOP_found (k := 44) rfl (Nat.mod_lt _ (by decide)))) rfl
theorem TIME_STATUS_in : InRows 0x80000000000000000000000000000000000 TIME_STATUS := .of_eq rfl rfl
theorem TIME_CTRL_in : InRows 0x100000000000000000000000000000000000 TIME_CTRL := .of_eq rfl rfl
theorem TIME_STEPTH_in : InRows 0x200000000000000000000000000000000000 TIME_STEPTH := .of_eq rfl rfl
theorem TIME_SLEW_in : InRows 0x400000000000000000000000000000000000 TIME_SLEW := .of_eq rfl rfl
theorem TIME_STEPV_in : InRows 0x800000000000000000000000000000000000 TIME_STEPV := .of_eq rfl rfl
theorem TIME_STEPCMD_in : InRows 0x1000000000000000000000000000000000000 TIME_STEPCMD := .of_eq rfl rfl
theorem TIME_CAPT_in : InRows 0x2000000000000000000000000000000000000 TIME_CAPT := .of_eq rfl rfl
theorem TIME_CSECL_in : InRows 0x4000000000000000000000000000000000000 TIME_CSECL := .of_eq rfl rfl
theorem TIME_CSECH_in : InRows 0x8000000000000000000000000000000000000 TIME_CSECH := .of_eq rfl rfl
theorem TIME_CNS_in : InRows 0x10000000000000000000000000000000000000 TIME_CNS := .of_eq rfl rfl
theorem TIME_CFRAC_in : InRows 0x20000000000000000000000000000000000000 TIME_CFRAC := .of_eq rfl rfl
theorem TIME_RATE_in : InRows 0x40000000000000000000000000000000000000 TIME_RATE := .of_eq rfl rfl
theorem TIME_OFFS_in : InRows 0x80000000000000000000000000000000000000 TIME_OFFS := .of_eq rfl rfl
theorem TIME_CTICKL_in : InRows 0x100000000000000000000000000000000000000 TIME_CTICKL := .of_eq rfl rfl
theorem TIME_CTICKH_in : InRows 0x200000000000000000000000000000000000000 TIME_CTICKH := .of_eq rfl rfl
theorem TIME_CTICKF_in : InRows 0x400000000000000000000000000000000000000 TIME_CTICKF := .of_eq rfl rfl
theorem TIME_PTPCFG_in : InRows 0x800000000000000000000000000000000000000 TIME_PTPCFG := .of_eq rfl rfl
theorem TIME_PTPPRI_in : InRows 0x1000000000000000000000000000000000000000 TIME_PTPPRI := .of_eq rfl rfl
theorem TIME_PTPINT_in : InRows 0x2000000000000000000000000000000000000000 TIME_PTPINT := .of_eq rfl rfl
theorem TIME_GMIDL_in : InRows 0x4000000000000000000000000000000000000000 TIME_GMIDL := .of_eq rfl rfl
theorem TIME_GMIDH_in : InRows 0x8000000000000000000000000000000000000000 TIME_GMIDH := .of_eq rfl rfl
theorem TIME_UTC_in : InRows 0x10000000000000000000000000000000000000000 TIME_UTC := .of_eq rfl rfl
theorem TIME_STEPCNT_in : InRows 0x20000000000000000000000000000000000000000 TIME_STEPCNT := .of_eq rfl rfl
theorem TIME_LOSSCNT_in : InRows 0x40000000000000000000000000000000000000000 TIME_LOSSCNT := .of_eq rfl rfl
theorem TIME_FLAT_in {i : Nat} : InRows 0x80000000000000000000000000000000000000000 (TIME_FLAT i) :=
  .of_eq (rowIndex_eq (w := 0x18) (e := 0x80 + 0x4 * (i % 16)) (by unfold TIME_FLAT; omega) (by unfold TIME_FLAT; omega) rfl (found_of rowsTIME_found (k := 24) rfl (Nat.mod_lt _ (by decide)))) rfl
theorem TIME_ULAT_in {i : Nat} : InRows 0x100000000000000000000000000000000000000000 (TIME_ULAT i) :=
  .of_eq (rowIndex_eq (w := 0x18) (e := 0xc0 + 0x4 * (i % 16)) (by unfold TIME_ULAT; omega) (by unfold TIME_ULAT; omega) rfl (found_of rowsTIME_found (k := 25) rfl (Nat.mod_lt _ (by decide)))) rfl
theorem BKB_STATUS_in {n : Nat} : InRows 0x400000000000000000000000000000000000000000 (BKB_STATUS n) :=
  .of_eq (rowIndex_eq (w := 0x19 + n % 4) (e := 0x0) (k := 0) (by unfold BKB_STATUS; omega) (by unfold BKB_STATUS; omega) (windowRows_port n) rfl) rfl
theorem BKB_CTRL_in {n : Nat} : InRows 0x800000000000000000000000000000000000000000 (BKB_CTRL n) :=
  .of_eq (rowIndex_eq (w := 0x19 + n % 4) (e := 0x4) (k := 1) (by unfold BKB_CTRL; omega) (by unfold BKB_CTRL; omega) (windowRows_port n) rfl) rfl
theorem BKB_MACL_in {n : Nat} : InRows 0x1000000000000000000000000000000000000000000 (BKB_MACL n) :=
  .of_eq (rowIndex_eq (w := 0x19 + n % 4) (e := 0x8) (k := 2) (by unfold BKB_MACL; omega) (by unfold BKB_MACL; omega) (windowRows_port n) rfl) rfl
theorem BKB_MACH_in {n : Nat} : InRows 0x2000000000000000000000000000000000000000000 (BKB_MACH n) :=
  .of_eq (rowIndex_eq (w := 0x19 + n % 4) (e := 0xc) (k := 3) (by unfold BKB_MACH; omega) (by unfold BKB_MACH; omega) (windowRows_port n) rfl) rfl
theorem BKB_RXPKT_in {n : Nat} : InRows 0x4000000000000000000000000000000000000000000 (BKB_RXPKT n) :=
  .of_eq (rowIndex_eq (w := 0x19 + n % 4) (e := 0x40) (k := 4) (by unfold BKB_RXPKT; omega) (by unfold BKB_RXPKT; omega) (windowRows_port n) rfl) rfl
theorem BKB_TXPKT_in {n : Nat} : InRows 0x8000000000000000000000000000000000000000000 (BKB_TXPKT n) :=
  .of_eq (rowIndex_eq (w := 0x19 + n % 4) (e := 0x44) (k := 5) (by unfold BKB_TXPKT; omega) (by unfold BKB_TXPKT; omega) (windowRows_port n) rfl) rfl
theorem BKB_FCSERR_in {n : Nat} : InRows 0x10000000000000000000000000000000000000000000 (BKB_FCSERR n) :=
  .of_eq (rowIndex_eq (w := 0x19 + n % 4) (e := 0x48) (k := 6) (by unfold BKB_FCSERR; omega) (by unfold BKB_FCSERR; omega) (windowRows_port n) rfl) rfl
theorem BKB_RXDISC_in {n : Nat} : InRows 0x20000000000000000000000000000000000000000000 (BKB_RXDISC n) :=
  .of_eq (rowIndex_eq (w := 0x19 + n % 4) (e := 0x4c) (k := 7) (by unfold BKB_RXDISC; omega) (by unfold BKB_RXDISC; omega) (windowRows_port n) rfl) rfl
theorem BRG_STATUS_in : InRows 0x80000000000000000000000000000000000000000000 BRG_STATUS := .of_eq rfl rfl
theorem BRG_CTRL_in : InRows 0x100000000000000000000000000000000000000000000 BRG_CTRL := .of_eq rfl rfl
theorem BRG_RETRYWIN_in : InRows 0x200000000000000000000000000000000000000000000 BRG_RETRYWIN := .of_eq rfl rfl
theorem BRG_FARTO_in : InRows 0x400000000000000000000000000000000000000000000 BRG_FARTO := .of_eq rfl rfl
theorem BRG_SESSTO_in : InRows 0x800000000000000000000000000000000000000000000 BRG_SESSTO := .of_eq rfl rfl
theorem BRG_PFAGE_in : InRows 0x1000000000000000000000000000000000000000000000 BRG_PFAGE := .of_eq rfl rfl
theorem BRG_CMDEN_in : InRows 0x2000000000000000000000000000000000000000000000 BRG_CMDEN := .of_eq rfl rfl
theorem BRG_IPADDR_in {i : Nat} : InRows 0x4000000000000000000000000000000000000000000000 (BRG_IPADDR i) :=
  .of_eq (rowIndex_eq (w := 0x20) (e := 0x20 + 0x4 * (i % 4)) (by unfold BRG_IPADDR; omega) (by unfold BRG_IPADDR; omega) rfl (found_of rowsBRG_found (k := 7) rfl (Nat.mod_lt _ (by decide)))) rfl
theorem BRG_IPMASK_in {i : Nat} : InRows 0x8000000000000000000000000000000000000000000000 (BRG_IPMASK i) :=
  .of_eq (rowIndex_eq (w := 0x20) (e := 0x30 + 0x4 * (i % 4)) (by unfold BRG_IPMASK; omega) (by unfold BRG_IPMASK; omega) rfl (found_of rowsBRG_found (k := 8) rfl (Nat.mod_lt _ (by decide)))) rfl
theorem BRG_MACERR_in : InRows 0x10000000000000000000000000000000000000000000000 BRG_MACERR := .of_eq rfl rfl
theorem BRG_REPLAY_in : InRows 0x20000000000000000000000000000000000000000000000 BRG_REPLAY := .of_eq rfl rfl
theorem BRG_MALF_in : InRows 0x40000000000000000000000000000000000000000000000 BRG_MALF := .of_eq rfl rfl
theorem BRG_ORPHDROP_in : InRows 0x80000000000000000000000000000000000000000000000 BRG_ORPHDROP := .of_eq rfl rfl
theorem BRG_FENCEDISC_in : InRows 0x100000000000000000000000000000000000000000000000 BRG_FENCEDISC := .of_eq rfl rfl
theorem BRG_NOTIFYDROP_in : InRows 0x200000000000000000000000000000000000000000000000 BRG_NOTIFYDROP := .of_eq rfl rfl
theorem BRG_CH_STATE_in {i : Nat} : InRows 0x400000000000000000000000000000000000000000000000 (BRG_CH_STATE i) :=
  .of_eq (rowIndex_eq (w := 0x20) (e := 0x100 + 0x10 * (i % 16)) (by unfold BRG_CH_STATE; omega) (by unfold BRG_CH_STATE; omega) rfl (found_of rowsBRG_found (k := 15) rfl (Nat.mod_lt _ (by decide)))) rfl
theorem BRG_CH_FSEQ_in {i : Nat} : InRows 0x800000000000000000000000000000000000000000000000 (BRG_CH_FSEQ i) :=
  .of_eq (rowIndex_eq (w := 0x20) (e := 0x104 + 0x10 * (i % 16)) (by unfold BRG_CH_FSEQ; omega) (by unfold BRG_CH_FSEQ; omega) rfl (found_of rowsBRG_found (k := 16) rfl (Nat.mod_lt _ (by decide)))) rfl
theorem BRG_CH_FINFO_in {i : Nat} : InRows 0x1000000000000000000000000000000000000000000000000 (BRG_CH_FINFO i) :=
  .of_eq (rowIndex_eq (w := 0x20) (e := 0x108 + 0x10 * (i % 16)) (by unfold BRG_CH_FINFO; omega) (by unfold BRG_CH_FINFO; omega) rfl (found_of rowsBRG_found (k := 17) rfl (Nat.mod_lt _ (by decide)))) rfl
theorem BRG_CH_FDISC_in {i : Nat} : InRows 0x2000000000000000000000000000000000000000000000000 (BRG_CH_FDISC i) :=
  .of_eq (rowIndex_eq (w := 0x20) (e := 0x10c + 0x10 * (i % 16)) (by unfold BRG_CH_FDISC; omega) (by unfold BRG_CH_FDISC; omega) rfl (found_of rowsBRG_found (k := 18) rfl (Nat.mod_lt _ (by decide)))) rfl
theorem BRG_Q_CFG_in {i : Nat} : InRows 0x4000000000000000000000000000000000000000000000000 (BRG_Q_CFG i) :=
  .of_eq (rowIndex_eq (w := 0x20) (e := 0x200 + 0x10 * (i % 16)) (by unfold BRG_Q_CFG; omega) (by unfold BRG_Q_CFG; omega) rfl (found_of rowsBRG_found (k := 19) rfl (Nat.mod_lt _ (by decide)))) rfl
theorem BRG_Q_STATUS_in {i : Nat} : InRows 0x8000000000000000000000000000000000000000000000000 (BRG_Q_STATUS i) :=
  .of_eq (rowIndex_eq (w := 0x20) (e := 0x204 + 0x10 * (i % 16)) (by unfold BRG_Q_STATUS; omega) (by unfold BRG_Q_STATUS; omega) rfl (found_of rowsBRG_found (k := 20) rfl (Nat.mod_lt _ (by decide)))) rfl
theorem BRG_Q_DROP_in {i : Nat} : InRows 0x10000000000000000000000000000000000000000000000000 (BRG_Q_DROP i) :=
  .of_eq (rowIndex_eq (w := 0x20) (e := 0x208 + 0x10 * (i % 16)) (by unfold BRG_Q_DROP; omega) (by unfold BRG_Q_DROP; omega) rfl (found_of rowsBRG_found (k := 21) rfl (Nat.mod_lt _ (by decide)))) rfl
theorem BRG_Q_TOUT_in {i : Nat} : InRows 0x20000000000000000000000000000000000000000000000000 (BRG_Q_TOUT i) :=
  .of_eq (rowIndex_eq (w := 0x20) (e := 0x20c + 0x10 * (i % 16)) (by unfold BRG_Q_TOUT; omega) (by unfold BRG_Q_TOUT; omega) rfl (found_of rowsBRG_found (k := 22) rfl (Nat.mod_lt _ (by decide)))) rfl
theorem SMAP_PAGE_in : InRows 0x80000000000000000000000000000000000000000000000000 SMAP_PAGE := .of_eq rfl rfl
theorem SMAP_STATUS_in : InRows 0x100000000000000000000000000000000000000000000000000 SMAP_STATUS := .of_eq rfl rfl
theorem SMAP_BAD_in : InRows 0x200000000000000000000000000000000000000000000000000 SMAP_BAD := .of_eq rfl rfl
theorem SMAP_LAST_in : InRows 0x400000000000000000000000000000000000000000000000000 SMAP_LAST := .of_eq rfl rfl
theorem SMAP_E_W0_in {i : Nat} : InRows 0x800000000000000000000000000000000000000000000000000 (SMAP_E_W0 i) :=
  .of_eq (rowIndex_eq (w := 0x21) (e := 0x1000 + 0x10 * (i % 256)) (by unfold SMAP_E_W0; omega) (by unfold SMAP_E_W0; omega) rfl (found_of rowsSMAP_found (k := 4) rfl (Nat.mod_lt _ (by decide)))) rfl
theorem SMAP_E_W1_in {i : Nat} : InRows 0x1000000000000000000000000000000000000000000000000000 (SMAP_E_W1 i) :=
  .of_eq (rowIndex_eq (w := 0x21) (e := 0x1004 + 0x10 * (i % 256)) (by unfold SMAP_E_W1; omega) (by unfold SMAP_E_W1; omega) rfl (found_of rowsSMAP_found (k := 5) rfl (Nat.mod_lt _ (by decide)))) rfl
theorem SMAP_E_W2_in {i : Nat} : InRows 0x2000000000000000000000000000000000000000000000000000 (SMAP_E_W2 i) :=
  .of_eq (rowIndex_eq (w := 0x21) (e := 0x1008 + 0x10 * (i % 256)) (by unfold SMAP_E_W2; omega) (by unfold SMAP_E_W2; omega) rfl (found_of rowsSMAP_found (k := 6) rfl (Nat.mod_lt _ (by decide)))) rfl
theorem SMAP_E_W3_in {i : Nat} : InRows 0x4000000000000000000000000000000000000000000000000000 (SMAP_E_W3 i) :=
  .of_eq (rowIndex_eq (w := 0x21) (e := 0x100c + 0x10 * (i % 256)) (by unfold SMAP_E_W3; omega) (by unfold SMAP_E_W3; omega) rfl (found_of rowsSMAP_found (k := 7) rfl (Nat.mod_lt _ (by decide)))) rfl
theorem WAY_STATUS_in : InRows 0x10000000000000000000000000000000000000000000000000000 WAY_STATUS := .of_eq rfl rfl
theorem WAY_FREE_in : InRows 0x20000000000000000000000000000000000000000000000000000 WAY_FREE := .of_eq rfl rfl
theorem WAY_CMD_in : InRows 0x40000000000000000000000000000000000000000000000000000 WAY_CMD := .of_eq rfl rfl
theorem WAY_PURGES_in : InRows 0x80000000000000000000000000000000000000000000000000000 WAY_PURGES := .of_eq rfl rfl
theorem WAY_ACCCNT_in : InRows 0x100000000000000000000000000000000000000000000000000000 WAY_ACCCNT := .of_eq rfl rfl
theorem WAY_DUPCNT_in : InRows 0x200000000000000000000000000000000000000000000000000000 WAY_DUPCNT := .of_eq rfl rfl
theorem WAY_BUSYCNT_in : InRows 0x400000000000000000000000000000000000000000000000000000 WAY_BUSYCNT := .of_eq rfl rfl
theorem WAY_BADENT_in : InRows 0x800000000000000000000000000000000000000000000000000000 WAY_BADENT := .of_eq rfl rfl
theorem WAY_NEXT_in {i : Nat} : InRows 0x1000000000000000000000000000000000000000000000000000000 (WAY_NEXT i) :=
  .of_eq (rowIndex_eq (w := 0x22) (e := 0x100 + 0x4 * (i % 48)) (by unfold WAY_NEXT; omega) (by unfold WAY_NEXT; omega) rfl (found_of rowsWAY_found (k := 8) rfl (Nat.mod_lt _ (by decide)))) rfl
theorem WAY_RCPT_in {i : Nat} : InRows 0x2000000000000000000000000000000000000000000000000000000 (WAY_RCPT i) :=
  .of_eq (rowIndex_eq (w := 0x22) (e := 0x200 + 0x4 * (i % 48)) (by unfold WAY_RCPT; omega) (by unfold WAY_RCPT; omega) rfl (found_of rowsWAY_found (k := 9) rfl (Nat.mod_lt _ (by decide)))) rfl
theorem WAY_JQ_W0_in {i : Nat} : InRows 0x4000000000000000000000000000000000000000000000000000000 (WAY_JQ_W0 i) :=
  .of_eq (rowIndex_eq (w := 0x22) (e := 0x300 + 0x10 * (i % 16)) (by unfold WAY_JQ_W0; omega) (by unfold WAY_JQ_W0; omega) rfl (found_of rowsWAY_found (k := 10) rfl (Nat.mod_lt _ (by decide)))) rfl
theorem WAY_JQ_W1_in {i : Nat} : InRows 0x8000000000000000000000000000000000000000000000000000000 (WAY_JQ_W1 i) :=
  .of_eq (rowIndex_eq (w := 0x22) (e := 0x304 + 0x10 * (i % 16)) (by unfold WAY_JQ_W1; omega) (by unfold WAY_JQ_W1; omega) rfl (found_of rowsWAY_found (k := 11) rfl (Nat.mod_lt _ (by decide)))) rfl
theorem WAY_JQ_QNEXT_in {i : Nat} : InRows 0x10000000000000000000000000000000000000000000000000000000 (WAY_JQ_QNEXT i) :=
  .of_eq (rowIndex_eq (w := 0x22) (e := 0x308 + 0x10 * (i % 16)) (by unfold WAY_JQ_QNEXT; omega) (by unfold WAY_JQ_QNEXT; omega) rfl (found_of rowsWAY_found (k := 12) rfl (Nat.mod_lt _ (by decide)))) rfl
theorem MBX_STATUS_in : InRows 0x40000000000000000000000000000000000000000000000000000000 MBX_STATUS := .of_eq rfl rfl
theorem MBX_DENY_in : InRows 0x80000000000000000000000000000000000000000000000000000000 MBX_DENY := .of_eq rfl rfl
theorem MBX_EPRST_in : InRows 0x100000000000000000000000000000000000000000000000000000000 MBX_EPRST := .of_eq rfl rfl
theorem MBX_RXPEND_in : InRows 0x200000000000000000000000000000000000000000000000000000000 MBX_RXPEND := .of_eq rfl rfl
theorem MBX_ACKPEND_in : InRows 0x400000000000000000000000000000000000000000000000000000000 MBX_ACKPEND := .of_eq rfl rfl
theorem MBX_BIND_in {i : Nat} : InRows 0x800000000000000000000000000000000000000000000000000000000 (MBX_BIND i) :=
  .of_eq (rowIndex_eq (w := 0x23) (e := 0x80 + 0x4 * (i % 32)) (by unfold MBX_BIND; omega) (by unfold MBX_BIND; omega) rfl (found_of rowsMBX_found (k := 5) rfl (Nat.mod_lt _ (by decide)))) rfl
theorem MBX_CH_HDR_in {i : Nat} : InRows 0x1000000000000000000000000000000000000000000000000000000000 (MBX_CH_HDR i) :=
  .of_eq (rowIndex_eq (w := 0x23) (e := 0x100 + 0x40 * (i % 32)) (by unfold MBX_CH_HDR; omega) (by unfold MBX_CH_HDR; omega) rfl (found_of rowsMBX_found (k := 6) rfl (Nat.mod_lt _ (by decide)))) rfl
theorem MBX_CH_D0_in {i : Nat} : InRows 0x2000000000000000000000000000000000000000000000000000000000 (MBX_CH_D0 i) :=
  .of_eq (rowIndex_eq (w := 0x23) (e := 0x104 + 0x40 * (i % 32)) (by unfold MBX_CH_D0; omega) (by unfold MBX_CH_D0; omega) rfl (found_of rowsMBX_found (k := 7) rfl (Nat.mod_lt _ (by decide)))) rfl
theorem MBX_CH_D1_in {i : Nat} : InRows 0x4000000000000000000000000000000000000000000000000000000000 (MBX_CH_D1 i) :=
  .of_eq (rowIndex_eq (w := 0x23) (e := 0x108 + 0x40 * (i % 32)) (by unfold MBX_CH_D1; omega) (by unfold MBX_CH_D1; omega) rfl (found_of rowsMBX_found (k := 8) rfl (Nat.mod_lt _ (by decide)))) rfl
theorem MBX_CH_D2_in {i : Nat} : InRows 0x8000000000000000000000000000000000000000000000000000000000 (MBX_CH_D2 i) :=
  .of_eq (rowIndex_eq (w := 0x23) (e := 0x10c + 0x40 * (i % 32)) (by unfold MBX_CH_D2; omega) (by unfold MBX_CH_D2; omega) rfl (found_of rowsMBX_found (k := 9) rfl (Nat.mod_lt _ (by decide)))) rfl
theorem MBX_CH_D3_in {i : Nat} : InRows 0x10000000000000000000000000000000000000000000000000000000000 (MBX_CH_D3 i) :=
  .of_eq (rowIndex_eq (w := 0x23) (e := 0x110 + 0x40 * (i % 32)) (by unfold MBX_CH_D3; omega) (by unfold MBX_CH_D3; omega) rfl (found_of rowsMBX_found (k := 10) rfl (Nat.mod_lt _ (by decide)))) rfl
theorem MBX_CH_D4_in {i : Nat} : InRows 0x20000000000000000000000000000000000000000000000000000000000 (MBX_CH_D4 i) :=
  .of_eq (rowIndex_eq (w := 0x23) (e := 0x114 + 0x40 * (i % 32)) (by unfold MBX_CH_D4; omega) (by unfold MBX_CH_D4; omega) rfl (found_of rowsMBX_found (k := 11) rfl (Nat.mod_lt _ (by decide)))) rfl
theorem MBX_CH_D5_in {i : Nat} : InRows 0x40000000000000000000000000000000000000000000000000000000000 (MBX_CH_D5 i) :=
  .of_eq (rowIndex_eq (w := 0x23) (e := 0x118 + 0x40 * (i % 32)) (by unfold MBX_CH_D5; omega) (by unfold MBX_CH_D5; omega) rfl (found_of rowsMBX_found (k := 12) rfl (Nat.mod_lt _ (by decide)))) rfl
theorem MBX_CH_D6_in {i : Nat} : InRows 0x80000000000000000000000000000000000000000000000000000000000 (MBX_CH_D6 i) :=
  .of_eq (rowIndex_eq (w := 0x23) (e := 0x11c + 0x40 * (i % 32)) (by unfold MBX_CH_D6; omega) (by unfold MBX_CH_D6; omega) rfl (found_of rowsMBX_found (k := 13) rfl (Nat.mod_lt _ (by decide)))) rfl
theorem MBX_CH_D7_in {i : Nat} : InRows 0x100000000000000000000000000000000000000000000000000000000000 (MBX_CH_D7 i) :=
  .of_eq (rowIndex_eq (w := 0x23) (e := 0x120 + 0x40 * (i % 32)) (by unfold MBX_CH_D7; omega) (by unfold MBX_CH_D7; omega) rfl (found_of rowsMBX_found (k := 14) rfl (Nat.mod_lt _ (by decide)))) rfl
theorem MBX_CH_D8_in {i : Nat} : InRows 0x200000000000000000000000000000000000000000000000000000000000 (MBX_CH_D8 i) :=
  .of_eq (rowIndex_eq (w := 0x23) (e := 0x124 + 0x40 * (i % 32)) (by unfold MBX_CH_D8; omega) (by unfold MBX_CH_D8; omega) rfl (found_of rowsMBX_found (k := 15) rfl (Nat.mod_lt _ (by decide)))) rfl
theorem MBX_CH_D9_in {i : Nat} : InRows 0x400000000000000000000000000000000000000000000000000000000000 (MBX_CH_D9 i) :=
  .of_eq (rowIndex_eq (w := 0x23) (e := 0x128 + 0x40 * (i % 32)) (by unfold MBX_CH_D9; omega) (by unfold MBX_CH_D9; omega) rfl (found_of rowsMBX_found (k := 16) rfl (Nat.mod_lt _ (by decide)))) rfl
theorem MBX_CH_D10_in {i : Nat} : InRows 0x800000000000000000000000000000000000000000000000000000000000 (MBX_CH_D10 i) :=
  .of_eq (rowIndex_eq (w := 0x23) (e := 0x12c + 0x40 * (i % 32)) (by unfold MBX_CH_D10; omega) (by unfold MBX_CH_D10; omega) rfl (found_of rowsMBX_found (k := 17) rfl (Nat.mod_lt _ (by decide)))) rfl
theorem MBX_CH_D11_in {i : Nat} : InRows 0x1000000000000000000000000000000000000000000000000000000000000 (MBX_CH_D11 i) :=
  .of_eq (rowIndex_eq (w := 0x23) (e := 0x130 + 0x40 * (i % 32)) (by unfold MBX_CH_D11; omega) (by unfold MBX_CH_D11; omega) rfl (found_of rowsMBX_found (k := 18) rfl (Nat.mod_lt _ (by decide)))) rfl
theorem MBX_CH_CMD_in {i : Nat} : InRows 0x2000000000000000000000000000000000000000000000000000000000000 (MBX_CH_CMD i) :=
  .of_eq (rowIndex_eq (w := 0x23) (e := 0x134 + 0x40 * (i % 32)) (by unfold MBX_CH_CMD; omega) (by unfold MBX_CH_CMD; omega) rfl (found_of rowsMBX_found (k := 19) rfl (Nat.mod_lt _ (by decide)))) rfl
theorem MBX_CH_STAT_in {i : Nat} : InRows 0x4000000000000000000000000000000000000000000000000000000000000 (MBX_CH_STAT i) :=
  .of_eq (rowIndex_eq (w := 0x23) (e := 0x138 + 0x40 * (i % 32)) (by unfold MBX_CH_STAT; omega) (by unfold MBX_CH_STAT; omega) rfl (found_of rowsMBX_found (k := 20) rfl (Nat.mod_lt _ (by decide)))) rfl
theorem MBX_CH_ACK_in {i : Nat} : InRows 0x8000000000000000000000000000000000000000000000000000000000000 (MBX_CH_ACK i) :=
  .of_eq (rowIndex_eq (w := 0x23) (e := 0x13c + 0x40 * (i % 32)) (by unfold MBX_CH_ACK; omega) (by unfold MBX_CH_ACK; omega) rfl (found_of rowsMBX_found (k := 21) rfl (Nat.mod_lt _ (by decide)))) rfl
theorem MBX_HSEQ_in {i : Nat} : InRows 0x10000000000000000000000000000000000000000000000000000000000000 (MBX_HSEQ i) :=
  .of_eq (rowIndex_eq (w := 0x23) (e := 0x900 + 0x4 * (i % 32)) (by unfold MBX_HSEQ; omega) (by unfold MBX_HSEQ; omega) rfl (found_of rowsMBX_found (k := 22) rfl (Nat.mod_lt _ (by decide)))) rfl
theorem CPL_STATUS_in : InRows 0x40000000000000000000000000000000000000000000000000000000000000 CPL_STATUS := .of_eq rfl rfl
theorem CPL_CFG_in : InRows 0x80000000000000000000000000000000000000000000000000000000000000 CPL_CFG := .of_eq rfl rfl
theorem CPL_SOAK_in : InRows 0x100000000000000000000000000000000000000000000000000000000000000 CPL_SOAK := .of_eq rfl rfl
theorem CPL_STATE_in : InRows 0x200000000000000000000000000000000000000000000000000000000000000 CPL_STATE := .of_eq rfl rfl
theorem CPL_COMMAND_in : InRows 0x400000000000000000000000000000000000000000000000000000000000000 CPL_COMMAND :=
  .of_eq rfl rfl
theorem CPL_COPYLAST_in : InRows 0x800000000000000000000000000000000000000000000000000000000000000 CPL_COPYLAST :=
  .of_eq rfl rfl
theorem CPL_COPYMAX_in : InRows 0x1000000000000000000000000000000000000000000000000000000000000000 CPL_COPYMAX :=
  .of_eq rfl rfl
theorem CPL_APPLIED_in : InRows 0x2000000000000000000000000000000000000000000000000000000000000000 CPL_APPLIED :=
  .of_eq rfl rfl
theorem CPL_HOP_in {i : Nat} : InRows 0x4000000000000000000000000000000000000000000000000000000000000000 (CPL_HOP i) :=
  .of_eq (rowIndex_eq (w := 0x24) (e := 0x40 + 0x4 * (i % 6)) (by unfold CPL_HOP; omega) (by unfold CPL_HOP; omega) rfl (found_of rowsCPL_found (k := 8) rfl (Nat.mod_lt _ (by decide)))) rfl
theorem CPL_STALE_CNT_in : InRows 0x8000000000000000000000000000000000000000000000000000000000000000 CPL_STALE_CNT :=
  .of_eq rfl rfl
theorem CPL_HBLOSS_in : InRows 0x10000000000000000000000000000000000000000000000000000000000000000 CPL_HBLOSS :=
  .of_eq rfl rfl
theorem CPL_COPYLATE_in : InRows 0x20000000000000000000000000000000000000000000000000000000000000000 CPL_COPYLATE :=
  .of_eq rfl rfl
theorem CPL_PKTERR_in : InRows 0x40000000000000000000000000000000000000000000000000000000000000000 CPL_PKTERR :=
  .of_eq rfl rfl
theorem CPL_TAKEOVER_in : InRows 0x80000000000000000000000000000000000000000000000000000000000000000 CPL_TAKEOVER :=
  .of_eq rfl rfl
theorem CPL_HANDBACK_in : InRows 0x100000000000000000000000000000000000000000000000000000000000000000 CPL_HANDBACK :=
  .of_eq rfl rfl
theorem CPL_Q_CFG_in {i : Nat} : InRows 0x200000000000000000000000000000000000000000000000000000000000000000 (CPL_Q_CFG i) :=
  .of_eq (rowIndex_eq (w := 0x24) (e := 0x100 + 0x10 * (i % 4)) (by unfold CPL_Q_CFG; omega) (by unfold CPL_Q_CFG; omega) rfl (found_of rowsCPL_found (k := 15) rfl (Nat.mod_lt _ (by decide)))) rfl
theorem CPL_Q_STATUS_in {i : Nat} : InRows 0x400000000000000000000000000000000000000000000000000000000000000000 (CPL_Q_STATUS i) :=
  .of_eq (rowIndex_eq (w := 0x24) (e := 0x104 + 0x10 * (i % 4)) (by unfold CPL_Q_STATUS; omega) (by unfold CPL_Q_STATUS; omega) rfl (found_of rowsCPL_found (k := 16) rfl (Nat.mod_lt _ (by decide)))) rfl
theorem CPL_Q_DROP_in {i : Nat} : InRows 0x800000000000000000000000000000000000000000000000000000000000000000 (CPL_Q_DROP i) :=
  .of_eq (rowIndex_eq (w := 0x24) (e := 0x108 + 0x10 * (i % 4)) (by unfold CPL_Q_DROP; omega) (by unfold CPL_Q_DROP; omega) rfl (found_of rowsCPL_found (k := 17) rfl (Nat.mod_lt _ (by decide)))) rfl
theorem CPL_Q_TOUT_in {i : Nat} : InRows 0x1000000000000000000000000000000000000000000000000000000000000000000 (CPL_Q_TOUT i) :=
  .of_eq (rowIndex_eq (w := 0x24) (e := 0x10c + 0x10 * (i % 4)) (by unfold CPL_Q_TOUT; omega) (by unfold CPL_Q_TOUT; omega) rfl (found_of rowsCPL_found (k := 18) rfl (Nat.mod_lt _ (by decide)))) rfl
theorem DIO_STATUS_in : InRows 0x4000000000000000000000000000000000000000000000000000000000000000000 DIO_STATUS :=
  .of_eq rfl rfl
theorem DIO_DIRAW_in : InRows 0x8000000000000000000000000000000000000000000000000000000000000000000 DIO_DIRAW :=
  .of_eq rfl rfl
theorem DIO_DILATCH_in : InRows 0x10000000000000000000000000000000000000000000000000000000000000000000 DIO_DILATCH :=
  .of_eq rfl rfl
theorem DIO_DOEN_in : InRows 0x20000000000000000000000000000000000000000000000000000000000000000000 DIO_DOEN :=
  .of_eq rfl rfl
theorem DIO_DOSTATE_in : InRows 0x40000000000000000000000000000000000000000000000000000000000000000000 DIO_DOSTATE :=
  .of_eq rfl rfl
theorem DIO_DOLOAD_in : InRows 0x80000000000000000000000000000000000000000000000000000000000000000000 DIO_DOLOAD :=
  .of_eq rfl rfl
theorem DIO_DOCLR_in : InRows 0x100000000000000000000000000000000000000000000000000000000000000000000 DIO_DOCLR :=
  .of_eq rfl rfl
theorem DIO_WBCNT_in : InRows 0x200000000000000000000000000000000000000000000000000000000000000000000 DIO_WBCNT :=
  .of_eq rfl rfl
theorem DIO_WINCNT_in : InRows 0x400000000000000000000000000000000000000000000000000000000000000000000 DIO_WINCNT :=
  .of_eq rfl rfl
theorem DIO_DOFLTCNT_in : InRows 0x800000000000000000000000000000000000000000000000000000000000000000000 DIO_DOFLTCNT :=
  .of_eq rfl rfl
theorem DIO_DICFG_in {i : Nat} : InRows 0x1000000000000000000000000000000000000000000000000000000000000000000000 (DIO_DICFG i) :=
  .of_eq (rowIndex_eq (w := 0x28) (e := 0x40 + 0x4 * (i % 16)) (by unfold DIO_DICFG; omega) (by unfold DIO_DICFG; omega) rfl (found_of rowsDIO_found (k := 10) rfl (Nat.mod_lt _ (by decide)))) rfl
theorem DIO_DIUCAL_in {i : Nat} : InRows 0x2000000000000000000000000000000000000000000000000000000000000000000000 (DIO_DIUCAL i) :=
  .of_eq (rowIndex_eq (w := 0x28) (e := 0x80 + 0x4 * (i % 16)) (by unfold DIO_DIUCAL; omega) (by unfold DIO_DIUCAL; omega) rfl (found_of rowsDIO_found (k := 11) rfl (Nat.mod_lt _ (by decide)))) rfl
theorem DIO_DIFCAL_in {i : Nat} : InRows 0x4000000000000000000000000000000000000000000000000000000000000000000000 (DIO_DIFCAL i) :=
  .of_eq (rowIndex_eq (w := 0x28) (e := 0xc0 + 0x4 * (i % 16)) (by unfold DIO_DIFCAL; omega) (by unfold DIO_DIFCAL; omega) rfl (found_of rowsDIO_found (k := 12) rfl (Nat.mod_lt _ (by decide)))) rfl
theorem DIO_DOCFG_in {i : Nat} : InRows 0x8000000000000000000000000000000000000000000000000000000000000000000000 (DIO_DOCFG i) :=
  .of_eq (rowIndex_eq (w := 0x28) (e := 0x100 + 0x4 * (i % 8)) (by unfold DIO_DOCFG; omega) (by unfold DIO_DOCFG; omega) rfl (found_of rowsDIO_found (k := 13) rfl (Nat.mod_lt _ (by decide)))) rfl
theorem DIO_DOFB_in {i : Nat} : InRows 0x10000000000000000000000000000000000000000000000000000000000000000000000 (DIO_DOFB i) :=
  .of_eq (rowIndex_eq (w := 0x28) (e := 0x120 + 0x4 * (i % 8)) (by unfold DIO_DOFB; omega) (by unfold DIO_DOFB; omega) rfl (found_of rowsDIO_found (k := 14) rfl (Nat.mod_lt _ (by decide)))) rfl
theorem LOOP_STATUS_in : InRows 0x40000000000000000000000000000000000000000000000000000000000000000000000 LOOP_STATUS :=
  .of_eq rfl rfl
theorem LOOP_CTIME_in : InRows 0x80000000000000000000000000000000000000000000000000000000000000000000000 LOOP_CTIME :=
  .of_eq rfl rfl
theorem LOOP_COMPLIANCE_in : InRows 0x100000000000000000000000000000000000000000000000000000000000000000000000 LOOP_COMPLIANCE :=
  .of_eq rfl rfl
theorem LOOP_FAULT_in : InRows 0x200000000000000000000000000000000000000000000000000000000000000000000000 LOOP_FAULT :=
  .of_eq rfl rfl
theorem LOOP_CLR_in : InRows 0x400000000000000000000000000000000000000000000000000000000000000000000000 LOOP_CLR :=
  .of_eq rfl rfl
theorem LOOP_FLTCNT_in : InRows 0x800000000000000000000000000000000000000000000000000000000000000000000000 LOOP_FLTCNT :=
  .of_eq rfl rfl
theorem LOOP_CFG_in {i : Nat} : InRows 0x1000000000000000000000000000000000000000000000000000000000000000000000000 (LOOP_CFG i) :=
  .of_eq (rowIndex_eq (w := 0x29) (e := 0x40 + 0x4 * (i % 4)) (by unfold LOOP_CFG; omega) (by unfold LOOP_CFG; omega) rfl (found_of rowsLOOP_found (k := 6) rfl (Nat.mod_lt _ (by decide)))) rfl
theorem LOOP_MEAS_in {i : Nat} : InRows 0x2000000000000000000000000000000000000000000000000000000000000000000000000 (LOOP_MEAS i) :=
  .of_eq (rowIndex_eq (w := 0x29) (e := 0x50 + 0x4 * (i % 4)) (by unfold LOOP_MEAS; omega) (by unfold LOOP_MEAS; omega) rfl (found_of rowsLOOP_found (k := 7) rfl (Nat.mod_lt _ (by decide)))) rfl
theorem LOOP_LOAD_in {i : Nat} : InRows 0x4000000000000000000000000000000000000000000000000000000000000000000000000 (LOOP_LOAD i) :=
  .of_eq (rowIndex_eq (w := 0x29) (e := 0x60 + 0x4 * (i % 4)) (by unfold LOOP_LOAD; omega) (by unfold LOOP_LOAD; omega) rfl (found_of rowsLOOP_found (k := 8) rfl (Nat.mod_lt _ (by decide)))) rfl
theorem LOOP_UCAL_in {i : Nat} : InRows 0x8000000000000000000000000000000000000000000000000000000000000000000000000 (LOOP_UCAL i) :=
  .of_eq (rowIndex_eq (w := 0x29) (e := 0x70 + 0x4 * (i % 4)) (by unfold LOOP_UCAL; omega) (by unfold LOOP_UCAL; omega) rfl (found_of rowsLOOP_found (k := 9) rfl (Nat.mod_lt _ (by decide)))) rfl
theorem LOOP_FCAL_in {i : Nat} : InRows 0x10000000000000000000000000000000000000000000000000000000000000000000000000 (LOOP_FCAL i) :=
  .of_eq (rowIndex_eq (w := 0x29) (e := 0x80 + 0x4 * (i % 4)) (by unfold LOOP_FCAL; omega) (by unfold LOOP_FCAL; omega) rfl (found_of rowsLOOP_found (k := 10) rfl (Nat.mod_lt _ (by decide)))) rfl
theorem SAF_STATUS_in : InRows 0x40000000000000000000000000000000000000000000000000000000000000000000000000 SAF_STATUS :=
  .of_eq rfl rfl
theorem SAF_TPCTRL_in : InRows 0x80000000000000000000000000000000000000000000000000000000000000000000000000 SAF_TPCTRL :=
  .of_eq rfl rfl
theorem SAF_TPRES_in : InRows 0x100000000000000000000000000000000000000000000000000000000000000000000000000 SAF_TPRES :=
  .of_eq rfl rfl
theorem SAF_TPFAIL_in : InRows 0x200000000000000000000000000000000000000000000000000000000000000000000000000 SAF_TPFAIL :=
  .of_eq rfl rfl
theorem SAF_BBDROP_in : InRows 0x400000000000000000000000000000000000000000000000000000000000000000000000000 SAF_BBDROP :=
  .of_eq rfl rfl
theorem SAF_GSTATE_in : InRows 0x800000000000000000000000000000000000000000000000000000000000000000000000000 SAF_GSTATE :=
  .of_eq rfl rfl
theorem SAF_GTEST_in {i : Nat} : InRows 0x1000000000000000000000000000000000000000000000000000000000000000000000000000 (SAF_GTEST i) :=
  .of_eq (rowIndex_eq (w := 0x2a) (e := 0x20 + 0x4 * (i % 8)) (by unfold SAF_GTEST; omega) (by unfold SAF_GTEST; omega) rfl (found_of rowsSAF_found (k := 6) rfl (Nat.mod_lt _ (by decide)))) rfl
theorem SAF_BCH_W0_in {i : Nat} : InRows 0x2000000000000000000000000000000000000000000000000000000000000000000000000000 (SAF_BCH_W0 i) :=
  .of_eq (rowIndex_eq (w := 0x2a) (e := 0x100 + 0x10 * (i % 32)) (by unfold SAF_BCH_W0; omega) (by unfold SAF_BCH_W0; omega) rfl (found_of rowsSAF_found (k := 7) rfl (Nat.mod_lt _ (by decide)))) rfl
theorem SAF_BCH_W1_in {i : Nat} : InRows 0x4000000000000000000000000000000000000000000000000000000000000000000000000000 (SAF_BCH_W1 i) :=
  .of_eq (rowIndex_eq (w := 0x2a) (e := 0x104 + 0x10 * (i % 32)) (by unfold SAF_BCH_W1; omega) (by unfold SAF_BCH_W1; omega) rfl (found_of rowsSAF_found (k := 8) rfl (Nat.mod_lt _ (by decide)))) rfl
theorem SAF_BCH_W2_in {i : Nat} : InRows 0x8000000000000000000000000000000000000000000000000000000000000000000000000000 (SAF_BCH_W2 i) :=
  .of_eq (rowIndex_eq (w := 0x2a) (e := 0x108 + 0x10 * (i % 32)) (by unfold SAF_BCH_W2; omega) (by unfold SAF_BCH_W2; omega) rfl (found_of rowsSAF_found (k := 9) rfl (Nat.mod_lt _ (by decide)))) rfl
theorem SAF_BCH_PEER_in {i : Nat} : InRows 0x10000000000000000000000000000000000000000000000000000000000000000000000000000 (SAF_BCH_PEER i) :=
  .of_eq (rowIndex_eq (w := 0x2a) (e := 0x10c + 0x10 * (i % 32)) (by unfold SAF_BCH_PEER; omega) (by unfold SAF_BCH_PEER; omega) rfl (found_of rowsSAF_found (k := 10) rfl (Nat.mod_lt _ (by decide)))) rfl
theorem BLW_STATUS_in : InRows 0x40000000000000000000000000000000000000000000000000000000000000000000000000000 BLW_STATUS :=
  .of_eq rfl rfl
theorem BLW_CMD_in : InRows 0x80000000000000000000000000000000000000000000000000000000000000000000000000000 BLW_CMD :=
  .of_eq rfl rfl
theorem BLW_WDOG_in : InRows 0x100000000000000000000000000000000000000000000000000000000000000000000000000000 BLW_WDOG :=
  .of_eq rfl rfl
theorem BLW_WDTIME_in : InRows 0x200000000000000000000000000000000000000000000000000000000000000000000000000000 BLW_WDTIME :=
  .of_eq rfl rfl
theorem BLW_HEALTH_in : InRows 0x400000000000000000000000000000000000000000000000000000000000000000000000000000 BLW_HEALTH :=
  .of_eq rfl rfl
theorem BLW_OPCAP_in : InRows 0x800000000000000000000000000000000000000000000000000000000000000000000000000000 BLW_OPCAP :=
  .of_eq rfl rfl
theorem BLW_HOLDUP_in : InRows 0x1000000000000000000000000000000000000000000000000000000000000000000000000000000 BLW_HOLDUP :=
  .of_eq rfl rfl
theorem BLW_STAGE_in : InRows 0x2000000000000000000000000000000000000000000000000000000000000000000000000000000 BLW_STAGE :=
  .of_eq rfl rfl
theorem BLW_OPTIMEL_in : InRows 0x4000000000000000000000000000000000000000000000000000000000000000000000000000000 BLW_OPTIMEL :=
  .of_eq rfl rfl
theorem BLW_OPTIMEH_in : InRows 0x8000000000000000000000000000000000000000000000000000000000000000000000000000000 BLW_OPTIMEH :=
  .of_eq rfl rfl
theorem BLW_PWRCYC_in : InRows 0x10000000000000000000000000000000000000000000000000000000000000000000000000000000 BLW_PWRCYC :=
  .of_eq rfl rfl
theorem BLW_EFCOUNT_in : InRows 0x20000000000000000000000000000000000000000000000000000000000000000000000000000000 BLW_EFCOUNT :=
  .of_eq rfl rfl
theorem BLW_EFRAME_in : InRows 0x40000000000000000000000000000000000000000000000000000000000000000000000000000000 BLW_EFRAME :=
  .of_eq rfl rfl
theorem BLW_EFAB_in : InRows 0x80000000000000000000000000000000000000000000000000000000000000000000000000000000 BLW_EFAB :=
  .of_eq rfl rfl
theorem BLW_ELANE_in {i : Nat} : InRows 0x100000000000000000000000000000000000000000000000000000000000000000000000000000000 (BLW_ELANE i) :=
  .of_eq (rowIndex_eq (w := 0x30) (e := 0x38 + 0x8 * (i % 3)) (by unfold BLW_ELANE; omega) (by unfold BLW_ELANE; omega) rfl (found_of rowsBLW_found (k := 14) rfl (Nat.mod_lt _ (by decide)))) rfl
theorem BLW_EACT_in {i : Nat} : InRows 0x200000000000000000000000000000000000000000000000000000000000000000000000000000000 (BLW_EACT i) :=
  .of_eq (rowIndex_eq (w := 0x30) (e := 0x3c + 0x8 * (i % 3)) (by unfold BLW_EACT; omega) (by unfold BLW_EACT; omega) rfl (found_of rowsBLW_found (k := 15) rfl (Nat.mod_lt _ (by decide)))) rfl
theorem BLW_ETOTL_in : InRows 0x400000000000000000000000000000000000000000000000000000000000000000000000000000000 BLW_ETOTL :=
  .of_eq rfl rfl
theorem BLW_ETOTH_in : InRows 0x800000000000000000000000000000000000000000000000000000000000000000000000000000000 BLW_ETOTH :=
  .of_eq rfl rfl
theorem BLW_PFCNT_in : InRows 0x1000000000000000000000000000000000000000000000000000000000000000000000000000000000 BLW_PFCNT :=
  .of_eq rfl rfl
theorem BLW_RAILCNT_in : InRows 0x2000000000000000000000000000000000000000000000000000000000000000000000000000000000 BLW_RAILCNT :=
  .of_eq rfl rfl
theorem BLW_THERMCNT_in : InRows 0x4000000000000000000000000000000000000000000000000000000000000000000000000000000000 BLW_THERMCNT :=
  .of_eq rfl rfl
theorem BLW_BRSTCNT_in : InRows 0x8000000000000000000000000000000000000000000000000000000000000000000000000000000000 BLW_BRSTCNT :=
  .of_eq rfl rfl
theorem BLW_RAIL_in {i : Nat} : InRows 0x10000000000000000000000000000000000000000000000000000000000000000000000000000000000 (BLW_RAIL i) :=
  .of_eq (rowIndex_eq (w := 0x30) (e := 0x80 + 0x4 * (i % 12)) (by unfold BLW_RAIL; omega) (by unfold BLW_RAIL; omega) rfl (found_of rowsBLW_found (k := 22) rfl (Nat.mod_lt _ (by decide)))) rfl
theorem BLW_TEMP_in {i : Nat} : InRows 0x20000000000000000000000000000000000000000000000000000000000000000000000000000000000 (BLW_TEMP i) :=
  .of_eq (rowIndex_eq (w := 0x30) (e := 0xc0 + 0x4 * (i % 8)) (by unfold BLW_TEMP; omega) (by unfold BLW_TEMP; omega) rfl (found_of rowsBLW_found (k := 23) rfl (Nat.mod_lt _ (by decide)))) rfl
theorem BLW_OPTAB_in {i : Nat} : InRows 0x40000000000000000000000000000000000000000000000000000000000000000000000000000000000 (BLW_OPTAB i) :=
  .of_eq (rowIndex_eq (w := 0x30) (e := 0xe0 + 0x4 * (i % 3)) (by unfold BLW_OPTAB; omega) (by unfold BLW_OPTAB; omega) rfl (found_of rowsBLW_found (k := 24) rfl (Nat.mod_lt _ (by decide)))) rfl
theorem BLW_LINKP_in {i : Nat} : InRows 0x80000000000000000000000000000000000000000000000000000000000000000000000000000000000 (BLW_LINKP i) :=
  .of_eq (rowIndex_eq (w := 0x30) (e := 0x100 + 0x4 * (i % 24)) (by unfold BLW_LINKP; omega) (by unfold BLW_LINKP; omega) rfl (found_of rowsBLW_found (k := 25) rfl (Nat.mod_lt _ (by decide)))) rfl
theorem EVR_STATUS_in : InRows 0x200000000000000000000000000000000000000000000000000000000000000000000000000000000000 EVR_STATUS :=
  .of_eq rfl rfl
theorem EVR_CMD_in : InRows 0x400000000000000000000000000000000000000000000000000000000000000000000000000000000000 EVR_CMD :=
  .of_eq rfl rfl
theorem EVR_BUFCNT_in : InRows 0x800000000000000000000000000000000000000000000000000000000000000000000000000000000000 EVR_BUFCNT :=
  .of_eq rfl rfl
theorem EVR_WEAR_in : InRows 0x1000000000000000000000000000000000000000000000000000000000000000000000000000000000000 EVR_WEAR :=
  .of_eq rfl rfl
theorem EVR_FIRSTL_in : InRows 0x2000000000000000000000000000000000000000000000000000000000000000000000000000000000000 EVR_FIRSTL :=
  .of_eq rfl rfl
theorem EVR_FIRSTH_in : InRows 0x4000000000000000000000000000000000000000000000000000000000000000000000000000000000000 EVR_FIRSTH :=
  .of_eq rfl rfl
theorem EVR_NEXTL_in : InRows 0x8000000000000000000000000000000000000000000000000000000000000000000000000000000000000 EVR_NEXTL :=
  .of_eq rfl rfl
theorem EVR_NEXTH_in : InRows 0x10000000000000000000000000000000000000000000000000000000000000000000000000000000000000 EVR_NEXTH :=
  .of_eq rfl rfl
theorem EVR_RDSEQL_in : InRows 0x20000000000000000000000000000000000000000000000000000000000000000000000000000000000000 EVR_RDSEQL :=
  .of_eq rfl rfl
theorem EVR_RDSEQH_in : InRows 0x40000000000000000000000000000000000000000000000000000000000000000000000000000000000000 EVR_RDSEQH :=
  .of_eq rfl rfl
theorem EVR_RDSTAT_in : InRows 0x80000000000000000000000000000000000000000000000000000000000000000000000000000000000000 EVR_RDSTAT :=
  .of_eq rfl rfl
theorem EVR_RDATA_in {i : Nat} : InRows 0x100000000000000000000000000000000000000000000000000000000000000000000000000000000000000 (EVR_RDATA i) :=
  .of_eq (rowIndex_eq (w := 0x31) (e := 0x30 + 0x4 * (i % 12)) (by unfold EVR_RDATA; omega) (by unfold EVR_RDATA; omega) rfl (found_of rowsEVR_found (k := 11) rfl (Nat.mod_lt _ (by decide)))) rfl
theorem EVR_SUPPTOT_in : InRows 0x200000000000000000000000000000000000000000000000000000000000000000000000000000000000000 EVR_SUPPTOT :=
  .of_eq rfl rfl
theorem EVR_BUFLOST_in : InRows 0x400000000000000000000000000000000000000000000000000000000000000000000000000000000000000 EVR_BUFLOST :=
  .of_eq rfl rfl
theorem EVR_BADBLK_in : InRows 0x800000000000000000000000000000000000000000000000000000000000000000000000000000000000000 EVR_BADBLK :=
  .of_eq rfl rfl
theorem EVR_RLIM_W0_in {i : Nat} : InRows 0x1000000000000000000000000000000000000000000000000000000000000000000000000000000000000000 (EVR_RLIM_W0 i) :=
  .of_eq (rowIndex_eq (w := 0x31) (e := 0x80 + 0x8 * (i % 16)) (by unfold EVR_RLIM_W0; omega) (by unfold EVR_RLIM_W0; omega) rfl (found_of rowsEVR_found (k := 15) rfl (Nat.mod_lt _ (by decide)))) rfl
theorem EVR_RLIM_W1_in {i : Nat} : InRows 0x2000000000000000000000000000000000000000000000000000000000000000000000000000000000000000 (EVR_RLIM_W1 i) :=
  .of_eq (rowIndex_eq (w := 0x31) (e := 0x84 + 0x8 * (i % 16)) (by unfold EVR_RLIM_W1; omega) (by unfold EVR_RLIM_W1; omega) rfl (found_of rowsEVR_found (k := 16) rfl (Nat.mod_lt _ (by decide)))) rfl
theorem UPD_STATUS_in : InRows 0x8000000000000000000000000000000000000000000000000000000000000000000000000000000000000000 UPD_STATUS :=
  .of_eq rfl rfl
theorem UPD_CMD_in : InRows 0x10000000000000000000000000000000000000000000000000000000000000000000000000000000000000000 UPD_CMD :=
  .of_eq rfl rfl
theorem UPD_SRC_in : InRows 0x20000000000000000000000000000000000000000000000000000000000000000000000000000000000000000 UPD_SRC :=
  .of_eq rfl rfl
theorem UPD_OFF_in : InRows 0x40000000000000000000000000000000000000000000000000000000000000000000000000000000000000000 UPD_OFF :=
  .of_eq rfl rfl
theorem UPD_LEN_in : InRows 0x80000000000000000000000000000000000000000000000000000000000000000000000000000000000000000 UPD_LEN :=
  .of_eq rfl rfl
theorem UPD_SIDING_in : InRows 0x100000000000000000000000000000000000000000000000000000000000000000000000000000000000000000 UPD_SIDING :=
  .of_eq rfl rfl
theorem UPD_TRIAL_in : InRows 0x200000000000000000000000000000000000000000000000000000000000000000000000000000000000000000 UPD_TRIAL :=
  .of_eq rfl rfl
theorem UPD_CHAL_in : InRows 0x400000000000000000000000000000000000000000000000000000000000000000000000000000000000000000 UPD_CHAL :=
  .of_eq rfl rfl
theorem UPD_RESP_in : InRows 0x800000000000000000000000000000000000000000000000000000000000000000000000000000000000000000 UPD_RESP :=
  .of_eq rfl rfl
theorem UPD_COMP_STATE_in {i : Nat} : InRows 0x1000000000000000000000000000000000000000000000000000000000000000000000000000000000000000000 (UPD_COMP_STATE i) :=
  .of_eq (rowIndex_eq (w := 0x32) (e := 0x40 + 0x8 * (i % 5)) (by unfold UPD_COMP_STATE; omega) (by unfold UPD_COMP_STATE; omega) rfl (found_of rowsUPD_found (k := 9) rfl (Nat.mod_lt _ (by decide)))) rfl
theorem UPD_COMP_VER_in {i : Nat} : InRows 0x2000000000000000000000000000000000000000000000000000000000000000000000000000000000000000000 (UPD_COMP_VER i) :=
  .of_eq (rowIndex_eq (w := 0x32) (e := 0x44 + 0x8 * (i % 5)) (by unfold UPD_COMP_VER; omega) (by unfold UPD_COMP_VER; omega) rfl (found_of rowsUPD_found (k := 10) rfl (Nat.mod_lt _ (by decide)))) rfl
theorem SEC_STATUS_in : InRows 0x8000000000000000000000000000000000000000000000000000000000000000000000000000000000000000000 SEC_STATUS :=
  .of_eq rfl rfl
theorem SEC_CMD_in : InRows 0x10000000000000000000000000000000000000000000000000000000000000000000000000000000000000000000 SEC_CMD :=
  .of_eq rfl rfl
theorem SEC_SERIALL_in : InRows 0x20000000000000000000000000000000000000000000000000000000000000000000000000000000000000000000 SEC_SERIALL :=
  .of_eq rfl rfl
theorem SEC_SERIALH_in : InRows 0x40000000000000000000000000000000000000000000000000000000000000000000000000000000000000000000 SEC_SERIALH :=
  .of_eq rfl rfl
theorem SEC_CERTSEL_in : InRows 0x80000000000000000000000000000000000000000000000000000000000000000000000000000000000000000000 SEC_CERTSEL :=
  .of_eq rfl rfl
theorem SEC_CERTLEN_in : InRows 0x100000000000000000000000000000000000000000000000000000000000000000000000000000000000000000000 SEC_CERTLEN :=
  .of_eq rfl rfl
theorem SEC_NONCE_in {i : Nat} : InRows 0x200000000000000000000000000000000000000000000000000000000000000000000000000000000000000000000 (SEC_NONCE i) :=
  .of_eq (rowIndex_eq (w := 0x33) (e := 0x20 + 0x4 * (i % 8)) (by unfold SEC_NONCE; omega) (by unfold SEC_NONCE; omega) rfl (found_of rowsSEC_found (k := 6) rfl (Nat.mod_lt _ (by decide)))) rfl
theorem SEC_PKEY_in {i : Nat} : InRows 0x400000000000000000000000000000000000000000000000000000000000000000000000000000000000000000000 (SEC_PKEY i) :=
  .of_eq (rowIndex_eq (w := 0x33) (e := 0x40 + 0x4 * (i % 4)) (by unfold SEC_PKEY; omega) (by unfold SEC_PKEY; omega) rfl (found_of rowsSEC_found (k := 7) rfl (Nat.mod_lt _ (by decide)))) rfl
theorem SEC_KEY_in {i : Nat} : InRows 0x800000000000000000000000000000000000000000000000000000000000000000000000000000000000000000000 (SEC_KEY i) :=
  .of_eq (rowIndex_eq (w := 0x33) (e := 0x80 + 0x4 * (i % 16)) (by unfold SEC_KEY; omega) (by unfold SEC_KEY; omega) rfl (found_of rowsSEC_found (k := 8) rfl (Nat.mod_lt _ (by decide)))) rfl
theorem SEC_RPT_in {i : Nat} : InRows 0x1000000000000000000000000000000000000000000000000000000000000000000000000000000000000000000000 (SEC_RPT i) :=
  .of_eq (rowIndex_eq (w := 0x33) (e := 0x100 + 0x4 * (i % 82)) (by unfold SEC_RPT; omega) (by unfold SEC_RPT; omega) rfl (found_of rowsSEC_found (k := 9) rfl (Nat.mod_lt _ (by decide)))) rfl
theorem SEC_CERT_in {i : Nat} : InRows 0x2000000000000000000000000000000000000000000000000000000000000000000000000000000000000000000000 (SEC_CERT i) :=
  .of_eq (rowIndex_eq (w := 0x33) (e := 0x400 + 0x4 * (i % 256)) (by unfold SEC_CERT; omega) (by unfold SEC_CERT; omega) rfl (found_of rowsSEC_found (k := 10) rfl (Nat.mod_lt _ (by decide)))) rfl

theorem queueStatus_in {q : QueueId} : InRows 0x400000000000000008000000000000000011000000000000000000000000000000 (queueStatus q) := by
  cases q with
  | ring n west =>
    cases west
    · have e : queueStatus (.ring n false) = SOP_QE_STATUS n := by
        simp only [queueStatus, queueCfg, SOP_QE_CFG, SOP_QE_STATUS, Bool.false_eq_true, if_false]; omega
      rw [e]
      exact SOP_QE_STATUS_in.mono rfl
    · have e : queueStatus (.ring n true) = SOP_QW_STATUS n := by
        simp only [queueStatus, queueCfg, SOP_QW_CFG, SOP_QW_STATUS, if_true]; omega
      rw [e]
      exact SOP_QW_STATUS_in.mono rfl
  | bridge n =>
    have e : queueStatus (.bridge n) = BRG_Q_STATUS n := by simp only [queueStatus, queueCfg, BRG_Q_CFG, BRG_Q_STATUS]; omega
    rw [e]
    exact BRG_Q_STATUS_in.mono rfl
  | coupler l =>
    have e : queueStatus (.coupler l) = CPL_Q_STATUS l := by simp only [queueStatus, queueCfg, CPL_Q_CFG, CPL_Q_STATUS]; omega
    rw [e]
    exact CPL_Q_STATUS_in.mono rfl

theorem queueDrop_in {q : QueueId} : InRows 0x800000000000000010000000000000000022000000000000000000000000000000 (queueDrop q) := by
  cases q with
  | ring n west =>
    cases west
    · have e : queueDrop (.ring n false) = SOP_QE_DROP n := by
        simp only [queueDrop, queueCfg, SOP_QE_CFG, SOP_QE_DROP, Bool.false_eq_true, if_false]; omega
      rw [e]
      exact SOP_QE_DROP_in.mono rfl
    · have e : queueDrop (.ring n true) = SOP_QW_DROP n := by
        simp only [queueDrop, queueCfg, SOP_QW_CFG, SOP_QW_DROP, if_true]; omega
      rw [e]
      exact SOP_QW_DROP_in.mono rfl
  | bridge n =>
    have e : queueDrop (.bridge n) = BRG_Q_DROP n := by simp only [queueDrop, queueCfg, BRG_Q_CFG, BRG_Q_DROP]; omega
    rw [e]
    exact BRG_Q_DROP_in.mono rfl
  | coupler l =>
    have e : queueDrop (.coupler l) = CPL_Q_DROP l := by simp only [queueDrop, queueCfg, CPL_Q_CFG, CPL_Q_DROP]; omega
    rw [e]
    exact CPL_Q_DROP_in.mono rfl

theorem queueTout_in {q : QueueId} : InRows 0x1000000000000000020000000000000000044000000000000000000000000000000 (queueTout q) := by
  cases q with
  | ring n west =>
    cases west
    · have e : queueTout (.ring n false) = SOP_QE_TOUT n := by
        simp only [queueTout, queueCfg, SOP_QE_CFG, SOP_QE_TOUT, Bool.false_eq_true, if_false]; omega
      rw [e]
      exact SOP_QE_TOUT_in.mono rfl
    · have e : queueTout (.ring n true) = SOP_QW_TOUT n := by
        simp only [queueTout, queueCfg, SOP_QW_CFG, SOP_QW_TOUT, if_true]; omega
      rw [e]
      exact SOP_QW_TOUT_in.mono rfl
  | bridge n =>
    have e : queueTout (.bridge n) = BRG_Q_TOUT n := by simp only [queueTout, queueCfg, BRG_Q_CFG, BRG_Q_TOUT]; omega
    rw [e]
    exact BRG_Q_TOUT_in.mono rfl
  | coupler l =>
    have e : queueTout (.coupler l) = CPL_Q_TOUT l := by simp only [queueTout, queueCfg, CPL_Q_CFG, CPL_Q_TOUT]; omega
    rw [e]
    exact CPL_Q_TOUT_in.mono rfl

theorem mbxData_in {c i : Nat} : InRows 0x1ffe000000000000000000000000000000000000000000000000000000000 (MBX_CH_D0 c + 4 * (i % 12)) := by
  have h : i % 12 < 12 := Nat.mod_lt _ (by decide)
  generalize i % 12 = k at h
  match k, h with
  | 0, _ => exact InRows.mono (a := MBX_CH_D0 c + 4 * 0) (by rw [show MBX_CH_D0 c + 4 * 0 = MBX_CH_D0 c by simp only [MBX_CH_D0, MBX_CH_D0]; omega]; exact MBX_CH_D0_in) (by decide)
  | 1, _ => exact InRows.mono (a := MBX_CH_D0 c + 4 * 1) (by rw [show MBX_CH_D0 c + 4 * 1 = MBX_CH_D1 c by simp only [MBX_CH_D0, MBX_CH_D1]; omega]; exact MBX_CH_D1_in) (by decide)
  | 2, _ => exact InRows.mono (a := MBX_CH_D0 c + 4 * 2) (by rw [show MBX_CH_D0 c + 4 * 2 = MBX_CH_D2 c by simp only [MBX_CH_D0, MBX_CH_D2]; omega]; exact MBX_CH_D2_in) (by decide)
  | 3, _ => exact InRows.mono (a := MBX_CH_D0 c + 4 * 3) (by rw [show MBX_CH_D0 c + 4 * 3 = MBX_CH_D3 c by simp only [MBX_CH_D0, MBX_CH_D3]; omega]; exact MBX_CH_D3_in) (by decide)
  | 4, _ => exact InRows.mono (a := MBX_CH_D0 c + 4 * 4) (by rw [show MBX_CH_D0 c + 4 * 4 = MBX_CH_D4 c by simp only [MBX_CH_D0, MBX_CH_D4]; omega]; exact MBX_CH_D4_in) (by decide)
  | 5, _ => exact InRows.mono (a := MBX_CH_D0 c + 4 * 5) (by rw [show MBX_CH_D0 c + 4 * 5 = MBX_CH_D5 c by simp only [MBX_CH_D0, MBX_CH_D5]; omega]; exact MBX_CH_D5_in) (by decide)
  | 6, _ => exact InRows.mono (a := MBX_CH_D0 c + 4 * 6) (by rw [show MBX_CH_D0 c + 4 * 6 = MBX_CH_D6 c by simp only [MBX_CH_D0, MBX_CH_D6]; omega]; exact MBX_CH_D6_in) (by decide)
  | 7, _ => exact InRows.mono (a := MBX_CH_D0 c + 4 * 7) (by rw [show MBX_CH_D0 c + 4 * 7 = MBX_CH_D7 c by simp only [MBX_CH_D0, MBX_CH_D7]; omega]; exact MBX_CH_D7_in) (by decide)
  | 8, _ => exact InRows.mono (a := MBX_CH_D0 c + 4 * 8) (by rw [show MBX_CH_D0 c + 4 * 8 = MBX_CH_D8 c by simp only [MBX_CH_D0, MBX_CH_D8]; omega]; exact MBX_CH_D8_in) (by decide)
  | 9, _ => exact InRows.mono (a := MBX_CH_D0 c + 4 * 9) (by rw [show MBX_CH_D0 c + 4 * 9 = MBX_CH_D9 c by simp only [MBX_CH_D0, MBX_CH_D9]; omega]; exact MBX_CH_D9_in) (by decide)
  | 10, _ => exact InRows.mono (a := MBX_CH_D0 c + 4 * 10) (by rw [show MBX_CH_D0 c + 4 * 10 = MBX_CH_D10 c by simp only [MBX_CH_D0, MBX_CH_D10]; omega]; exact MBX_CH_D10_in) (by decide)
  | 11, _ => exact InRows.mono (a := MBX_CH_D0 c + 4 * 11) (by rw [show MBX_CH_D0 c + 4 * 11 = MBX_CH_D11 c by simp only [MBX_CH_D0, MBX_CH_D11]; omega]; exact MBX_CH_D11_in) (by decide)

end Sys2Proof.Machine
end

