-- ==== Sys2Proof/Laws/Keeps.lean ====
section
/-!
SUPPORT. The relation `Keeps`: what an operation of the model keeps, whatever else it does: the canonical form, every part of
the state outside a set, and every register outside a set of rows. The lemmas of the operations stand in the other Keeps
files, one for each.
-/

namespace Sys2Proof.Machine

set_option Elab.async false
set_option linter.all false

/-- The place of a part in a set of parts and rows, which is a number: bit n of it is the part in place n, and bit 32 + n
the row n of the register map. -/
def Part.place (p : Part) : Nat :=
  match p with
  | .pending => 0
  | .regs => 1
  | .smap => 2
  | .mem => 3
  | .ue => 4
  | .cores => 5
  | .program => 6
  | .tasks => 7
  | .lanes => 8
  | .triads => 9
  | .anvils => 10
  | .frame => 11
  | .modes => 12
  | .change => 13
  | .time => 14
  | .dma => 15
  | .recorder => 16
  | .cpl => 17
  | .dio => 18
  | .loop => 19
  | .calib => 20
  | .bellows => 21
  | .update => 22
  | .rings => 23
  | .held => 24
  | .bridge => 25
  | .queues => 26
  | .outbox => 27
  | .free => 28

/-- A set of parts holds another. -/
abbrev Covers (m k : Nat) : Prop := k ||| m = m

theorem Covers.trans {a b c : Nat} (h : Covers a b) (k : Covers b c) : Covers a c := by
  rw [Covers, ← h, ← Nat.or_assoc, k]

theorem Covers.or {m a b : Nat} (h : Covers m a) (k : Covers m b) : Covers m (a ||| b) := by
  rw [Covers, Nat.or_assoc, k, h]

theorem Covers.left {m a b : Nat} (h : Covers m (a ||| b)) : Covers m a := by
  rw [Covers, ← h, ← Nat.or_assoc, ← Nat.or_assoc, Nat.or_self]

theorem Covers.right {m a b : Nat} (h : Covers m (a ||| b)) : Covers m b := by
  rw [Nat.or_comm] at h
  exact h.left

/-- A canonical state stays canonical, and every part and every register outside the set is unchanged. -/
structure Keeps (m : Nat) (s t : State) : Prop where
  form : s.canonical = true → t.canonical = true
  parts : ∀ p : Part, m.testBit p.place = false → p.agree s t
  rows : ∀ x : Nat, m.testBit (32 + rowIndex x) = false → t.reg x = s.reg x

theorem Keeps.refl (m : Nat) (s : State) : Keeps m s s := ⟨id, fun p _ => by cases p <;> rfl, fun _ _ => rfl⟩

theorem Part.agree_trans {a b c : State} (p : Part) (h : p.agree a b) (k : p.agree b c) : p.agree a c := by
  cases p <;> exact Eq.trans k h

theorem Keeps.trans {m : Nat} {a b c : State} (h : Keeps m a b) (k : Keeps m b c) : Keeps m a c :=
  ⟨fun x => k.form (h.form x), fun p hp => p.agree_trans (h.parts p hp) (k.parts p hp),
    fun x hx => (k.rows x hx).trans (h.rows x hx)⟩

theorem Keeps.mono {m k : Nat} {a b : State} (h : Keeps k a b) (hm : Covers m k) : Keeps m a b := by
  have low : ∀ i, m.testBit i = false → k.testBit i = false := by
    intro i hi
    rw [← hm, Nat.testBit_or, Bool.or_eq_false_iff] at hi
    exact hi.1
  exact ⟨h.form, fun p hp => h.parts p (low _ hp), fun x hx => h.rows x (low _ hx)⟩

/-- What an effect of an instruction keeps. -/
def HRes.Keeps (m : Nat) (s : State) : HRes → Prop
  | .done t => Machine.Keeps m s t
  | .jump t _ => Machine.Keeps m s t
  | .trap t _ _ => Machine.Keeps m s t
  | .enter t _ _ => Machine.Keeps m s t
  | .service t _ _ => Machine.Keeps m s t

/-- What a meaning keeps when it gives a next state. -/
def Outcome.Keeps (m : Nat) (s : State) (r : Host.Outcome State Fault Refusal) : Prop :=
  ∀ t, r = .next t → Machine.Keeps m s t

section Forms
variable {m : Nat} {s t : State} {n : Nat} {a : DWord}

theorem Outcome.keeps_next (h : Machine.Keeps m s t) : Outcome.Keeps m s (.next t) := by
  intro u hu
  cases hu
  exact h

theorem HRes.keeps_done (h : Machine.Keeps m s t) : HRes.Keeps m s (.done t) := h
theorem HRes.keeps_jump (h : Machine.Keeps m s t) : HRes.Keeps m s (.jump t a) := h
theorem HRes.keeps_trap (h : Machine.Keeps m s t) : HRes.Keeps m s (.trap t n a) := h
theorem HRes.keeps_enter (h : Machine.Keeps m s t) : HRes.Keeps m s (.enter t n a) := h
theorem HRes.keeps_service (h : Machine.Keeps m s t) : HRes.Keeps m s (.service t n a) := h

theorem Keeps.ite {c : Prop} [Decidable c] {a b : State} (h : Keeps m s a) (k : Keeps m s b) :
    Keeps m s (if c then a else b) := by
  split
  · exact h
  · exact k

theorem HRes.Keeps.ite {c : Prop} [Decidable c] {a b : HRes} (h : HRes.Keeps m s a) (k : HRes.Keeps m s b) :
    HRes.Keeps m s (if c then a else b) := by
  split
  · exact h
  · exact k

/-- The state that an answer was split into. -/
theorem Keeps.of_eq {α : Type} {r : State × α} {z : α} (e : r = (t, z)) (h : Keeps m s r.1) : Keeps m s t := by
  rw [e] at h
  exact h

end Forms

/-! ### The canonical form, part by part -/

theorem State.canonical_iff (s : State) : s.canonical = true ↔
    sparseWf resetOf s.regs = true ∧ sparseWf (fun _ => (0 : Word)) s.smap = true ∧ Memory.wf s.mem = true ∧
      keysRise s.ue = true := by
  simp [State.canonical, and_assoc]

/-- What the relation asks, part by part. -/
theorem Keeps.intro {m : Nat} {s t : State} (a : ∀ p : Part, m.testBit p.place = false → p.agree s t)
    (b : ∀ x : Nat, m.testBit (32 + rowIndex x) = false → t.reg x = s.reg x)
    (r : sparseWf resetOf s.regs = true → sparseWf resetOf t.regs = true)
    (p : sparseWf (fun _ => (0 : Word)) s.smap = true → sparseWf (fun _ => (0 : Word)) t.smap = true)
    (h : Memory.wf s.mem = true → Memory.wf t.mem = true) (u : keysRise s.ue = true → keysRise t.ue = true) : Keeps m s t := by
  refine ⟨fun x => ?_, a, b⟩
  obtain ⟨h1, h2, h3, h4⟩ := s.canonical_iff.1 x
  exact t.canonical_iff.2 ⟨r h1, p h2, h h3, u h4⟩

theorem keysRise_filter {V : Type} (p : Nat × V → Bool) (m : List (Nat × V)) (h : keysRise m = true) :
    keysRise (m.filter p) = true := by
  induction m with
  | nil => rfl
  | cons e m ih =>
    simp only [keysRise, Bool.and_eq_true, List.all_eq_true, decide_eq_true_eq] at h
    by_cases hp : p e = true
    · rw [List.filter_cons_of_pos hp]
      simp only [keysRise, Bool.and_eq_true, List.all_eq_true, decide_eq_true_eq]
      exact ⟨fun f hf => h.1 f (List.mem_filter.1 hf).1, ih h.2⟩
    · rw [List.filter_cons_of_neg hp]
      exact ih h.2

theorem mem_insertAsc {V : Type} (k : Nat) (v : V) (m : List (Nat × V)) (e : Nat × V) (h : e ∈ insertAsc k v m) :
    e = (k, v) ∨ e ∈ m := by
  induction m with
  | nil => simpa [insertAsc] using h
  | cons f m ih =>
    obtain ⟨j, u⟩ := f
    unfold insertAsc at h
    split at h
    · exact .inr h
    · split at h
      · exact List.mem_cons.1 h
      · cases List.mem_cons.1 h with
        | inl h => exact .inr (h ▸ List.mem_cons_self ..)
        | inr h => exact (ih h).imp id (List.mem_cons_of_mem _)

theorem keysRise_insertAsc {V : Type} (k : Nat) (v : V) (m : List (Nat × V)) (h : keysRise m = true) :
    keysRise (insertAsc k v m) = true := by
  induction m with
  | nil => rfl
  | cons e m ih =>
    obtain ⟨j, u⟩ := e
    have hm := h
    simp only [keysRise, Bool.and_eq_true, List.all_eq_true, decide_eq_true_eq] at h
    unfold insertAsc
    split
    · exact hm
    · split
      · rename_i hlt
        simp only [keysRise, Bool.and_eq_true, List.all_eq_true, decide_eq_true_eq]
        refine ⟨fun f hf => ?_, h.1, h.2⟩
        cases List.mem_cons.1 hf with
        | inl hf => subst hf; exact hlt
        | inr hf => exact Nat.lt_trans hlt (h.1 f hf)
      · rename_i hne hlt
        simp only [keysRise, Bool.and_eq_true, List.all_eq_true, decide_eq_true_eq]
        refine ⟨fun f hf => ?_, ih h.2⟩
        cases mem_insertAsc k v m f hf with
        | inl hf => subst hf; show j < k; omega
        | inr hf => exact h.1 f hf

/-! ### Record updates -/

section Updates
variable {m : Nat} {s₀ s : State} {cores : Vector Core 12} {program : Program} {tasks : Vector Task 64}
  {lanes : Vector Lane 3} {triads : Vector Triad 4} {anvils : Anvils} {frame : FrameState} {modes : Modes}
  {change : ChangeState} {time : TimeState} {dma : Dma} {recorder : Recorder} {cpl : Cpl} {dio : Dio} {loop : Loop}
  {calib : Calibration} {bellows : Bellows} {update : Update} {rings : Vector Ring 6} {held : List (Nat × Nat)}
  {bridge : Bridge} {queues : Vector Queue 32} {outbox : List Out} {free : Nat}

theorem Keeps.mk_cores (hm : Covers m 0x20) (h : Keeps m s₀ s) :
    Keeps m s₀ (State.mk s.pending s.regs s.smap s.mem s.ue cores s.program s.tasks s.lanes s.triads s.anvils s.frame
      s.modes s.change s.time s.dma s.recorder s.cpl s.dio s.loop s.calib s.bellows s.update s.rings s.held s.bridge
      s.queues s.outbox s.free) := by
  refine h.trans (Keeps.mono (.intro (fun q hq => ?_) (fun _ _ => rfl) id id id id) hm)
  cases q <;> first | rfl | exact absurd hq (by decide)

theorem Keeps.mk_program (hm : Covers m 0x40) (h : Keeps m s₀ s) :
    Keeps m s₀ (State.mk s.pending s.regs s.smap s.mem s.ue s.cores program s.tasks s.lanes s.triads s.anvils s.frame
      s.modes s.change s.time s.dma s.recorder s.cpl s.dio s.loop s.calib s.bellows s.update s.rings s.held s.bridge
      s.queues s.outbox s.free) := by
  refine h.trans (Keeps.mono (.intro (fun q hq => ?_) (fun _ _ => rfl) id id id id) hm)
  cases q <;> first | rfl | exact absurd hq (by decide)

theorem Keeps.mk_tasks (hm : Covers m 0x80) (h : Keeps m s₀ s) :
    Keeps m s₀ (State.mk s.pending s.regs s.smap s.mem s.ue s.cores s.program tasks s.lanes s.triads s.anvils s.frame
      s.modes s.change s.time s.dma s.recorder s.cpl s.dio s.loop s.calib s.bellows s.update s.rings s.held s.bridge
      s.queues s.outbox s.free) := by
  refine h.trans (Keeps.mono (.intro (fun q hq => ?_) (fun _ _ => rfl) id id id id) hm)
  cases q <;> first | rfl | exact absurd hq (by decide)

theorem Keeps.mk_lanes (hm : Covers m 0x100) (h : Keeps m s₀ s) :
    Keeps m s₀ (State.mk s.pending s.regs s.smap s.mem s.ue s.cores s.program s.tasks lanes s.triads s.anvils s.frame
      s.modes s.change s.time s.dma s.recorder s.cpl s.dio s.loop s.calib s.bellows s.update s.rings s.held s.bridge
      s.queues s.outbox s.free) := by
  refine h.trans (Keeps.mono (.intro (fun q hq => ?_) (fun _ _ => rfl) id id id id) hm)
  cases q <;> first | rfl | exact absurd hq (by decide)

theorem Keeps.mk_triads (hm : Covers m 0x200) (h : Keeps m s₀ s) :
    Keeps m s₀ (State.mk s.pending s.regs s.smap s.mem s.ue s.cores s.program s.tasks s.lanes triads s.anvils s.frame
      s.modes s.change s.time s.dma s.recorder s.cpl s.dio s.loop s.calib s.bellows s.update s.rings s.held s.bridge
      s.queues s.outbox s.free) := by
  refine h.trans (Keeps.mono (.intro (fun q hq => ?_) (fun _ _ => rfl) id id id id) hm)
  cases q <;> first | rfl | exact absurd hq (by decide)

theorem Keeps.mk_anvils (hm : Covers m 0x400) (h : Keeps m s₀ s) :
    Keeps m s₀ (State.mk s.pending s.regs s.smap s.mem s.ue s.cores s.program s.tasks s.lanes s.triads anvils s.frame
      s.modes s.change s.time s.dma s.recorder s.cpl s.dio s.loop s.calib s.bellows s.update s.rings s.held s.bridge
      s.queues s.outbox s.free) := by
  refine h.trans (Keeps.mono (.intro (fun q hq => ?_) (fun _ _ => rfl) id id id id) hm)
  cases q <;> first | rfl | exact absurd hq (by decide)

theorem Keeps.mk_frame (hm : Covers m 0x800) (h : Keeps m s₀ s) :
    Keeps m s₀ (State.mk s.pending s.regs s.smap s.mem s.ue s.cores s.program s.tasks s.lanes s.triads s.anvils frame
      s.modes s.change s.time s.dma s.recorder s.cpl s.dio s.loop s.calib s.bellows s.update s.rings s.held s.bridge
      s.queues s.outbox s.free) := by
  refine h.trans (Keeps.mono (.intro (fun q hq => ?_) (fun _ _ => rfl) id id id id) hm)
  cases q <;> first | rfl | exact absurd hq (by decide)

theorem Keeps.mk_modes (hm : Covers m 0x1000) (h : Keeps m s₀ s) :
    Keeps m s₀ (State.mk s.pending s.regs s.smap s.mem s.ue s.cores s.program s.tasks s.lanes s.triads s.anvils
      s.frame modes s.change s.time s.dma s.recorder s.cpl s.dio s.loop s.calib s.bellows s.update s.rings s.held
      s.bridge s.queues s.outbox s.free) := by
  refine h.trans (Keeps.mono (.intro (fun q hq => ?_) (fun _ _ => rfl) id id id id) hm)
  cases q <;> first | rfl | exact absurd hq (by decide)

theorem Keeps.mk_change (hm : Covers m 0x2000) (h : Keeps m s₀ s) :
    Keeps m s₀ (State.mk s.pending s.regs s.smap s.mem s.ue s.cores s.program s.tasks s.lanes s.triads s.anvils
      s.frame s.modes change s.time s.dma s.recorder s.cpl s.dio s.loop s.calib s.bellows s.update s.rings s.held
      s.bridge s.queues s.outbox s.free) := by
  refine h.trans (Keeps.mono (.intro (fun q hq => ?_) (fun _ _ => rfl) id id id id) hm)
  cases q <;> first | rfl | exact absurd hq (by decide)

theorem Keeps.mk_time (hm : Covers m 0x4000) (h : Keeps m s₀ s) :
    Keeps m s₀ (State.mk s.pending s.regs s.smap s.mem s.ue s.cores s.program s.tasks s.lanes s.triads s.anvils
      s.frame s.modes s.change time s.dma s.recorder s.cpl s.dio s.loop s.calib s.bellows s.update s.rings s.held
      s.bridge s.queues s.outbox s.free) := by
  refine h.trans (Keeps.mono (.intro (fun q hq => ?_) (fun _ _ => rfl) id id id id) hm)
  cases q <;> first | rfl | exact absurd hq (by decide)

theorem Keeps.mk_dma (hm : Covers m 0x8000) (h : Keeps m s₀ s) :
    Keeps m s₀ (State.mk s.pending s.regs s.smap s.mem s.ue s.cores s.program s.tasks s.lanes s.triads s.anvils
      s.frame s.modes s.change s.time dma s.recorder s.cpl s.dio s.loop s.calib s.bellows s.update s.rings s.held
      s.bridge s.queues s.outbox s.free) := by
  refine h.trans (Keeps.mono (.intro (fun q hq => ?_) (fun _ _ => rfl) id id id id) hm)
  cases q <;> first | rfl | exact absurd hq (by decide)

theorem Keeps.mk_recorder (hm : Covers m 0x10000) (h : Keeps m s₀ s) :
    Keeps m s₀ (State.mk s.pending s.regs s.smap s.mem s.ue s.cores s.program s.tasks s.lanes s.triads s.anvils
      s.frame s.modes s.change s.time s.dma recorder s.cpl s.dio s.loop s.calib s.bellows s.update s.rings s.held
      s.bridge s.queues s.outbox s.free) := by
  refine h.trans (Keeps.mono (.intro (fun q hq => ?_) (fun _ _ => rfl) id id id id) hm)
  cases q <;> first | rfl | exact absurd hq (by decide)

theorem Keeps.mk_cpl (hm : Covers m 0x20000) (h : Keeps m s₀ s) :
    Keeps m s₀ (State.mk s.pending s.regs s.smap s.mem s.ue s.cores s.program s.tasks s.lanes s.triads s.anvils
      s.frame s.modes s.change s.time s.dma s.recorder cpl s.dio s.loop s.calib s.bellows s.update s.rings s.held
      s.bridge s.queues s.outbox s.free) := by
  refine h.trans (Keeps.mono (.intro (fun q hq => ?_) (fun _ _ => rfl) id id id id) hm)
  cases q <;> first | rfl | exact absurd hq (by decide)

theorem Keeps.mk_dio (hm : Covers m 0x40000) (h : Keeps m s₀ s) :
    Keeps m s₀ (State.mk s.pending s.regs s.smap s.mem s.ue s.cores s.program s.tasks s.lanes s.triads s.anvils
      s.frame s.modes s.change s.time s.dma s.recorder s.cpl dio s.loop s.calib s.bellows s.update s.rings s.held
      s.bridge s.queues s.outbox s.free) := by
  refine h.trans (Keeps.mono (.intro (fun q hq => ?_) (fun _ _ => rfl) id id id id) hm)
  cases q <;> first | rfl | exact absurd hq (by decide)

theorem Keeps.mk_loop (hm : Covers m 0x80000) (h : Keeps m s₀ s) :
    Keeps m s₀ (State.mk s.pending s.regs s.smap s.mem s.ue s.cores s.program s.tasks s.lanes s.triads s.anvils
      s.frame s.modes s.change s.time s.dma s.recorder s.cpl s.dio loop s.calib s.bellows s.update s.rings s.held
      s.bridge s.queues s.outbox s.free) := by
  refine h.trans (Keeps.mono (.intro (fun q hq => ?_) (fun _ _ => rfl) id id id id) hm)
  cases q <;> first | rfl | exact absurd hq (by decide)

theorem Keeps.mk_calib (hm : Covers m 0x100000) (h : Keeps m s₀ s) :
    Keeps m s₀ (State.mk s.pending s.regs s.smap s.mem s.ue s.cores s.program s.tasks s.lanes s.triads s.anvils
      s.frame s.modes s.change s.time s.dma s.recorder s.cpl s.dio s.loop calib s.bellows s.update s.rings s.held
      s.bridge s.queues s.outbox s.free) := by
  refine h.trans (Keeps.mono (.intro (fun q hq => ?_) (fun _ _ => rfl) id id id id) hm)
  cases q <;> first | rfl | exact absurd hq (by decide)

theorem Keeps.mk_bellows (hm : Covers m 0x200000) (h : Keeps m s₀ s) :
    Keeps m s₀ (State.mk s.pending s.regs s.smap s.mem s.ue s.cores s.program s.tasks s.lanes s.triads s.anvils
      s.frame s.modes s.change s.time s.dma s.recorder s.cpl s.dio s.loop s.calib bellows s.update s.rings s.held
      s.bridge s.queues s.outbox s.free) := by
  refine h.trans (Keeps.mono (.intro (fun q hq => ?_) (fun _ _ => rfl) id id id id) hm)
  cases q <;> first | rfl | exact absurd hq (by decide)

theorem Keeps.mk_update (hm : Covers m 0x400000) (h : Keeps m s₀ s) :
    Keeps m s₀ (State.mk s.pending s.regs s.smap s.mem s.ue s.cores s.program s.tasks s.lanes s.triads s.anvils
      s.frame s.modes s.change s.time s.dma s.recorder s.cpl s.dio s.loop s.calib s.bellows update s.rings s.held
      s.bridge s.queues s.outbox s.free) := by
  refine h.trans (Keeps.mono (.intro (fun q hq => ?_) (fun _ _ => rfl) id id id id) hm)
  cases q <;> first | rfl | exact absurd hq (by decide)

theorem Keeps.mk_rings (hm : Covers m 0x800000) (h : Keeps m s₀ s) :
    Keeps m s₀ (State.mk s.pending s.regs s.smap s.mem s.ue s.cores s.program s.tasks s.lanes s.triads s.anvils
      s.frame s.modes s.change s.time s.dma s.recorder s.cpl s.dio s.loop s.calib s.bellows s.update rings s.held
      s.bridge s.queues s.outbox s.free) := by
  refine h.trans (Keeps.mono (.intro (fun q hq => ?_) (fun _ _ => rfl) id id id id) hm)
  cases q <;> first | rfl | exact absurd hq (by decide)

theorem Keeps.mk_held (hm : Covers m 0x1000000) (h : Keeps m s₀ s) :
    Keeps m s₀ (State.mk s.pending s.regs s.smap s.mem s.ue s.cores s.program s.tasks s.lanes s.triads s.anvils
      s.frame s.modes s.change s.time s.dma s.recorder s.cpl s.dio s.loop s.calib s.bellows s.update s.rings held
      s.bridge s.queues s.outbox s.free) := by
  refine h.trans (Keeps.mono (.intro (fun q hq => ?_) (fun _ _ => rfl) id id id id) hm)
  cases q <;> first | rfl | exact absurd hq (by decide)

theorem Keeps.mk_bridge (hm : Covers m 0x2000000) (h : Keeps m s₀ s) :
    Keeps m s₀ (State.mk s.pending s.regs s.smap s.mem s.ue s.cores s.program s.tasks s.lanes s.triads s.anvils
      s.frame s.modes s.change s.time s.dma s.recorder s.cpl s.dio s.loop s.calib s.bellows s.update s.rings s.held
      bridge s.queues s.outbox s.free) := by
  refine h.trans (Keeps.mono (.intro (fun q hq => ?_) (fun _ _ => rfl) id id id id) hm)
  cases q <;> first | rfl | exact absurd hq (by decide)

theorem Keeps.mk_queues (hm : Covers m 0x4000000) (h : Keeps m s₀ s) :
    Keeps m s₀ (State.mk s.pending s.regs s.smap s.mem s.ue s.cores s.program s.tasks s.lanes s.triads s.anvils
      s.frame s.modes s.change s.time s.dma s.recorder s.cpl s.dio s.loop s.calib s.bellows s.update s.rings s.held
      s.bridge queues s.outbox s.free) := by
  refine h.trans (Keeps.mono (.intro (fun q hq => ?_) (fun _ _ => rfl) id id id id) hm)
  cases q <;> first | rfl | exact absurd hq (by decide)

theorem Keeps.mk_outbox (hm : Covers m 0x8000000) (h : Keeps m s₀ s) :
    Keeps m s₀ (State.mk s.pending s.regs s.smap s.mem s.ue s.cores s.program s.tasks s.lanes s.triads s.anvils
      s.frame s.modes s.change s.time s.dma s.recorder s.cpl s.dio s.loop s.calib s.bellows s.update s.rings s.held
      s.bridge s.queues outbox s.free) := by
  refine h.trans (Keeps.mono (.intro (fun q hq => ?_) (fun _ _ => rfl) id id id id) hm)
  cases q <;> first | rfl | exact absurd hq (by decide)

theorem Keeps.mk_free (hm : Covers m 0x10000000) (h : Keeps m s₀ s) :
    Keeps m s₀ (State.mk s.pending s.regs s.smap s.mem s.ue s.cores s.program s.tasks s.lanes s.triads s.anvils
      s.frame s.modes s.change s.time s.dma s.recorder s.cpl s.dio s.loop s.calib s.bellows s.update s.rings s.held
      s.bridge s.queues s.outbox free) := by
  refine h.trans (Keeps.mono (.intro (fun q hq => ?_) (fun _ _ => rfl) id id id id) hm)
  cases q <;> first | rfl | exact absurd hq (by decide)

theorem Keeps.mk_anvils_cpl (hm : Covers m 0x20400) (h : Keeps m s₀ s) :
    Keeps m s₀ (State.mk s.pending s.regs s.smap s.mem s.ue s.cores s.program s.tasks s.lanes s.triads anvils s.frame
      s.modes s.change s.time s.dma s.recorder cpl s.dio s.loop s.calib s.bellows s.update s.rings s.held s.bridge
      s.queues s.outbox s.free) := by
  refine h.trans (Keeps.mono (.intro (fun q hq => ?_) (fun _ _ => rfl) id id id id) hm)
  cases q <;> first | rfl | exact absurd hq (by decide)

theorem Keeps.mk_modes_calib_update (hm : Covers m 0x501000) (h : Keeps m s₀ s) :
    Keeps m s₀ (State.mk s.pending s.regs s.smap s.mem s.ue s.cores s.program s.tasks s.lanes s.triads s.anvils
      s.frame modes s.change s.time s.dma s.recorder s.cpl s.dio s.loop calib s.bellows update s.rings s.held s.bridge
      s.queues s.outbox s.free) := by
  refine h.trans (Keeps.mono (.intro (fun q hq => ?_) (fun _ _ => rfl) id id id id) hm)
  cases q <;> first | rfl | exact absurd hq (by decide)

theorem Keeps.mk_bellows_update (hm : Covers m 0x600000) (h : Keeps m s₀ s) :
    Keeps m s₀ (State.mk s.pending s.regs s.smap s.mem s.ue s.cores s.program s.tasks s.lanes s.triads s.anvils
      s.frame s.modes s.change s.time s.dma s.recorder s.cpl s.dio s.loop s.calib bellows update s.rings s.held
      s.bridge s.queues s.outbox s.free) := by
  refine h.trans (Keeps.mono (.intro (fun q hq => ?_) (fun _ _ => rfl) id id id id) hm)
  cases q <;> first | rfl | exact absurd hq (by decide)

theorem Keeps.mk_regs {w k : Nat} {v : Word} (hk : InRows w k) (hm : Covers m (0x2 ||| w <<< 32)) (h : Keeps m s₀ s) :
    Keeps m s₀ (State.mk s.pending (sparseSet resetOf s.regs k v) s.smap s.mem s.ue s.cores s.program s.tasks s.lanes
      s.triads s.anvils s.frame s.modes s.change s.time s.dma s.recorder s.cpl s.dio s.loop s.calib s.bellows s.update
      s.rings s.held s.bridge s.queues s.outbox s.free) := by
  refine h.trans (Keeps.mono (.intro (fun q hq => ?_) (fun x hx => ?_) (sparseWf_set _ _ k v) id id id) hm)
  · rw [Nat.testBit_or, Nat.testBit_shiftLeft, Bool.or_eq_false_iff] at hq
    cases q <;> first | rfl | exact absurd hq.1 (by decide)
  · refine sparseGet_set_ne resetOf s.regs k x v ?_
    intro e
    rw [Nat.testBit_or, Nat.testBit_shiftLeft, Bool.or_eq_false_iff, e] at hx
    have := hx.2
    rw [Nat.add_sub_cancel_left, hk] at this
    simp at this

theorem Keeps.mk_smap {k : Nat} {v : Word} (hm : Covers m 0x4) (h : Keeps m s₀ s) :
    Keeps m s₀ (State.mk s.pending s.regs (sparseSet (fun _ => 0) s.smap k v) s.mem s.ue s.cores s.program s.tasks
      s.lanes s.triads s.anvils s.frame s.modes s.change s.time s.dma s.recorder s.cpl s.dio s.loop s.calib s.bellows
      s.update s.rings s.held s.bridge s.queues s.outbox s.free) := by
  refine h.trans (Keeps.mono (.intro (fun q hq => ?_) (fun _ _ => rfl) id (sparseWf_set _ _ k v) id id) hm)
  cases q <;> first | rfl | exact absurd hq (by decide)

theorem Keeps.mk_smap_bridge {k : Nat} {v : Word} (hm : Covers m 0x2000004) (h : Keeps m s₀ s) :
    Keeps m s₀ (State.mk s.pending s.regs (sparseSet (fun _ => 0) s.smap k v) s.mem s.ue s.cores s.program s.tasks
      s.lanes s.triads s.anvils s.frame s.modes s.change s.time s.dma s.recorder s.cpl s.dio s.loop s.calib s.bellows
      s.update s.rings s.held bridge s.queues s.outbox s.free) := by
  refine h.trans (Keeps.mono (.intro (fun q hq => ?_) (fun _ _ => rfl) id (sparseWf_set _ _ k v) id id) hm)
  cases q <;> first | rfl | exact absurd hq (by decide)

theorem Keeps.mk_mem {k : Nat} {v : Byte} (hm : Covers m 0x8) (h : Keeps m s₀ s) :
    Keeps m s₀ (State.mk s.pending s.regs s.smap (sparseSet memDefault s.mem k v) s.ue s.cores s.program s.tasks
      s.lanes s.triads s.anvils s.frame s.modes s.change s.time s.dma s.recorder s.cpl s.dio s.loop s.calib s.bellows
      s.update s.rings s.held s.bridge s.queues s.outbox s.free) := by
  refine h.trans (Keeps.mono (.intro (fun q hq => ?_) (fun _ _ => rfl) id id (sparseWf_set memDefault s.mem k v) id) hm)
  cases q <;> first | rfl | exact absurd hq (by decide)

theorem Keeps.mk_mem_filter {p : Nat × Byte → Bool} (hm : Covers m 0x8) (h : Keeps m s₀ s) :
    Keeps m s₀ (State.mk s.pending s.regs s.smap (s.mem.filter p) s.ue s.cores s.program s.tasks s.lanes s.triads
      s.anvils s.frame s.modes s.change s.time s.dma s.recorder s.cpl s.dio s.loop s.calib s.bellows s.update s.rings
      s.held s.bridge s.queues s.outbox s.free) := by
  refine h.trans (Keeps.mono (.intro (fun q hq => ?_) (fun _ _ => rfl) id id (sparseWf_filter memDefault p s.mem) id) hm)
  cases q <;> first | rfl | exact absurd hq (by decide)

theorem Keeps.mk_ue_filter {p : Nat × Nat → Bool} (hm : Covers m 0x10) (h : Keeps m s₀ s) :
    Keeps m s₀ (State.mk s.pending s.regs s.smap s.mem (s.ue.filter p) s.cores s.program s.tasks s.lanes s.triads
      s.anvils s.frame s.modes s.change s.time s.dma s.recorder s.cpl s.dio s.loop s.calib s.bellows s.update s.rings
      s.held s.bridge s.queues s.outbox s.free) := by
  refine h.trans (Keeps.mono (.intro (fun q hq => ?_) (fun _ _ => rfl) id id id (keysRise_filter p s.ue)) hm)
  cases q <;> first | rfl | exact absurd hq (by decide)

theorem Keeps.mk_ue_insert {k v : Nat} (hm : Covers m 0x10000010) (h : Keeps m s₀ s) :
    Keeps m s₀ (State.mk s.pending s.regs s.smap s.mem (insertAsc k v s.ue) s.cores s.program s.tasks s.lanes s.triads
      s.anvils s.frame s.modes s.change s.time s.dma s.recorder s.cpl s.dio s.loop s.calib s.bellows s.update s.rings
      s.held s.bridge s.queues s.outbox free) := by
  refine h.trans (Keeps.mono (.intro (fun q hq => ?_) (fun _ _ => rfl) id id id (keysRise_insertAsc k v s.ue)) hm)
  cases q <;> first | rfl | exact absurd hq (by decide)

end Updates

/-! ### Iteration -/

theorem State.forEach_keeps {α : Type} {m : Nat} {s₀ s : State} (l : List α) (f : α → State → State) (hs : Keeps m s₀ s)
    (hf : ∀ x t, Keeps m s₀ t → Keeps m s₀ (f x t)) : Keeps m s₀ (s.forEach l f) := by
  unfold State.forEach
  induction l generalizing s with
  | nil => exact hs
  | cons x l ih => exact ih (hf x s hs)

theorem Keeps.foldl {α β : Type} {m : Nat} {s₀ : State} (l : List α) (f : State × β → α → State × β) (a : State × β)
    (h : Keeps m s₀ a.1) (hf : ∀ a x, Keeps m s₀ a.1 → Keeps m s₀ (f a x).1) : Keeps m s₀ (l.foldl f a).1 := by
  induction l generalizing a with
  | nil => exact h
  | cons x l ih => exact ih _ (hf a x h)

theorem State.when_keeps {m : Nat} {s₀ s : State} (c : Bool) (f : State → State) (hs : Keeps m s₀ s)
    (hf : ∀ t, Keeps m s₀ t → Keeps m s₀ (f t)) : Keeps m s₀ (s.when c f) := by
  unfold State.when
  split
  · exact hf s hs
  · exact hs

theorem State.setReg_keeps {m w : Nat} {s₀ s : State} (a : Nat) (v : Word) (ha : InRows w a)
    (hm : Covers m (0x2 ||| w <<< 32)) (hs : Keeps m s₀ s) : Keeps m s₀ (s.setReg a v) := by
  unfold State.setReg
  exact Keeps.mk_regs ha hm hs

theorem State.setStored_keeps {m : Nat} {s₀ s : State} (sa : Nat) (b : Byte) (hm : Covers m 0x8) (hs : Keeps m s₀ s) :
    Keeps m s₀ (s.setStored sa b) := by
  unfold State.setStored
  exact Keeps.mk_mem hm hs

theorem State.clearLog_keeps {m : Nat} {s₀ s : State} (hm : Covers m 0x8) (hs : Keeps m s₀ s) : Keeps m s₀ s.clearLog := by
  unfold State.clearLog
  exact Keeps.mk_mem_filter hm hs

/-- The set of every part but the queue, and of every row. -/
abbrev everything : Nat :=
  0xffffffffffffffffffffffffffffffffffffffffffffffffffffffffffffffffffffffffffffffffffffffffffffff1ffffffe

/-- It holds every row. -/
theorem fullRows (x : Nat) : ¬ everything.testBit (32 + rowIndex x) = false := by
  have h := rowIndex_lt x
  generalize rowIndex x = k at h
  have h1 : ((List.range 376).all fun k => everything.testBit (32 + k)) = true := by decide +kernel
  have := List.all_eq_true.1 h1 k (List.mem_range.2 h)
  rw [this]
  decide

/-- The registers, the memory and the rest that a reset keeps are in canonical form again. -/
theorem State.unitsReset_keeps {m : Nat} {s₀ s : State} (hm : Covers m everything) (hs : Keeps m s₀ s) : Keeps m s₀ s.unitsReset := by
  refine hs.trans (Keeps.mono (.intro (fun p hp => ?_) (fun x hx => absurd hx (fullRows x)) (sparseWf_filter resetOf _ s.regs)
    (fun _ => rfl) (sparseWf_filter memDefault _ s.mem) (keysRise_filter _ s.ue)) hm)
  cases p <;> first | rfl | exact absurd hp (by decide)

theorem State.unpowered_keeps {m : Nat} {s₀ s : State} (hm : Covers m everything) (hs : Keeps m s₀ s) : Keeps m s₀ s.unpowered := by
  refine (State.unitsReset_keeps hm hs).trans (Keeps.mono (.intro (fun p hp => ?_) (fun x hx => absurd hx (fullRows x))
    (sparseWf_filter resetOf _ s.unitsReset.regs) id id id) hm)
  cases p <;> first | rfl | exact absurd hp (by decide)

end Sys2Proof.Machine
end

