-- ==== Sys2Proof/Laws/KeepsBase.lean ====
section
/-!
SUPPORT. What `Keeps` says of the operations of
the machine, memory, events, image, local inputs and outputs, mailboxes, lanes, tasks and the Anvils:
each keeps the canonical form and every part of the state outside its set.
A lemma stands for each operation, in the order of the Machine files.
-/

namespace Sys2Proof.Machine

set_option Elab.async false
set_option linter.all false

/-! ### Machine/Ops.lean -/

theorem State.loadReg_keeps {k₀ w : Nat} {s₀ s : State} (a : Nat) (v : Word) (ha : InRows w a) (hm : Covers k₀
    (0x2 ||| w <<< 32)) (hs : Keeps k₀ s₀ s) :
    Keeps k₀ s₀ (State.loadReg s a v) := by
  unfold State.loadReg
  repeat' first
    | exact hm.trans (by decide)
    | with_reducible first
      | assumption | intro _ | refine Keeps.of_eq (by with_reducible assumption) ?_ | apply State.setReg_keeps
      | apply Keeps.ite
    | split | (dsimp only; split)

theorem State.loadSmap_keeps {k₀ : Nat} {s₀ s : State} (key : Nat) (v : Word) (hm : Covers k₀ 0x4) (hs : Keeps k₀ s₀ s) :
    Keeps k₀ s₀ (State.loadSmap s key v) := by
  unfold State.loadSmap
  repeat' first
    | exact hm.trans (by decide)
    | with_reducible first
      | assumption | intro _ | refine Keeps.of_eq (by with_reducible assumption) ?_ | apply Keeps.ite
    | split | (dsimp only; split) | with_reducible apply Keeps.mk_smap

theorem State.putFld_keeps {k₀ w : Nat} {s₀ s : State} (a : Nat) (f : Field) (v : Nat) (ha : InRows w a) (hm : Covers k₀
    (0x2 ||| w <<< 32)) (hs : Keeps k₀ s₀ s) :
    Keeps k₀ s₀ (State.putFld s a f v) := by
  unfold State.putFld
  repeat' first
    | exact hm.trans (by decide)
    | with_reducible first
      | assumption | intro _ | refine Keeps.of_eq (by with_reducible assumption) ?_ | apply State.setReg_keeps
      | apply Keeps.ite
    | split | (dsimp only; split)

theorem State.flag_keeps {k₀ w : Nat} {s₀ s : State} (a : Nat) (f : Field) (ha : InRows w a) (hm : Covers k₀
    (0x2 ||| w <<< 32)) (hs : Keeps k₀ s₀ s) :
    Keeps k₀ s₀ (State.flag s a f) := by
  unfold State.flag
  repeat' first
    | exact hm.trans (by decide)
    | with_reducible first
      | assumption | intro _ | refine Keeps.of_eq (by with_reducible assumption) ?_ | apply State.putFld_keeps
      | apply Keeps.ite
    | split | (dsimp only; split)

theorem State.setBit_keeps {k₀ w : Nat} {s₀ s : State} (a : Nat) (i : Nat) (ha : InRows w a) (hm : Covers k₀
    (0x2 ||| w <<< 32)) (hs : Keeps k₀ s₀ s) :
    Keeps k₀ s₀ (State.setBit s a i) := by
  unfold State.setBit
  repeat' first
    | exact hm.trans (by decide)
    | with_reducible first
      | assumption | intro _ | refine Keeps.of_eq (by with_reducible assumption) ?_ | apply State.putFld_keeps
      | apply Keeps.ite
    | split | (dsimp only; split)

theorem State.clrBit_keeps {k₀ w : Nat} {s₀ s : State} (a : Nat) (i : Nat) (ha : InRows w a) (hm : Covers k₀
    (0x2 ||| w <<< 32)) (hs : Keeps k₀ s₀ s) :
    Keeps k₀ s₀ (State.clrBit s a i) := by
  unfold State.clrBit
  repeat' first
    | exact hm.trans (by decide)
    | with_reducible first
      | assumption | intro _ | refine Keeps.of_eq (by with_reducible assumption) ?_ | apply State.putFld_keeps
      | apply Keeps.ite
    | split | (dsimp only; split)

theorem State.bumpBy_keeps {k₀ w : Nat} {s₀ s : State} (a : Nat) (k : Nat) (ha : InRows w a) (hm : Covers k₀
    (0x2 ||| w <<< 32)) (hs : Keeps k₀ s₀ s) :
    Keeps k₀ s₀ (State.bumpBy s a k) := by
  unfold State.bumpBy
  repeat' first
    | exact hm.trans (by decide)
    | with_reducible first
      | assumption | intro _ | refine Keeps.of_eq (by with_reducible assumption) ?_ | apply State.putFld_keeps
      | apply Keeps.ite
    | split | (dsimp only; split)

theorem State.bump_keeps {k₀ w : Nat} {s₀ s : State} (a : Nat) (ha : InRows w a) (hm : Covers k₀ (0x2 ||| w <<< 32))
    (hs : Keeps k₀ s₀ s) :
    Keeps k₀ s₀ (State.bump s a) := by
  unfold State.bump
  repeat' first
    | exact hm.trans (by decide)
    | with_reducible first
      | assumption | intro _ | refine Keeps.of_eq (by with_reducible assumption) ?_ | apply State.bumpBy_keeps
      | apply Keeps.ite
    | split | (dsimp only; split)

theorem State.tickFree_keeps {k₀ : Nat} {s₀ s : State} (hm : Covers k₀ 0x10000000) (hs : Keeps k₀ s₀ s) :
    Keeps k₀ s₀ (State.tickFree s) := by
  unfold State.tickFree
  repeat' first
    | exact hm.trans (by decide)
    | with_reducible first
      | assumption | intro _ | refine Keeps.of_eq (by with_reducible assumption) ?_ | apply Keeps.ite
    | split | (dsimp only; split) | with_reducible apply Keeps.mk_free

theorem State.send_keeps {k₀ : Nat} {s₀ s : State} (m : Out) (hm : Covers k₀ 0x8000000) (hs : Keeps k₀ s₀ s) :
    Keeps k₀ s₀ (State.send s m) := by
  unfold State.send
  repeat' first
    | exact hm.trans (by decide)
    | with_reducible first
      | assumption | intro _ | refine Keeps.of_eq (by with_reducible assumption) ?_ | apply Keeps.ite
    | split | (dsimp only; split) | with_reducible apply Keeps.mk_outbox

theorem State.sendOn_keeps {k₀ : Nat} {s₀ s : State} (via : Nat) (m : Out)
    (hm : Covers k₀ 0x800000000000000000000000000000000000000000008000002) (hs : Keeps k₀ s₀ s) :
    Keeps k₀ s₀ (State.sendOn s via m) := by
  unfold State.sendOn
  repeat' first
    | exact hm.trans (by decide)
    | with_reducible first
      | exact BKB_TXPKT_in | assumption | intro _ | refine Keeps.of_eq (by with_reducible assumption) ?_
      | apply State.bump_keeps | apply State.send_keeps | apply Keeps.ite
    | split | (dsimp only; split)

theorem State.arrive_keeps {k₀ : Nat} {s₀ s : State} (via : Nat) (f : State → State)
    (hm : Covers k₀ 0x400000000000000000000000000000000000000000000000002) (hs : Keeps k₀ s₀ s) (hf : ∀ x0, Keeps k₀ s₀ x0 → Keeps k₀ s₀ (f x0)) :
    Keeps k₀ s₀ (State.arrive s via f) := by
  unfold State.arrive
  repeat' first
    | exact hm.trans (by decide)
    | with_reducible first
      | exact BKB_RXPKT_in | assumption | intro _ | apply hf | refine Keeps.of_eq (by with_reducible assumption) ?_
      | apply State.bump_keeps | apply Keeps.ite
    | split | (dsimp only; split)

theorem State.setChange_keeps {k₀ : Nat} {s₀ s : State} (c : ChangeState) (hm : Covers k₀ 0x2000) (hs : Keeps k₀ s₀ s) :
    Keeps k₀ s₀ (State.setChange s c) := by
  unfold State.setChange
  repeat' first
    | exact hm.trans (by decide)
    | with_reducible first
      | assumption | intro _ | refine Keeps.of_eq (by with_reducible assumption) ?_ | apply Keeps.ite
    | split | (dsimp only; split) | with_reducible apply Keeps.mk_change

theorem State.copyItem_keeps {k₀ : Nat} {s₀ s : State} (kind : Nat) (key : Nat) (hm : Covers k₀ 0x20000)
    (hs : Keeps k₀ s₀ s) :
    Keeps k₀ s₀ (State.copyItem s kind key) := by
  unfold State.copyItem
  repeat' first
    | exact hm.trans (by decide)
    | with_reducible first
      | assumption | intro _ | refine Keeps.of_eq (by with_reducible assumption) ?_ | apply Keeps.ite
    | split | (dsimp only; split) | with_reducible apply Keeps.mk_cpl

theorem State.setStoredList_keeps {k₀ : Nat} {s₀ s : State} (y0 : Nat) (y1 : List Byte) (hm : Covers k₀ 0x8)
    (hs : Keeps k₀ s₀ s) :
    Keeps k₀ s₀ (State.setStoredList s y0 y1) := by
  fun_induction State.setStoredList s y0 y1
  all_goals
    repeat' first
      | exact hm.trans (by decide)
      | with_reducible first
        | assumption | intro _ | refine (‹Keeps _ _ _ → _› ?_) | refine Keeps.of_eq (by with_reducible assumption) ?_
        | apply State.setStored_keeps | apply Keeps.ite
      | split | (dsimp only; split)

theorem State.writeWord_keeps {k₀ : Nat} {s₀ s : State} (pa : Nat) (d : DWord) (hm : Covers k₀ 0x8) (hs : Keeps k₀ s₀ s) :
    Keeps k₀ s₀ (State.writeWord s pa d) := by
  unfold State.writeWord
  repeat' first
    | exact hm.trans (by decide)
    | with_reducible first
      | assumption | intro _ | refine Keeps.of_eq (by with_reducible assumption) ?_ | apply State.setStoredList_keeps
      | apply Keeps.ite
    | split | (dsimp only; split)

theorem State.writeByte_keeps {k₀ : Nat} {s₀ s : State} (pa : Nat) (b : Byte) (hm : Covers k₀ 0x8) (hs : Keeps k₀ s₀ s) :
    Keeps k₀ s₀ (State.writeByte s pa b) := by
  unfold State.writeByte
  repeat' first
    | exact hm.trans (by decide)
    | with_reducible first
      | assumption | intro _ | refine Keeps.of_eq (by with_reducible assumption) ?_ | apply State.writeWord_keeps
      | apply Keeps.ite
    | split | (dsimp only; split)

theorem State.writeBytes_keeps {k₀ : Nat} {s₀ s : State} (y0 : Nat) (y1 : List Byte) (hm : Covers k₀ 0x8)
    (hs : Keeps k₀ s₀ s) :
    Keeps k₀ s₀ (State.writeBytes s y0 y1) := by
  fun_induction State.writeBytes s y0 y1
  all_goals
    repeat' first
      | exact hm.trans (by decide)
      | with_reducible first
        | assumption | intro _ | refine (‹Keeps _ _ _ → _› ?_) | refine Keeps.of_eq (by with_reducible assumption) ?_
        | apply State.writeByte_keeps | apply Keeps.ite
      | split | (dsimp only; split)

theorem State.writeLe_keeps {k₀ : Nat} {s₀ s : State} (pa : Nat) (n : Nat) (v : Nat) (hm : Covers k₀ 0x8)
    (hs : Keeps k₀ s₀ s) :
    Keeps k₀ s₀ (State.writeLe s pa n v) := by
  unfold State.writeLe
  repeat' first
    | exact hm.trans (by decide)
    | with_reducible first
      | assumption | intro _ | refine Keeps.of_eq (by with_reducible assumption) ?_ | apply State.writeBytes_keeps
      | apply Keeps.ite
    | split | (dsimp only; split)

theorem State.markUe_keeps {k₀ : Nat} {s₀ s : State} (pa : Nat) (hm : Covers k₀ 0x10000010) (hs : Keeps k₀ s₀ s) :
    Keeps k₀ s₀ (State.markUe s pa) := by
  unfold State.markUe
  repeat' first
    | exact hm.trans (by decide)
    | with_reducible first
      | assumption | intro _ | refine Keeps.of_eq (by with_reducible assumption) ?_ | apply Keeps.ite
    | split | (dsimp only; split) | with_reducible apply Keeps.mk_ue_insert

theorem State.healUe_keeps {k₀ : Nat} {s₀ s : State} (pa : Nat) (hm : Covers k₀ 0x10) (hs : Keeps k₀ s₀ s) :
    Keeps k₀ s₀ (State.healUe s pa) := by
  unfold State.healUe
  repeat' first
    | exact hm.trans (by decide)
    | with_reducible first
      | assumption | intro _ | refine Keeps.of_eq (by with_reducible assumption) ?_ | apply Keeps.ite
    | split | (dsimp only; split) | with_reducible apply Keeps.mk_ue_filter

theorem State.setCore_keeps {k₀ : Nat} {s₀ s : State} (c : Fin 12) (k : Core) (hm : Covers k₀ 0x20) (hs : Keeps k₀ s₀ s) :
    Keeps k₀ s₀ (State.setCore s c k) := by
  unfold State.setCore
  repeat' first
    | exact hm.trans (by decide)
    | with_reducible first
      | assumption | intro _ | refine Keeps.of_eq (by with_reducible assumption) ?_ | apply Keeps.ite
    | split | (dsimp only; split) | with_reducible apply Keeps.mk_cores

theorem State.modCore_keeps {k₀ : Nat} {s₀ s : State} (c : Fin 12) (g : Core → Core) (hm : Covers k₀ 0x20)
    (hs : Keeps k₀ s₀ s) :
    Keeps k₀ s₀ (State.modCore s c g) := by
  unfold State.modCore
  repeat' first
    | exact hm.trans (by decide)
    | with_reducible first
      | assumption | intro _ | refine Keeps.of_eq (by with_reducible assumption) ?_ | apply State.setCore_keeps
      | apply Keeps.ite
    | split | (dsimp only; split)

theorem State.raiseLine_keeps {k₀ : Nat} {s₀ s : State} (line : Nat) (c : Fin 12) (hm : Covers k₀ 0x20)
    (hs : Keeps k₀ s₀ s) :
    Keeps k₀ s₀ (State.raiseLine s line c) := by
  unfold State.raiseLine
  repeat' first
    | exact hm.trans (by decide)
    | with_reducible first
      | assumption | intro _ | refine Keeps.of_eq (by with_reducible assumption) ?_ | apply State.modCore_keeps
      | apply Keeps.ite
    | split | (dsimp only; split)

theorem State.irq_keeps {k₀ : Nat} {s₀ s : State} (line : Nat) (hm : Covers k₀ 0x20) (hs : Keeps k₀ s₀ s) :
    Keeps k₀ s₀ (State.irq s line) := by
  unfold State.irq
  repeat' first
    | exact hm.trans (by decide)
    | with_reducible first
      | assumption | intro _ | refine Keeps.of_eq (by with_reducible assumption) ?_ | apply State.forEach_keeps
      | apply State.raiseLine_keeps | apply Keeps.ite
    | split | (dsimp only; split)

/-! ### Machine/Events.lean -/

theorem State.setEvrNext_keeps {k₀ : Nat} {s₀ s : State} (n : Nat)
    (hm : Covers k₀ 0x1800000000000000000000000000000000000000000000000000000000000000000000000000000000000000000002) (hs : Keeps k₀ s₀ s) :
    Keeps k₀ s₀ (State.setEvrNext s n) := by
  unfold State.setEvrNext
  repeat' first
    | exact hm.trans (by decide)
    | with_reducible first
      | exact EVR_NEXTH_in | exact EVR_NEXTL_in | assumption | intro _
      | refine Keeps.of_eq (by with_reducible assumption) ?_ | apply State.putFld_keeps | apply State.setReg_keeps
      | apply Keeps.ite
    | split | (dsimp only; split)

theorem State.setEvrFirst_keeps {k₀ : Nat} {s₀ s : State} (n : Nat)
    (hm : Covers k₀ 0x600000000000000000000000000000000000000000000000000000000000000000000000000000000000000000002) (hs : Keeps k₀ s₀ s) :
    Keeps k₀ s₀ (State.setEvrFirst s n) := by
  unfold State.setEvrFirst
  repeat' first
    | exact hm.trans (by decide)
    | with_reducible first
      | exact EVR_FIRSTH_in | exact EVR_FIRSTL_in | assumption | intro _
      | refine Keeps.of_eq (by with_reducible assumption) ?_ | apply State.putFld_keeps | apply State.setReg_keeps
      | apply Keeps.ite
    | split | (dsimp only; split)

theorem State.setBucket_keeps {k₀ : Nat} {s₀ s : State} (b : Bucket) (hm : Covers k₀ 0x10000) (hs : Keeps k₀ s₀ s) :
    Keeps k₀ s₀ (State.setBucket s b) := by
  unfold State.setBucket
  repeat' first
    | exact hm.trans (by decide)
    | with_reducible first
      | assumption | intro _ | refine Keeps.of_eq (by with_reducible assumption) ?_ | apply Keeps.ite
    | split | (dsimp only; split) | with_reducible apply Keeps.mk_recorder

theorem State.startFlush_keeps {k₀ : Nat} {s₀ s : State}
    (hm : Covers k₀ 0x20000000000000000000000000000000000000000000000000000000000000000000000000000000000000000002) (hs : Keeps k₀ s₀ s) :
    Keeps k₀ s₀ (State.startFlush s) := by
  unfold State.startFlush
  repeat' first
    | exact hm.trans (by decide)
    | with_reducible first
      | exact EVR_STATUS_in | assumption | intro _ | refine Keeps.of_eq (by with_reducible assumption) ?_
      | apply State.flag_keeps | apply Keeps.ite
    | split | (dsimp only; split)

theorem State.storeRecord_keeps {k₀ : Nat} {s₀ s : State} (e : RawEvent) (supp : Nat)
    (hm : Covers k₀ 0x418a0000000000000000000000000000000000000000000000000000000000000000000000000000000000000010002) (hs : Keeps k₀ s₀ s) :
    Keeps k₀ s₀ (State.storeRecord s e supp).1 := by
  unfold State.storeRecord
  repeat' first
    | exact hm.trans (by decide)
    | with_reducible first
      | exact EVR_BUFCNT_in | exact EVR_BUFLOST_in | exact EVR_STATUS_in | assumption | intro _
      | refine Keeps.of_eq (by with_reducible assumption) ?_ | apply State.bump_keeps | apply State.flag_keeps
      | apply State.putFld_keeps | apply State.setEvrNext_keeps | apply State.startFlush_keeps | apply Keeps.ite
    | split | (dsimp only; split) | with_reducible apply Keeps.mk_recorder

theorem State.rateAndStore_keeps {k₀ : Nat} {s₀ s : State} (e : RawEvent)
    (hm : Covers k₀ 0x618a0000000000000000000000000000000000000000000000000000000000000000000000000000000000000010002) (hs : Keeps k₀ s₀ s) :
    Keeps k₀ s₀ (State.rateAndStore s e) := by
  unfold State.rateAndStore
  repeat' first
    | exact hm.trans (by decide)
    | with_reducible first
      | exact EVR_SUPPTOT_in | assumption | intro _ | refine Keeps.of_eq (by with_reducible assumption) ?_
      | apply State.bump_keeps | apply State.setBucket_keeps | apply State.storeRecord_keeps | apply Keeps.ite
    | split | (dsimp only; split)

theorem State.trialFault_keeps {k₀ : Nat} {s₀ s : State}
    (hm : Covers k₀ 0x20000000000000000000000000000000000000000000000000000000000000000000000000000000000000000000400002) (hs : Keeps k₀ s₀ s) :
    Keeps k₀ s₀ (State.trialFault s) := by
  unfold State.trialFault
  repeat' first
    | exact hm.trans (by decide)
    | with_reducible first
      | exact UPD_TRIAL_in | assumption | intro _ | refine Keeps.of_eq (by with_reducible assumption) ?_
      | apply State.setReg_keeps | apply Keeps.ite
    | split | (dsimp only; split) | with_reducible apply Keeps.mk_update

theorem State.deliver_keeps {k₀ : Nat} {s₀ s : State} (e : RawEvent)
    (hm : Covers k₀ 0x200618a0000000000000000000000000000000000000000000000000000000000000000000000000000000000000410002) (hs : Keeps k₀ s₀ s) :
    Keeps k₀ s₀ (State.deliver s e) := by
  unfold State.deliver
  repeat' first
    | exact hm.trans (by decide)
    | with_reducible first
      | exact EVR_STATUS_in | assumption | intro _ | refine Keeps.of_eq (by with_reducible assumption) ?_
      | apply State.flag_keeps | apply State.forEach_keeps | apply State.rateAndStore_keeps
      | apply State.trialFault_keeps | apply Keeps.ite
    | split | (dsimp only; split)

theorem State.raise_keeps {k₀ : Nat} {s₀ s : State} (e : RawEvent)
    (hm : Covers k₀ 0x200618a0000000000000000000000000000000000000000000000000000000000000000000000000000000000000410002) (hs : Keeps k₀ s₀ s) :
    Keeps k₀ s₀ (State.raise s e) := by
  unfold State.raise
  repeat' first
    | exact hm.trans (by decide)
    | with_reducible first
      | assumption | intro _ | refine Keeps.of_eq (by with_reducible assumption) ?_ | apply State.deliver_keeps
      | apply Keeps.ite
    | split | (dsimp only; split) | with_reducible apply Keeps.mk_recorder

theorem State.event_keeps {k₀ : Nat} {s₀ s : State} (source : Nat) (code : Nat) (severity : Nat) (params : List Nat)
    (safety : Bool) (hm : Covers k₀ 0x200618a0000000000000000000000000000000000000000000000000000000000000000000000000000000000000410002) (hs : Keeps k₀ s₀ s) :
    Keeps k₀ s₀ (State.event s source code severity params safety) := by
  unfold State.event
  repeat' first
    | exact hm.trans (by decide)
    | with_reducible first
      | assumption | intro _ | refine Keeps.of_eq (by with_reducible assumption) ?_ | apply State.raise_keeps
      | apply Keeps.ite
    | split | (dsimp only; split)

theorem State.evGroup_keeps {k₀ : Nat} {s₀ s : State} (source : Nat) (group : Nat)
    (hm : Covers k₀ 0x200618a0000000000000000000000000000000000000000000000000000000000000000000000000000000000000410002) (hs : Keeps k₀ s₀ s) :
    Keeps k₀ s₀ (State.evGroup s source group) := by
  unfold State.evGroup
  repeat' first
    | exact hm.trans (by decide)
    | with_reducible first
      | assumption | intro _ | refine Keeps.of_eq (by with_reducible assumption) ?_ | apply State.event_keeps
      | apply Keeps.ite
    | split | (dsimp only; split)

theorem State.evAccess_keeps {k₀ : Nat} {s₀ s : State} (source : Nat) (addr : Nat) (initiator : Nat)
    (hm : Covers k₀ 0x200618a0000000000000000000000000000000000000000000000000000000000000000000000000000000000000410002) (hs : Keeps k₀ s₀ s) :
    Keeps k₀ s₀ (State.evAccess s source addr initiator) := by
  unfold State.evAccess
  repeat' first
    | exact hm.trans (by decide)
    | with_reducible first
      | assumption | intro _ | refine Keeps.of_eq (by with_reducible assumption) ?_ | apply State.event_keeps
      | apply Keeps.ite
    | split | (dsimp only; split)

theorem State.evUncorrectable_keeps {k₀ : Nat} {s₀ s : State} (source : Nat) (storage : Nat)
    (hm : Covers k₀ 0x200618a0000000000000000000000000000000000000000000000000000000000000000000000000000000000000410002) (hs : Keeps k₀ s₀ s) :
    Keeps k₀ s₀ (State.evUncorrectable s source storage) := by
  unfold State.evUncorrectable
  repeat' first
    | exact hm.trans (by decide)
    | with_reducible first
      | assumption | intro _ | refine Keeps.of_eq (by with_reducible assumption) ?_ | apply State.event_keeps
      | apply Keeps.ite
    | split | (dsimp only; split)

theorem State.evRefused_keeps {k₀ : Nat} {s₀ s : State} (source : Nat) (offset : Nat) (reason : Nat)
    (hm : Covers k₀ 0x200618a0000000000000000000000000000000000000000000000000000000000000000000000000000000000000410002) (hs : Keeps k₀ s₀ s) :
    Keeps k₀ s₀ (State.evRefused s source offset reason) := by
  unfold State.evRefused
  repeat' first
    | exact hm.trans (by decide)
    | with_reducible first
      | assumption | intro _ | refine Keeps.of_eq (by with_reducible assumption) ?_ | apply State.event_keeps
      | apply Keeps.ite
    | split | (dsimp only; split)

theorem State.evState_keeps {k₀ : Nat} {s₀ s : State} (source : Nat) (item : Nat) (old : Nat) (new : Nat)
    (hm : Covers k₀ 0x200618a0000000000000000000000000000000000000000000000000000000000000000000000000000000000000410002) (hs : Keeps k₀ s₀ s) :
    Keeps k₀ s₀ (State.evState s source item old new) := by
  unfold State.evState
  repeat' first
    | exact hm.trans (by decide)
    | with_reducible first
      | assumption | intro _ | refine Keeps.of_eq (by with_reducible assumption) ?_ | apply State.event_keeps
      | apply Keeps.ite
    | split | (dsimp only; split)

theorem State.evLimit_keeps {k₀ : Nat} {s₀ s : State} (source : Nat) (item : Nat) (measured : Nat) (limit : Nat)
    (hm : Covers k₀ 0x200618a0000000000000000000000000000000000000000000000000000000000000000000000000000000000000410002) (hs : Keeps k₀ s₀ s) :
    Keeps k₀ s₀ (State.evLimit s source item measured limit) := by
  unfold State.evLimit
  repeat' first
    | exact hm.trans (by decide)
    | with_reducible first
      | assumption | intro _ | refine Keeps.of_eq (by with_reducible assumption) ?_ | apply State.event_keeps
      | apply Keeps.ite
    | split | (dsimp only; split)

theorem State.firmware_keeps {k₀ : Nat} {s₀ s : State} (f : State → State) (hs : Keeps k₀ s₀ s)
    (hf : ∀ x0, Keeps k₀ s₀ x0 → Keeps k₀ s₀ (f x0)) :
    Keeps k₀ s₀ (State.firmware s f) := by
  unfold State.firmware
  repeat' first
    | with_reducible first
      | assumption | intro _ | apply hf | refine Keeps.of_eq (by with_reducible assumption) ?_ | apply Keeps.ite
    | split | (dsimp only; split)

/-! ### Machine/MemErr.lean -/

theorem State.countCe_keeps {k₀ : Nat} {s₀ s : State} (pa : Nat) (hm : Covers k₀ 0x400540000000000000000000000002)
    (hs : Keeps k₀ s₀ s) :
    Keeps k₀ s₀ (State.countCe s pa) := by
  unfold State.countCe
  repeat' first
    | exact hm.trans (by decide)
    | with_reducible first
      | exact IMG_CE_in | exact MMU_DRAM_CE_in | exact MMU_FLASH_CE_in | exact MMU_MRAM_CE_in | assumption | intro _
      | refine Keeps.of_eq (by with_reducible assumption) ?_ | apply State.bump_keeps | apply Keeps.ite
    | split | (dsimp only; split)

theorem State.reportUe_keeps {k₀ : Nat} {s₀ s : State} (pa : Nat)
    (hm : Covers k₀ 0x200618a0000000000000000000000000000000000000000000000000000000000001a00a81800000000000000000410002) (hs : Keeps k₀ s₀ s) :
    Keeps k₀ s₀ (State.reportUe s pa) := by
  unfold State.reportUe
  repeat' first
    | exact hm.trans (by decide)
    | with_reducible first
      | exact IMG_STATUS_in | exact IMG_UE_in | exact IMG_UEADDR_in | exact MMU_DRAM_UE_in | exact MMU_FLASH_UE_in
      | exact MMU_MRAM_UE_in | exact MMU_STATUS_in | exact MMU_UEADDR_in | assumption | intro _
      | refine Keeps.of_eq (by with_reducible assumption) ?_ | apply State.bump_keeps
      | apply State.evUncorrectable_keeps | apply State.flag_keeps | apply State.putFld_keeps | apply State.setReg_keeps
      | apply Keeps.ite
    | split | (dsimp only; split)

theorem State.reportL2Ue_keeps {k₀ : Nat} {s₀ s : State} (pa : Nat)
    (hm : Covers k₀ 0x200618a0000000000000000000000000000000000000000000000000000000000000000021800000000000000000410002) (hs : Keeps k₀ s₀ s) :
    Keeps k₀ s₀ (State.reportL2Ue s pa) := by
  unfold State.reportL2Ue
  repeat' first
    | exact hm.trans (by decide)
    | with_reducible first
      | exact MMU_L2_UE_in | exact MMU_STATUS_in | exact MMU_UEADDR_in | assumption | intro _
      | refine Keeps.of_eq (by with_reducible assumption) ?_ | apply State.bump_keeps
      | apply State.evUncorrectable_keeps | apply State.flag_keeps | apply State.setReg_keeps | apply Keeps.ite
    | split | (dsimp only; split)

theorem State.reportRange_keeps {k₀ : Nat} {s₀ s : State} (pa : Nat) (n : Nat)
    (hm : Covers k₀ 0x200618a0000000000000000000000000000000000000000000000000000000000001a00a81800000000000000000410002) (hs : Keeps k₀ s₀ s) :
    Keeps k₀ s₀ (State.reportRange s pa n) := by
  unfold State.reportRange
  repeat' first
    | exact hm.trans (by decide)
    | with_reducible first
      | assumption | intro _ | refine Keeps.of_eq (by with_reducible assumption) ?_ | apply State.forEach_keeps
      | apply State.reportUe_keeps | apply Keeps.ite
    | split | (dsimp only; split)

theorem State.writePart_keeps {k₀ : Nat} {s₀ s : State} (pa : Nat) (bs : List Byte)
    (hm : Covers k₀ 0x200618a0000000000000000000000000000000000000000000000000000000000001a00a8180000000000000000041001a) (hs : Keeps k₀ s₀ s) :
    Keeps k₀ s₀ (State.writePart s pa bs) := by
  unfold State.writePart
  repeat' first
    | exact hm.trans (by decide)
    | with_reducible first
      | assumption | intro _ | refine Keeps.of_eq (by with_reducible assumption) ?_ | apply State.healUe_keeps
      | apply State.reportUe_keeps | apply State.writeBytes_keeps | apply Keeps.ite
    | split | (dsimp only; split)

theorem State.writeRun_keeps {k₀ : Nat} {s₀ s : State} (pa : Nat) (bs : List Byte)
    (hm : Covers k₀ 0x200618a0000000000000000000000000000000000000000000000000000000000001a00a8180000000000000000041001a) (hs : Keeps k₀ s₀ s) :
    Keeps k₀ s₀ (State.writeRun s pa bs) := by
  unfold State.writeRun
  repeat' first
    | exact hm.trans (by decide)
    | with_reducible first
      | assumption | intro _ | refine Keeps.of_eq (by with_reducible assumption) ?_ | apply State.forEach_keeps
      | apply State.writePart_keeps | apply Keeps.ite
    | split | (dsimp only; split)

/-! ### Machine/Image.lean -/

theorem State.putCell_keeps {k₀ : Nat} {s₀ s : State} (analog : Bool) (pa : Nat) (p : Point)
    (hm : Covers k₀ 0x200618a0000000000000000000000000000000000000000000000000000000000001a00a8180000000000000000041001a) (hs : Keeps k₀ s₀ s) :
    Keeps k₀ s₀ (State.putCell s analog pa p) := by
  unfold State.putCell
  repeat' first
    | exact hm.trans (by decide)
    | with_reducible first
      | assumption | intro _ | refine Keeps.of_eq (by with_reducible assumption) ?_ | apply State.writeRun_keeps
      | apply Keeps.ite
    | split | (dsimp only; split)

theorem State.putPoint_keeps {k₀ : Nat} {s₀ s : State} (base : Nat) (analog : Bool) (i : Nat) (p : Point)
    (hm : Covers k₀ 0x200618a0000000000000000000000000000000000000000000000000000000000001a00a8180000000000000000041001a) (hs : Keeps k₀ s₀ s) :
    Keeps k₀ s₀ (State.putPoint s base analog i p) := by
  unfold State.putPoint
  repeat' first
    | exact hm.trans (by decide)
    | with_reducible first
      | assumption | intro _ | refine Keeps.of_eq (by with_reducible assumption) ?_ | apply State.putCell_keeps
      | apply Keeps.ite
    | split | (dsimp only; split)

theorem State.readPoint_keeps {k₀ : Nat} {s₀ s : State} (base : Nat) (analog : Bool) (i : Nat)
    (hm : Covers k₀ 0x200618a0000000000000000000000000000000000000000000000000000000000001a00a81800000000000000000410002) (hs : Keeps k₀ s₀ s) :
    Keeps k₀ s₀ (State.readPoint s base analog i).1 := by
  unfold State.readPoint
  repeat' first
    | exact hm.trans (by decide)
    | with_reducible first
      | assumption | intro _ | refine Keeps.of_eq (by with_reducible assumption) ?_ | apply State.reportUe_keeps
      | apply Keeps.ite
    | split | (dsimp only; split)

theorem State.modTask_keeps {k₀ : Nat} {s₀ s : State} (n : Nat) (g : Task → Task) (hm : Covers k₀ 0x80)
    (hs : Keeps k₀ s₀ s) :
    Keeps k₀ s₀ (State.modTask s n g) := by
  unfold State.modTask
  repeat' first
    | exact hm.trans (by decide)
    | with_reducible first
      | assumption | intro _ | refine Keeps.of_eq (by with_reducible assumption) ?_ | apply Keeps.ite
    | split | (dsimp only; split) | with_reducible apply Keeps.mk_tasks

theorem State.putPub_keeps {k₀ : Nat} {s₀ s : State} (analog : Bool) (i : Nat) (p : Point)
    (hm : Covers k₀ 0x200618a0000000000000000000000000000000000000000000000000000000000001a00a8180000000000000000043001a) (hs : Keeps k₀ s₀ s) :
    Keeps k₀ s₀ (State.putPub s analog i p) := by
  unfold State.putPub
  repeat' first
    | exact hm.trans (by decide)
    | with_reducible first
      | assumption | intro _ | refine Keeps.of_eq (by with_reducible assumption) ?_ | apply State.copyItem_keeps
      | apply State.putPoint_keeps | apply Keeps.ite
    | split | (dsimp only; split)

theorem State.meetPoints_keeps {k₀ : Nat} {s₀ s : State} (base : Nat) (analog : Bool) (start : Nat) (count : Nat)
    (hm : Covers k₀ 0x200618a0000000000000000000000000000000000000000000000000000000000001a00a81800000000000000000410002) (hs : Keeps k₀ s₀ s) :
    Keeps k₀ s₀ (State.meetPoints s base analog start count) := by
  unfold State.meetPoints
  repeat' first
    | exact hm.trans (by decide)
    | with_reducible first
      | assumption | intro _ | refine Keeps.of_eq (by with_reducible assumption) ?_ | apply State.reportRange_keeps
      | apply State.when_keeps | apply Keeps.ite
    | split | (dsimp only; split)

theorem State.meetSlices_keeps {k₀ : Nat} {s₀ s : State} (base : Nat) (l : List Slice)
    (hm : Covers k₀ 0x200618a0000000000000000000000000000000000000000000000000000000000001a00a81800000000000000000410002) (hs : Keeps k₀ s₀ s) :
    Keeps k₀ s₀ (State.meetSlices s base l) := by
  unfold State.meetSlices
  repeat' first
    | exact hm.trans (by decide)
    | with_reducible first
      | assumption | intro _ | refine Keeps.of_eq (by with_reducible assumption) ?_ | apply State.forEach_keeps
      | apply State.reportRange_keeps | apply Keeps.ite
    | split | (dsimp only; split)

theorem State.substitute_keeps {k₀ : Nat} {s₀ s : State} (n : Nat)
    (hm : Covers k₀ 0x200618a0000000000000000000000000000000000000000000000000000000000001a00a8180000000000000000043009a) (hs : Keeps k₀ s₀ s) :
    Keeps k₀ s₀ (State.substitute s n) := by
  unfold State.substitute
  repeat' first
    | exact hm.trans (by decide)
    | with_reducible first
      | assumption | intro _ | refine Keeps.of_eq (by with_reducible assumption) ?_ | apply State.forEach_keeps
      | apply State.meetSlices_keeps | apply State.modTask_keeps | apply State.putPub_keeps | apply Keeps.ite
    | split | (dsimp only; split)

theorem State.holdOutputs_keeps {k₀ : Nat} {s₀ s : State} (n : Nat)
    (hm : Covers k₀ 0x200618a0000000000000000000000000000000000000000000000000000000000001a00a8180000000000000000043001a) (hs : Keeps k₀ s₀ s) :
    Keeps k₀ s₀ (State.holdOutputs s n) := by
  unfold State.holdOutputs
  repeat' first
    | exact hm.trans (by decide)
    | with_reducible first
      | assumption | intro _ | refine Keeps.of_eq (by with_reducible assumption) ?_ | apply State.forEach_keeps
      | apply State.meetSlices_keeps | apply State.putPub_keeps | apply Keeps.ite
    | split | (dsimp only; split)

theorem State.reportOwned_keeps {k₀ : Nat} {s₀ s : State} (n : Nat) (free : Bool)
    (hm : Covers k₀ 0x200618a0000000000000000000000000000000000000000000000000000000000000000000000000000000000000410002) (hs : Keeps k₀ s₀ s) :
    Keeps k₀ s₀ (State.reportOwned s n free) := by
  unfold State.reportOwned
  repeat' first
    | exact hm.trans (by decide)
    | with_reducible first
      | assumption | intro _ | refine Keeps.of_eq (by with_reducible assumption) ?_ | apply State.evRefused_keeps
      | apply Keeps.ite
    | split | (dsimp only; split)

theorem State.publishImage_keeps {k₀ : Nat} {s₀ s : State} (n : Nat) (free : Bool) (image : List Byte)
    (hm : Covers k₀ 0x200618a0000000000000000000000000000000000000000000000000000000000001a00a8180000000000000000043009a) (hs : Keeps k₀ s₀ s) :
    Keeps k₀ s₀ (State.publishImage s n free image) := by
  unfold State.publishImage
  repeat' first
    | exact hm.trans (by decide)
    | with_reducible first
      | assumption | intro _ | refine Keeps.of_eq (by with_reducible assumption) ?_ | apply State.copyItem_keeps
      | apply State.forEach_keeps | apply State.modTask_keeps | apply State.putPub_keeps | apply State.reportOwned_keeps
      | apply State.writeRun_keeps | apply Keeps.ite
    | split | (dsimp only; split)

theorem State.initVoted_keeps {k₀ : Nat} {s₀ s : State} (n : Nat)
    (hm : Covers k₀ 0x200618a0000000000000000000000000000000000000000000000000000000000001a00a8180000000000000000043001a) (hs : Keeps k₀ s₀ s) :
    Keeps k₀ s₀ (State.initVoted s n) := by
  unfold State.initVoted
  repeat' first
    | exact hm.trans (by decide)
    | with_reducible first
      | assumption | intro _ | refine Keeps.of_eq (by with_reducible assumption) ?_ | apply State.copyItem_keeps
      | apply State.forEach_keeps | apply State.meetSlices_keeps | apply State.putCell_keeps | apply Keeps.ite
    | split | (dsimp only; split)

theorem State.refreshForced_keeps {k₀ : Nat} {s₀ s : State} (analog : Bool) (i : Nat)
    (hm : Covers k₀ 0x200618a0000000000000000000000000000000000000000000000000000000000001a00a8180000000000000000043001a) (hs : Keeps k₀ s₀ s) :
    Keeps k₀ s₀ (State.refreshForced s analog i) := by
  unfold State.refreshForced
  repeat' first
    | exact hm.trans (by decide)
    | with_reducible first
      | assumption | intro _ | refine Keeps.of_eq (by with_reducible assumption) ?_ | apply State.putPub_keeps
      | apply State.reportRange_keeps | apply Keeps.ite
    | split | (dsimp only; split)

/-! ### Machine/Dio.lean -/

theorem State.modDi_keeps {k₀ : Nat} {s₀ s : State} (i : Nat) (g : DiState → DiState) (hm : Covers k₀ 0x40000)
    (hs : Keeps k₀ s₀ s) :
    Keeps k₀ s₀ (State.modDi s i g) := by
  unfold State.modDi
  repeat' first
    | exact hm.trans (by decide)
    | with_reducible first
      | assumption | intro _ | refine Keeps.of_eq (by with_reducible assumption) ?_ | apply Keeps.ite
    | split | (dsimp only; split) | with_reducible apply Keeps.mk_dio

theorem State.modDout_keeps {k₀ : Nat} {s₀ s : State} (c : Nat) (g : DoState → DoState) (hm : Covers k₀ 0x40000)
    (hs : Keeps k₀ s₀ s) :
    Keeps k₀ s₀ (State.modDout s c g) := by
  unfold State.modDout
  repeat' first
    | exact hm.trans (by decide)
    | with_reducible first
      | assumption | intro _ | refine Keeps.of_eq (by with_reducible assumption) ?_ | apply Keeps.ite
    | split | (dsimp only; split) | with_reducible apply Keeps.mk_dio

theorem State.modGuard_keeps {k₀ : Nat} {s₀ s : State} (g : Nat) (f : Guard → Guard) (hm : Covers k₀ 0x40000)
    (hs : Keeps k₀ s₀ s) :
    Keeps k₀ s₀ (State.modGuard s g f) := by
  unfold State.modGuard
  repeat' first
    | exact hm.trans (by decide)
    | with_reducible first
      | assumption | intro _ | refine Keeps.of_eq (by with_reducible assumption) ?_ | apply Keeps.ite
    | split | (dsimp only; split) | with_reducible apply Keeps.mk_dio

theorem State.putBit_keeps {k₀ w : Nat} {s₀ s : State} (a : Nat) (lo : Nat) (i : Nat) (b : Bool) (ha : InRows w a)
    (hm : Covers k₀ (0x2 ||| w <<< 32)) (hs : Keeps k₀ s₀ s) :
    Keeps k₀ s₀ (State.putBit s a lo i b) := by
  unfold State.putBit
  repeat' first
    | exact hm.trans (by decide)
    | with_reducible first
      | assumption | intro _ | refine Keeps.of_eq (by with_reducible assumption) ?_ | apply State.putFld_keeps
      | apply Keeps.ite
    | split | (dsimp only; split)

theorem State.setGstate_keeps {k₀ : Nat} {s₀ s : State} (g : Nat) (v : Nat)
    (hm : Covers k₀ 0x84000000000000000000000000000000000000000000000000000000000000000000000000000000002) (hs : Keeps k₀ s₀ s) :
    Keeps k₀ s₀ (State.setGstate s g v) := by
  unfold State.setGstate
  repeat' first
    | exact hm.trans (by decide)
    | with_reducible first
      | exact SAF_GSTATE_in | exact SAF_STATUS_in | assumption | intro _
      | refine Keeps.of_eq (by with_reducible assumption) ?_ | apply State.putFld_keeps | apply Keeps.ite
    | split | (dsimp only; split)

theorem State.startGroup_keeps {k₀ : Nat} {s₀ s : State} (g : Nat)
    (hm : Covers k₀ 0x84000000000000000000000000000000000000000000000000000000000000000000000000000040002) (hs : Keeps k₀ s₀ s) :
    Keeps k₀ s₀ (State.startGroup s g) := by
  unfold State.startGroup
  repeat' first
    | exact hm.trans (by decide)
    | with_reducible first
      | assumption | intro _ | refine Keeps.of_eq (by with_reducible assumption) ?_ | apply State.modGuard_keeps
      | apply State.setGstate_keeps | apply Keeps.ite
    | split | (dsimp only; split)

theorem State.startGuards_keeps {k₀ : Nat} {s₀ s : State}
    (hm : Covers k₀ 0x84000000000000000000000000000000000000000000000000000000000000000000000000000040002) (hs : Keeps k₀ s₀ s) :
    Keeps k₀ s₀ (State.startGuards s) := by
  unfold State.startGuards
  repeat' first
    | exact hm.trans (by decide)
    | with_reducible first
      | assumption | intro _ | refine Keeps.of_eq (by with_reducible assumption) ?_ | apply State.forEach_keeps
      | apply State.startGroup_keeps | apply Keeps.ite
    | split | (dsimp only; split)

theorem State.restartGuards_keeps {k₀ : Nat} {s₀ s : State}
    (hm : Covers k₀ 0x84000000000000000000000000000000000000000000000000000000000000000000000000000040002) (hs : Keeps k₀ s₀ s) :
    Keeps k₀ s₀ (State.restartGuards s) := by
  unfold State.restartGuards
  repeat' first
    | exact hm.trans (by decide)
    | with_reducible first
      | assumption | intro _ | refine Keeps.of_eq (by with_reducible assumption) ?_ | apply State.forEach_keeps
      | apply State.startGroup_keeps | apply Keeps.ite
    | split | (dsimp only; split)

theorem State.guardDone_keeps {k₀ : Nat} {s₀ s : State} (g : Nat)
    (hm : Covers k₀ 0x200618a0000000084000000000000000000000000000000000000000000000000000000000000000000000000000410002) (hs : Keeps k₀ s₀ s) :
    Keeps k₀ s₀ (State.guardDone s g) := by
  unfold State.guardDone
  repeat' first
    | exact hm.trans (by decide)
    | with_reducible first
      | assumption | intro _ | refine Keeps.of_eq (by with_reducible assumption) ?_ | apply State.event_keeps
      | apply State.setGstate_keeps | apply Keeps.ite
    | split | (dsimp only; split)

theorem State.guardSample_keeps {k₀ : Nat} {s₀ s : State} (g : Nat)
    (hm : Covers k₀ 0x200618a0000000084000000000000000000000000000000000000000000000000000000000000000000000000000450002) (hs : Keeps k₀ s₀ s) :
    Keeps k₀ s₀ (State.guardSample s g) := by
  unfold State.guardSample
  repeat' first
    | exact hm.trans (by decide)
    | with_reducible first
      | assumption | intro _ | refine Keeps.of_eq (by with_reducible assumption) ?_ | apply State.guardDone_keeps
      | apply State.modGuard_keeps | apply State.setGstate_keeps | apply Keeps.ite
    | split | (dsimp only; split)

theorem State.latchInput_keeps {k₀ : Nat} {s₀ s : State} (i : Nat) (kind : Nat)
    (hm : Covers k₀ 0x200618a0000000024000001000000000000000000000000000000000000000000000000000000000000000000000450002) (hs : Keeps k₀ s₀ s) :
    Keeps k₀ s₀ (State.latchInput s i kind) := by
  unfold State.latchInput
  repeat' first
    | exact hm.trans (by decide)
    | with_reducible first
      | exact DIO_DILATCH_in | exact SAF_STATUS_in | exact SAF_TPFAIL_in | assumption | intro _
      | refine Keeps.of_eq (by with_reducible assumption) ?_ | apply State.bump_keeps | apply State.event_keeps
      | apply State.flag_keeps | apply State.modDi_keeps | apply State.putBit_keeps | apply Keeps.ite
    | split | (dsimp only; split)

theorem State.inputFault_keeps {k₀ : Nat} {s₀ s : State} (i : Nat) (wire : Bool)
    (hm : Covers k₀ 0x200618a0000000024000061400000000000000000000000000000000000000000000000000000000000000000000450002) (hs : Keeps k₀ s₀ s) :
    Keeps k₀ s₀ (State.inputFault s i wire) := by
  unfold State.inputFault
  repeat' first
    | exact hm.trans (by decide)
    | with_reducible first
      | exact DIO_STATUS_in | exact DIO_WBCNT_in | exact DIO_WINCNT_in | assumption | intro _
      | refine Keeps.of_eq (by with_reducible assumption) ?_ | apply State.bump_keeps | apply State.flag_keeps
      | apply State.latchInput_keeps | apply Keeps.ite
    | split | (dsimp only; split)

theorem State.sampleInput_keeps {k₀ : Nat} {s₀ s : State} (i : Nat) (adc : Int) (since : Nat)
    (hm : Covers k₀ 0x200618a0000000024000061c00000000000000000000000000000000000000000000000000000000000000000010450002) (hs : Keeps k₀ s₀ s) :
    Keeps k₀ s₀ (State.sampleInput s i adc since) := by
  unfold State.sampleInput
  repeat' first
    | exact hm.trans (by decide)
    | with_reducible first
      | exact DIO_DIRAW_in | assumption | intro _ | refine Keeps.of_eq (by with_reducible assumption) ?_
      | apply State.inputFault_keeps | apply State.modDi_keeps | apply State.putBit_keeps | apply State.tickFree_keeps
      | apply Keeps.ite
    | split | (dsimp only; split) | with_reducible apply Keeps.mk_dio

theorem State.startRun_keeps {k₀ : Nat} {s₀ s : State} (startup : Bool)
    (hm : Covers k₀ 0x4000000000000000000000000000000000000000000000000000000000000000000000000000040002) (hs : Keeps k₀ s₀ s) :
    Keeps k₀ s₀ (State.startRun s startup) := by
  unfold State.startRun
  repeat' first
    | exact hm.trans (by decide)
    | with_reducible first
      | exact SAF_STATUS_in | assumption | intro _ | refine Keeps.of_eq (by with_reducible assumption) ?_
      | apply State.flag_keeps | apply State.forEach_keeps | apply State.modDi_keeps | apply State.modGuard_keeps
      | apply Keeps.ite
    | split | (dsimp only; split) | with_reducible apply Keeps.mk_dio

theorem State.judgeInput_keeps {k₀ : Nat} {s₀ s : State} (r : TestRun) (i : Nat)
    (hm : Covers k₀ 0x200618a0000000034000001000000000000000000000000000000000000000000000000000000000000000000000450002) (hs : Keeps k₀ s₀ s) :
    Keeps k₀ s₀ (State.judgeInput s r i) := by
  unfold State.judgeInput
  repeat' first
    | exact hm.trans (by decide)
    | with_reducible first
      | exact DIO_DILATCH_in | exact SAF_TPRES_in | assumption | intro _
      | refine Keeps.of_eq (by with_reducible assumption) ?_ | apply State.latchInput_keeps | apply State.modDi_keeps
      | apply State.putBit_keeps | apply State.putFld_keeps | apply Keeps.ite
    | split | (dsimp only; split)

theorem State.judgeGuard_keeps {k₀ : Nat} {s₀ s : State} (r : TestRun) (g : Nat)
    (hm : Covers k₀ 0x200618a0000000084000000000000000000000000000000000000000000000000000000000000000000000000000450002) (hs : Keeps k₀ s₀ s) :
    Keeps k₀ s₀ (State.judgeGuard s r g) := by
  unfold State.judgeGuard
  repeat' first
    | exact hm.trans (by decide)
    | with_reducible first
      | assumption | intro _ | refine Keeps.of_eq (by with_reducible assumption) ?_ | apply State.guardDone_keeps
      | apply State.modGuard_keeps | apply Keeps.ite
    | split | (dsimp only; split)

theorem State.endRun_keeps {k₀ : Nat} {s₀ s : State}
    (hm : Covers k₀ 0x200618a00000000bc000001000000000000000000000000000000000000000000000000000000000000000000000450002) (hs : Keeps k₀ s₀ s) :
    Keeps k₀ s₀ (State.endRun s) := by
  unfold State.endRun
  repeat' first
    | exact hm.trans (by decide)
    | with_reducible first
      | exact SAF_STATUS_in | exact SAF_TPCTRL_in | assumption | intro _
      | refine Keeps.of_eq (by with_reducible assumption) ?_ | apply State.forEach_keeps | apply State.judgeGuard_keeps
      | apply State.judgeInput_keeps | apply State.putFld_keeps | apply State.startRun_keeps | apply Keeps.ite
    | split | (dsimp only; split) | with_reducible apply Keeps.mk_dio

theorem State.issueTest_keeps {k₀ : Nat} {s₀ s : State}
    (hm : Covers k₀ 0xc000000000000000000000000000000000000000000000000000000000000000000000000000040002) (hs : Keeps k₀ s₀ s) :
    Keeps k₀ s₀ (State.issueTest s) := by
  unfold State.issueTest
  repeat' first
    | exact hm.trans (by decide)
    | with_reducible first
      | exact SAF_TPCTRL_in | assumption | intro _ | refine Keeps.of_eq (by with_reducible assumption) ?_
      | apply State.flag_keeps | apply State.startRun_keeps | apply Keeps.ite
    | split | (dsimp only; split) | with_reducible apply Keeps.mk_dio

theorem State.sampleGroup_keeps {k₀ : Nat} {s₀ s : State} (c : Nat) (hm : Covers k₀ 0x40000) (hs : Keeps k₀ s₀ s) :
    Keeps k₀ s₀ (State.sampleGroup s c) := by
  unfold State.sampleGroup
  repeat' first
    | exact hm.trans (by decide)
    | with_reducible first
      | assumption | intro _ | refine Keeps.of_eq (by with_reducible assumption) ?_ | apply State.modDout_keeps
      | apply Keeps.ite
    | split | (dsimp only; split)

theorem State.setDoCmd_keeps {k₀ : Nat} {s₀ s : State} (c : Nat) (on : Bool)
    (hm : Covers k₀ 0xc000000000000000000000000000000000000000000000000000000000000000000000040002) (hs : Keeps k₀ s₀ s) :
    Keeps k₀ s₀ (State.setDoCmd s c on) := by
  unfold State.setDoCmd
  repeat' first
    | exact hm.trans (by decide)
    | with_reducible first
      | exact DIO_DOLOAD_in | exact DIO_DOSTATE_in | assumption | intro _
      | refine Keeps.of_eq (by with_reducible assumption) ?_ | apply State.modDout_keeps | apply State.putBit_keeps
      | apply State.putFld_keeps | apply Keeps.ite
    | split | (dsimp only; split)

theorem State.safeOutputsOff_keeps {k₀ : Nat} {s₀ s : State}
    (hm : Covers k₀ 0xc000000000000000000000000000000000000000000000000000000000000000000000040002) (hs : Keeps k₀ s₀ s) :
    Keeps k₀ s₀ (State.safeOutputsOff s) := by
  unfold State.safeOutputsOff
  repeat' first
    | exact hm.trans (by decide)
    | with_reducible first
      | assumption | intro _ | refine Keeps.of_eq (by with_reducible assumption) ?_ | apply State.forEach_keeps
      | apply State.setDoCmd_keeps | apply Keeps.ite
    | split | (dsimp only; split)

theorem State.doTickChannels_keeps {k₀ : Nat} {s₀ s : State} (cs : List Nat) (pairOk : Bool)
    (hm : Covers k₀ 0x200618a000000000000000c000000000000000000000000000000000000000000001a00a81800000000000000000450002) (hs : Keeps k₀ s₀ s) :
    Keeps k₀ s₀ (State.doTickChannels s cs pairOk) := by
  unfold State.doTickChannels
  repeat' first
    | exact hm.trans (by decide)
    | with_reducible first
      | assumption | intro _ | refine Keeps.of_eq (by with_reducible assumption) ?_ | apply State.forEach_keeps
      | apply State.readPoint_keeps | apply State.setDoCmd_keeps | apply Keeps.ite
    | split | (dsimp only; split)

theorem State.doTickPair_keeps {k₀ : Nat} {s₀ s : State} (p : Nat)
    (hm : Covers k₀ 0x200618a000000000000000c400000000000000000000000000000000000000000001a00a81800000000000000000450002) (hs : Keeps k₀ s₀ s) :
    Keeps k₀ s₀ (State.doTickPair s p) := by
  unfold State.doTickPair
  repeat' first
    | exact hm.trans (by decide)
    | with_reducible first
      | exact DIO_STATUS_in | assumption | intro _ | refine Keeps.of_eq (by with_reducible assumption) ?_
      | apply State.doTickChannels_keeps | apply State.evGroup_keeps | apply State.flag_keeps
      | apply State.sampleGroup_keeps | apply Keeps.ite
    | split | (dsimp only; split)

theorem State.doTick_keeps {k₀ : Nat} {s₀ s : State}
    (hm : Covers k₀ 0x200618a000000000000000c400000000000000000000000000000000000000000001a00a81800000000000000000450002) (hs : Keeps k₀ s₀ s) :
    Keeps k₀ s₀ (State.doTick s) := by
  unfold State.doTick
  repeat' first
    | exact hm.trans (by decide)
    | with_reducible first
      | assumption | intro _ | refine Keeps.of_eq (by with_reducible assumption) ?_ | apply State.doTickPair_keeps
      | apply State.forEach_keeps | apply Keeps.ite
    | split | (dsimp only; split)

theorem State.doFault_keeps {k₀ : Nat} {s₀ s : State} (c : Nat)
    (hm : Covers k₀ 0x200618a000000000000008c400000000000000000000000000000000000000000000000000000000000000000000450002) (hs : Keeps k₀ s₀ s) :
    Keeps k₀ s₀ (State.doFault s c) := by
  unfold State.doFault
  repeat' first
    | exact hm.trans (by decide)
    | with_reducible first
      | exact DIO_DOFLTCNT_in | exact DIO_DOSTATE_in | exact DIO_STATUS_in | assumption | intro _
      | refine Keeps.of_eq (by with_reducible assumption) ?_ | apply State.bump_keeps | apply State.event_keeps
      | apply State.flag_keeps | apply State.forEach_keeps | apply State.putBit_keeps | apply State.setDoCmd_keeps
      | apply Keeps.ite
    | split | (dsimp only; split)

theorem State.sampleOutput_keeps {k₀ : Nat} {s₀ s : State} (c : Nat) (back : Bool) (excess : Bool) (settled : Bool)
    (hm : Covers k₀ 0x200618a000000000000008c400000000000000000000000000000000000000000000000000000000000000000000450002) (hs : Keeps k₀ s₀ s) :
    Keeps k₀ s₀ (State.sampleOutput s c back excess settled) := by
  unfold State.sampleOutput
  repeat' first
    | exact hm.trans (by decide)
    | with_reducible first
      | exact DIO_DOSTATE_in | exact DIO_STATUS_in | assumption | intro _
      | refine Keeps.of_eq (by with_reducible assumption) ?_ | apply State.doFault_keeps | apply State.modDout_keeps
      | apply State.putBit_keeps | apply Keeps.ite
    | split | (dsimp only; split)

theorem State.clearOutputs_keeps {k₀ : Nat} {s₀ s : State} (mask : Nat)
    (hm : Covers k₀ 0x4000000000000000000000000000000000000000000000000000000000000000000000000002) (hs : Keeps k₀ s₀ s) :
    Keeps k₀ s₀ (State.clearOutputs s mask) := by
  unfold State.clearOutputs
  repeat' first
    | exact hm.trans (by decide)
    | with_reducible first
      | exact DIO_DOSTATE_in | assumption | intro _ | refine Keeps.of_eq (by with_reducible assumption) ?_
      | apply State.forEach_keeps | apply State.putBit_keeps | apply Keeps.ite
    | split | (dsimp only; split)

theorem State.doClear_keeps {k₀ : Nat} {s₀ s : State}
    (hm : Covers k₀ 0x14000000000000000000000000000000000000000000000000000000000000000000000000002) (hs : Keeps k₀ s₀ s) :
    Keeps k₀ s₀ (State.doClear s) := by
  unfold State.doClear
  repeat' first
    | exact hm.trans (by decide)
    | with_reducible first
      | exact DIO_DOCLR_in | assumption | intro _ | refine Keeps.of_eq (by with_reducible assumption) ?_
      | apply State.clearOutputs_keeps | apply State.putFld_keeps | apply Keeps.ite
    | split | (dsimp only; split)

theorem State.dioPoints_keeps {k₀ : Nat} {s₀ s : State} (bank : Nat)
    (hm : Covers k₀ 0x200618a0000000000000000000000000000000000000000000000000000000000001a00a8180000000000000000041001a) (hs : Keeps k₀ s₀ s) :
    Keeps k₀ s₀ (State.dioPoints s bank) := by
  unfold State.dioPoints
  repeat' first
    | exact hm.trans (by decide)
    | with_reducible first
      | assumption | intro _ | refine Keeps.of_eq (by with_reducible assumption) ?_ | apply State.forEach_keeps
      | apply State.putPoint_keeps | apply Keeps.ite
    | split | (dsimp only; split)

theorem State.loadDiCal_keeps {k₀ : Nat} {s₀ s : State}
    (hm : Covers k₀ 0x200618a0000000000000200400000000000000000000000000000000000000000000000000000000000000000000410002) (hs : Keeps k₀ s₀ s) :
    Keeps k₀ s₀ (State.loadDiCal s) := by
  unfold State.loadDiCal
  repeat' first
    | exact hm.trans (by decide)
    | with_reducible first
      | exact DIO_DIUCAL_in | exact DIO_STATUS_in | assumption | intro _
      | refine Keeps.of_eq (by with_reducible assumption) ?_ | apply State.evState_keeps | apply State.flag_keeps
      | apply State.forEach_keeps | apply State.setReg_keeps | apply Keeps.ite
    | split | (dsimp only; split)

/-! ### Machine/Loop.lean -/

theorem State.modLoop_keeps {k₀ : Nat} {s₀ s : State} (c : Nat) (g : LoopChannel → LoopChannel) (hm : Covers k₀ 0x80000)
    (hs : Keeps k₀ s₀ s) :
    Keeps k₀ s₀ (State.modLoop s c g) := by
  unfold State.modLoop
  repeat' first
    | exact hm.trans (by decide)
    | with_reducible first
      | assumption | intro _ | refine Keeps.of_eq (by with_reducible assumption) ?_ | apply Keeps.ite
    | split | (dsimp only; split) | with_reducible apply Keeps.mk_loop

theorem State.loopDrive_keeps {k₀ : Nat} {s₀ s : State} (c : Nat) (hm : Covers k₀ 0x80000) (hs : Keeps k₀ s₀ s) :
    Keeps k₀ s₀ (State.loopDrive s c) := by
  unfold State.loopDrive
  repeat' first
    | exact hm.trans (by decide)
    | with_reducible first
      | assumption | intro _ | refine Keeps.of_eq (by with_reducible assumption) ?_ | apply State.modLoop_keeps
      | apply Keeps.ite
    | split | (dsimp only; split)

theorem State.loopsDrive_keeps {k₀ : Nat} {s₀ s : State} (hm : Covers k₀ 0x80000) (hs : Keeps k₀ s₀ s) :
    Keeps k₀ s₀ (State.loopsDrive s) := by
  unfold State.loopsDrive
  repeat' first
    | exact hm.trans (by decide)
    | with_reducible first
      | assumption | intro _ | refine Keeps.of_eq (by with_reducible assumption) ?_ | apply State.forEach_keeps
      | apply State.loopDrive_keeps | apply Keeps.ite
    | split | (dsimp only; split)

theorem State.loopTickChannel_keeps {k₀ : Nat} {s₀ s : State} (c : Nat)
    (hm : Covers k₀ 0x200618a0000000000000000000000000000000000000000000000000000000000001a00a81800000000000000000490002) (hs : Keeps k₀ s₀ s) :
    Keeps k₀ s₀ (State.loopTickChannel s c) := by
  unfold State.loopTickChannel
  repeat' first
    | exact hm.trans (by decide)
    | with_reducible first
      | assumption | intro _ | refine Keeps.of_eq (by with_reducible assumption) ?_ | apply State.loopDrive_keeps
      | apply State.modLoop_keeps | apply State.readPoint_keeps | apply Keeps.ite
    | split | (dsimp only; split)

theorem State.loopTick_keeps {k₀ : Nat} {s₀ s : State}
    (hm : Covers k₀ 0x200618a0000000000000000000000000000000000000000000000000000000000001a00a81800000000000000000490002) (hs : Keeps k₀ s₀ s) :
    Keeps k₀ s₀ (State.loopTick s) := by
  unfold State.loopTick
  repeat' first
    | exact hm.trans (by decide)
    | with_reducible first
      | assumption | intro _ | refine Keeps.of_eq (by with_reducible assumption) ?_ | apply State.forEach_keeps
      | apply State.loopTickChannel_keeps | apply Keeps.ite
    | split | (dsimp only; split)

theorem State.loopFault_keeps {k₀ : Nat} {s₀ s : State} (c : Nat) (cause : Nat)
    (hm : Covers k₀ 0x200618a00000000000a4000000000000000000000000000000000000000000000000000000000000000000000000490002) (hs : Keeps k₀ s₀ s) :
    Keeps k₀ s₀ (State.loopFault s c cause) := by
  unfold State.loopFault
  repeat' first
    | exact hm.trans (by decide)
    | with_reducible first
      | exact LOOP_FAULT_in | exact LOOP_FLTCNT_in | exact LOOP_STATUS_in | assumption | intro _
      | refine Keeps.of_eq (by with_reducible assumption) ?_ | apply State.bump_keeps | apply State.event_keeps
      | apply State.flag_keeps | apply State.loopDrive_keeps | apply State.putFld_keeps | apply Keeps.ite
    | split | (dsimp only; split)

theorem State.sampleLoop_keeps {k₀ : Nat} {s₀ s : State} (c : Nat) (m : LoopMeasure)
    (hm : Covers k₀ 0x200618a00000000002b4000000000000000000000000000000000000000000000000000000000000000000000000490002) (hs : Keeps k₀ s₀ s) :
    Keeps k₀ s₀ (State.sampleLoop s c m) := by
  unfold State.sampleLoop
  repeat' first
    | exact hm.trans (by decide)
    | with_reducible first
      | exact LOOP_COMPLIANCE_in | exact LOOP_MEAS_in | exact LOOP_STATUS_in | assumption | intro _
      | refine Keeps.of_eq (by with_reducible assumption) ?_ | apply State.loopFault_keeps | apply State.modLoop_keeps
      | apply State.putBit_keeps | apply State.setReg_keeps | apply Keeps.ite
    | split | (dsimp only; split)

theorem State.clearLoops_keeps {k₀ : Nat} {s₀ s : State} (mask : Nat)
    (hm : Covers k₀ 0x20000000000000000000000000000000000000000000000000000000000000000000000000080002) (hs : Keeps k₀ s₀ s) :
    Keeps k₀ s₀ (State.clearLoops s mask) := by
  unfold State.clearLoops
  repeat' first
    | exact hm.trans (by decide)
    | with_reducible first
      | exact LOOP_FAULT_in | assumption | intro _ | refine Keeps.of_eq (by with_reducible assumption) ?_
      | apply State.forEach_keeps | apply State.loopDrive_keeps | apply State.putFld_keeps | apply Keeps.ite
    | split | (dsimp only; split)

theorem State.loopClear_keeps {k₀ : Nat} {s₀ s : State}
    (hm : Covers k₀ 0x60000000000000000000000000000000000000000000000000000000000000000000000000080002) (hs : Keeps k₀ s₀ s) :
    Keeps k₀ s₀ (State.loopClear s) := by
  unfold State.loopClear
  repeat' first
    | exact hm.trans (by decide)
    | with_reducible first
      | exact LOOP_CLR_in | assumption | intro _ | refine Keeps.of_eq (by with_reducible assumption) ?_
      | apply State.clearLoops_keeps | apply State.putFld_keeps | apply Keeps.ite
    | split | (dsimp only; split)

theorem State.loopLoad_keeps {k₀ : Nat} {s₀ s : State} (c : Nat)
    (hm : Covers k₀ 0x400000000000000000000000000000000000000000000000000000000000000000000000000000002) (hs : Keeps k₀ s₀ s) :
    Keeps k₀ s₀ (State.loopLoad s c) := by
  unfold State.loopLoad
  repeat' first
    | exact hm.trans (by decide)
    | with_reducible first
      | exact LOOP_LOAD_in | assumption | intro _ | refine Keeps.of_eq (by with_reducible assumption) ?_
      | apply State.putFld_keeps | apply Keeps.ite
    | split | (dsimp only; split)

theorem State.loadLoopCal_keeps {k₀ : Nat} {s₀ s : State}
    (hm : Covers k₀ 0x200618a0000000000804000000000000000000000000000000000000000000000000000000000000000000000000410002) (hs : Keeps k₀ s₀ s) :
    Keeps k₀ s₀ (State.loadLoopCal s) := by
  unfold State.loadLoopCal
  repeat' first
    | exact hm.trans (by decide)
    | with_reducible first
      | exact LOOP_STATUS_in | exact LOOP_UCAL_in | assumption | intro _
      | refine Keeps.of_eq (by with_reducible assumption) ?_ | apply State.evState_keeps | apply State.flag_keeps
      | apply State.forEach_keeps | apply State.setReg_keeps | apply Keeps.ite
    | split | (dsimp only; split)

/-! ### Machine/Mailbox.lean -/

theorem State.mbxLine_keeps {k₀ : Nat} {s₀ s : State} (i : Nat) (hm : Covers k₀ 0x20) (hs : Keeps k₀ s₀ s) :
    Keeps k₀ s₀ (State.mbxLine s i) := by
  unfold State.mbxLine
  repeat' first
    | exact hm.trans (by decide)
    | with_reducible first
      | assumption | intro _ | refine Keeps.of_eq (by with_reducible assumption) ?_ | apply State.raiseLine_keeps
      | apply Keeps.ite
    | split | (dsimp only; split)

theorem State.setMbxState_keeps {k₀ : Nat} {s₀ s : State} (c : Nat) (st : Nat)
    (hm : Covers k₀ 0x400060000000000000000000000000000000000000000000000000000000000020022) (hs : Keeps k₀ s₀ s) :
    Keeps k₀ s₀ (State.setMbxState s c st) := by
  unfold State.setMbxState
  repeat' first
    | exact hm.trans (by decide)
    | with_reducible first
      | exact MBX_ACKPEND_in | exact MBX_CH_STAT_in | exact MBX_RXPEND_in | assumption | intro _
      | refine Keeps.of_eq (by with_reducible assumption) ?_ | apply State.copyItem_keeps | apply State.mbxLine_keeps
      | apply State.putFld_keeps | apply Keeps.ite
    | split | (dsimp only; split)

theorem State.mbxRefuse_keeps {k₀ : Nat} {s₀ s : State} (c : Nat) (code : Nat)
    (hm : Covers k₀ 0x200618a000000000000000000000040000c000000000000000000000000000000000000000000000000000000000430002) (hs : Keeps k₀ s₀ s) :
    Keeps k₀ s₀ (State.mbxRefuse s c code) := by
  unfold State.mbxRefuse
  repeat' first
    | exact hm.trans (by decide)
    | with_reducible first
      | exact MBX_CH_STAT_in | exact MBX_DENY_in | exact MBX_STATUS_in | assumption | intro _
      | refine Keeps.of_eq (by with_reducible assumption) ?_ | apply State.bump_keeps | apply State.copyItem_keeps
      | apply State.evRefused_keeps | apply State.flag_keeps | apply State.putFld_keeps | apply Keeps.ite
    | split | (dsimp only; split)

theorem State.mbxPost_keeps {k₀ : Nat} {s₀ s : State} (who : Option Nat) (c : Nat) (len : Nat) (mtype : Nat)
    (hm : Covers k₀ 0x200618a000000000000000000000040016c000000000000000000000000000000000000000000000000000000000430022) (hs : Keeps k₀ s₀ s) :
    Keeps k₀ s₀ (State.mbxPost s who c len mtype) := by
  unfold State.mbxPost
  repeat' first
    | exact hm.trans (by decide)
    | with_reducible first
      | exact MBX_CH_HDR_in | assumption | intro _ | refine Keeps.of_eq (by with_reducible assumption) ?_
      | apply State.mbxRefuse_keeps | apply State.putFld_keeps | apply State.setMbxState_keeps | apply Keeps.ite
    | split | (dsimp only; split)

theorem State.mbxTake_keeps {k₀ : Nat} {s₀ s : State} (who : Option Nat) (c : Nat)
    (hm : Covers k₀ 0x200618a000000000000000000000040006c000000000000000000000000000000000000000000000000000000000430022) (hs : Keeps k₀ s₀ s) :
    Keeps k₀ s₀ (State.mbxTake s who c) := by
  unfold State.mbxTake
  repeat' first
    | exact hm.trans (by decide)
    | with_reducible first
      | assumption | intro _ | refine Keeps.of_eq (by with_reducible assumption) ?_ | apply State.mbxRefuse_keeps
      | apply State.setMbxState_keeps | apply Keeps.ite
    | split | (dsimp only; split)

theorem State.mbxAck_keeps {k₀ : Nat} {s₀ s : State} (who : Option Nat) (c : Nat) (rcode : Nat)
    (hm : Covers k₀ 0x200618a0000000000000000000000c0006c000000000000000000000000000000000000000000000000000000000430022) (hs : Keeps k₀ s₀ s) :
    Keeps k₀ s₀ (State.mbxAck s who c rcode) := by
  unfold State.mbxAck
  repeat' first
    | exact hm.trans (by decide)
    | with_reducible first
      | exact MBX_CH_ACK_in | assumption | intro _ | refine Keeps.of_eq (by with_reducible assumption) ?_
      | apply State.mbxRefuse_keeps | apply State.putFld_keeps | apply State.setMbxState_keeps | apply Keeps.ite
    | split | (dsimp only; split)

theorem State.mbxDone_keeps {k₀ : Nat} {s₀ s : State} (who : Option Nat) (c : Nat)
    (hm : Covers k₀ 0x200618a000000000000000000000040006c000000000000000000000000000000000000000000000000000000000430022) (hs : Keeps k₀ s₀ s) :
    Keeps k₀ s₀ (State.mbxDone s who c) := by
  unfold State.mbxDone
  repeat' first
    | exact hm.trans (by decide)
    | with_reducible first
      | assumption | intro _ | refine Keeps.of_eq (by with_reducible assumption) ?_ | apply State.mbxRefuse_keeps
      | apply State.setMbxState_keeps | apply Keeps.ite
    | split | (dsimp only; split)

theorem State.mbxWithdraw_keeps {k₀ : Nat} {s₀ s : State} (who : Option Nat) (c : Nat)
    (hm : Covers k₀ 0x200618a000000000000000000000040006c000000000000000000000000000000000000000000000000000000000430022) (hs : Keeps k₀ s₀ s) :
    Keeps k₀ s₀ (State.mbxWithdraw s who c) := by
  unfold State.mbxWithdraw
  repeat' first
    | exact hm.trans (by decide)
    | with_reducible first
      | assumption | intro _ | refine Keeps.of_eq (by with_reducible assumption) ?_ | apply State.mbxRefuse_keeps
      | apply State.setMbxState_keeps | apply Keeps.ite
    | split | (dsimp only; split)

theorem State.mbxMalformed_keeps {k₀ : Nat} {s₀ s : State} (who : Option Nat) (c : Nat)
    (hm : Covers k₀ 0x200618a000000000000000000000040000c000000000000000000000000000000000000000000000000000000000430002) (hs : Keeps k₀ s₀ s) :
    Keeps k₀ s₀ (State.mbxMalformed s who c) := by
  unfold State.mbxMalformed
  repeat' first
    | exact hm.trans (by decide)
    | with_reducible first
      | assumption | intro _ | refine Keeps.of_eq (by with_reducible assumption) ?_ | apply State.mbxRefuse_keeps
      | apply Keeps.ite
    | split | (dsimp only; split)

theorem State.mbxCmd_keeps {k₀ : Nat} {s₀ s : State} (who : Option Nat) (c : Nat) (v : Word)
    (hm : Covers k₀ 0x200618a0000000000000000000000c0006c000000000000000000000000000000000000000000000000000000000430022) (hs : Keeps k₀ s₀ s) :
    Keeps k₀ s₀ (State.mbxCmd s who c v) := by
  unfold State.mbxCmd
  repeat' first
    | exact hm.trans (by decide)
    | with_reducible first
      | assumption | intro _ | refine Keeps.of_eq (by with_reducible assumption) ?_ | apply State.mbxAck_keeps
      | apply State.mbxDone_keeps | apply State.mbxMalformed_keeps | apply State.mbxTake_keeps
      | apply State.mbxWithdraw_keeps | apply Keeps.ite
    | split | (dsimp only; split)

theorem State.mbxStore_keeps {k₀ w : Nat} {s₀ s : State} (who : Option Nat) (c : Nat) (addr : Nat) (v : Word)
    (mask : Word) (ha : InRows w addr) (hm : Covers k₀ (0x200618a000000000000000000000040000c000000000000000000000000000000000000000000000000000000000430002 ||| w <<< 32)) (hs : Keeps k₀ s₀ s) :
    Keeps k₀ s₀ (State.mbxStore s who c addr v mask) := by
  unfold State.mbxStore
  repeat' first
    | exact hm.left.trans (by decide)
    | exact (hm.left.trans (by decide)).or hm.right
    | with_reducible first
      | assumption | intro _ | refine Keeps.of_eq (by with_reducible assumption) ?_ | apply State.copyItem_keeps
      | apply State.mbxRefuse_keeps | apply State.setReg_keeps | apply Keeps.ite
    | split | (dsimp only; split)

theorem State.mbxHdr_keeps {k₀ : Nat} {s₀ s : State} (who : Option Nat) (c : Nat) (v : Word)
    (hm : Covers k₀ 0x200618a000000000000000000000040016c000000000000000000000000000000000000000000000000000000000430022) (hs : Keeps k₀ s₀ s) :
    Keeps k₀ s₀ (State.mbxHdr s who c v) := by
  unfold State.mbxHdr
  repeat' first
    | exact hm.trans (by decide)
    | with_reducible first
      | exact MBX_CH_HDR_in | assumption | intro _ | refine Keeps.of_eq (by with_reducible assumption) ?_
      | apply State.mbxPost_keeps | apply State.mbxStore_keeps | apply Keeps.ite
    | split | (dsimp only; split)

theorem State.mbxStat_keeps {k₀ : Nat} {s₀ s : State} (who : Option Nat) (c : Nat) (v : Word)
    (hm : Covers k₀ 0x200618a000000000000000000000040000c000000000000000000000000000000000000000000000000000000000430002) (hs : Keeps k₀ s₀ s) :
    Keeps k₀ s₀ (State.mbxStat s who c v) := by
  unfold State.mbxStat
  repeat' first
    | exact hm.trans (by decide)
    | with_reducible first
      | exact MBX_CH_STAT_in | assumption | intro _ | refine Keeps.of_eq (by with_reducible assumption) ?_
      | apply State.copyItem_keeps | apply State.mbxRefuse_keeps | apply State.putFld_keeps | apply Keeps.ite
    | split | (dsimp only; split)

theorem State.mbxBind_keeps {k₀ : Nat} {s₀ s : State} (who : Option Nat) (c : Nat) (v : Word)
    (hm : Covers k₀ 0x200618a000000000000000000000040008c000000000000000000000000000000000000000000000000000000000430002) (hs : Keeps k₀ s₀ s) :
    Keeps k₀ s₀ (State.mbxBind s who c v) := by
  unfold State.mbxBind
  repeat' first
    | exact hm.trans (by decide)
    | with_reducible first
      | exact MBX_BIND_in | assumption | intro _ | refine Keeps.of_eq (by with_reducible assumption) ?_
      | apply State.copyItem_keeps | apply State.mbxRefuse_keeps | apply State.setReg_keeps | apply Keeps.ite
    | split | (dsimp only; split)

theorem State.mbxSenderRestarted_keeps {k₀ : Nat} {s₀ s : State} (c : Nat)
    (hm : Covers k₀ 0x400000000000000000000000000000000000000000000000000000000000000020022) (hs : Keeps k₀ s₀ s) :
    Keeps k₀ s₀ (State.mbxSenderRestarted s c) := by
  unfold State.mbxSenderRestarted
  repeat' first
    | exact hm.trans (by decide)
    | with_reducible first
      | exact MBX_CH_STAT_in | assumption | intro _ | refine Keeps.of_eq (by with_reducible assumption) ?_
      | apply State.copyItem_keeps | apply State.mbxLine_keeps | apply State.putFld_keeps | apply Keeps.ite
    | split | (dsimp only; split)

theorem State.mbxRedeliver_keeps {k₀ : Nat} {s₀ s : State} (c : Nat)
    (hm : Covers k₀ 0x400160000000000000000000000000000000000000000000000000000000000020022) (hs : Keeps k₀ s₀ s) :
    Keeps k₀ s₀ (State.mbxRedeliver s c) := by
  unfold State.mbxRedeliver
  repeat' first
    | exact hm.trans (by decide)
    | with_reducible first
      | exact MBX_CH_HDR_in | assumption | intro _ | refine Keeps.of_eq (by with_reducible assumption) ?_
      | apply State.putFld_keeps | apply State.setMbxState_keeps | apply Keeps.ite
    | split | (dsimp only; split)

theorem State.mbxReset_keeps {k₀ : Nat} {s₀ s : State} (i : Nat) (c : Nat)
    (hm : Covers k₀ 0x400160000000000000000000000000000000000000000000000000000000000020022) (hs : Keeps k₀ s₀ s) :
    Keeps k₀ s₀ (State.mbxReset s i c) := by
  unfold State.mbxReset
  repeat' first
    | exact hm.trans (by decide)
    | with_reducible first
      | assumption | intro _ | refine Keeps.of_eq (by with_reducible assumption) ?_ | apply State.mbxRedeliver_keeps
      | apply State.mbxSenderRestarted_keeps | apply Keeps.ite
    | split | (dsimp only; split)

theorem State.endpointReset_keeps {k₀ : Nat} {s₀ s : State} (i : Nat)
    (hm : Covers k₀ 0x400160000000000000000000000000000000000000000000000000000000000020022) (hs : Keeps k₀ s₀ s) :
    Keeps k₀ s₀ (State.endpointReset s i) := by
  unfold State.endpointReset
  repeat' first
    | exact hm.trans (by decide)
    | with_reducible first
      | assumption | intro _ | refine Keeps.of_eq (by with_reducible assumption) ?_ | apply State.forEach_keeps
      | apply State.mbxReset_keeps | apply Keeps.ite
    | split | (dsimp only; split)

theorem State.coresReset_keeps {k₀ : Nat} {s₀ s : State} (mask : Nat)
    (hm : Covers k₀ 0x400160000000000000000000000000000000000000000000000000000000000020022) (hs : Keeps k₀ s₀ s) :
    Keeps k₀ s₀ (State.coresReset s mask) := by
  unfold State.coresReset
  repeat' first
    | exact hm.trans (by decide)
    | with_reducible first
      | assumption | intro _ | refine Keeps.of_eq (by with_reducible assumption) ?_ | apply State.endpointReset_keeps
      | apply State.forEach_keeps | apply Keeps.ite
    | split | (dsimp only; split)

theorem State.mbxTakeover_keeps {k₀ : Nat} {s₀ s : State}
    (hm : Covers k₀ 0x400160000000000000000000000000000000000000000000000000000000000020022) (hs : Keeps k₀ s₀ s) :
    Keeps k₀ s₀ (State.mbxTakeover s) := by
  unfold State.mbxTakeover
  repeat' first
    | exact hm.trans (by decide)
    | with_reducible first
      | assumption | intro _ | refine Keeps.of_eq (by with_reducible assumption) ?_ | apply State.forEach_keeps
      | apply State.mbxRedeliver_keeps | apply State.mbxSenderRestarted_keeps | apply Keeps.ite
    | split | (dsimp only; split)

theorem State.mbxHostPost_keeps {k₀ : Nat} {s₀ s : State} (n : Nat) (c : Nat) (seq : Nat) (mtype : Nat)
    (words : List Word) (hm : Covers k₀ 0x200618a00000000000000000000015fff6c000000000000000000000000000000000000000000000000000000000430022) (hs : Keeps k₀ s₀ s) :
    Keeps k₀ s₀ (State.mbxHostPost s n c seq mtype words) := by
  unfold State.mbxHostPost
  repeat' first
    | exact hm.trans (by decide)
    | with_reducible first
      | exact MBX_CH_D0_in | exact MBX_HSEQ_in | exact mbxData_in | assumption | intro _
      | refine Keeps.of_eq (by with_reducible assumption) ?_ | apply State.forEach_keeps | apply State.mbxPost_keeps
      | apply State.setReg_keeps | apply Keeps.ite
    | split | (dsimp only; split)

theorem execMbxPost_keeps {k₀ : Nat} {s₀ s : State} (who : Initiator) (c : Fin 32) (len : BitVec 4) (mtype : BitVec 16)
    (hm : Covers k₀ 0x200618a000000000000000000000040016c000000000000000000000000000000000000000000000000000000000430022) (hs : Keeps k₀ s₀ s) :
    Outcome.Keeps k₀ s₀ (execMbxPost who c len mtype s) := by
  unfold execMbxPost
  repeat' first
    | exact hm.trans (by decide)
    | with_reducible first
      | assumption | intro _ | refine Keeps.of_eq (by with_reducible assumption) ?_ | apply State.mbxPost_keeps
      | apply Keeps.ite | apply Outcome.keeps_next
    | split | (dsimp only; split)

theorem execMbxTake_keeps {k₀ : Nat} {s₀ s : State} (who : Initiator) (c : Fin 32)
    (hm : Covers k₀ 0x200618a000000000000000000000040006c000000000000000000000000000000000000000000000000000000000430022) (hs : Keeps k₀ s₀ s) :
    Outcome.Keeps k₀ s₀ (execMbxTake who c s) := by
  unfold execMbxTake
  repeat' first
    | exact hm.trans (by decide)
    | with_reducible first
      | assumption | intro _ | refine Keeps.of_eq (by with_reducible assumption) ?_ | apply State.mbxTake_keeps
      | apply Keeps.ite | apply Outcome.keeps_next
    | split | (dsimp only; split)

theorem execMbxAck_keeps {k₀ : Nat} {s₀ s : State} (who : Initiator) (c : Fin 32) (rcode : BitVec 16)
    (hm : Covers k₀ 0x200618a0000000000000000000000c0006c000000000000000000000000000000000000000000000000000000000430022) (hs : Keeps k₀ s₀ s) :
    Outcome.Keeps k₀ s₀ (execMbxAck who c rcode s) := by
  unfold execMbxAck
  repeat' first
    | exact hm.trans (by decide)
    | with_reducible first
      | assumption | intro _ | refine Keeps.of_eq (by with_reducible assumption) ?_ | apply State.mbxAck_keeps
      | apply Keeps.ite | apply Outcome.keeps_next
    | split | (dsimp only; split)

theorem execMbxDone_keeps {k₀ : Nat} {s₀ s : State} (who : Initiator) (c : Fin 32)
    (hm : Covers k₀ 0x200618a000000000000000000000040006c000000000000000000000000000000000000000000000000000000000430022) (hs : Keeps k₀ s₀ s) :
    Outcome.Keeps k₀ s₀ (execMbxDone who c s) := by
  unfold execMbxDone
  repeat' first
    | exact hm.trans (by decide)
    | with_reducible first
      | assumption | intro _ | refine Keeps.of_eq (by with_reducible assumption) ?_ | apply State.mbxDone_keeps
      | apply Keeps.ite | apply Outcome.keeps_next
    | split | (dsimp only; split)

theorem execMbxWithdraw_keeps {k₀ : Nat} {s₀ s : State} (who : Initiator) (c : Fin 32)
    (hm : Covers k₀ 0x200618a000000000000000000000040006c000000000000000000000000000000000000000000000000000000000430022) (hs : Keeps k₀ s₀ s) :
    Outcome.Keeps k₀ s₀ (execMbxWithdraw who c s) := by
  unfold execMbxWithdraw
  repeat' first
    | exact hm.trans (by decide)
    | with_reducible first
      | assumption | intro _ | refine Keeps.of_eq (by with_reducible assumption) ?_ | apply State.mbxWithdraw_keeps
      | apply Keeps.ite | apply Outcome.keeps_next
    | split | (dsimp only; split)

theorem execMbxBindWrite_keeps {k₀ : Nat} {s₀ s : State} (who : Initiator) (c : Fin 32) (v : Word)
    (hm : Covers k₀ 0x200618a000000000000000000000040008c000000000000000000000000000000000000000000000000000000000430002) (hs : Keeps k₀ s₀ s) :
    Outcome.Keeps k₀ s₀ (execMbxBindWrite who c v s) := by
  unfold execMbxBindWrite
  repeat' first
    | exact hm.trans (by decide)
    | with_reducible first
      | assumption | intro _ | refine Keeps.of_eq (by with_reducible assumption) ?_ | apply State.mbxBind_keeps
      | apply Keeps.ite | apply Outcome.keeps_next
    | split | (dsimp only; split)

theorem State.mbxEprst_keeps {k₀ : Nat} {s₀ s : State} (who : Option Nat) (v : Word)
    (hm : Covers k₀ 0x200618a000000000000000000000040017c000000000000000000000000000000000000000000000000000000000430022) (hs : Keeps k₀ s₀ s) :
    Keeps k₀ s₀ (State.mbxEprst s who v) := by
  unfold State.mbxEprst
  repeat' first
    | exact hm.trans (by decide)
    | with_reducible first
      | exact MBX_DENY_in | exact MBX_EPRST_in | exact MBX_STATUS_in | assumption | intro _
      | refine Keeps.of_eq (by with_reducible assumption) ?_ | apply State.bump_keeps | apply State.coresReset_keeps
      | apply State.evRefused_keeps | apply State.flag_keeps | apply State.putFld_keeps | apply Keeps.ite
    | split | (dsimp only; split)

theorem execMbxEprst_keeps {k₀ : Nat} {s₀ s : State} (who : Initiator) (cores : BitVec 12)
    (hm : Covers k₀ 0x200618a000000000000000000000040017c000000000000000000000000000000000000000000000000000000000430022) (hs : Keeps k₀ s₀ s) :
    Outcome.Keeps k₀ s₀ (execMbxEprst who cores s) := by
  unfold execMbxEprst
  repeat' first
    | exact hm.trans (by decide)
    | with_reducible first
      | assumption | intro _ | refine Keeps.of_eq (by with_reducible assumption) ?_ | apply State.mbxEprst_keeps
      | apply Keeps.ite | apply Outcome.keeps_next
    | split | (dsimp only; split)

/-! ### Machine/Tasks.lean -/

theorem State.modLane_keeps {k₀ : Nat} {s₀ s : State} (l : Nat) (g : Lane → Lane) (hm : Covers k₀ 0x100)
    (hs : Keeps k₀ s₀ s) :
    Keeps k₀ s₀ (State.modLane s l g) := by
  unfold State.modLane
  repeat' first
    | exact hm.trans (by decide)
    | with_reducible first
      | assumption | intro _ | refine Keeps.of_eq (by with_reducible assumption) ?_ | apply Keeps.ite
    | split | (dsimp only; split) | with_reducible apply Keeps.mk_lanes

theorem State.modTriad_keeps {k₀ : Nat} {s₀ s : State} (t : Nat) (g : Triad → Triad) (hm : Covers k₀ 0x200)
    (hs : Keeps k₀ s₀ s) :
    Keeps k₀ s₀ (State.modTriad s t g) := by
  unfold State.modTriad
  repeat' first
    | exact hm.trans (by decide)
    | with_reducible first
      | assumption | intro _ | refine Keeps.of_eq (by with_reducible assumption) ?_ | apply Keeps.ite
    | split | (dsimp only; split) | with_reducible apply Keeps.mk_triads

theorem State.setEpochs_keeps {k₀ : Nat} {s₀ s : State} (n : Nat) (opn : Nat) (cls : Nat)
    (hm : Covers k₀ 0x800800000000000000002) (hs : Keeps k₀ s₀ s) :
    Keeps k₀ s₀ (State.setEpochs s n opn cls) := by
  unfold State.setEpochs
  repeat' first
    | exact hm.trans (by decide)
    | with_reducible first
      | exact ANX_EPOCH_in | exact ANY_EPOCH_in | assumption | intro _
      | refine Keeps.of_eq (by with_reducible assumption) ?_ | apply State.setReg_keeps | apply Keeps.ite
    | split | (dsimp only; split)

theorem State.advanceEpoch_keeps {k₀ : Nat} {s₀ s : State} (n : Nat) (hm : Covers k₀ 0x800800000000000000082)
    (hs : Keeps k₀ s₀ s) :
    Keeps k₀ s₀ (State.advanceEpoch s n) := by
  unfold State.advanceEpoch
  repeat' first
    | exact hm.trans (by decide)
    | with_reducible first
      | assumption | intro _ | refine Keeps.of_eq (by with_reducible assumption) ?_ | apply State.modTask_keeps
      | apply State.setEpochs_keeps | apply Keeps.ite
    | split | (dsimp only; split)

theorem State.bumpAnvils_keeps {k₀ v w : Nat} {s₀ s : State} (x : Nat) (y : Nat) (k : Nat) (hx : InRows v x) (hy : InRows w y)
    (hm : Covers k₀ (0x2 ||| v <<< 32)) (hn : Covers k₀ (0x2 ||| w <<< 32)) (hs : Keeps k₀ s₀ s) :
    Keeps k₀ s₀ (State.bumpAnvils s x y k) :=
  State.bumpBy_keeps y k hy hn (State.bumpBy_keeps x k hx hm hs)

theorem State.flagAnvils_keeps {k₀ : Nat} {s₀ s : State} (f : Field) (hm : Covers k₀ 0x2002000000000000002)
    (hs : Keeps k₀ s₀ s) :
    Keeps k₀ s₀ (State.flagAnvils s f) := by
  unfold State.flagAnvils
  repeat' first
    | exact hm.trans (by decide)
    | with_reducible first
      | exact ANX_STATUS_in | exact ANY_STATUS_in | assumption | intro _
      | refine Keeps.of_eq (by with_reducible assumption) ?_ | apply State.flag_keeps | apply Keeps.ite
    | split | (dsimp only; split)

theorem State.resetEpochs_keeps {k₀ : Nat} {s₀ s : State} (n : Nat) (hm : Covers k₀ 0x880880000000000000082)
    (hs : Keeps k₀ s₀ s) :
    Keeps k₀ s₀ (State.resetEpochs s n) := by
  unfold State.resetEpochs
  repeat' first
    | exact hm.trans (by decide)
    | with_reducible first
      | exact ANX_STALE_CNT_in | exact ANY_STALE_CNT_in | assumption | intro _
      | refine Keeps.of_eq (by with_reducible assumption) ?_ | apply State.bumpAnvils_keeps | apply State.modTask_keeps
      | apply State.setEpochs_keeps | apply Keeps.ite
    | split | (dsimp only; split)

theorem State.idleCores_keeps {k₀ : Nat} {s₀ s : State} (n : Nat) (cs : List (Fin 12)) (hm : Covers k₀ 0x20)
    (hs : Keeps k₀ s₀ s) :
    Keeps k₀ s₀ (State.idleCores s n cs) := by
  unfold State.idleCores
  repeat' first
    | exact hm.trans (by decide)
    | with_reducible first
      | assumption | intro _ | refine Keeps.of_eq (by with_reducible assumption) ?_ | apply State.forEach_keeps
      | apply State.modCore_keeps | apply Keeps.ite
    | split | (dsimp only; split)

theorem State.closeCycle_keeps {k₀ : Nat} {s₀ s : State} (n : Nat) (hm : Covers k₀ 0x8000000000000a2) (hs : Keeps k₀ s₀ s) :
    Keeps k₀ s₀ (State.closeCycle s n) := by
  unfold State.closeCycle
  repeat' first
    | exact hm.trans (by decide)
    | with_reducible first
      | exact FRM_TSTAT_in | assumption | intro _ | refine Keeps.of_eq (by with_reducible assumption) ?_
      | apply State.idleCores_keeps | apply State.modTask_keeps | apply State.putFld_keeps | apply Keeps.ite
    | split | (dsimp only; split)

theorem State.setOpenOn_keeps {k₀ : Nat} {s₀ s : State} (n : Nat) (cs : List (Fin 12))
    (hm : Covers k₀ 0x800000000000082) (hs : Keeps k₀ s₀ s) :
    Keeps k₀ s₀ (State.setOpenOn s n cs) := by
  unfold State.setOpenOn
  repeat' first
    | exact hm.trans (by decide)
    | with_reducible first
      | exact FRM_TSTAT_in | assumption | intro _ | refine Keeps.of_eq (by with_reducible assumption) ?_
      | apply State.modTask_keeps | apply State.putFld_keeps | apply Keeps.ite
    | split | (dsimp only; split)

theorem State.safeStop_keeps {k₀ : Nat} {s₀ s : State} (n : Nat)
    (hm : Covers k₀ 0x200618a0000000000000000000000000000000000000000000000000000000000001a00a8180000000080000000043009a) (hs : Keeps k₀ s₀ s) :
    Keeps k₀ s₀ (State.safeStop s n) := by
  unfold State.safeStop
  repeat' first
    | exact hm.trans (by decide)
    | with_reducible first
      | exact FRM_TSTAT_in | assumption | intro _ | refine Keeps.of_eq (by with_reducible assumption) ?_
      | apply State.flag_keeps | apply State.substitute_keeps | apply Keeps.ite
    | split | (dsimp only; split)

theorem State.overrunOutputs_keeps {k₀ : Nat} {s₀ s : State} (n : Nat) (policy : Nat)
    (hm : Covers k₀ 0x200618a0000000000000000000000000000000000000000000000000000000000001a00a8180000000080000000043009a) (hs : Keeps k₀ s₀ s) :
    Keeps k₀ s₀ (State.overrunOutputs s n policy) := by
  unfold State.overrunOutputs
  repeat' first
    | exact hm.trans (by decide)
    | with_reducible first
      | assumption | intro _ | refine Keeps.of_eq (by with_reducible assumption) ?_ | apply State.holdOutputs_keeps
      | apply State.safeStop_keeps | apply State.substitute_keeps | apply Keeps.ite
    | split | (dsimp only; split)

theorem State.faultOutputs_keeps {k₀ : Nat} {s₀ s : State} (n : Nat) (policy : Nat)
    (hm : Covers k₀ 0x200618a0000000000000000000000000000000000000000000000000000000000001a00a8180000000080000000043009a) (hs : Keeps k₀ s₀ s) :
    Keeps k₀ s₀ (State.faultOutputs s n policy) := by
  unfold State.faultOutputs
  repeat' first
    | exact hm.trans (by decide)
    | with_reducible first
      | assumption | intro _ | refine Keeps.of_eq (by with_reducible assumption) ?_ | apply State.safeStop_keeps
      | apply State.substitute_keeps | apply Keeps.ite
    | split | (dsimp only; split)

theorem State.endUnpublished_keeps {k₀ : Nat} {s₀ s : State} (n : Nat)
    (hm : Covers k₀ 0x200618a0000000000000000000000000000000000000000000000000000000000001a00a818000000008000000004300ba) (hs : Keeps k₀ s₀ s) :
    Keeps k₀ s₀ (State.endUnpublished s n) := by
  unfold State.endUnpublished
  repeat' first
    | exact hm.trans (by decide)
    | with_reducible first
      | assumption | intro _ | refine Keeps.of_eq (by with_reducible assumption) ?_ | apply State.closeCycle_keeps
      | apply State.overrunOutputs_keeps | apply Keeps.ite
    | split | (dsimp only; split)

theorem State.fullSpeed_keeps {k₀ : Nat} {s₀ s : State} (n : Nat) (hm : Covers k₀ 0x200) (hs : Keeps k₀ s₀ s) :
    Keeps k₀ s₀ (State.fullSpeed s n) := by
  unfold State.fullSpeed
  repeat' first
    | exact hm.trans (by decide)
    | with_reducible first
      | assumption | intro _ | refine Keeps.of_eq (by with_reducible assumption) ?_ | apply State.modTriad_keeps
      | apply Keeps.ite
    | split | (dsimp only; split)

theorem State.countTaskFault_keeps {k₀ : Nat} {s₀ s : State} (n : Nat) (cause : DWord) (tval : DWord) (call : Option
    (Nat × Nat)) (release : Nat) (epoch : Nat) (hm : Covers k₀ 0x200618a0000000000000000000000000000000000000000000000000000000000000000000000000000820080000410202) (hs : Keeps k₀ s₀ s) :
    Keeps k₀ s₀ (State.countTaskFault s n cause tval call release epoch) := by
  unfold State.countTaskFault
  repeat' first
    | exact hm.trans (by decide)
    | with_reducible first
      | exact FRM_FLTCNT_in | exact FRM_STATUS_in | exact FRM_TSTAT_in | assumption | intro _
      | refine Keeps.of_eq (by with_reducible assumption) ?_ | apply State.bump_keeps | apply State.event_keeps
      | apply State.flag_keeps | apply State.fullSpeed_keeps | apply Keeps.ite
    | split | (dsimp only; split)

theorem State.endFaulted_keeps {k₀ : Nat} {s₀ s : State} (n : Nat)
    (hm : Covers k₀ 0x200618a0000000000000000000000000000000000000000000000000000000000001a00a8180000000080000000043009a) (hs : Keeps k₀ s₀ s) :
    Keeps k₀ s₀ (State.endFaulted s n) := by
  unfold State.endFaulted
  repeat' first
    | exact hm.trans (by decide)
    | with_reducible first
      | exact FRM_TSTAT_in | assumption | intro _ | refine Keeps.of_eq (by with_reducible assumption) ?_
      | apply State.faultOutputs_keeps | apply State.modTask_keeps | apply State.putFld_keeps
      | apply State.setOpenOn_keeps | apply Keeps.ite
    | split | (dsimp only; split)

theorem State.beginTask_keeps {k₀ : Nat} {s₀ s : State} (n : Nat)
    (hm : Covers k₀ 0x200618a0000000000000000000000000000000000000000000000000000000000001a00a818008808808000000004300ba) (hs : Keeps k₀ s₀ s) :
    Keeps k₀ s₀ (State.beginTask s n) := by
  unfold State.beginTask
  repeat' first
    | exact hm.trans (by decide)
    | with_reducible first
      | assumption | intro _ | refine Keeps.of_eq (by with_reducible assumption) ?_ | apply State.closeCycle_keeps
      | apply State.initVoted_keeps | apply State.modTask_keeps | apply State.resetEpochs_keeps | apply Keeps.ite
    | split | (dsimp only; split)

theorem State.startTask_keeps {k₀ : Nat} {s₀ s : State} (n : Nat)
    (hm : Covers k₀ 0x200618a0000000000000000000000000000000000000000000000000000000000001a00a818008808808000000004300ba) (hs : Keeps k₀ s₀ s) :
    Keeps k₀ s₀ (State.startTask s n) := by
  unfold State.startTask
  repeat' first
    | exact hm.trans (by decide)
    | with_reducible first
      | exact FRM_TSTAT_in | assumption | intro _ | refine Keeps.of_eq (by with_reducible assumption) ?_
      | apply State.beginTask_keeps | apply State.putFld_keeps | apply Keeps.ite
    | split | (dsimp only; split)

theorem State.reloadSlices_keeps {k₀ : Nat} {s₀ s : State} (n : Nat)
    (hm : Covers k₀ 0x200618a0000000000000000000000000000000000000000000000000000000000001a00a8180000000000000000041001a) (hs : Keeps k₀ s₀ s) :
    Keeps k₀ s₀ (State.reloadSlices s n) := by
  unfold State.reloadSlices
  repeat' first
    | exact hm.trans (by decide)
    | with_reducible first
      | assumption | intro _ | refine Keeps.of_eq (by with_reducible assumption) ?_ | apply State.writeRun_keeps
      | apply Keeps.ite
    | split | (dsimp only; split)

theorem State.sendRecord_keeps {k₀ : Nat} {s₀ s : State} (c : Fin 12) (r : Record) (hm : Covers k₀ 0x400)
    (hs : Keeps k₀ s₀ s) :
    Keeps k₀ s₀ (State.sendRecord s c r) := by
  unfold State.sendRecord
  repeat' first
    | exact hm.trans (by decide)
    | with_reducible first
      | assumption | intro _ | refine Keeps.of_eq (by with_reducible assumption) ?_ | apply Keeps.ite
    | split | (dsimp only; split) | with_reducible apply Keeps.mk_anvils

theorem State.entryFault_keeps {k₀ : Nat} {s₀ s : State} (c : Fin 12) (n : Nat) (cy : Cycle) (bad : Nat)
    (hm : Covers k₀ 0x200618a0000000000000000000000000000000000000000000000000000000000001a00a818000000008000000004104a2) (hs : Keeps k₀ s₀ s) :
    Keeps k₀ s₀ (State.entryFault s c n cy bad) := by
  unfold State.entryFault
  repeat' first
    | exact hm.trans (by decide)
    | with_reducible first
      | assumption | intro _ | refine Keeps.of_eq (by with_reducible assumption) ?_ | apply State.modCore_keeps
      | apply State.modTask_keeps | apply State.reportUe_keeps | apply State.sendRecord_keeps
      | apply State.setOpenOn_keeps | apply Keeps.ite
    | split | (dsimp only; split)

theorem State.dispatch_keeps {k₀ : Nat} {s₀ s : State} (c : Fin 12)
    (hm : Covers k₀ 0x200618a0000000000000000000000000000000000000000000000000000000000001a00a818000000008000000004104a2) (hs : Keeps k₀ s₀ s) :
    Keeps k₀ s₀ (State.dispatch s c) := by
  unfold State.dispatch
  repeat' first
    | exact hm.trans (by decide)
    | with_reducible first
      | assumption | intro _ | refine Keeps.of_eq (by with_reducible assumption) ?_ | apply State.entryFault_keeps
      | apply State.modCore_keeps | apply State.modTask_keeps | apply Keeps.ite
    | split | (dsimp only; split)

theorem State.dispatchAll_keeps {k₀ : Nat} {s₀ s : State}
    (hm : Covers k₀ 0x200618a0000000000000000000000000000000000000000000000000000000000001a00a818000000008000000004104a2) (hs : Keeps k₀ s₀ s) :
    Keeps k₀ s₀ (State.dispatchAll s) := by
  unfold State.dispatchAll
  repeat' first
    | exact hm.trans (by decide)
    | with_reducible first
      | assumption | intro _ | refine Keeps.of_eq (by with_reducible assumption) ?_ | apply State.dispatch_keeps
      | apply State.forEach_keeps | apply Keeps.ite
    | split | (dsimp only; split)

theorem State.preempt_keeps {k₀ : Nat} {s₀ s : State} (c : Fin 12) (hm : Covers k₀ 0xa0) (hs : Keeps k₀ s₀ s) :
    Keeps k₀ s₀ (State.preempt s c) := by
  unfold State.preempt
  repeat' first
    | exact hm.trans (by decide)
    | with_reducible first
      | assumption | intro _ | refine Keeps.of_eq (by with_reducible assumption) ?_ | apply State.modCore_keeps
      | apply State.modTask_keeps | apply Keeps.ite
    | split | (dsimp only; split)

theorem State.showMove_keeps {k₀ : Nat} {s₀ s : State} (n : Nat) (hm : Covers k₀ 0x800000000000002) (hs : Keeps k₀ s₀ s) :
    Keeps k₀ s₀ (State.showMove s n) := by
  unfold State.showMove
  repeat' first
    | exact hm.trans (by decide)
    | with_reducible first
      | exact FRM_TSTAT_in | assumption | intro _ | refine Keeps.of_eq (by with_reducible assumption) ?_
      | apply State.putFld_keeps | apply Keeps.ite
    | split | (dsimp only; split)

/-! ### Machine/Translate.lean -/

theorem State.walked_keeps {k₀ : Nat} {s₀ s : State} (w : Walk) (va : Nat) (initiator : Nat)
    (hm : Covers k₀ 0x200618a0000000000000000000000000000000000000000000000000000000000001a00a81800000000000000000410002) (hs : Keeps k₀ s₀ s) :
    Keeps k₀ s₀ (State.walked s w va initiator).1 := by
  unfold State.walked
  repeat' first
    | exact hm.trans (by decide)
    | with_reducible first
      | exact MMU_STATUS_in | assumption | intro _ | refine Keeps.of_eq (by with_reducible assumption) ?_
      | apply State.evAccess_keeps | apply State.reportUe_keeps | apply Keeps.ite
    | split | (dsimp only; split)

theorem State.coreWalk_keeps {k₀ : Nat} {s₀ s : State} (c : Fin 12) (va : Nat)
    (hm : Covers k₀ 0x200618a0000000000000000000000000000000000000000000000000000000000001a00a81800000000000000010410022) (hs : Keeps k₀ s₀ s) :
    Keeps k₀ s₀ (State.coreWalk s c va).1 := by
  unfold State.coreWalk
  repeat' first
    | exact hm.trans (by decide)
    | with_reducible first
      | assumption | intro _ | refine Keeps.of_eq (by with_reducible assumption) ?_ | apply State.modCore_keeps
      | apply State.tickFree_keeps | apply State.walked_keeps | apply Keeps.ite
    | split | (dsimp only; split)

theorem State.translate_keeps {k₀ : Nat} {s₀ s : State} (c : Fin 12) (va : DWord)
    (hm : Covers k₀ 0x200618a0000000000000000000000000000000000000000000000000000000000001a00a81800000000000000010410022) (hs : Keeps k₀ s₀ s) :
    Keeps k₀ s₀ (State.translate s c va).1 := by
  unfold State.translate
  repeat' first
    | exact hm.trans (by decide)
    | with_reducible first
      | assumption | intro _ | refine Keeps.of_eq (by with_reducible assumption) ?_ | apply State.coreWalk_keeps
      | apply State.tickFree_keeps | apply Keeps.ite
    | split | (dsimp only; split)

theorem State.regsAccess_keeps {k₀ : Nat} {s₀ s : State} (c : Fin 12) (kind : AccessKind) (pa : Nat) (size : Nat)
    (perm : Bool) (lwsw : Bool) (hm : Covers k₀ 0x200618a0000000000000000000000000000000000000000000000000000000000000000000000000000000000000410002) (hs : Keeps k₀ s₀ s) :
    Keeps k₀ s₀ (State.regsAccess s c kind pa size perm lwsw).1 := by
  unfold State.regsAccess
  repeat' first
    | exact hm.trans (by decide)
    | with_reducible first
      | assumption | intro _ | refine Keeps.of_eq (by with_reducible assumption) ?_ | apply State.evAccess_keeps
      | apply Keeps.ite | apply HRes.Keeps.ite | apply HRes.keeps_done | apply HRes.keeps_trap | apply HRes.keeps_jump
      | apply HRes.keeps_enter | apply HRes.keeps_service
    | split | (dsimp only; split)

theorem State.dataAddr_keeps {k₀ : Nat} {s₀ s : State} (c : Fin 12) (kind : AccessKind) (va : DWord) (size : Nat)
    (lwsw : Bool) (hm : Covers k₀ 0x200618a0000000000000000000000000000000000000000000000000000000000001a00a81800000000000000010410022) (hs : Keeps k₀ s₀ s) :
    Keeps k₀ s₀ (State.dataAddr s c kind va size lwsw).1 := by
  unfold State.dataAddr
  repeat' first
    | exact hm.trans (by decide)
    | with_reducible first
      | assumption | intro _ | refine Keeps.of_eq (by with_reducible assumption) ?_ | apply State.regsAccess_keeps
      | apply State.translate_keeps | apply Keeps.ite | apply HRes.Keeps.ite | apply HRes.keeps_done
      | apply HRes.keeps_trap | apply HRes.keeps_jump | apply HRes.keeps_enter | apply HRes.keeps_service
    | split | (dsimp only; split)

theorem State.ctxWalk_keeps {k₀ : Nat} {s₀ s : State} (ctx : Nat) (va : Nat)
    (hm : Covers k₀ 0x200618a0000000000000000000000000000000000000000000000000000000000001a00a81800000000000000000418002) (hs : Keeps k₀ s₀ s) :
    Keeps k₀ s₀ (State.ctxWalk s ctx va).1 := by
  unfold State.ctxWalk
  repeat' first
    | exact hm.trans (by decide)
    | with_reducible first
      | assumption | intro _ | refine Keeps.of_eq (by with_reducible assumption) ?_ | apply State.walked_keeps
      | apply Keeps.ite
    | split | (dsimp only; split) | with_reducible apply Keeps.mk_dma

theorem State.ctxTranslate_keeps {k₀ : Nat} {s₀ s : State} (ctx : Nat) (va : Nat)
    (hm : Covers k₀ 0x200618a0000000000000000000000000000000000000000000000000000000000001a00a81800000000000000010418002) (hs : Keeps k₀ s₀ s) :
    Keeps k₀ s₀ (State.ctxTranslate s ctx va).1 := by
  unfold State.ctxTranslate
  repeat' first
    | exact hm.trans (by decide)
    | with_reducible first
      | assumption | intro _ | refine Keeps.of_eq (by with_reducible assumption) ?_ | apply State.ctxWalk_keeps
      | apply State.tickFree_keeps | apply Keeps.ite
    | split | (dsimp only; split)

theorem State.iommuInvalidate_keeps {k₀ : Nat} {s₀ s : State} (all : Bool) (ctx : Nat) (hm : Covers k₀ 0x8000)
    (hs : Keeps k₀ s₀ s) :
    Keeps k₀ s₀ (State.iommuInvalidate s all ctx) := by
  unfold State.iommuInvalidate
  repeat' first
    | exact hm.trans (by decide)
    | with_reducible first
      | assumption | intro _ | refine Keeps.of_eq (by with_reducible assumption) ?_ | apply Keeps.ite
    | split | (dsimp only; split) | with_reducible apply Keeps.mk_dma

theorem State.unitAddr_keeps {k₀ : Nat} {s₀ s : State} (ctx : Nat) (kind : AccessKind) (pa : Nat)
    (hm : Covers k₀ 0x200618a0000000000000000000000000000000000000000000000000000000000001a00a81800000000000000010418002) (hs : Keeps k₀ s₀ s) :
    Keeps k₀ s₀ (State.unitAddr s ctx kind pa).1 := by
  unfold State.unitAddr
  repeat' first
    | exact hm.trans (by decide)
    | with_reducible first
      | assumption | intro _ | refine Keeps.of_eq (by with_reducible assumption) ?_ | apply State.ctxTranslate_keeps
      | apply Keeps.ite
    | split | (dsimp only; split)

theorem State.unitWrite_keeps {k₀ : Nat} {s₀ s : State} (ctx : Nat) (pa : Nat) (bs : List Byte)
    (hm : Covers k₀ 0x200618a0000000000000000000000000000000000000000000000000000000000001a00a8180000000000000001041801a) (hs : Keeps k₀ s₀ s) :
    Keeps k₀ s₀ (State.unitWrite s ctx pa bs) := by
  unfold State.unitWrite
  repeat' first
    | exact hm.trans (by decide)
    | with_reducible first
      | assumption | intro _ | refine Keeps.of_eq (by with_reducible assumption) ?_ | apply State.forEach_keeps
      | apply State.unitAddr_keeps | apply State.writeRun_keeps | apply Keeps.ite
    | split | (dsimp only; split)

theorem State.loseLine_keeps {k₀ : Nat} {s₀ s : State} (pa : Nat) (hm : Covers k₀ 0x10000008) (hs : Keeps k₀ s₀ s) :
    Keeps k₀ s₀ (State.loseLine s pa) := by
  unfold State.loseLine
  repeat' first
    | exact hm.trans (by decide)
    | with_reducible first
      | assumption | intro _ | refine Keeps.of_eq (by with_reducible assumption) ?_ | apply State.forEach_keeps
      | apply State.tickFree_keeps | apply State.writeWord_keeps | apply Keeps.ite
    | split | (dsimp only; split)

theorem State.eccCheck_keeps {k₀ : Nat} {s₀ s : State} (pa : Nat) (ecc : Ecc)
    (hm : Covers k₀ 0x200618a0000000000000000000000000000000000000000000000000000000000001e00ff180000000000000001041001a) (hs : Keeps k₀ s₀ s) :
    Keeps k₀ s₀ (State.eccCheck s pa ecc).1 := by
  unfold State.eccCheck
  repeat' first
    | exact hm.trans (by decide)
    | with_reducible first
      | exact MMU_L2_CE_in | assumption | intro _ | refine Keeps.of_eq (by with_reducible assumption) ?_
      | apply State.bump_keeps | apply State.countCe_keeps | apply State.loseLine_keeps | apply State.markUe_keeps
      | apply State.reportL2Ue_keeps | apply State.reportUe_keeps | apply Keeps.ite
    | split | (dsimp only; split)

theorem State.memCheck_keeps {k₀ : Nat} {s₀ s : State} (c : Fin 12) (pa : Nat) (l1 : Parity) (ecc : Ecc)
    (hm : Covers k₀ 0x200618a0000000000000000000000000000000000000000000000000000000000001e00ff190000000000000001041001a) (hs : Keeps k₀ s₀ s) :
    Keeps k₀ s₀ (State.memCheck s c pa l1 ecc).1 := by
  unfold State.memCheck
  repeat' first
    | exact hm.trans (by decide)
    | with_reducible first
      | exact LANE_L1ERR_in | assumption | intro _ | refine Keeps.of_eq (by with_reducible assumption) ?_
      | apply State.bump_keeps | apply State.bumpBy_keeps | apply State.eccCheck_keeps | apply Keeps.ite
    | split | (dsimp only; split)

theorem State.flushTasks_keeps {k₀ : Nat} {s₀ s : State} (ns : List Nat) (hm : Covers k₀ 0x20) (hs : Keeps k₀ s₀ s) :
    Keeps k₀ s₀ (State.flushTasks s ns) := by
  unfold State.flushTasks
  repeat' first
    | exact hm.trans (by decide)
    | with_reducible first
      | assumption | intro _ | refine Keeps.of_eq (by with_reducible assumption) ?_ | apply State.forEach_keeps
      | apply State.modCore_keeps | apply Keeps.ite
    | split | (dsimp only; split)

/-! ### Machine/Lanes.lean -/

theorem State.refreshOdd_keeps {k₀ : Nat} {s₀ s : State} (hm : Covers k₀ 0x10000000000000000000002) (hs : Keeps k₀ s₀ s) :
    Keeps k₀ s₀ (State.refreshOdd s) := by
  unfold State.refreshOdd
  repeat' first
    | exact hm.trans (by decide)
    | with_reducible first
      | exact LANE_TRIAD_in | assumption | intro _ | refine Keeps.of_eq (by with_reducible assumption) ?_
      | apply State.forEach_keeps | apply State.putFld_keeps | apply Keeps.ite
    | split | (dsimp only; split)

theorem State.setLaneState_keeps {k₀ : Nat} {s₀ s : State} (l : Nat) (st : Nat)
    (hm : Covers k₀ 0x20000000000000000000000000000000000000000000000000000000000000000000000000030000000000000000400002) (hs : Keeps k₀ s₀ s) :
    Keeps k₀ s₀ (State.setLaneState s l st) := by
  unfold State.setLaneState
  repeat' first
    | exact hm.trans (by decide)
    | with_reducible first
      | exact LANE_LSTATE_in | assumption | intro _ | refine Keeps.of_eq (by with_reducible assumption) ?_
      | apply State.putFld_keeps | apply State.refreshOdd_keeps | apply State.trialFault_keeps | apply State.when_keeps
      | apply Keeps.ite
    | split | (dsimp only; split)

theorem State.setTriad_keeps {k₀ : Nat} {s₀ s : State} (t : Nat) (mode : Nat) (odd : Nat)
    (hm : Covers k₀ 0x10000000000000000000002) (hs : Keeps k₀ s₀ s) :
    Keeps k₀ s₀ (State.setTriad s t mode odd) := by
  unfold State.setTriad
  repeat' first
    | exact hm.trans (by decide)
    | with_reducible first
      | exact LANE_TRIAD_in | assumption | intro _ | refine Keeps.of_eq (by with_reducible assumption) ?_
      | apply State.putFld_keeps | apply State.refreshOdd_keeps | apply Keeps.ite
    | split | (dsimp only; split)

theorem State.setTriadState_keeps {k₀ : Nat} {s₀ s : State} (t : Nat) (v : Nat)
    (hm : Covers k₀ 0x10000000000000000000002) (hs : Keeps k₀ s₀ s) :
    Keeps k₀ s₀ (State.setTriadState s t v) := by
  unfold State.setTriadState
  repeat' first
    | exact hm.trans (by decide)
    | with_reducible first
      | exact LANE_TRIAD_in | assumption | intro _ | refine Keeps.of_eq (by with_reducible assumption) ?_
      | apply State.putFld_keeps | apply Keeps.ite
    | split | (dsimp only; split)

theorem State.advanceTriad_keeps {k₀ : Nat} {s₀ s : State} (t : Nat) (hm : Covers k₀ 0x800800000000000000082)
    (hs : Keeps k₀ s₀ s) :
    Keeps k₀ s₀ (State.advanceTriad s t) := by
  unfold State.advanceTriad
  repeat' first
    | exact hm.trans (by decide)
    | with_reducible first
      | assumption | intro _ | refine Keeps.of_eq (by with_reducible assumption) ?_ | apply State.advanceEpoch_keeps
      | apply State.forEach_keeps | apply Keeps.ite
    | split | (dsimp only; split)

theorem State.modeRequest_keeps {k₀ : Nat} {s₀ s : State} (t : Nat)
    (hm : Covers k₀ 0x200618a0000000000000000000000000000000000000000000000000000000000000000000018000000000000000410202) (hs : Keeps k₀ s₀ s) :
    Keeps k₀ s₀ (State.modeRequest s t) := by
  unfold State.modeRequest
  repeat' first
    | exact hm.trans (by decide)
    | with_reducible first
      | exact LANE_MODE_in | assumption | intro _ | refine Keeps.of_eq (by with_reducible assumption) ?_
      | apply State.evRefused_keeps | apply State.flag_keeps | apply State.modTriad_keeps | apply State.putFld_keeps
      | apply State.setTriadState_keeps | apply Keeps.ite
    | split | (dsimp only; split)

theorem State.refuseByFence_keeps {k₀ : Nat} {s₀ s : State} (t : Nat) (hm : Covers k₀ 0x18000000000000000000202)
    (hs : Keeps k₀ s₀ s) :
    Keeps k₀ s₀ (State.refuseByFence s t) := by
  unfold State.refuseByFence
  repeat' first
    | exact hm.trans (by decide)
    | with_reducible first
      | exact LANE_MODE_in | assumption | intro _ | refine Keeps.of_eq (by with_reducible assumption) ?_
      | apply State.modTriad_keeps | apply State.putFld_keeps | apply State.setTriadState_keeps | apply Keeps.ite
    | split | (dsimp only; split)

theorem State.stopLane_keeps {k₀ : Nat} {s₀ s : State} (l : Nat) (hm : Covers k₀ 0x8000000000000a2) (hs : Keeps k₀ s₀ s) :
    Keeps k₀ s₀ (State.stopLane s l) := by
  unfold State.stopLane
  repeat' first
    | exact hm.trans (by decide)
    | with_reducible first
      | assumption | intro _ | refine Keeps.of_eq (by with_reducible assumption) ?_ | apply State.forEach_keeps
      | apply State.modCore_keeps | apply State.modTask_keeps | apply State.setOpenOn_keeps | apply Keeps.ite
    | split | (dsimp only; split)

theorem State.fenceTriad_keeps {k₀ : Nat} {s₀ s : State} (l : Nat) (t : Nat) (hm : Covers k₀ 0x18000000000000000000302)
    (hs : Keeps k₀ s₀ s) :
    Keeps k₀ s₀ (State.fenceTriad s l t) := by
  unfold State.fenceTriad
  repeat' first
    | exact hm.trans (by decide)
    | with_reducible first
      | assumption | intro _ | refine Keeps.of_eq (by with_reducible assumption) ?_ | apply State.modLane_keeps
      | apply State.modTriad_keeps | apply State.refuseByFence_keeps | apply State.setTriad_keeps | apply Keeps.ite
    | split | (dsimp only; split)

theorem State.cancelSwitch_keeps {k₀ : Nat} {s₀ s : State} (reason : Nat)
    (hm : Covers k₀ 0x200618a0000000000000000000000000000000000000000000000000000000000000000000000000000000010000412002) (hs : Keeps k₀ s₀ s) :
    Keeps k₀ s₀ (State.cancelSwitch s reason) := by
  unfold State.cancelSwitch
  repeat' first
    | exact hm.trans (by decide)
    | with_reducible first
      | exact SYS_CHG_in | assumption | intro _ | refine Keeps.of_eq (by with_reducible assumption) ?_
      | apply State.evState_keeps | apply State.putFld_keeps | apply State.setChange_keeps | apply Keeps.ite
    | split | (dsimp only; split)

theorem State.fenceLane_keeps {k₀ : Nat} {s₀ s : State} (l : Nat) (cause : Nat) (task : Nat)
    (hm : Covers k₀ 0x200618a0000000000000000000000400160000000000000000000000000000000001a00a8183a0000008000100004323ba) (hs : Keeps k₀ s₀ s) :
    Keeps k₀ s₀ (State.fenceLane s l cause task) := by
  unfold State.fenceLane
  repeat' first
    | exact hm.trans (by decide)
    | with_reducible first
      | exact LANE_LSTATE_in | exact LANE_STATUS_in | assumption | intro _
      | refine Keeps.of_eq (by with_reducible assumption) ?_ | apply State.cancelSwitch_keeps
      | apply State.endUnpublished_keeps | apply State.endpointReset_keeps | apply State.event_keeps
      | apply State.fenceTriad_keeps | apply State.flag_keeps | apply State.forEach_keeps | apply State.irq_keeps
      | apply State.modLane_keeps | apply State.putFld_keeps | apply State.refreshOdd_keeps
      | apply State.setLaneState_keeps | apply State.stopLane_keeps | apply State.when_keeps | apply Keeps.ite
    | split | (dsimp only; split)

theorem State.requestTakeover_keeps {k₀ : Nat} {s₀ s : State} (hm : Covers k₀ 0x8020000) (hs : Keeps k₀ s₀ s) :
    Keeps k₀ s₀ (State.requestTakeover s) := by
  unfold State.requestTakeover
  repeat' first
    | exact hm.trans (by decide)
    | with_reducible first
      | assumption | intro _ | refine Keeps.of_eq (by with_reducible assumption) ?_ | apply State.send_keeps
      | apply Keeps.ite
    | split | (dsimp only; split) | with_reducible apply Keeps.mk_cpl

theorem State.safeFailure_keeps {k₀ : Nat} {s₀ s : State} (ls : List Nat) (task : Nat)
    (hm : Covers k₀ 0x200618a000000000000000c000000400160000000000000000000000000000000001a00a8183a0000008000100084f23ba) (hs : Keeps k₀ s₀ s) :
    Keeps k₀ s₀ (State.safeFailure s ls task) := by
  unfold State.safeFailure
  repeat' first
    | exact hm.trans (by decide)
    | with_reducible first
      | exact LANE_STATUS_in | assumption | intro _ | refine Keeps.of_eq (by with_reducible assumption) ?_
      | apply State.closeCycle_keeps | apply State.fenceLane_keeps | apply State.flag_keeps | apply State.forEach_keeps
      | apply State.loopsDrive_keeps | apply State.requestTakeover_keeps | apply State.safeOutputsOff_keeps
      | apply State.safeStop_keeps | apply Keeps.ite
    | split | (dsimp only; split)

theorem State.fence_keeps {k₀ : Nat} {s₀ s : State} (l : Nat) (cause : Nat) (task : Nat)
    (hm : Covers k₀ 0x200618a000000000000000c000000400160000000000000000000000000000000001a00a8183a0000008000100084f23ba) (hs : Keeps k₀ s₀ s) :
    Keeps k₀ s₀ (State.fence s l cause task) := by
  unfold State.fence
  repeat' first
    | exact hm.trans (by decide)
    | with_reducible first
      | assumption | intro _ | refine Keeps.of_eq (by with_reducible assumption) ?_ | apply State.fenceLane_keeps
      | apply State.safeFailure_keeps | apply Keeps.ite
    | split | (dsimp only; split)

theorem State.fenceOdd_keeps {k₀ : Nat} {s₀ s : State} (l : Nat) (cause : Nat) (task : Nat)
    (hm : Covers k₀ 0x200618a000000000000000c000000400160000000000000000000000000000000001a00a8183a0000008000100084f27ba) (hs : Keeps k₀ s₀ s) :
    Keeps k₀ s₀ (State.fenceOdd s l cause task) := by
  unfold State.fenceOdd
  repeat' first
    | exact hm.trans (by decide)
    | with_reducible first
      | assumption | intro _ | refine Keeps.of_eq (by with_reducible assumption) ?_ | apply State.fenceLane_keeps
      | apply State.safeFailure_keeps | apply Keeps.ite
    | split | (dsimp only; split) | with_reducible apply Keeps.mk_anvils

theorem State.coreFault_keeps {k₀ : Nat} {s₀ s : State} (c : Fin 12)
    (hm : Covers k₀ 0x200618a000000000000000c000000400160000000000000000000000000000000001a00a81a3a0000008000100084f23ba) (hs : Keeps k₀ s₀ s) :
    Keeps k₀ s₀ (State.coreFault s c) := by
  unfold State.coreFault
  repeat' first
    | exact hm.trans (by decide)
    | with_reducible first
      | exact LANE_CFAULT_in | assumption | intro _ | refine Keeps.of_eq (by with_reducible assumption) ?_
      | apply State.fence_keeps | apply State.irq_keeps | apply State.setBit_keeps | apply Keeps.ite
    | split | (dsimp only; split)

theorem State.commandQuench_keeps {k₀ : Nat} {s₀ s : State}
    (hm : Covers k₀ 0x200618a000000000000000c000000400160000000000000000000000000000000001a00a818ba0000008000100084f23ba) (hs : Keeps k₀ s₀ s) :
    Keeps k₀ s₀ (State.commandQuench s) := by
  unfold State.commandQuench
  repeat' first
    | exact hm.trans (by decide)
    | with_reducible first
      | exact LANE_LSTATE_in | exact LANE_QUENCH_in | assumption | intro _
      | refine Keeps.of_eq (by with_reducible assumption) ?_ | apply State.evRefused_keeps | apply State.fence_keeps
      | apply State.putFld_keeps | apply Keeps.ite
    | split | (dsimp only; split)

theorem State.wakeLane_keeps {k₀ : Nat} {s₀ s : State} (l : Nat) (hm : Covers k₀ 0x20) (hs : Keeps k₀ s₀ s) :
    Keeps k₀ s₀ (State.wakeLane s l) := by
  unfold State.wakeLane
  repeat' first
    | exact hm.trans (by decide)
    | with_reducible first
      | assumption | intro _ | refine Keeps.of_eq (by with_reducible assumption) ?_ | apply State.forEach_keeps
      | apply State.modCore_keeps | apply Keeps.ite
    | split | (dsimp only; split)

theorem State.quenchEnd_keeps {k₀ : Nat} {s₀ s : State} (l : Nat) (pass : Bool)
    (hm : Covers k₀ 0x200618a0000000000000000000000000000000000000000000000000000000000000000000072000000000000000410122) (hs : Keeps k₀ s₀ s) :
    Keeps k₀ s₀ (State.quenchEnd s l pass) := by
  unfold State.quenchEnd
  repeat' first
    | exact hm.trans (by decide)
    | with_reducible first
      | exact LANE_LSTATE_in | exact LANE_STATUS_in | exact LANE_TRANS_in | assumption | intro _
      | refine Keeps.of_eq (by with_reducible assumption) ?_ | apply State.bump_keeps | apply State.event_keeps
      | apply State.flag_keeps | apply State.irq_keeps | apply State.modLane_keeps | apply State.putFld_keeps
      | apply State.setLaneState_keeps | apply State.wakeLane_keeps | apply Keeps.ite
    | split | (dsimp only; split)

theorem State.copyLine_keeps {k₀ : Nat} {s₀ s : State} (srcs : List Nat) (dst : List Nat)
    (hm : Covers k₀ 0x200618a0000000000000000000000000000000000000000000000000000000000001a00a8180000000000000000041001a) (hs : Keeps k₀ s₀ s) :
    Keeps k₀ s₀ (State.copyLine s srcs dst).1 := by
  fun_induction State.copyLine s srcs dst
  all_goals
    repeat' first
      | exact hm.trans (by decide)
      | with_reducible first
        | assumption | intro _ | refine (‹Keeps _ _ _ → _› ?_) | refine Keeps.of_eq (by with_reducible assumption) ?_
        | apply State.evState_keeps | apply State.forEach_keeps | apply State.reportUe_keeps | apply State.writeRun_keeps
        | apply Keeps.ite
      | split | (dsimp only; split)

theorem State.copyLines_keeps {k₀ : Nat} {s₀ s : State} (base : Nat → Nat) (srcs : List Nat) (dst : List Nat)
    (y0 : List Nat) (hm : Covers k₀ 0x200618a0000000000000000000000000000000000000000000000000000000000001a00a8180000000000000000041001a) (hs : Keeps k₀ s₀ s) :
    Keeps k₀ s₀ (State.copyLines s base srcs dst y0).1 := by
  fun_induction State.copyLines s base srcs dst y0
  all_goals
    repeat' first
      | exact hm.trans (by decide)
      | with_reducible first
        | assumption | intro _ | refine (‹Keeps _ _ _ → _› ?_) | refine Keeps.of_eq (by with_reducible assumption) ?_
        | apply State.copyLine_keeps | apply Keeps.ite
      | split | (dsimp only; split)

theorem State.copyTasks_keeps {k₀ : Nat} {s₀ s : State} (srcs : List Nat) (dst : List Nat) (y0 : List Nat)
    (hm : Covers k₀ 0x200618a0000000000000000000000000000000000000000000000000000000000001a00a8180000000000000000041001a) (hs : Keeps k₀ s₀ s) :
    Keeps k₀ s₀ (State.copyTasks s srcs dst y0).1 := by
  fun_induction State.copyTasks s srcs dst y0
  all_goals
    repeat' first
      | exact hm.trans (by decide)
      | with_reducible first
        | assumption | intro _ | refine (‹Keeps _ _ _ → _› ?_) | refine Keeps.of_eq (by with_reducible assumption) ?_
        | apply State.copyLines_keeps | apply Keeps.ite
      | split | (dsimp only; split)

theorem State.rejoinCopied_keeps {k₀ : Nat} {s₀ s : State} (l : Nat) (t : Nat)
    (hm : Covers k₀ 0x200618a0000000000000000000000000000000000000000000000000000000000001a00a8180000000000000000041031a) (hs : Keeps k₀ s₀ s) :
    Keeps k₀ s₀ (State.rejoinCopied s l t) := by
  unfold State.rejoinCopied
  repeat' first
    | exact hm.trans (by decide)
    | with_reducible first
      | assumption | intro _ | refine Keeps.of_eq (by with_reducible assumption) ?_ | apply State.copyTasks_keeps
      | apply State.evState_keeps | apply State.modLane_keeps | apply State.modTriad_keeps | apply Keeps.ite
    | split | (dsimp only; split)

theorem State.switchTriad_keeps {k₀ : Nat} {s₀ s : State} (t : Nat) (mode : Nat) (odd : Nat)
    (hm : Covers k₀ 0x10800800000000000000082) (hs : Keeps k₀ s₀ s) :
    Keeps k₀ s₀ (State.switchTriad s t mode odd) := by
  unfold State.switchTriad
  repeat' first
    | exact hm.trans (by decide)
    | with_reducible first
      | assumption | intro _ | refine Keeps.of_eq (by with_reducible assumption) ?_ | apply State.advanceTriad_keeps
      | apply State.setTriad_keeps | apply State.setTriadState_keeps | apply Keeps.ite
    | split | (dsimp only; split)

theorem State.laneEpochs_keeps {k₀ : Nat} {s₀ s : State} (hm : Covers k₀ 0x800800000000000000282) (hs : Keeps k₀ s₀ s) :
    Keeps k₀ s₀ (State.laneEpochs s) := by
  unfold State.laneEpochs
  repeat' first
    | exact hm.trans (by decide)
    | with_reducible first
      | assumption | intro _ | refine Keeps.of_eq (by with_reducible assumption) ?_ | apply State.advanceTriad_keeps
      | apply State.forEach_keeps | apply State.modTriad_keeps | apply Keeps.ite
    | split | (dsimp only; split)

theorem State.rejoinTriad_keeps {k₀ : Nat} {s₀ s : State} (l : Nat) (t : Nat) (hm : Covers k₀ 0x10800800000000000000182)
    (hs : Keeps k₀ s₀ s) :
    Keeps k₀ s₀ (State.rejoinTriad s l t) := by
  unfold State.rejoinTriad
  repeat' first
    | exact hm.trans (by decide)
    | with_reducible first
      | assumption | intro _ | refine Keeps.of_eq (by with_reducible assumption) ?_ | apply State.modLane_keeps
      | apply State.switchTriad_keeps | apply Keeps.ite
    | split | (dsimp only; split)

theorem State.rejoinLane_keeps {k₀ : Nat} {s₀ s : State} (l : Nat)
    (hm : Covers k₀ 0x200000000000000000000000000000000000000000000000000000000000000000000000000328008000000000004001a2) (hs : Keeps k₀ s₀ s) :
    Keeps k₀ s₀ (State.rejoinLane s l) := by
  unfold State.rejoinLane
  repeat' first
    | exact hm.trans (by decide)
    | with_reducible first
      | exact LANE_STATUS_in | assumption | intro _ | refine Keeps.of_eq (by with_reducible assumption) ?_
      | apply State.flag_keeps | apply State.flushTasks_keeps | apply State.forEach_keeps | apply State.irq_keeps
      | apply State.modLane_keeps | apply State.rejoinTriad_keeps | apply State.setLaneState_keeps | apply Keeps.ite
    | split | (dsimp only; split)

theorem State.handOver_keeps {k₀ : Nat} {s₀ s : State} (t : Nat) (hm : Covers k₀ 0x1a8008000000000000002a2)
    (hs : Keeps k₀ s₀ s) :
    Keeps k₀ s₀ (State.handOver s t) := by
  unfold State.handOver
  repeat' first
    | exact hm.trans (by decide)
    | with_reducible first
      | exact LANE_MODE_in | exact LANE_STATUS_in | assumption | intro _
      | refine Keeps.of_eq (by with_reducible assumption) ?_ | apply State.flag_keeps | apply State.irq_keeps
      | apply State.modTriad_keeps | apply State.putFld_keeps | apply State.setTriadState_keeps
      | apply State.switchTriad_keeps | apply Keeps.ite
    | split | (dsimp only; split)

theorem State.copiesLapse_keeps {k₀ : Nat} {s₀ s : State} (hm : Covers k₀ 0x380) (hs : Keeps k₀ s₀ s) :
    Keeps k₀ s₀ (State.copiesLapse s) := by
  unfold State.copiesLapse
  repeat' first
    | exact hm.trans (by decide)
    | with_reducible first
      | assumption | intro _ | refine Keeps.of_eq (by with_reducible assumption) ?_ | apply State.forEach_keeps
      | apply State.modLane_keeps | apply State.modTask_keeps | apply State.modTriad_keeps | apply Keeps.ite
    | split | (dsimp only; split)

theorem State.laneTick_keeps {k₀ : Nat} {s₀ s : State}
    (hm : Covers k₀ 0x2000000000000000000000000000000000000000000000000000000000000000000000000003a8008000000000004003a2) (hs : Keeps k₀ s₀ s) :
    Keeps k₀ s₀ (State.laneTick s) := by
  unfold State.laneTick
  repeat' first
    | exact hm.trans (by decide)
    | with_reducible first
      | assumption | intro _ | refine Keeps.of_eq (by with_reducible assumption) ?_ | apply State.copiesLapse_keeps
      | apply State.forEach_keeps | apply State.handOver_keeps | apply State.laneEpochs_keeps
      | apply State.rejoinLane_keeps | apply Keeps.ite
    | split | (dsimp only; split)

/-! ### Machine/Mapping.lean -/

theorem State.buildTables_keeps {k₀ : Nat} {s₀ s : State} (tp : TaskProg) (bank : Nat) (lane : Nat) (hm : Covers k₀ 0x8)
    (hs : Keeps k₀ s₀ s) :
    Keeps k₀ s₀ (State.buildTables s tp bank lane) := by
  unfold State.buildTables
  repeat' first
    | exact hm.trans (by decide)
    | with_reducible first
      | assumption | intro _ | refine Keeps.of_eq (by with_reducible assumption) ?_ | apply State.forEach_keeps
      | apply State.writeWord_keeps | apply Keeps.ite
    | split | (dsimp only; split)

theorem State.loadTask_keeps {k₀ : Nat} {s₀ s : State} (n : Nat)
    (hm : Covers k₀ 0x200618a0000000000000000000000000000000000000000000000000000000000001a00a8180000000000000000041003a) (hs : Keeps k₀ s₀ s) :
    Keeps k₀ s₀ (State.loadTask s n) := by
  unfold State.loadTask
  repeat' first
    | exact hm.trans (by decide)
    | with_reducible first
      | assumption | intro _ | refine Keeps.of_eq (by with_reducible assumption) ?_ | apply State.buildTables_keeps
      | apply State.flushTasks_keeps | apply State.forEach_keeps | apply State.writeRun_keeps | apply Keeps.ite
    | split | (dsimp only; split)

theorem State.writeProgram_keeps {k₀ : Nat} {s₀ s : State} (p : Program) (bank : Nat) (hm : Covers k₀ 0x8)
    (hs : Keeps k₀ s₀ s) :
    Keeps k₀ s₀ (State.writeProgram s p bank) := by
  unfold State.writeProgram
  repeat' first
    | exact hm.trans (by decide)
    | with_reducible first
      | assumption | intro _ | refine Keeps.of_eq (by with_reducible assumption) ?_ | apply State.forEach_keeps
      | apply State.writeByte_keeps | apply Keeps.ite
    | split | (dsimp only; split)

/-! ### Machine/Anvil.lean -/

theorem State.showVerdict_keeps {k₀ : Nat} {s₀ s : State} (v : Nat) (f : Field) (hm : Covers k₀ 0x142142000000000000022)
    (hs : Keeps k₀ s₀ s) :
    Keeps k₀ s₀ (State.showVerdict s v f) := by
  unfold State.showVerdict
  repeat' first
    | exact hm.trans (by decide)
    | with_reducible first
      | exact ANX_LASTMIS_in | exact ANX_MISCNT_in | exact ANY_LASTMIS_in | exact ANY_MISCNT_in | assumption | intro _
      | refine Keeps.of_eq (by with_reducible assumption) ?_ | apply State.bumpAnvils_keeps
      | apply State.flagAnvils_keeps | apply State.irq_keeps | apply State.setReg_keeps | apply Keeps.ite
    | split | (dsimp only; split)

theorem State.stale_keeps {k₀ : Nat} {s₀ s : State} (flagged : Bool) (hm : Covers k₀ 0x82082000000000000002)
    (hs : Keeps k₀ s₀ s) :
    Keeps k₀ s₀ (State.stale s flagged) := by
  unfold State.stale
  repeat' first
    | exact hm.trans (by decide)
    | with_reducible first
      | exact ANX_STALE_CNT_in | exact ANY_STALE_CNT_in | assumption | intro _
      | refine Keeps.of_eq (by with_reducible assumption) ?_ | apply State.bumpAnvils_keeps
      | apply State.flagAnvils_keeps | apply Keeps.ite
    | split | (dsimp only; split)

theorem State.emitTevents_keeps {k₀ : Nat} {s₀ s : State} (n : Nat) (lane : Nat)
    (hm : Covers k₀ 0x200618a0000000000000000000000000000000000000000000000000000000000000000000000000000000000000410082) (hs : Keeps k₀ s₀ s) :
    Keeps k₀ s₀ (State.emitTevents s n lane) := by
  unfold State.emitTevents
  repeat' first
    | exact hm.trans (by decide)
    | with_reducible first
      | assumption | intro _ | refine Keeps.of_eq (by with_reducible assumption) ?_ | apply State.event_keeps
      | apply State.forEach_keeps | apply State.modTask_keeps | apply Keeps.ite
    | split | (dsimp only; split)

theorem State.publish_keeps {k₀ : Nat} {s₀ s : State} (n : Nat) (release : Nat) (image : List Byte)
    (hm : Covers k₀ 0x200618a0000000000000000000000000000000000000000000000000000000000001a00a8180000000080000000043009a) (hs : Keeps k₀ s₀ s) :
    Keeps k₀ s₀ (State.publish s n release image).1 := by
  unfold State.publish
  repeat' first
    | exact hm.trans (by decide)
    | with_reducible first
      | exact FRM_TSTAT_in | assumption | intro _ | refine Keeps.of_eq (by with_reducible assumption) ?_
      | apply State.modTask_keeps | apply State.publishImage_keeps | apply State.putFld_keeps
      | apply State.setOpenOn_keeps | apply Keeps.ite
    | split | (dsimp only; split)

theorem State.stopStd_keeps {k₀ : Nat} {s₀ s : State}
    (hm : Covers k₀ 0x200618a0000000000000000000000000000000000000000000000000000000000001a00a818000000008000000004300ba) (hs : Keeps k₀ s₀ s) :
    Keeps k₀ s₀ (State.stopStd s) := by
  unfold State.stopStd
  repeat' first
    | exact hm.trans (by decide)
    | with_reducible first
      | assumption | intro _ | refine Keeps.of_eq (by with_reducible assumption) ?_ | apply State.closeCycle_keeps
      | apply State.forEach_keeps | apply State.overrunOutputs_keeps | apply Keeps.ite
    | split | (dsimp only; split)

theorem State.comparatorFault_keeps {k₀ : Nat} {s₀ s : State}
    (hm : Covers k₀ 0x200618a000000000000000c000000400160000000000000000000000000000000001a00a8183a0020028000100084f23ba) (hs : Keeps k₀ s₀ s) :
    Keeps k₀ s₀ (State.comparatorFault s) := by
  unfold State.comparatorFault
  repeat' first
    | exact hm.trans (by decide)
    | with_reducible first
      | exact ANX_STATUS_in | assumption | intro _ | refine Keeps.of_eq (by with_reducible assumption) ?_
      | apply State.event_keeps | apply State.flagAnvils_keeps | apply State.irq_keeps | apply State.safeFailure_keeps
      | apply State.stopStd_keeps | apply Keeps.ite
    | split | (dsimp only; split)

theorem State.decideVote_keeps {k₀ : Nat} {s₀ s : State} (n : Nat) (v : Vote) (a : Record) (b : Record) (old : Bool)
    (hm : Covers k₀ 0x200618a0000000000000000000000000000000000000000000000000000000000001a00a8180000000082008000043029a) (hs : Keeps k₀ s₀ s) :
    Keeps k₀ s₀ (State.decideVote s n v a b old).1 := by
  unfold State.decideVote
  repeat' first
    | exact hm.trans (by decide)
    | with_reducible first
      | assumption | intro _ | refine Keeps.of_eq (by with_reducible assumption) ?_ | apply State.countTaskFault_keeps
      | apply State.endFaulted_keeps | apply State.publish_keeps | apply Keeps.ite
    | split | (dsimp only; split)

theorem State.setVote_keeps {k₀ : Nat} {s₀ s : State} (n : Nat) (old : Bool) (v : Vote) (hm : Covers k₀ 0x80)
    (hs : Keeps k₀ s₀ s) :
    Keeps k₀ s₀ (State.setVote s n old v) := by
  unfold State.setVote
  repeat' first
    | exact hm.trans (by decide)
    | with_reducible first
      | assumption | intro _ | refine Keeps.of_eq (by with_reducible assumption) ?_ | apply State.modTask_keeps
      | apply Keeps.ite
    | split | (dsimp only; split)

theorem State.endVote_keeps {k₀ : Nat} {s₀ s : State} (n : Nat) (old : Bool) (v : Vote)
    (hm : Covers k₀ 0x200618a0000000000000000000000000000000000000000000000000000000000000000000000000000000000000410082) (hs : Keeps k₀ s₀ s) :
    Keeps k₀ s₀ (State.endVote s n old v) := by
  unfold State.endVote
  repeat' first
    | exact hm.trans (by decide)
    | with_reducible first
      | assumption | intro _ | refine Keeps.of_eq (by with_reducible assumption) ?_ | apply State.emitTevents_keeps
      | apply State.setVote_keeps | apply Keeps.ite
    | split | (dsimp only; split)

theorem State.oddVerdict_keeps {k₀ : Nat} {s₀ s : State} (n : Nat) (lane : Nat) (kind : Nat) (pos : Nat)
    (missing : Bool) (hm : Covers k₀ 0x200618a000000000000000c000000400160000000000000000000000000000000001a00a8183a1421428000100084f27ba) (hs : Keeps k₀ s₀ s) :
    Keeps k₀ s₀ (State.oddVerdict s n lane kind pos missing) := by
  unfold State.oddVerdict
  repeat' first
    | exact hm.trans (by decide)
    | with_reducible first
      | exact ANX_STATUS_in | assumption | intro _ | refine Keeps.of_eq (by with_reducible assumption) ?_
      | apply State.event_keeps | apply State.fenceOdd_keeps | apply State.showVerdict_keeps | apply Keeps.ite
    | split | (dsimp only; split)

theorem State.noMajority_keeps {k₀ : Nat} {s₀ s : State} (n : Nat) (pos : Nat) (pair : Bool) (voters : List Nat)
    (hm : Covers k₀ 0x200618a000000000000000c000000400160000000000000000000000000000000001a00a8183a1421428000100084f23ba) (hs : Keeps k₀ s₀ s) :
    Keeps k₀ s₀ (State.noMajority s n pos pair voters) := by
  unfold State.noMajority
  repeat' first
    | exact hm.trans (by decide)
    | with_reducible first
      | exact ANX_STATUS_in | assumption | intro _ | refine Keeps.of_eq (by with_reducible assumption) ?_
      | apply State.event_keeps | apply State.safeFailure_keeps | apply State.showVerdict_keeps | apply Keeps.ite
    | split | (dsimp only; split)

theorem State.evalVote_keeps {k₀ : Nat} {s₀ s : State} (n : Nat) (old : Bool) (final : Bool)
    (hm : Covers k₀ 0x200618a000000000000000c000000400160000000000000000000000000000000001a00a8183a1421428200900084f27ba) (hs : Keeps k₀ s₀ s) :
    Keeps k₀ s₀ (State.evalVote s n old final) := by
  unfold State.evalVote
  repeat' first
    | exact hm.trans (by decide)
    | with_reducible first
      | assumption | intro _ | refine Keeps.of_eq (by with_reducible assumption) ?_ | apply State.comparatorFault_keeps
      | apply State.decideVote_keeps | apply State.endVote_keeps | apply State.flagAnvils_keeps
      | apply State.noMajority_keeps | apply State.oddVerdict_keeps | apply State.setVote_keeps | apply Keeps.ite
    | split | (dsimp only; split)

theorem State.lookVotes_keeps {k₀ : Nat} {s₀ s : State}
    (hm : Covers k₀ 0x200618a000000000000000c000000400160000000000000000000000000000000001a00a8183a1421428200900084f27ba) (hs : Keeps k₀ s₀ s) :
    Keeps k₀ s₀ (State.lookVotes s) := by
  unfold State.lookVotes
  repeat' first
    | exact hm.trans (by decide)
    | with_reducible first
      | assumption | intro _ | refine Keeps.of_eq (by with_reducible assumption) ?_ | apply State.evalVote_keeps
      | apply State.forEach_keeps | apply Keeps.ite
    | split | (dsimp only; split)

theorem State.settle_keeps {k₀ : Nat} {s₀ s : State}
    (hm : Covers k₀ 0x200618a000000000000000c000000400160000000000000000000000000000000001a00a8183a1421428200900084f27ba) (hs : Keeps k₀ s₀ s) :
    Keeps k₀ s₀ (State.settle s) := by
  unfold State.settle
  repeat' first
    | exact hm.trans (by decide)
    | with_reducible first
      | assumption | intro _ | refine Keeps.of_eq (by with_reducible assumption) ?_ | apply State.lookVotes_keeps
      | apply Keeps.ite
    | split | (dsimp only; split)

theorem State.freeRecord_keeps {k₀ : Nat} {s₀ s : State} (n : Nat) (place : Nat) (r : Record)
    (hm : Covers k₀ 0x200618a0000000000000000000000000000000000000000000000000000000000001a00a8180000000082008000043029a) (hs : Keeps k₀ s₀ s) :
    Keeps k₀ s₀ (State.freeRecord s n place r) := by
  unfold State.freeRecord
  repeat' first
    | exact hm.trans (by decide)
    | with_reducible first
      | assumption | intro _ | refine Keeps.of_eq (by with_reducible assumption) ?_ | apply State.countTaskFault_keeps
      | apply State.emitTevents_keeps | apply State.endFaulted_keeps | apply State.evRefused_keeps
      | apply State.modTask_keeps | apply State.publish_keeps | apply Keeps.ite
    | split | (dsimp only; split)

theorem State.sortRecord_keeps {k₀ : Nat} {s₀ s : State} (c : Fin 12) (r : Record)
    (hm : Covers k₀ 0x200618a000000000000000c000000400160000000000000000000000000000000001a00a8183a1c21c28200900084f27ba) (hs : Keeps k₀ s₀ s) :
    Keeps k₀ s₀ (State.sortRecord s c r) := by
  unfold State.sortRecord
  repeat' first
    | exact hm.trans (by decide)
    | with_reducible first
      | exact ANX_STATUS_in | assumption | intro _ | refine Keeps.of_eq (by with_reducible assumption) ?_
      | apply State.evRefused_keeps | apply State.evalVote_keeps | apply State.freeRecord_keeps
      | apply State.setVote_keeps | apply State.settle_keeps | apply State.stale_keeps | apply Keeps.ite
    | split | (dsimp only; split)

theorem State.takeRecord_keeps' {k₀ : Nat} {s₀ s : State} (c : Fin 12) {t₁ : State} {r} (e₁ : State.takeRecord s c = some (r, t₁))
    (hm : Covers k₀ 0x400) (hs : Keeps k₀ s₀ s) : Keeps k₀ s₀ t₁ := by
  unfold State.takeRecord at e₁
  split at e₁
  · cases e₁
  · cases e₁
    exact Keeps.mk_anvils hm hs

theorem State.deliverRecord_keeps {k₀ : Nat} {s₀ s : State} (c : Fin 12) (wholeX : Bool) (wholeY : Bool)
    (hm : Covers k₀ 0x200618a000000000000000c000000400160000000000000000000000000000000001a00a8183a1c21c28200900084f27ba) (hs : Keeps k₀ s₀ s) :
    Keeps k₀ s₀ (State.deliverRecord s c wholeX wholeY) := by
  unfold State.deliverRecord
  repeat' first
    | exact hm.trans (by decide)
    | with_reducible first
      | assumption | intro _ | refine Keeps.of_eq (by with_reducible assumption) ?_ | apply State.sortRecord_keeps
      | refine State.takeRecord_keeps' _ (by with_reducible assumption) (hm.trans (by decide)) ?_ | apply Keeps.ite
    | split | (dsimp only; split)

theorem State.closeWindow_keeps {k₀ : Nat} {s₀ s : State} (n : Nat)
    (hm : Covers k₀ 0x200618a000000000000000c000000400160000000000000000000000000000000001a00a8183a1421428200900084f27ba) (hs : Keeps k₀ s₀ s) :
    Keeps k₀ s₀ (State.closeWindow s n) := by
  unfold State.closeWindow
  repeat' first
    | exact hm.trans (by decide)
    | with_reducible first
      | assumption | intro _ | refine Keeps.of_eq (by with_reducible assumption) ?_ | apply State.evalVote_keeps
      | apply State.modTask_keeps | apply State.settle_keeps | apply Keeps.ite
    | split | (dsimp only; split)

theorem State.verifyDeadline_keeps {k₀ : Nat} {s₀ s : State} (n : Nat) (hm : Covers k₀ 0x400) (hs : Keeps k₀ s₀ s) :
    Keeps k₀ s₀ (State.verifyDeadline s n) := by
  unfold State.verifyDeadline
  repeat' first
    | exact hm.trans (by decide)
    | with_reducible first
      | assumption | intro _ | refine Keeps.of_eq (by with_reducible assumption) ?_ | apply Keeps.ite
    | split | (dsimp only; split) | with_reducible apply Keeps.mk_anvils

theorem State.timingCheck_keeps {k₀ : Nat} {s₀ s : State} (upset : Bool)
    (hm : Covers k₀ 0x200618a000000000000000c000000400160000000000000000000000000000000001a00a8183a0020028000100084f27ba) (hs : Keeps k₀ s₀ s) :
    Keeps k₀ s₀ (State.timingCheck s upset).1 := by
  unfold State.timingCheck
  repeat' first
    | exact hm.trans (by decide)
    | with_reducible first
      | exact ANX_STATUS_in | exact ANY_STATUS_in | assumption | intro _
      | refine Keeps.of_eq (by with_reducible assumption) ?_ | apply State.comparatorFault_keeps
      | apply State.evGroup_keeps | apply State.flagAnvils_keeps | apply Keeps.ite
    | split | (dsimp only; split) | with_reducible apply Keeps.mk_anvils

theorem State.strikeTest_keeps {k₀ : Nat} {s₀ s : State} (k : Nat) (okX : Bool) (okY : Bool)
    (hm : Covers k₀ 0x200618a000000000000000c000000400160000000000000000000000000000000001a00a8183a2022028000100084f23ba) (hs : Keeps k₀ s₀ s) :
    Keeps k₀ s₀ (State.strikeTest s k okX okY).1 := by
  unfold State.strikeTest
  repeat' first
    | exact hm.trans (by decide)
    | with_reducible first
      | exact ANX_STATUS_in | exact ANX_STRIKE_in | exact ANY_STATUS_in | exact ANY_STRIKE_in | assumption | intro _
      | refine Keeps.of_eq (by with_reducible assumption) ?_ | apply State.comparatorFault_keeps
      | apply State.flag_keeps | apply State.setReg_keeps | apply Keeps.ite
    | split | (dsimp only; split)

theorem State.anvilClose_keeps {k₀ : Nat} {s₀ s : State} (upset : Bool) (okX : Bool) (okY : Bool)
    (hm : Covers k₀ 0x200618a000000000000000c000000400160000000000000000000000000000000001a00a8183a3423428200900084f2fba) (hs : Keeps k₀ s₀ s) :
    Keeps k₀ s₀ (State.anvilClose s upset okX okY) := by
  unfold State.anvilClose
  repeat' first
    | exact hm.trans (by decide)
    | with_reducible first
      | assumption | intro _ | refine Keeps.of_eq (by with_reducible assumption) ?_ | apply State.closeWindow_keeps
      | apply State.forEach_keeps | apply State.strikeTest_keeps | apply State.timingCheck_keeps | apply Keeps.ite
    | split | (dsimp only; split) | with_reducible first | apply Keeps.mk_frame | apply Keeps.mk_anvils_cpl

theorem State.anvilTick_keeps {k₀ : Nat} {s₀ s : State} (hm : Covers k₀ 0x400) (hs : Keeps k₀ s₀ s) :
    Keeps k₀ s₀ (State.anvilTick s) := by
  unfold State.anvilTick
  repeat' first
    | exact hm.trans (by decide)
    | with_reducible first
      | assumption | intro _ | refine Keeps.of_eq (by with_reducible assumption) ?_ | apply Keeps.ite
    | split | (dsimp only; split) | with_reducible apply Keeps.mk_anvils

theorem State.issueEprst_keeps {k₀ : Nat} {s₀ s : State} (n : Nat) (hm : Covers k₀ 0x400400000000000000802)
    (hs : Keeps k₀ s₀ s) :
    Keeps k₀ s₀ (State.issueEprst s n) := by
  unfold State.issueEprst
  repeat' first
    | exact hm.trans (by decide)
    | with_reducible first
      | exact ANX_EPRST_in | exact ANY_EPRST_in | assumption | intro _
      | refine Keeps.of_eq (by with_reducible assumption) ?_ | apply State.flag_keeps | apply Keeps.ite
    | split | (dsimp only; split) | with_reducible apply Keeps.mk_frame

theorem State.eprstTick_keeps {k₀ : Nat} {s₀ s : State} (hm : Covers k₀ 0xc82c82000000000000882) (hs : Keeps k₀ s₀ s) :
    Keeps k₀ s₀ (State.eprstTick s) := by
  unfold State.eprstTick
  repeat' first
    | exact hm.trans (by decide)
    | with_reducible first
      | exact ANX_EPRST_in | exact ANY_EPRST_in | assumption | intro _
      | refine Keeps.of_eq (by with_reducible assumption) ?_ | apply State.flagAnvils_keeps | apply State.forEach_keeps
      | apply State.putFld_keeps | apply State.resetEpochs_keeps | apply Keeps.ite
    | split | (dsimp only; split) | with_reducible apply Keeps.mk_frame

end Sys2Proof.Machine
end

