-- ==== Sys2Proof/Laws/KeepsFrame.lean ====
section
/-!
SUPPORT. What `Keeps` says of the operations of
the frame, time and the queues:
each keeps the canonical form and every part of the state outside its set.
A lemma stands for each operation, in the order of the Machine files.
-/

namespace Sys2Proof.Machine

set_option Elab.async false
set_option linter.all false

/-! ### Machine/Frame.lean -/

theorem State.refreshPpend_keeps {k₀ : Nat} {s₀ s : State} (hm : Covers k₀ 0x80000000002) (hs : Keeps k₀ s₀ s) :
    Keeps k₀ s₀ (State.refreshPpend s) := by
  unfold State.refreshPpend
  repeat' first
    | exact hm.trans (by decide)
    | with_reducible first
      | exact FRM_STATUS_in | assumption | intro _ | refine Keeps.of_eq (by with_reducible assumption) ?_
      | apply State.putFld_keeps | apply Keeps.ite
    | split | (dsimp only; split)

theorem State.frmStart_keeps {k₀ : Nat} {s₀ s : State} (hm : Covers k₀ 0x1180000000802) (hs : Keeps k₀ s₀ s) :
    Keeps k₀ s₀ (State.frmStart s) := by
  unfold State.frmStart
  repeat' first
    | exact hm.trans (by decide)
    | with_reducible first
      | exact FRM_ACTIVE_in | exact FRM_CTRL_in | assumption | intro _
      | refine Keeps.of_eq (by with_reducible assumption) ?_ | apply State.flag_keeps | apply State.putFld_keeps
      | apply State.refreshPpend_keeps | apply Keeps.ite
    | split | (dsimp only; split) | with_reducible apply Keeps.mk_frame

theorem State.frmStop_keeps {k₀ : Nat} {s₀ s : State} (hm : Covers k₀ 0x8001800000000a2) (hs : Keeps k₀ s₀ s) :
    Keeps k₀ s₀ (State.frmStop s) := by
  unfold State.frmStop
  repeat' first
    | exact hm.trans (by decide)
    | with_reducible first
      | exact FRM_CTRL_in | assumption | intro _ | refine Keeps.of_eq (by with_reducible assumption) ?_
      | apply State.closeCycle_keeps | apply State.forEach_keeps | apply State.putFld_keeps
      | apply State.refreshPpend_keeps | apply Keeps.ite
    | split | (dsimp only; split)

theorem execFrmStart_keeps {k₀ : Nat} {s₀ s : State} (hm : Covers k₀ 0x1180000000802) (hs : Keeps k₀ s₀ s) :
    Outcome.Keeps k₀ s₀ (execFrmStart s) := by
  unfold execFrmStart
  repeat' first
    | exact hm.trans (by decide)
    | with_reducible first
      | assumption | intro _ | refine Keeps.of_eq (by with_reducible assumption) ?_ | apply State.frmStart_keeps
      | apply Keeps.ite | apply Outcome.keeps_next
    | split | (dsimp only; split)

theorem execFrmStop_keeps {k₀ : Nat} {s₀ s : State} (hm : Covers k₀ 0x8001800000000a2) (hs : Keeps k₀ s₀ s) :
    Outcome.Keeps k₀ s₀ (execFrmStop s) := by
  unfold execFrmStop
  repeat' first
    | exact hm.trans (by decide)
    | with_reducible first
      | assumption | intro _ | refine Keeps.of_eq (by with_reducible assumption) ?_ | apply State.frmStop_keeps
      | apply Keeps.ite | apply Outcome.keeps_next
    | split | (dsimp only; split)

theorem State.snapSlice_keeps {k₀ : Nat} {s₀ s : State} (bank : Nat) (lanes : List Nat) (x : Slice)
    (hm : Covers k₀ 0x200618a0000000000000000000000000000000000000000000000000000000000001a00a8180000000000000000041001a) (hs : Keeps k₀ s₀ s) :
    Keeps k₀ s₀ (State.snapSlice s bank lanes x).1 := by
  unfold State.snapSlice
  repeat' first
    | exact hm.trans (by decide)
    | with_reducible first
      | assumption | intro _ | refine Keeps.of_eq (by with_reducible assumption) ?_ | apply State.forEach_keeps
      | apply State.putCell_keeps | apply State.reportRange_keeps | apply Keeps.ite
    | split | (dsimp only; split)

theorem State.snapSlices_keeps {k₀ : Nat} {s₀ s : State} (bank : Nat) (lanes : List Nat) (y0 : List Slice)
    (hm : Covers k₀ 0x200618a0000000000000000000000000000000000000000000000000000000000001a00a8180000000000000000041001a) (hs : Keeps k₀ s₀ s) :
    Keeps k₀ s₀ (State.snapSlices s bank lanes y0).1 := by
  fun_induction State.snapSlices s bank lanes y0
  all_goals
    repeat' first
      | exact hm.trans (by decide)
      | with_reducible first
        | assumption | intro _ | refine (‹Keeps _ _ _ → _› ?_) | refine Keeps.of_eq (by with_reducible assumption) ?_
        | apply State.snapSlice_keeps | apply Keeps.ite
      | split | (dsimp only; split)

theorem State.copyVoted_keeps {k₀ : Nat} {s₀ s : State} (lanes : List Nat) (y0 : Nat) (y1 : List Slice)
    (hm : Covers k₀ 0x200618a0000000000000000000000000000000000000000000000000000000000001a00a8180000000000000000041001a) (hs : Keeps k₀ s₀ s) :
    Keeps k₀ s₀ (State.copyVoted s lanes y0 y1) := by
  fun_induction State.copyVoted s lanes y0 y1
  all_goals
    repeat' first
      | exact hm.trans (by decide)
      | with_reducible first
        | assumption | intro _ | refine (‹Keeps _ _ _ → _› ?_) | refine Keeps.of_eq (by with_reducible assumption) ?_
        | apply State.forEach_keeps | apply State.reportRange_keeps | apply State.writeRun_keeps | apply Keeps.ite
      | split | (dsimp only; split)

theorem State.snapshotTask_keeps {k₀ : Nat} {s₀ s : State} (n : Nat)
    (hm : Covers k₀ 0x200618a0000000000000000000000000000000000000000000000000000000000001a00a8180000000000000000041009a) (hs : Keeps k₀ s₀ s) :
    Keeps k₀ s₀ (State.snapshotTask s n) := by
  unfold State.snapshotTask
  repeat' first
    | exact hm.trans (by decide)
    | with_reducible first
      | assumption | intro _ | refine Keeps.of_eq (by with_reducible assumption) ?_ | apply State.copyVoted_keeps
      | apply State.modTask_keeps | apply State.snapSlices_keeps | apply Keeps.ite
    | split | (dsimp only; split)

theorem execSnapshotCopyComplete_keeps {k₀ : Nat} {s₀ s : State} (ns : BitVec 24)
    (hm : Covers k₀ 0x200618a0000000000000000000000000000000000000000000000000000000000001a00a818000000008400000004104ba) (hs : Keeps k₀ s₀ s) :
    Outcome.Keeps k₀ s₀ (execSnapshotCopyComplete ns s) := by
  unfold execSnapshotCopyComplete
  repeat' first
    | exact hm.trans (by decide)
    | with_reducible first
      | exact FRM_SNAPEND_in | assumption | intro _ | refine Keeps.of_eq (by with_reducible assumption) ?_
      | apply State.dispatchAll_keeps | apply State.putFld_keeps | apply State.snapshotTask_keeps | apply Keeps.ite
      | apply Outcome.keeps_next
    | split | (dsimp only; split)

theorem State.countOverrun_keeps {k₀ : Nat} {s₀ s : State} (n : Nat) (cy : Cycle)
    (hm : Covers k₀ 0x200618a00000000000000000000000000000000000000000000000000000000000000000000000000008100800004102a2) (hs : Keeps k₀ s₀ s) :
    Keeps k₀ s₀ (State.countOverrun s n cy) := by
  unfold State.countOverrun
  repeat' first
    | exact hm.trans (by decide)
    | with_reducible first
      | exact FRM_OVRCNT_in | exact FRM_STATUS_in | exact FRM_TSTAT_in | assumption | intro _
      | refine Keeps.of_eq (by with_reducible assumption) ?_ | apply State.bump_keeps | apply State.event_keeps
      | apply State.flag_keeps | apply State.forEach_keeps | apply State.fullSpeed_keeps | apply State.modTask_keeps
      | apply State.raiseLine_keeps | apply Keeps.ite
    | split | (dsimp only; split)

theorem State.carry_keeps {k₀ : Nat} {s₀ s : State} (n : Nat) (cy : Cycle)
    (hm : Covers k₀ 0x200618a0000000000000000000000000000000000000000000000000000000000001a00a8180000000080000000043009a) (hs : Keeps k₀ s₀ s) :
    Keeps k₀ s₀ (State.carry s n cy) := by
  unfold State.carry
  repeat' first
    | exact hm.trans (by decide)
    | with_reducible first
      | exact FRM_TSTAT_in | assumption | intro _ | refine Keeps.of_eq (by with_reducible assumption) ?_
      | apply State.flag_keeps | apply State.holdOutputs_keeps | apply State.modTask_keeps | apply Keeps.ite
    | split | (dsimp only; split)

theorem State.overrun_keeps {k₀ : Nat} {s₀ s : State} (n : Nat) (cy : Cycle)
    (hm : Covers k₀ 0x200618a0000000000000000000000000000000000000000000000000000000000001a00a818000000008100800004302ba) (hs : Keeps k₀ s₀ s) :
    Keeps k₀ s₀ (State.overrun s n cy) := by
  unfold State.overrun
  repeat' first
    | exact hm.trans (by decide)
    | with_reducible first
      | assumption | intro _ | refine Keeps.of_eq (by with_reducible assumption) ?_ | apply State.carry_keeps
      | apply State.closeCycle_keeps | apply State.countOverrun_keeps | apply State.overrunOutputs_keeps
      | apply State.substitute_keeps | apply Keeps.ite
    | split | (dsimp only; split)

theorem State.deadline_keeps {k₀ : Nat} {s₀ s : State} (n : Nat)
    (hm : Covers k₀ 0x200618a0000000000000000000000000000000000000000000000000000000000001a00a818000000008100800004302ba) (hs : Keeps k₀ s₀ s) :
    Keeps k₀ s₀ (State.deadline s n) := by
  unfold State.deadline
  repeat' first
    | exact hm.trans (by decide)
    | with_reducible first
      | assumption | intro _ | refine Keeps.of_eq (by with_reducible assumption) ?_ | apply State.modTask_keeps
      | apply State.overrun_keeps | apply Keeps.ite
    | split | (dsimp only; split)

theorem execDeadline_keeps {k₀ : Nat} {s₀ s : State} (task : Fin 64)
    (hm : Covers k₀ 0x200618a0000000000000000000000000000000000000000000000000000000000001a00a818000000008100800004306ba) (hs : Keeps k₀ s₀ s) :
    Outcome.Keeps k₀ s₀ (execDeadline task s) := by
  unfold execDeadline
  repeat' first
    | exact hm.trans (by decide)
    | with_reducible first
      | assumption | intro _ | refine Keeps.of_eq (by with_reducible assumption) ?_ | apply State.deadline_keeps
      | apply State.dispatchAll_keeps | apply Keeps.ite | apply Outcome.keeps_next
    | split | (dsimp only; split)

theorem execCheckpointRecord_keeps {k₀ : Nat} {s₀ s : State} (core : Fin 12) (crcX : Bool) (crcY : Bool)
    (hm : Covers k₀ 0x200618a000000000000000c000000400160000000000000000000000000000000001a00a8183a1c21c28200900084f27ba) (hs : Keeps k₀ s₀ s) :
    Outcome.Keeps k₀ s₀ (execCheckpointRecord core crcX crcY s) := by
  unfold execCheckpointRecord
  repeat' first
    | exact hm.trans (by decide)
    | with_reducible first
      | assumption | intro _ | refine Keeps.of_eq (by with_reducible assumption) ?_ | apply State.deliverRecord_keeps
      | apply State.dispatchAll_keeps | apply Keeps.ite | apply Outcome.keeps_next
    | split | (dsimp only; split)

theorem execTaskFaultReport_keeps {k₀ : Nat} {s₀ s : State} (core : Fin 12) (crcX : Bool) (crcY : Bool)
    (hm : Covers k₀ 0x200618a000000000000000c000000400160000000000000000000000000000000001a00a8183a1c21c28200900084f27ba) (hs : Keeps k₀ s₀ s) :
    Outcome.Keeps k₀ s₀ (execTaskFaultReport core crcX crcY s) := by
  unfold execTaskFaultReport
  repeat' first
    | exact hm.trans (by decide)
    | with_reducible first
      | assumption | intro _ | refine Keeps.of_eq (by with_reducible assumption) ?_ | apply State.deliverRecord_keeps
      | apply State.dispatchAll_keeps | apply Keeps.ite | apply Outcome.keeps_next
    | split | (dsimp only; split)

theorem execSkewWindowClose_keeps {k₀ : Nat} {s₀ s : State} (task : Fin 64) (agree : Bool)
    (hm : Covers k₀ 0x200618a000000000000000c000000400160000000000000000000000000000000001a00a8183a1421428200900084f27ba) (hs : Keeps k₀ s₀ s) :
    Outcome.Keeps k₀ s₀ (execSkewWindowClose task agree s) := by
  unfold execSkewWindowClose
  repeat' first
    | exact hm.trans (by decide)
    | with_reducible first
      | assumption | intro _ | refine Keeps.of_eq (by with_reducible assumption) ?_ | apply State.closeWindow_keeps
      | apply State.comparatorFault_keeps | apply State.dispatchAll_keeps | apply State.flagAnvils_keeps
      | apply State.when_keeps | apply Keeps.ite | apply Outcome.keeps_next
    | split | (dsimp only; split)

theorem execQuenchTestStart_keeps {k₀ : Nat} {s₀ s : State} (lane : Fin 3)
    (hm : Covers k₀ 0x20000000000000000000000000000000000000000000000000000000000000000000000000030000000000000000400002) (hs : Keeps k₀ s₀ s) :
    Outcome.Keeps k₀ s₀ (execQuenchTestStart lane s) := by
  unfold execQuenchTestStart
  repeat' first
    | exact hm.trans (by decide)
    | with_reducible first
      | assumption | intro _ | refine Keeps.of_eq (by with_reducible assumption) ?_ | apply State.setLaneState_keeps
      | apply Keeps.ite | apply Outcome.keeps_next
    | split | (dsimp only; split)

theorem execQuenchTestEnd_keeps {k₀ : Nat} {s₀ s : State} (lane : Fin 3) (pass : Bool)
    (hm : Covers k₀ 0x200618a0000000000000000000000000000000000000000000000000000000000000000000072000000000000000410122) (hs : Keeps k₀ s₀ s) :
    Outcome.Keeps k₀ s₀ (execQuenchTestEnd lane pass s) := by
  unfold execQuenchTestEnd
  repeat' first
    | exact hm.trans (by decide)
    | with_reducible first
      | assumption | intro _ | refine Keeps.of_eq (by with_reducible assumption) ?_ | apply State.quenchEnd_keeps
      | apply Keeps.ite | apply Outcome.keeps_next
    | split | (dsimp only; split)

theorem State.joinCopy_keeps {k₀ : Nat} {s₀ s : State} (t : Nat)
    (hm : Covers k₀ 0x200618a0000000000000000000000000000000000000000000000000000000000001a00a8180000000000000000041021a) (hs : Keeps k₀ s₀ s) :
    Keeps k₀ s₀ (State.joinCopy s t) := by
  unfold State.joinCopy
  repeat' first
    | exact hm.trans (by decide)
    | with_reducible first
      | assumption | intro _ | refine Keeps.of_eq (by with_reducible assumption) ?_ | apply State.copyTasks_keeps
      | apply State.evState_keeps | apply State.modTriad_keeps | apply Keeps.ite
    | split | (dsimp only; split)

theorem State.placeCopied_keeps {k₀ : Nat} {s₀ s : State} (n : Nat)
    (hm : Covers k₀ 0x200618a0000000000000000000000000000000000000000000000000000000000001a00a8180000000000000000041009a) (hs : Keeps k₀ s₀ s) :
    Keeps k₀ s₀ (State.placeCopied s n) := by
  unfold State.placeCopied
  repeat' first
    | exact hm.trans (by decide)
    | with_reducible first
      | assumption | intro _ | refine Keeps.of_eq (by with_reducible assumption) ?_ | apply State.copyTasks_keeps
      | apply State.evState_keeps | apply State.modTask_keeps | apply Keeps.ite
    | split | (dsimp only; split)

theorem execRejoinCopyStart_keeps {k₀ : Nat} {s₀ s : State} (job : CopyJob) (hm : Covers k₀ 0x10000000000000000000382)
    (hs : Keeps k₀ s₀ s) :
    Outcome.Keeps k₀ s₀ (execRejoinCopyStart job s) := by
  unfold execRejoinCopyStart
  repeat' first
    | exact hm.trans (by decide)
    | with_reducible first
      | assumption | intro _ | refine Keeps.of_eq (by with_reducible assumption) ?_ | apply State.modLane_keeps
      | apply State.modTask_keeps | apply State.modTriad_keeps | apply State.setTriadState_keeps | apply Keeps.ite
      | apply Outcome.keeps_next
    | split | (dsimp only; split)

theorem execRejoinCopyEnd_keeps {k₀ : Nat} {s₀ s : State} (job : CopyJob)
    (hm : Covers k₀ 0x200618a0000000000000000000000000000000000000000000000000000000000001a00a8180000000000000000041039a) (hs : Keeps k₀ s₀ s) :
    Outcome.Keeps k₀ s₀ (execRejoinCopyEnd job s) := by
  unfold execRejoinCopyEnd
  repeat' first
    | exact hm.trans (by decide)
    | with_reducible first
      | assumption | intro _ | refine Keeps.of_eq (by with_reducible assumption) ?_ | apply State.joinCopy_keeps
      | apply State.placeCopied_keeps | apply State.rejoinCopied_keeps | apply Keeps.ite | apply Outcome.keeps_next
    | split | (dsimp only; split)

theorem State.taskRestart_keeps {k₀ : Nat} {s₀ s : State} (n : Nat) (hm : Covers k₀ 0x800000000000002)
    (hs : Keeps k₀ s₀ s) :
    Keeps k₀ s₀ (State.taskRestart s n) := by
  unfold State.taskRestart
  repeat' first
    | exact hm.trans (by decide)
    | with_reducible first
      | exact FRM_TSTAT_in | assumption | intro _ | refine Keeps.of_eq (by with_reducible assumption) ?_
      | apply State.flag_keeps | apply Keeps.ite
    | split | (dsimp only; split)

theorem State.modeGo_keeps {k₀ : Nat} {s₀ s : State} (t : Nat)
    (hm : Covers k₀ 0x200618a0000000000000000000000000000000000000000000000000000000000000000000018000000000000000410202) (hs : Keeps k₀ s₀ s) :
    Keeps k₀ s₀ (State.modeGo s t) := by
  unfold State.modeGo
  repeat' first
    | exact hm.trans (by decide)
    | with_reducible first
      | exact LANE_MODE_in | assumption | intro _ | refine Keeps.of_eq (by with_reducible assumption) ?_
      | apply State.modeRequest_keeps | apply Keeps.ite
    | split | (dsimp only; split)

theorem execModeRequest_keeps {k₀ : Nat} {s₀ s : State} (triad : Fin 4) (mode : BitVec 2) (odd : BitVec 2)
    (hm : Covers k₀ 0x200618a0000000000000000000000000000000000000000000000000000000000000000000018000000000000000410202) (hs : Keeps k₀ s₀ s) :
    Outcome.Keeps k₀ s₀ (execModeRequest triad mode odd s) := by
  unfold execModeRequest
  repeat' first
    | exact hm.trans (by decide)
    | with_reducible first
      | exact LANE_MODE_in | assumption | intro _ | refine Keeps.of_eq (by with_reducible assumption) ?_
      | apply State.modeGo_keeps | apply State.putFld_keeps | apply Keeps.ite | apply Outcome.keeps_next
    | split | (dsimp only; split)

theorem execCommandedQuench_keeps {k₀ : Nat} {s₀ s : State} (lane : BitVec 2)
    (hm : Covers k₀ 0x200618a000000000000000c000000400160000000000000000000000000000000001a00a818ba1421428200900084f27ba) (hs : Keeps k₀ s₀ s) :
    Outcome.Keeps k₀ s₀ (execCommandedQuench lane s) := by
  unfold execCommandedQuench
  repeat' first
    | exact hm.trans (by decide)
    | with_reducible first
      | exact LANE_QUENCH_in | assumption | intro _ | refine Keeps.of_eq (by with_reducible assumption) ?_
      | apply State.commandQuench_keeps | apply State.putFld_keeps | apply State.settle_keeps | apply Keeps.ite
      | apply Outcome.keeps_next
    | split | (dsimp only; split)

theorem State.eprstGo_keeps {k₀ : Nat} {s₀ s : State} (n : Nat) (hm : Covers k₀ 0x400400000000000000802)
    (hs : Keeps k₀ s₀ s) :
    Keeps k₀ s₀ (State.eprstGo s n) := by
  unfold State.eprstGo
  repeat' first
    | exact hm.trans (by decide)
    | with_reducible first
      | exact ANX_EPRST_in | assumption | intro _ | refine Keeps.of_eq (by with_reducible assumption) ?_
      | apply State.issueEprst_keeps | apply Keeps.ite
    | split | (dsimp only; split)

theorem execEpochReset_keeps {k₀ : Nat} {s₀ s : State} (task : Fin 64) (hm : Covers k₀ 0x400400000000000000802)
    (hs : Keeps k₀ s₀ s) :
    Outcome.Keeps k₀ s₀ (execEpochReset task s) := by
  unfold execEpochReset
  repeat' first
    | exact hm.trans (by decide)
    | with_reducible first
      | exact ANX_EPRST_in | exact ANY_EPRST_in | assumption | intro _
      | refine Keeps.of_eq (by with_reducible assumption) ?_ | apply State.eprstGo_keeps | apply State.putFld_keeps
      | apply Keeps.ite | apply Outcome.keeps_next
    | split | (dsimp only; split)

/-! ### Machine/Time.lean -/

theorem State.modTime_keeps {k₀ : Nat} {s₀ s : State} (g : TimeState → TimeState) (hm : Covers k₀ 0x4000)
    (hs : Keeps k₀ s₀ s) :
    Keeps k₀ s₀ (State.modTime s g) := by
  unfold State.modTime
  repeat' first
    | exact hm.trans (by decide)
    | with_reducible first
      | assumption | intro _ | refine Keeps.of_eq (by with_reducible assumption) ?_ | apply Keeps.ite
    | split | (dsimp only; split) | with_reducible apply Keeps.mk_time

theorem State.setTimeState_keeps {k₀ : Nat} {s₀ s : State} (st : Nat)
    (hm : Covers k₀ 0x4008000000000000000000000000000000000000004022) (hs : Keeps k₀ s₀ s) :
    Keeps k₀ s₀ (State.setTimeState s st) := by
  unfold State.setTimeState
  repeat' first
    | exact hm.trans (by decide)
    | with_reducible first
      | exact TIME_RATE_in | exact TIME_STATUS_in | assumption | intro _
      | refine Keeps.of_eq (by with_reducible assumption) ?_ | apply State.irq_keeps | apply State.modTime_keeps
      | apply State.putFld_keeps | apply State.setReg_keeps | apply State.when_keeps | apply Keeps.ite
    | split | (dsimp only; split)

theorem State.stepClock_keeps {k₀ : Nat} {s₀ s : State} (d : Int) (hm : Covers k₀ 0x4000) (hs : Keeps k₀ s₀ s) :
    Keeps k₀ s₀ (State.stepClock s d) := by
  unfold State.stepClock
  repeat' first
    | exact hm.trans (by decide)
    | with_reducible first
      | assumption | intro _ | refine Keeps.of_eq (by with_reducible assumption) ?_ | apply State.modTime_keeps
      | apply Keeps.ite
    | split | (dsimp only; split)

theorem State.servo_keeps {k₀ : Nat} {s₀ s : State} (offset : Int)
    (hm : Covers k₀ 0x200618a0000000000000000000000000000000000000000000000008000000000000000000000000000000000000414002) (hs : Keeps k₀ s₀ s) :
    Keeps k₀ s₀ (State.servo s offset) := by
  unfold State.servo
  repeat' first
    | exact hm.trans (by decide)
    | with_reducible first
      | exact TIME_STATUS_in | assumption | intro _ | refine Keeps.of_eq (by with_reducible assumption) ?_
      | apply State.evLimit_keeps | apply State.flag_keeps | apply State.modTime_keeps | apply State.stepClock_keeps
      | apply Keeps.ite
    | split | (dsimp only; split)

theorem State.lockLoss_keeps {k₀ : Nat} {s₀ s : State} (hm : Covers k₀ 0x8000000000000000000000000000000000000000022)
    (hs : Keeps k₀ s₀ s) :
    Keeps k₀ s₀ (State.lockLoss s) := by
  unfold State.lockLoss
  repeat' first
    | exact hm.trans (by decide)
    | with_reducible first
      | exact TIME_STATUS_in | assumption | intro _ | refine Keeps.of_eq (by with_reducible assumption) ?_
      | apply State.flag_keeps | apply State.irq_keeps | apply Keeps.ite
    | split | (dsimp only; split)

theorem State.modRing_keeps {k₀ : Nat} {s₀ s : State} (n : Nat) (g : Ring → Ring) (hm : Covers k₀ 0x800000)
    (hs : Keeps k₀ s₀ s) :
    Keeps k₀ s₀ (State.modRing s n g) := by
  unfold State.modRing
  repeat' first
    | exact hm.trans (by decide)
    | with_reducible first
      | assumption | intro _ | refine Keeps.of_eq (by with_reducible assumption) ?_ | apply Keeps.ite
    | split | (dsimp only; split) | with_reducible apply Keeps.mk_rings

theorem State.judgeOffset_keeps {k₀ : Nat} {s₀ s : State} (offset : Int)
    (hm : Covers k₀ 0x4008000000000000000000000000000000000000004022) (hs : Keeps k₀ s₀ s) :
    Keeps k₀ s₀ (State.judgeOffset s offset) := by
  unfold State.judgeOffset
  repeat' first
    | exact hm.trans (by decide)
    | with_reducible first
      | assumption | intro _ | refine Keeps.of_eq (by with_reducible assumption) ?_ | apply State.lockLoss_keeps
      | apply State.modTime_keeps | apply State.setTimeState_keeps | apply Keeps.ite
    | split | (dsimp only; split)

theorem State.slewTick_keeps {k₀ : Nat} {s₀ s : State} (hm : Covers k₀ 0x4000000000000000000000000000000000000010004002)
    (hs : Keeps k₀ s₀ s) :
    Keeps k₀ s₀ (State.slewTick s) := by
  unfold State.slewTick
  repeat' first
    | exact hm.trans (by decide)
    | with_reducible first
      | exact TIME_RATE_in | assumption | intro _ | refine Keeps.of_eq (by with_reducible assumption) ?_
      | apply State.modTime_keeps | apply State.setReg_keeps | apply Keeps.ite
    | split | (dsimp only; split) | with_reducible apply Keeps.mk_free

theorem State.stepCommand_keeps {k₀ : Nat} {s₀ s : State}
    (hm : Covers k₀ 0x108000000000000000000000000000000000000004022) (hs : Keeps k₀ s₀ s) :
    Keeps k₀ s₀ (State.stepCommand s) := by
  unfold State.stepCommand
  repeat' first
    | exact hm.trans (by decide)
    | with_reducible first
      | exact TIME_STATUS_in | exact TIME_STEPCMD_in | assumption | intro _
      | refine Keeps.of_eq (by with_reducible assumption) ?_ | apply State.flag_keeps | apply State.irq_keeps
      | apply State.modTime_keeps | apply Keeps.ite
    | split | (dsimp only; split)

theorem State.stepAct_keeps {k₀ : Nat} {s₀ s : State}
    (hm : Covers k₀ 0x2000108000000000000000000000000000000000000004022) (hs : Keeps k₀ s₀ s) :
    Keeps k₀ s₀ (State.stepAct s) := by
  unfold State.stepAct
  repeat' first
    | exact hm.trans (by decide)
    | with_reducible first
      | exact TIME_STATUS_in | exact TIME_STEPCMD_in | exact TIME_STEPCNT_in | assumption | intro _
      | refine Keeps.of_eq (by with_reducible assumption) ?_ | apply State.bump_keeps | apply State.flag_keeps
      | apply State.irq_keeps | apply State.modTime_keeps | apply State.putFld_keeps | apply State.stepClock_keeps
      | apply Keeps.ite
    | split | (dsimp only; split)

theorem State.clockCapture_keeps {k₀ : Nat} {s₀ s : State}
    (hm : Covers k₀ 0x3c00000000000000000000000000000000000010000002) (hs : Keeps k₀ s₀ s) :
    Keeps k₀ s₀ (State.clockCapture s) := by
  unfold State.clockCapture
  repeat' first
    | exact hm.trans (by decide)
    | with_reducible first
      | exact TIME_CFRAC_in | exact TIME_CNS_in | exact TIME_CSECH_in | exact TIME_CSECL_in | assumption | intro _
      | refine Keeps.of_eq (by with_reducible assumption) ?_ | apply State.setReg_keeps | apply State.tickFree_keeps
      | apply Keeps.ite
    | split | (dsimp only; split)

theorem State.copyCorrection_keeps {k₀ : Nat} {s₀ s : State} (k : Nat)
    (hm : Covers k₀ 0x70000000000000000000000000000000000000000004002) (hs : Keeps k₀ s₀ s) :
    Keeps k₀ s₀ (State.copyCorrection s k) := by
  unfold State.copyCorrection
  repeat' first
    | exact hm.trans (by decide)
    | with_reducible first
      | exact TIME_CTICKF_in | exact TIME_CTICKH_in | exact TIME_CTICKL_in | assumption | intro _
      | refine Keeps.of_eq (by with_reducible assumption) ?_ | apply State.setReg_keeps | apply Keeps.ite
    | split | (dsimp only; split) | with_reducible apply Keeps.mk_time

theorem State.modPort_keeps {k₀ : Nat} {s₀ s : State} (p : Nat) (g : PtpPort → PtpPort) (hm : Covers k₀ 0x4000)
    (hs : Keeps k₀ s₀ s) :
    Keeps k₀ s₀ (State.modPort s p g) := by
  unfold State.modPort
  repeat' first
    | exact hm.trans (by decide)
    | with_reducible first
      | assumption | intro _ | refine Keeps.of_eq (by with_reducible assumption) ?_ | apply State.modTime_keeps
      | apply Keeps.ite
    | split | (dsimp only; split)

theorem State.decideRoles_keeps {k₀ : Nat} {s₀ s : State} (hm : Covers k₀ 0x4000) (hs : Keeps k₀ s₀ s) :
    Keeps k₀ s₀ (State.decideRoles s) := by
  unfold State.decideRoles
  repeat' first
    | exact hm.trans (by decide)
    | with_reducible first
      | assumption | intro _ | refine Keeps.of_eq (by with_reducible assumption) ?_ | apply State.forEach_keeps
      | apply State.modPort_keeps | apply Keeps.ite
    | split | (dsimp only; split)

theorem State.followParent_keeps {k₀ : Nat} {s₀ s : State} (fresh : Bool)
    (hm : Covers k₀ 0x1c04008000000000000000000000000000000000000004022) (hs : Keeps k₀ s₀ s) :
    Keeps k₀ s₀ (State.followParent s fresh) := by
  unfold State.followParent
  repeat' first
    | exact hm.trans (by decide)
    | with_reducible first
      | exact TIME_GMIDH_in | exact TIME_GMIDL_in | exact TIME_UTC_in | assumption | intro _
      | refine Keeps.of_eq (by with_reducible assumption) ?_ | apply State.setReg_keeps | apply State.setTimeState_keeps
      | apply State.when_keeps | apply Keeps.ite
    | split | (dsimp only; split)

theorem State.reselect_keeps {k₀ : Nat} {s₀ s : State}
    (hm : Covers k₀ 0x1c04008000000000000000000000000000000000000004022) (hs : Keeps k₀ s₀ s) :
    Keeps k₀ s₀ (State.reselect s) := by
  unfold State.reselect
  repeat' first
    | exact hm.trans (by decide)
    | with_reducible first
      | assumption | intro _ | refine Keeps.of_eq (by with_reducible assumption) ?_ | apply State.decideRoles_keeps
      | apply State.followParent_keeps | apply Keeps.ite
    | split | (dsimp only; split)

theorem State.restartPort_keeps {k₀ : Nat} {s₀ s : State} (p : Nat) (hm : Covers k₀ 0x4000) (hs : Keeps k₀ s₀ s) :
    Keeps k₀ s₀ (State.restartPort s p) := by
  unfold State.restartPort
  repeat' first
    | exact hm.trans (by decide)
    | with_reducible first
      | assumption | intro _ | refine Keeps.of_eq (by with_reducible assumption) ?_ | apply State.modPort_keeps
      | apply Keeps.ite
    | split | (dsimp only; split)

theorem State.sourceLoss_keeps {k₀ : Nat} {s₀ s : State}
    (hm : Covers k₀ 0x200618a0000000000000000000000000000000000000000005c04008000000000000000000000000000000000000414022) (hs : Keeps k₀ s₀ s) :
    Keeps k₀ s₀ (State.sourceLoss s) := by
  unfold State.sourceLoss
  repeat' first
    | exact hm.trans (by decide)
    | with_reducible first
      | exact TIME_LOSSCNT_in | exact TIME_STATUS_in | assumption | intro _
      | refine Keeps.of_eq (by with_reducible assumption) ?_ | apply State.bump_keeps | apply State.decideRoles_keeps
      | apply State.evState_keeps | apply State.followParent_keeps | apply State.lockLoss_keeps
      | apply State.modPort_keeps | apply State.modTime_keeps | apply State.setTimeState_keeps | apply Keeps.ite
    | split | (dsimp only; split)

theorem State.sourceOff_keeps {k₀ : Nat} {s₀ s : State}
    (hm : Covers k₀ 0x4008000000000000000000000000000000000000004022) (hs : Keeps k₀ s₀ s) :
    Keeps k₀ s₀ (State.sourceOff s) := by
  unfold State.sourceOff
  repeat' first
    | exact hm.trans (by decide)
    | with_reducible first
      | assumption | intro _ | refine Keeps.of_eq (by with_reducible assumption) ?_ | apply State.setTimeState_keeps
      | apply Keeps.ite
    | split | (dsimp only; split)

theorem State.ptpSync_keeps {k₀ : Nat} {s₀ s : State} (port : Nat) (domain : Nat) (sender : Nat) (senderPort : Nat)
    (origin : Int) (raw : Int) (hm : Covers k₀ 0x200618a0000000000000000000000000000000000000000401c0c008000000000000000000000000000000000000414022) (hs : Keeps k₀ s₀ s) :
    Keeps k₀ s₀ (State.ptpSync s port domain sender senderPort origin raw) := by
  unfold State.ptpSync
  repeat' first
    | exact hm.trans (by decide)
    | with_reducible first
      | exact TIME_OFFS_in | assumption | intro _ | refine Keeps.of_eq (by with_reducible assumption) ?_
      | apply State.arrive_keeps | apply State.followParent_keeps | apply State.judgeOffset_keeps
      | apply State.modPort_keeps | apply State.modTime_keeps | apply State.servo_keeps | apply State.setReg_keeps
      | apply State.sourceOff_keeps | apply Keeps.ite
    | split | (dsimp only; split)

theorem State.heardAnnounce_keeps {k₀ : Nat} {s₀ s : State} (p : Nat) (m : PtpMaster)
    (hm : Covers k₀ 0x1c04008000000000000000000000000000000000000004022) (hs : Keeps k₀ s₀ s) :
    Keeps k₀ s₀ (State.heardAnnounce s p m) := by
  unfold State.heardAnnounce
  repeat' first
    | exact hm.trans (by decide)
    | with_reducible first
      | assumption | intro _ | refine Keeps.of_eq (by with_reducible assumption) ?_ | apply State.modPort_keeps
      | apply State.reselect_keeps | apply Keeps.ite
    | split | (dsimp only; split)

theorem State.pathDelayDone_keeps {k₀ : Nat} {s₀ s : State} (p : Nat) (d : Int → Option Int) (hm : Covers k₀ 0x4000)
    (hs : Keeps k₀ s₀ s) :
    Keeps k₀ s₀ (State.pathDelayDone s p d) := by
  unfold State.pathDelayDone
  repeat' first
    | exact hm.trans (by decide)
    | with_reducible first
      | assumption | intro _ | refine Keeps.of_eq (by with_reducible assumption) ?_ | apply State.modPort_keeps
      | apply Keeps.ite
    | split | (dsimp only; split)

theorem State.sendPtp_keeps {k₀ : Nat} {s₀ s : State} (p : Nat) (m : PtpOut)
    (hm : Covers k₀ 0x800000000000000000000000000000000000000000008000002) (hs : Keeps k₀ s₀ s) :
    Keeps k₀ s₀ (State.sendPtp s p m) := by
  unfold State.sendPtp
  repeat' first
    | exact hm.trans (by decide)
    | with_reducible first
      | assumption | intro _ | refine Keeps.of_eq (by with_reducible assumption) ?_ | apply State.sendOn_keeps
      | apply Keeps.ite
    | split | (dsimp only; split)

theorem State.ptpMessage_keeps {k₀ : Nat} {s₀ s : State} (p : Nat) (m : PtpMsg)
    (hm : Covers k₀ 0x801c04008000000000000000000000000000000000008004022) (hs : Keeps k₀ s₀ s) :
    Keeps k₀ s₀ (State.ptpMessage s p m) := by
  unfold State.ptpMessage
  repeat' first
    | exact hm.trans (by decide)
    | with_reducible first
      | assumption | intro _ | refine Keeps.of_eq (by with_reducible assumption) ?_ | apply State.heardAnnounce_keeps
      | apply State.pathDelayDone_keeps | apply State.sendPtp_keeps | apply Keeps.ite
    | split | (dsimp only; split)

theorem execPtpMessage_keeps {k₀ : Nat} {s₀ s : State} (port : Fin 4) (domain : Nat) (m : PtpMsg)
    (hm : Covers k₀ 0xc01c04008000000000000000000000000000000000008004022) (hs : Keeps k₀ s₀ s) :
    Outcome.Keeps k₀ s₀ (execPtpMessage port domain m s) := by
  unfold execPtpMessage
  repeat' first
    | exact hm.trans (by decide)
    | with_reducible first
      | assumption | intro _ | refine Keeps.of_eq (by with_reducible assumption) ?_ | apply State.arrive_keeps
      | apply State.ptpMessage_keeps | apply Keeps.ite | apply Outcome.keeps_next
    | split | (dsimp only; split)

theorem execPtpSourceLoss_keeps {k₀ : Nat} {s₀ s : State}
    (hm : Covers k₀ 0x200618a0000000000000000000000000000000000000000005c04008000000000000000000000000000000000000414022) (hs : Keeps k₀ s₀ s) :
    Outcome.Keeps k₀ s₀ (execPtpSourceLoss s) := by
  unfold execPtpSourceLoss
  repeat' first
    | exact hm.trans (by decide)
    | with_reducible first
      | assumption | intro _ | refine Keeps.of_eq (by with_reducible assumption) ?_ | apply State.sourceLoss_keeps
      | apply Keeps.ite | apply Outcome.keeps_next
    | split | (dsimp only; split)

theorem execStepCommand_keeps {k₀ : Nat} {s₀ s : State} (hm : Covers k₀ 0x108000000000000000000000000000000000000004022)
    (hs : Keeps k₀ s₀ s) :
    Outcome.Keeps k₀ s₀ (execStepCommand s) := by
  unfold execStepCommand
  repeat' first
    | exact hm.trans (by decide)
    | with_reducible first
      | assumption | intro _ | refine Keeps.of_eq (by with_reducible assumption) ?_ | apply State.stepCommand_keeps
      | apply Keeps.ite | apply Outcome.keeps_next
    | split | (dsimp only; split)

theorem execClockCapture_keeps {k₀ : Nat} {s₀ s : State}
    (hm : Covers k₀ 0x3c00000000000000000000000000000000000010000002) (hs : Keeps k₀ s₀ s) :
    Outcome.Keeps k₀ s₀ (execClockCapture s) := by
  unfold execClockCapture
  repeat' first
    | exact hm.trans (by decide)
    | with_reducible first
      | assumption | intro _ | refine Keeps.of_eq (by with_reducible assumption) ?_ | apply State.clockCapture_keeps
      | apply Keeps.ite | apply Outcome.keeps_next
    | split | (dsimp only; split)

theorem State.ptpSend_keeps {k₀ : Nat} {s₀ s : State} (p : Nat) (kind : PtpKind) (raw : Int)
    (hm : Covers k₀ 0x800000000000000000000000000000000000000000008004002) (hs : Keeps k₀ s₀ s) :
    Keeps k₀ s₀ (State.ptpSend s p kind raw) := by
  unfold State.ptpSend
  repeat' first
    | exact hm.trans (by decide)
    | with_reducible first
      | assumption | intro _ | refine Keeps.of_eq (by with_reducible assumption) ?_ | apply State.modPort_keeps
      | apply State.sendPtp_keeps | apply Keeps.ite
    | split | (dsimp only; split)

theorem execPtpMessageSend_keeps {k₀ : Nat} {s₀ s : State} (port : Fin 4) (kind : PtpKind) (raw : Int)
    (hm : Covers k₀ 0x800000000000000000000000000000000000000000008004002) (hs : Keeps k₀ s₀ s) :
    Outcome.Keeps k₀ s₀ (execPtpMessageSend port kind raw s) := by
  unfold execPtpMessageSend
  repeat' first
    | exact hm.trans (by decide)
    | with_reducible first
      | assumption | intro _ | refine Keeps.of_eq (by with_reducible assumption) ?_ | apply State.ptpSend_keeps
      | apply Keeps.ite | apply Outcome.keeps_next
    | split | (dsimp only; split)

/-! ### Machine/Queues.lean -/

theorem State.modQueue_keeps {k₀ : Nat} {s₀ s : State} (q : QueueId) (g : Queue → Queue) (hm : Covers k₀ 0x4000000)
    (hs : Keeps k₀ s₀ s) :
    Keeps k₀ s₀ (State.modQueue s q g) := by
  unfold State.modQueue
  repeat' first
    | exact hm.trans (by decide)
    | with_reducible first
      | assumption | intro _ | refine Keeps.of_eq (by with_reducible assumption) ?_ | apply Keeps.ite
    | split | (dsimp only; split) | with_reducible apply Keeps.mk_queues

theorem State.setBank_keeps {k₀ : Nat} {s₀ s : State} (q : QueueId) (b : Fin 2) (v : Nat)
    (hm : Covers k₀ 0x40000000000000000800000000000000001100000000000000000000000000000000000002) (hs : Keeps k₀ s₀ s) :
    Keeps k₀ s₀ (State.setBank s q b v) := by
  unfold State.setBank
  repeat' first
    | exact hm.trans (by decide)
    | with_reducible first
      | exact queueStatus_in | assumption | intro _ | refine Keeps.of_eq (by with_reducible assumption) ?_
      | apply State.putFld_keeps | apply Keeps.ite
    | split | (dsimp only; split)

theorem State.handOverBank_keeps {k₀ : Nat} {s₀ s : State} (q : QueueId) (b : Fin 2)
    (hm : Covers k₀ 0x40000000000000000800000000000000001100000000000000000000000000000004000002) (hs : Keeps k₀ s₀ s) :
    Keeps k₀ s₀ (State.handOverBank s q b) := by
  unfold State.handOverBank
  repeat' first
    | exact hm.trans (by decide)
    | with_reducible first
      | assumption | intro _ | refine Keeps.of_eq (by with_reducible assumption) ?_ | apply State.modQueue_keeps
      | apply State.setBank_keeps | apply Keeps.ite
    | split | (dsimp only; split)

theorem State.appendPacket_keeps {k₀ : Nat} {s₀ s : State} (q : QueueId) (b : Fin 2) (p : Packet)
    (hm : Covers k₀ 0x40000000000000000800000000000000001100000000000000000000000000000004000002) (hs : Keeps k₀ s₀ s) :
    Keeps k₀ s₀ (State.appendPacket s q b p) := by
  unfold State.appendPacket
  repeat' first
    | exact hm.trans (by decide)
    | with_reducible first
      | assumption | intro _ | refine Keeps.of_eq (by with_reducible assumption) ?_ | apply State.handOverBank_keeps
      | apply State.modQueue_keeps | apply Keeps.ite
    | split | (dsimp only; split)

theorem State.enqueue_keeps {k₀ : Nat} {s₀ s : State} (q : QueueId) (p : Packet)
    (hm : Covers k₀ 0x40000000000000000800000000000000001100000000000000000000000000000004000002) (hs : Keeps k₀ s₀ s) :
    Keeps k₀ s₀ (State.enqueue s q p) := by
  unfold State.enqueue
  repeat' first
    | exact hm.trans (by decide)
    | with_reducible first
      | exact queueStatus_in | assumption | intro _ | refine Keeps.of_eq (by with_reducible assumption) ?_
      | apply State.appendPacket_keeps | apply State.flag_keeps | apply State.modQueue_keeps | apply State.setBank_keeps
      | apply Keeps.ite
    | split | (dsimp only; split)

theorem State.endInBank_keeps {k₀ : Nat} {s₀ s : State} (q : QueueId) (b : Fin 2) (good : Bool)
    (hm : Covers k₀ 0x40000000000000000800000000000000001100000000000000000000000000000004000002) (hs : Keeps k₀ s₀ s) :
    Keeps k₀ s₀ (State.endInBank s q b good) := by
  unfold State.endInBank
  repeat' first
    | exact hm.trans (by decide)
    | with_reducible first
      | assumption | intro _ | refine Keeps.of_eq (by with_reducible assumption) ?_ | apply State.handOverBank_keeps
      | apply State.modQueue_keeps | apply Keeps.ite
    | split | (dsimp only; split)

theorem State.endWaiting_keeps {k₀ : Nat} {s₀ s : State} (q : QueueId) (good : Bool)
    (hm : Covers k₀ 0x200618a00000000000000000c0000000000000001800000000000000003300000000000000000000000000000004410002) (hs : Keeps k₀ s₀ s) :
    Keeps k₀ s₀ (State.endWaiting s q good) := by
  unfold State.endWaiting
  repeat' first
    | exact hm.trans (by decide)
    | with_reducible first
      | exact queueStatus_in | exact queueDrop_in | assumption | intro _
      | refine Keeps.of_eq (by with_reducible assumption) ?_ | apply State.bump_keeps | apply State.evLimit_keeps
      | apply State.flag_keeps | apply State.modQueue_keeps | apply State.when_keeps | apply Keeps.ite
    | split | (dsimp only; split)

theorem State.endPacket_keeps {k₀ : Nat} {s₀ s : State} (q : QueueId) (good : Bool)
    (hm : Covers k₀ 0x200618a00000000000000000c0000000000000001800000000000000003300000000000000000000000000000004410002) (hs : Keeps k₀ s₀ s) :
    Keeps k₀ s₀ (State.endPacket s q good) := by
  unfold State.endPacket
  repeat' first
    | exact hm.trans (by decide)
    | with_reducible first
      | exact queueStatus_in | assumption | intro _ | refine Keeps.of_eq (by with_reducible assumption) ?_
      | apply State.endInBank_keeps | apply State.endWaiting_keeps | apply State.flag_keeps | apply State.when_keeps
      | apply Keeps.ite
    | split | (dsimp only; split)

theorem State.queueEcc_keeps {k₀ : Nat} {s₀ s : State} (q : QueueId)
    (hm : Covers k₀ 0x200618a0000000000000000040000000000000000800000000000000001100000000000000000000000000000000410002) (hs : Keeps k₀ s₀ s) :
    Keeps k₀ s₀ (State.queueEcc s q) := by
  unfold State.queueEcc
  repeat' first
    | exact hm.trans (by decide)
    | with_reducible first
      | exact queueStatus_in | assumption | intro _ | refine Keeps.of_eq (by with_reducible assumption) ?_
      | apply State.event_keeps | apply State.flag_keeps | apply Keeps.ite
    | split | (dsimp only; split)

theorem execQueuePacketEnd_keeps {k₀ : Nat} {s₀ s : State} (q : QueueId) (size : Nat) (how : PacketEnd)
    (hm : Covers k₀ 0x200618a00000000000000000c0000000000000001800000000000000003300080000000000000000000000000004410002) (hs : Keeps k₀ s₀ s) :
    Outcome.Keeps k₀ s₀ (execQueuePacketEnd q size how s) := by
  unfold execQueuePacketEnd
  repeat' first
    | exact hm.trans (by decide)
    | with_reducible first
      | exact SOP_FCSERR_in | assumption | intro _ | refine Keeps.of_eq (by with_reducible assumption) ?_
      | apply State.bump_keeps | apply State.endPacket_keeps | apply State.enqueue_keeps | apply State.queueEcc_keeps
      | apply Keeps.ite | apply Outcome.keeps_next
    | split | (dsimp only; split)

theorem execQueueTailTimeout_keeps {k₀ : Nat} {s₀ s : State} (q : QueueId)
    (hm : Covers k₀ 0x140000000000000002800000000000000005500000000000000000000000000000004000002) (hs : Keeps k₀ s₀ s) :
    Outcome.Keeps k₀ s₀ (execQueueTailTimeout q s) := by
  unfold execQueueTailTimeout
  repeat' first
    | exact hm.trans (by decide)
    | with_reducible first
      | exact queueTout_in | assumption | intro _ | refine Keeps.of_eq (by with_reducible assumption) ?_
      | apply State.bump_keeps | apply State.handOverBank_keeps | apply State.modQueue_keeps | apply Keeps.ite
      | apply Outcome.keeps_next
    | split | (dsimp only; split)

theorem State.headPacket_keeps {k₀ : Nat} {s₀ s : State} (q : QueueId)
    (hm : Covers k₀ 0xc0000000000000001800000000000000003300000000000000000000000000000004000002) (hs : Keeps k₀ s₀ s) :
    Keeps k₀ s₀ (State.headPacket s q).1 := by
  unfold State.headPacket
  repeat' first
    | exact hm.trans (by decide)
    | with_reducible first
      | exact queueDrop_in | assumption | intro _ | refine Keeps.of_eq (by with_reducible assumption) ?_
      | apply State.bumpBy_keeps | apply State.modQueue_keeps | apply State.setBank_keeps | apply Keeps.ite
    | split | (dsimp only; split)

theorem State.popPacket_keeps {k₀ : Nat} {s₀ s : State} (q : QueueId) (hm : Covers k₀ 0x4000000) (hs : Keeps k₀ s₀ s) :
    Keeps k₀ s₀ (State.popPacket s q) := by
  unfold State.popPacket
  repeat' first
    | exact hm.trans (by decide)
    | with_reducible first
      | assumption | intro _ | refine Keeps.of_eq (by with_reducible assumption) ?_ | apply State.modQueue_keeps
      | apply Keeps.ite
    | split | (dsimp only; split)

theorem State.refill_keeps {k₀ : Nat} {s₀ s : State} (q : QueueId)
    (hm : Covers k₀ 0x40000000000000000800000000000000001100000000000000000000000000000004000002) (hs : Keeps k₀ s₀ s) :
    Keeps k₀ s₀ (State.refill s q) := by
  unfold State.refill
  repeat' first
    | exact hm.trans (by decide)
    | with_reducible first
      | assumption | intro _ | refine Keeps.of_eq (by with_reducible assumption) ?_ | apply State.endInBank_keeps
      | apply State.enqueue_keeps | apply State.forEach_keeps | apply State.modQueue_keeps | apply Keeps.ite
    | split | (dsimp only; split)

theorem execQueueBankDrained_keeps {k₀ : Nat} {s₀ s : State} (q : QueueId)
    (hm : Covers k₀ 0xc0000000000000001800000000000000003300000000000000000000000000000004000002) (hs : Keeps k₀ s₀ s) :
    Outcome.Keeps k₀ s₀ (execQueueBankDrained q s) := by
  unfold execQueueBankDrained
  repeat' first
    | exact hm.trans (by decide)
    | with_reducible first
      | exact queueDrop_in | assumption | intro _ | refine Keeps.of_eq (by with_reducible assumption) ?_
      | apply State.bumpBy_keeps | apply State.headPacket_keeps | apply State.modQueue_keeps | apply State.refill_keeps
      | apply State.setBank_keeps | apply Keeps.ite | apply Outcome.keeps_next
    | split | (dsimp only; split)

theorem State.emptyQueue_keeps {k₀ : Nat} {s₀ s : State} (q : QueueId)
    (hm : Covers k₀ 0x40000000000000000800000000000000001100000000000000000000000000000004000002) (hs : Keeps k₀ s₀ s) :
    Keeps k₀ s₀ (State.emptyQueue s q) := by
  unfold State.emptyQueue
  repeat' first
    | exact hm.trans (by decide)
    | with_reducible first
      | assumption | intro _ | refine Keeps.of_eq (by with_reducible assumption) ?_ | apply State.modQueue_keeps
      | apply State.setBank_keeps | apply Keeps.ite
    | split | (dsimp only; split)

end Sys2Proof.Machine
end

