-- ==== Sys2Proof/Laws/KeepsRings.lean ====
section
/-!
SUPPORT. What `Keeps` says of the operations of
the rings, the journal, the signals, the load checks, the modes, the forces, the online change and the streams:
each keeps the canonical form and every part of the state outside its set.
A lemma stands for each operation, in the order of the Machine files.
-/

namespace Sys2Proof.Machine

set_option Elab.async false
set_option linter.all false

/-! ### Machine/Rings.lean -/

theorem State.modStation_keeps {k₀ : Nat} {s₀ s : State} (n : Nat) (id : Nat) (g : Station → Station)
    (hm : Covers k₀ 0x800000) (hs : Keeps k₀ s₀ s) :
    Keeps k₀ s₀ (State.modStation s n id g) := by
  unfold State.modStation
  repeat' first
    | exact hm.trans (by decide)
    | with_reducible first
      | assumption | intro _ | refine Keeps.of_eq (by with_reducible assumption) ?_ | apply State.modRing_keeps
      | apply Keeps.ite
    | split | (dsimp only; split)

theorem State.setSta_keeps {k₀ : Nat} {s₀ s : State} (n : Nat) (id : Nat) (v : Nat)
    (hm : Covers k₀ 0x10000000000000000000000000000000000000002) (hs : Keeps k₀ s₀ s) :
    Keeps k₀ s₀ (State.setSta s n id v) := by
  unfold State.setSta
  repeat' first
    | exact hm.trans (by decide)
    | with_reducible first
      | exact SOP_STA_in | assumption | intro _ | refine Keeps.of_eq (by with_reducible assumption) ?_
      | apply State.putFld_keeps | apply Keeps.ite
    | split | (dsimp only; split)

theorem State.useConsist_keeps {k₀ : Nat} {s₀ s : State} (n : Nat) (id : Nat)
    (hm : Covers k₀ 0x200618a0000000000000000000000000000000000000000000000000000000000020000000000000000000000000410002) (hs : Keeps k₀ s₀ s) :
    Keeps k₀ s₀ (State.useConsist s n id) := by
  unfold State.useConsist
  repeat' first
    | exact hm.trans (by decide)
    | with_reducible first
      | exact SOP_STATUS_in | assumption | intro _ | refine Keeps.of_eq (by with_reducible assumption) ?_
      | apply State.evGroup_keeps | apply State.flag_keeps | apply Keeps.ite
    | split | (dsimp only; split)

theorem State.useIdt_keeps {k₀ : Nat} {s₀ s : State} (n : Nat) (typ : Nat) (owner : Nat) (dst : Nat) (i : Nat)
    (hm : Covers k₀ 0x200618a000000000000000000000000000000000000000000000000000000000000da00a81800000000000000000410002) (hs : Keeps k₀ s₀ s) :
    Keeps k₀ s₀ (State.useIdt s n typ owner dst i).1 := by
  unfold State.useIdt
  repeat' first
    | exact hm.trans (by decide)
    | with_reducible first
      | exact IMG_IDTBAD_in | exact IMG_IDTLAST_in | exact IMG_STATUS_in | assumption | intro _
      | refine Keeps.of_eq (by with_reducible assumption) ?_ | apply State.bump_keeps | apply State.evGroup_keeps
      | apply State.flag_keeps | apply State.reportRange_keeps | apply State.setReg_keeps | apply Keeps.ite
    | split | (dsimp only; split)

theorem State.useIdts_keeps {k₀ : Nat} {s₀ s : State} (n : Nat) (typ : Nat) (owner : Nat) (dst : Nat) (y0 : List Nat)
    (hm : Covers k₀ 0x200618a000000000000000000000000000000000000000000000000000000000000da00a81800000000000000000410002) (hs : Keeps k₀ s₀ s) :
    Keeps k₀ s₀ (State.useIdts s n typ owner dst y0).1 := by
  fun_induction State.useIdts s n typ owner dst y0
  all_goals
    repeat' first
      | exact hm.trans (by decide)
      | with_reducible first
        | assumption | intro _ | refine (‹Keeps _ _ _ → _› ?_) | refine Keeps.of_eq (by with_reducible assumption) ?_
        | apply State.useIdt_keeps | apply Keeps.ite
      | split | (dsimp only; split)

theorem State.setHeld_keeps {k₀ : Nat} {s₀ s : State} (analog : Bool) (i : Nat) (v : Nat) (hm : Covers k₀ 0x1000000)
    (hs : Keeps k₀ s₀ s) :
    Keeps k₀ s₀ (State.setHeld s analog i v) := by
  unfold State.setHeld
  repeat' first
    | exact hm.trans (by decide)
    | with_reducible first
      | assumption | intro _ | refine Keeps.of_eq (by with_reducible assumption) ?_ | apply Keeps.ite
    | split | (dsimp only; split) | with_reducible apply Keeps.mk_held

theorem State.fillBlock_keeps {k₀ : Nat} {s₀ s : State} (bank : Nat) (b : IoBlock) (f : Nat → Point)
    (hm : Covers k₀ 0x200618a0000000000000000000000000000000000000000000000000000000000001a00a8180000000000000000041001a) (hs : Keeps k₀ s₀ s) :
    Keeps k₀ s₀ (State.fillBlock s bank b f) := by
  unfold State.fillBlock
  repeat' first
    | exact hm.trans (by decide)
    | with_reducible first
      | assumption | intro _ | refine Keeps.of_eq (by with_reducible assumption) ?_ | apply State.forEach_keeps
      | apply State.putPoint_keeps | apply Keeps.ite
    | split | (dsimp only; split)

theorem State.fillSafe_keeps {k₀ : Nat} {s₀ s : State} (bank : Nat) (b : IoBlock)
    (hm : Covers k₀ 0x200618a0000000000000000000000000000000000000000000000000000000000001a00a8180000000000000000041001a) (hs : Keeps k₀ s₀ s) :
    Keeps k₀ s₀ (State.fillSafe s bank b) := by
  unfold State.fillSafe
  repeat' first
    | exact hm.trans (by decide)
    | with_reducible first
      | assumption | intro _ | refine Keeps.of_eq (by with_reducible assumption) ?_ | apply State.fillBlock_keeps
      | apply Keeps.ite
    | split | (dsimp only; split)

theorem State.meetBlock_keeps {k₀ : Nat} {s₀ s : State} (base : Nat) (b : IoBlock)
    (hm : Covers k₀ 0x200618a0000000000000000000000000000000000000000000000000000000000001a00a81800000000000000000410002) (hs : Keeps k₀ s₀ s) :
    Keeps k₀ s₀ (State.meetBlock s base b) := by
  unfold State.meetBlock
  repeat' first
    | exact hm.trans (by decide)
    | with_reducible first
      | assumption | intro _ | refine Keeps.of_eq (by with_reducible assumption) ?_ | apply State.meetPoints_keeps
      | apply Keeps.ite
    | split | (dsimp only; split)

theorem State.fillLate_keeps {k₀ : Nat} {s₀ s : State} (bank : Nat) (prev : Nat) (b : IoBlock)
    (hm : Covers k₀ 0x200618a0000000000000000000000000000000000000000000000000000000000001a00a8180000000000000000041001a) (hs : Keeps k₀ s₀ s) :
    Keeps k₀ s₀ (State.fillLate s bank prev b) := by
  unfold State.fillLate
  repeat' first
    | exact hm.trans (by decide)
    | with_reducible first
      | assumption | intro _ | refine Keeps.of_eq (by with_reducible assumption) ?_ | apply State.fillBlock_keeps
      | apply State.meetBlock_keeps | apply Keeps.ite
    | split | (dsimp only; split)

theorem State.fillDropped_keeps {k₀ : Nat} {s₀ s : State} (bank : Nat) (b : IoBlock)
    (hm : Covers k₀ 0x200618a0000000000000000000000000000000000000000000000000000000000001a00a8180000000000000000041001a) (hs : Keeps k₀ s₀ s) :
    Keeps k₀ s₀ (State.fillDropped s bank b) := by
  unfold State.fillDropped
  repeat' first
    | exact hm.trans (by decide)
    | with_reducible first
      | assumption | intro _ | refine Keeps.of_eq (by with_reducible assumption) ?_ | apply State.fillBlock_keeps
      | apply State.meetBlock_keeps | apply State.when_keeps | apply Keeps.ite
    | split | (dsimp only; split)

theorem State.fillInput_keeps {k₀ : Nat} {s₀ s : State} (bank : Nat) (payload : List Byte) (b : IoBlock)
    (hm : Covers k₀ 0x200618a0000000000000000000000000000000000000000000000000000000000001a00a8180000000000000000141001a) (hs : Keeps k₀ s₀ s) :
    Keeps k₀ s₀ (State.fillInput s bank payload b) := by
  unfold State.fillInput
  repeat' first
    | exact hm.trans (by decide)
    | with_reducible first
      | assumption | intro _ | refine Keeps.of_eq (by with_reducible assumption) ?_ | apply State.forEach_keeps
      | apply State.putPoint_keeps | apply State.setHeld_keeps | apply Keeps.ite
    | split | (dsimp only; split)

theorem State.outValues_keeps {k₀ : Nat} {s₀ s : State} (b : IoBlock)
    (hm : Covers k₀ 0x200618a0000000000000000000000000000000000000000000000000000000000001a00a81800000000000000000410002) (hs : Keeps k₀ s₀ s) :
    Keeps k₀ s₀ (State.outValues s b).1 := by
  unfold State.outValues
  repeat' first
    | exact hm.trans (by decide)
    | with_reducible first
      | assumption | intro _ | refine Keeps.of_eq (by with_reducible assumption) ?_ | apply State.forEach_keeps
      | apply State.reportRange_keeps | apply Keeps.ite
    | split | (dsimp only; split)

theorem State.outBlocks_keeps {k₀ : Nat} {s₀ s : State} (y0 : List IoBlock) (y1 : List Byte)
    (hm : Covers k₀ 0x200618a0000000000000000000000000000000000000000000000000000000000001a00a81800000000000000000410002) (hs : Keeps k₀ s₀ s) :
    Keeps k₀ s₀ (State.outBlocks s y0 y1).1 := by
  fun_induction State.outBlocks s y0 y1
  all_goals
    repeat' first
      | exact hm.trans (by decide)
      | with_reducible first
        | assumption | intro _ | refine (‹Keeps _ _ _ → _› ?_) | refine Keeps.of_eq (by with_reducible assumption) ?_
        | apply State.outValues_keeps | apply Keeps.ite
      | split | (dsimp only; split)

theorem State.countDiscard_keeps {k₀ : Nat} {s₀ s : State} (n : Nat) (b : IoBlock)
    (hm : Covers k₀ 0x8000000000000000000000000000000800002) (hs : Keeps k₀ s₀ s) :
    Keeps k₀ s₀ (State.countDiscard s n b) := by
  unfold State.countDiscard
  repeat' first
    | exact hm.trans (by decide)
    | with_reducible first
      | exact SOP_OUTDISC_in | assumption | intro _ | refine Keeps.of_eq (by with_reducible assumption) ?_
      | apply State.bump_keeps | apply State.modRing_keeps | apply Keeps.ite
    | split | (dsimp only; split)

theorem State.outPayload_keeps {k₀ : Nat} {s₀ s : State} (n : Nat) (l : List IoBlock)
    (hm : Covers k₀ 0x200618a0000000000000000000000000000000000000000000000000000008000001a00a81800000000000000000c10002) (hs : Keeps k₀ s₀ s) :
    Keeps k₀ s₀ (State.outPayload s n l).1 := by
  unfold State.outPayload
  repeat' first
    | exact hm.trans (by decide)
    | with_reducible first
      | assumption | intro _ | refine Keeps.of_eq (by with_reducible assumption) ?_ | apply State.countDiscard_keeps
      | apply State.forEach_keeps | apply State.outBlocks_keeps | apply Keeps.ite
    | split | (dsimp only; split)

theorem State.sendCopies_keeps {k₀ : Nat} {s₀ s : State} (n : Nat) (typ : Nat) (dst : Nat) (slot : Nat) (fcnt : Nat)
    (stat : Nat) (room : Nat) (east : Int) (west : Int) (payload : List Byte) (hm : Covers k₀ 0x8000000) (hs : Keeps k₀ s₀ s) :
    Keeps k₀ s₀ (State.sendCopies s n typ dst slot fcnt stat room east west payload) := by
  unfold State.sendCopies
  repeat' first
    | exact hm.trans (by decide)
    | with_reducible first
      | assumption | intro _ | refine Keeps.of_eq (by with_reducible assumption) ?_ | apply State.send_keeps
      | apply Keeps.ite
    | split | (dsimp only; split)

theorem State.sendFrame_keeps {k₀ : Nat} {s₀ s : State} (n : Nat) (typ : Nat) (dst : Nat) (slot : Nat) (fcnt : Nat)
    (stat : Nat) (room : Nat) (t : Int) (payload : List Byte) (hm : Covers k₀ 0x8000000) (hs : Keeps k₀ s₀ s) :
    Keeps k₀ s₀ (State.sendFrame s n typ dst slot fcnt stat room t payload) := by
  unfold State.sendFrame
  repeat' first
    | exact hm.trans (by decide)
    | with_reducible first
      | assumption | intro _ | refine Keeps.of_eq (by with_reducible assumption) ?_ | apply State.sendCopies_keeps
      | apply Keeps.ite
    | split | (dsimp only; split)

theorem State.sampleTb_keeps {k₀ : Nat} {s₀ s : State} (hm : Covers k₀ 0x4000) (hs : Keeps k₀ s₀ s) :
    Keeps k₀ s₀ (State.sampleTb s) := by
  unfold State.sampleTb
  repeat' first
    | exact hm.trans (by decide)
    | with_reducible first
      | assumption | intro _ | refine Keeps.of_eq (by with_reducible assumption) ?_ | apply State.modTime_keeps
      | apply Keeps.ite
    | split | (dsimp only; split)

/-! ### Machine/Schedule.lean -/

theorem State.enableSlot_keeps {k₀ : Nat} {s₀ s : State} (n : Nat) (i : Nat)
    (hm : Covers k₀ 0x3c00000000000000000000000000000000000000002) (hs : Keeps k₀ s₀ s) :
    Keeps k₀ s₀ (State.enableSlot s n i) := by
  unfold State.enableSlot
  repeat' first
    | exact hm.trans (by decide)
    | with_reducible first
      | exact SOP_SLOT_W0_in | exact SOP_SLOT_W1_in | exact SOP_SLOT_W2_in | exact SOP_SLOT_W3_in | assumption | intro _
      | refine Keeps.of_eq (by with_reducible assumption) ?_ | apply State.flag_keeps | apply State.putFld_keeps
      | apply Keeps.ite
    | split | (dsimp only; split)

theorem State.enableSlots_keeps {k₀ : Nat} {s₀ s : State} (n : Nat) (is : List Nat)
    (hm : Covers k₀ 0x3c00000000000000000000000000000000000000002) (hs : Keeps k₀ s₀ s) :
    Keeps k₀ s₀ (State.enableSlots s n is) := by
  unfold State.enableSlots
  repeat' first
    | exact hm.trans (by decide)
    | with_reducible first
      | assumption | intro _ | refine Keeps.of_eq (by with_reducible assumption) ?_ | apply State.enableSlot_keeps
      | apply State.forEach_keeps | apply Keeps.ite
    | split | (dsimp only; split)

/-! ### Machine/Way.lean -/

theorem State.modBridge_keeps {k₀ : Nat} {s₀ s : State} (g : Bridge → Bridge) (hm : Covers k₀ 0x2000000)
    (hs : Keeps k₀ s₀ s) :
    Keeps k₀ s₀ (State.modBridge s g) := by
  unfold State.modBridge
  repeat' first
    | exact hm.trans (by decide)
    | with_reducible first
      | assumption | intro _ | refine Keeps.of_eq (by with_reducible assumption) ?_ | apply Keeps.ite
    | split | (dsimp only; split) | with_reducible apply Keeps.mk_bridge

theorem State.writeEntry_keeps {k₀ : Nat} {s₀ s : State} (e : WayEntry)
    (hm : Covers k₀ 0x200618a0000000000000000000000000000000000000000000000000000000000001a00a8180000000000000000041001a) (hs : Keeps k₀ s₀ s) :
    Keeps k₀ s₀ (State.writeEntry s e) := by
  unfold State.writeEntry
  repeat' first
    | exact hm.trans (by decide)
    | with_reducible first
      | assumption | intro _ | refine Keeps.of_eq (by with_reducible assumption) ?_ | apply State.writeRun_keeps
      | apply Keeps.ite
    | split | (dsimp only; split)

theorem State.refreshFree_keeps {k₀ : Nat} {s₀ s : State}
    (hm : Covers k₀ 0x2000000000000000000000000000000000000000000000000000000000002) (hs : Keeps k₀ s₀ s) :
    Keeps k₀ s₀ (State.refreshFree s) := by
  unfold State.refreshFree
  repeat' first
    | exact hm.trans (by decide)
    | with_reducible first
      | exact WAY_FREE_in | assumption | intro _ | refine Keeps.of_eq (by with_reducible assumption) ?_
      | apply State.putFld_keeps | apply Keeps.ite
    | split | (dsimp only; split)

theorem State.advanceLine_keeps {k₀ : Nat} {s₀ s : State} (n : Nat) (hm : Covers k₀ 0x2000000) (hs : Keeps k₀ s₀ s) :
    Keeps k₀ s₀ (State.advanceLine s n) := by
  unfold State.advanceLine
  repeat' first
    | exact hm.trans (by decide)
    | with_reducible first
      | assumption | intro _ | refine Keeps.of_eq (by with_reducible assumption) ?_ | apply State.modBridge_keeps
      | apply Keeps.ite
    | split | (dsimp only; split)

theorem State.ownEntry_keeps {k₀ : Nat} {s₀ s : State} (kind : Nat) (lines : Nat) (payload : List Byte)
    (hm : Covers k₀ 0x200618a0000000000000000000000000000000000000000000000000000000000001a00a8180000000000000000241001a) (hs : Keeps k₀ s₀ s) :
    Keeps k₀ s₀ (State.ownEntry s kind lines payload) := by
  unfold State.ownEntry
  repeat' first
    | exact hm.trans (by decide)
    | with_reducible first
      | assumption | intro _ | refine Keeps.of_eq (by with_reducible assumption) ?_ | apply State.advanceLine_keeps
      | apply State.writeEntry_keeps | apply Keeps.ite
    | split | (dsimp only; split)

theorem State.makeRoom_keeps' {k₀ : Nat} {s₀ s : State} (n : Nat) {t₁ : State} (e₁ : State.makeRoom s n = some t₁)
    (hm : Covers k₀ 0x200618a0000000000000000000000000000000000000000000000000000000000001a00a8180000000000000000241001a) (hs : Keeps k₀ s₀ s) : Keeps k₀ s₀ t₁ := by
  have fits : ∀ {c : Prop} [Decidable c] {u : State}, (if c then some u else none) = some t₁ → u = t₁ := by
    intro c _ u e
    split at e
    · exact Option.some.inj e
    · cases e
  unfold State.makeRoom at e₁
  dsimp only at e₁
  split at e₁
  · cases fits e₁
    exact hs
  · split at e₁
    · cases e₁
    · rw [← fits e₁]
      apply State.ownEntry_keeps _ _ _ (hm.trans (by decide))
      exact Keeps.ite hs (State.ownEntry_keeps _ _ _ (hm.trans (by decide)) hs)

theorem State.refreshReceipt_keeps {k₀ : Nat} {s₀ s : State} (st : Nat)
    (hm : Covers k₀ 0x200000000000000000000000000000000000000000000000000000000000002) (hs : Keeps k₀ s₀ s) :
    Keeps k₀ s₀ (State.refreshReceipt s st) := by
  unfold State.refreshReceipt
  repeat' first
    | exact hm.trans (by decide)
    | with_reducible first
      | exact WAY_RCPT_in | assumption | intro _ | refine Keeps.of_eq (by with_reducible assumption) ?_
      | apply State.setReg_keeps | apply Keeps.ite
    | split | (dsimp only; split)

theorem State.wayBusy_keeps {k₀ : Nat} {s₀ s : State}
    (hm : Covers k₀ 0x41000000000000000000000000000000000000000000000000000000000002) (hs : Keeps k₀ s₀ s) :
    Keeps k₀ s₀ (State.wayBusy s) := by
  unfold State.wayBusy
  repeat' first
    | exact hm.trans (by decide)
    | with_reducible first
      | exact WAY_BUSYCNT_in | exact WAY_STATUS_in | assumption | intro _
      | refine Keeps.of_eq (by with_reducible assumption) ?_ | apply State.bump_keeps | apply State.flag_keeps
      | apply Keeps.ite
    | split | (dsimp only; split)

theorem State.dropFree_keeps {k₀ : Nat} {s₀ s : State}
    (hm : Covers k₀ 0x2000000000000000000000000000000000000000000000000000002000002) (hs : Keeps k₀ s₀ s) :
    Keeps k₀ s₀ (State.dropFree s) := by
  unfold State.dropFree
  repeat' first
    | exact hm.trans (by decide)
    | with_reducible first
      | assumption | intro _ | refine Keeps.of_eq (by with_reducible assumption) ?_ | apply State.modBridge_keeps
      | apply State.refreshFree_keeps | apply Keeps.ite
    | split | (dsimp only; split)

theorem State.journalItem_keeps' {k₀ : Nat} {s₀ s : State} (kind st seq key key2 : Nat) (payload : List Byte) (remote : Bool)
    {t₁ : State} (e₁ : State.journalItem s kind st seq key key2 payload remote = some t₁) (hm : Covers k₀ 0x200618a0000000000000000000000000000312000000000000000000000000000001a00a8180000000000000000243001a)
    (hs : Keeps k₀ s₀ s) : Keeps k₀ s₀ t₁ := by
  unfold State.journalItem at e₁
  dsimp only at e₁
  split at e₁
  · cases e₁
  · obtain ⟨u, hu, rfl⟩ := Option.map_eq_some_iff.1 e₁
    have := State.makeRoom_keeps' _ hu (hm.trans (by decide)) hs
    repeat' first
      | exact hm.trans (by decide)
      | with_reducible first
        | exact WAY_NEXT_in | exact WAY_ACCCNT_in | assumption | apply State.copyItem_keeps | apply State.refreshFree_keeps | apply State.refreshReceipt_keeps
        | apply State.setReg_keeps | apply State.bump_keeps | apply State.modBridge_keeps | apply State.advanceLine_keeps
        | apply State.writeEntry_keeps

theorem State.markEntry_keeps {k₀ : Nat} {s₀ s : State} (e : WayEntry) (bits : Nat)
    (hm : Covers k₀ 0x200618a0000000000000000000000000000202000000000000000000000000000001a00a8180000000000000000243001a) (hs : Keeps k₀ s₀ s) :
    Keeps k₀ s₀ (State.markEntry s e bits) := by
  unfold State.markEntry
  repeat' first
    | exact hm.trans (by decide)
    | with_reducible first
      | assumption | intro _ | refine Keeps.of_eq (by with_reducible assumption) ?_ | apply State.copyItem_keeps
      | apply State.dropFree_keeps | apply State.healUe_keeps | apply State.modBridge_keeps
      | apply State.refreshReceipt_keeps | apply State.reportUe_keeps | apply State.writeByte_keeps
      | apply State.writeWord_keeps | apply Keeps.ite
    | split | (dsimp only; split)

theorem State.markLine_keeps {k₀ : Nat} {s₀ s : State} (line : Nat) (bits : Nat)
    (hm : Covers k₀ 0x200618a0000000000000000000000000000202000000000000000000000000000001a00a8180000000000000000243001a) (hs : Keeps k₀ s₀ s) :
    Keeps k₀ s₀ (State.markLine s line bits) := by
  unfold State.markLine
  repeat' first
    | exact hm.trans (by decide)
    | with_reducible first
      | assumption | intro _ | refine Keeps.of_eq (by with_reducible assumption) ?_ | apply State.markEntry_keeps
      | apply Keeps.ite
    | split | (dsimp only; split)

theorem State.commitLines_keeps {k₀ : Nat} {s₀ s : State} (ls : List Nat)
    (hm : Covers k₀ 0x200618a0000000000000000000000000000202000000000000000000000000000001a00a8180000000000000000243001a) (hs : Keeps k₀ s₀ s) :
    Keeps k₀ s₀ (State.commitLines s ls) := by
  unfold State.commitLines
  repeat' first
    | exact hm.trans (by decide)
    | with_reducible first
      | assumption | intro _ | refine Keeps.of_eq (by with_reducible assumption) ?_ | apply State.forEach_keeps
      | apply State.markEntry_keeps | apply Keeps.ite
    | split | (dsimp only; split)

theorem State.wayClose_keeps {k₀ : Nat} {s₀ s : State} (ready : Bool) (hm : Covers k₀ 0x2000000) (hs : Keeps k₀ s₀ s) :
    Keeps k₀ s₀ (State.wayClose s ready) := by
  unfold State.wayClose
  repeat' first
    | exact hm.trans (by decide)
    | with_reducible first
      | assumption | intro _ | refine Keeps.of_eq (by with_reducible assumption) ?_ | apply State.modBridge_keeps
      | apply Keeps.ite
    | split | (dsimp only; split)

theorem State.useJq_keeps {k₀ : Nat} {s₀ s : State} (q : Nat)
    (hm : Covers k₀ 0x200618a0000000000000000000000000000001000000000000000000000000000000000000000000000000000000410002) (hs : Keeps k₀ s₀ s) :
    Keeps k₀ s₀ (State.useJq s q) := by
  unfold State.useJq
  repeat' first
    | exact hm.trans (by decide)
    | with_reducible first
      | exact WAY_STATUS_in | assumption | intro _ | refine Keeps.of_eq (by with_reducible assumption) ?_
      | apply State.evGroup_keeps | apply State.flag_keeps | apply Keeps.ite
    | split | (dsimp only; split)

theorem State.bridgePoint_keeps {k₀ : Nat} {s₀ s : State} (base : Nat) (analog : Bool) (i : Nat)
    (hm : Covers k₀ 0x200618a0000000000000000000000000000000000000000000000000000000000001a00a81800000000000000010418002) (hs : Keeps k₀ s₀ s) :
    Keeps k₀ s₀ (State.bridgePoint s base analog i).1 := by
  unfold State.bridgePoint
  repeat' first
    | exact hm.trans (by decide)
    | with_reducible first
      | assumption | intro _ | refine Keeps.of_eq (by with_reducible assumption) ?_ | apply State.reportUe_keeps
      | apply State.unitAddr_keeps | apply Keeps.ite
    | split | (dsimp only; split)

theorem State.bridgePut_keeps {k₀ : Nat} {s₀ s : State} (base : Nat) (analog : Bool) (i : Nat) (p : Point)
    (hm : Covers k₀ 0x200618a0000000000000000000000000000000000000000000000000000000000001a00a8180000000000000001041801a) (hs : Keeps k₀ s₀ s) :
    Keeps k₀ s₀ (State.bridgePut s base analog i p).1 := by
  unfold State.bridgePut
  repeat' first
    | exact hm.trans (by decide)
    | with_reducible first
      | assumption | intro _ | refine Keeps.of_eq (by with_reducible assumption) ?_ | apply State.putCell_keeps
      | apply State.unitAddr_keeps | apply Keeps.ite
    | split | (dsimp only; split)

theorem State.putWord_keeps {k₀ : Nat} {s₀ s : State} (bank : Nat) (i : Nat) (v : Nat)
    (hm : Covers k₀ 0x200618a0000000000000000000000000000000000000000000000000000000000001a00a8180000000000000001041801a) (hs : Keeps k₀ s₀ s) :
    Keeps k₀ s₀ (State.putWord s bank i v) := by
  unfold State.putWord
  repeat' first
    | exact hm.trans (by decide)
    | with_reducible first
      | assumption | intro _ | refine Keeps.of_eq (by with_reducible assumption) ?_ | apply State.bridgePut_keeps
      | apply Keeps.ite
    | split | (dsimp only; split)

theorem State.jobWindow_keeps {k₀ : Nat} {s₀ s : State} (bank : Nat) (q : Nat)
    (hm : Covers k₀ 0x200618a0000000000000000000000000000001000000000000000000000000000001a00a8180000000000000001241801a) (hs : Keeps k₀ s₀ s) :
    Keeps k₀ s₀ (State.jobWindow s bank q) := by
  unfold State.jobWindow
  repeat' first
    | exact hm.trans (by decide)
    | with_reducible first
      | assumption | intro _ | refine Keeps.of_eq (by with_reducible assumption) ?_ | apply State.forEach_keeps
      | apply State.modBridge_keeps | apply State.putWord_keeps | apply State.useJq_keeps | apply Keeps.ite
    | split | (dsimp only; split)

theorem State.jobWindows_keeps {k₀ : Nat} {s₀ s : State} (bank : Nat)
    (hm : Covers k₀ 0x200618a0000000000000000000000000000001000000000000000000000000000001a00a8180000000000000001241801a) (hs : Keeps k₀ s₀ s) :
    Keeps k₀ s₀ (State.jobWindows s bank) := by
  unfold State.jobWindows
  repeat' first
    | exact hm.trans (by decide)
    | with_reducible first
      | assumption | intro _ | refine Keeps.of_eq (by with_reducible assumption) ?_ | apply State.forEach_keeps
      | apply State.jobWindow_keeps | apply Keeps.ite
    | split | (dsimp only; split)

theorem State.readCons_keeps {k₀ : Nat} {s₀ s : State} (q : Nat)
    (hm : Covers k₀ 0x200618a0000000000000000000000000000203000000000000000000000000000001a00a8180000000000000001243801a) (hs : Keeps k₀ s₀ s) :
    Keeps k₀ s₀ (State.readCons s q) := by
  unfold State.readCons
  repeat' first
    | exact hm.trans (by decide)
    | with_reducible first
      | assumption | intro _ | refine Keeps.of_eq (by with_reducible assumption) ?_ | apply State.bridgePoint_keeps
      | apply State.forEach_keeps | apply State.markEntry_keeps | apply State.useJq_keeps | apply Keeps.ite
    | split | (dsimp only; split)

theorem State.deliverMessages_keeps {k₀ : Nat} {s₀ s : State}
    (hm : Covers k₀ 0x200618a00000000000000000000015fff6c202000000000000000000000000000001a00a8180000000000000000243003a) (hs : Keeps k₀ s₀ s) :
    Keeps k₀ s₀ (State.deliverMessages s) := by
  unfold State.deliverMessages
  repeat' first
    | exact hm.trans (by decide)
    | with_reducible first
      | assumption | intro _ | refine Keeps.of_eq (by with_reducible assumption) ?_ | apply State.forEach_keeps
      | apply State.markEntry_keeps | apply State.mbxHostPost_keeps | apply Keeps.ite
    | split | (dsimp only; split)

theorem State.purgeJournal_keeps {k₀ : Nat} {s₀ s : State}
    (hm : Covers k₀ 0x200618a000000000000000000000000000130f0001c0000000000000000000000001a00a8180000000000000000243001a) (hs : Keeps k₀ s₀ s) :
    Keeps k₀ s₀ (State.purgeJournal s) := by
  unfold State.purgeJournal
  repeat' first
    | exact hm.trans (by decide)
    | with_reducible first
      | exact BRG_CH_FINFO_in | exact BRG_CH_FSEQ_in | exact BRG_CH_STATE_in | exact WAY_CMD_in | exact WAY_JQ_QNEXT_in
      | exact WAY_NEXT_in | exact WAY_PURGES_in | exact WAY_RCPT_in | exact WAY_STATUS_in | assumption | intro _
      | refine Keeps.of_eq (by with_reducible assumption) ?_ | apply State.clearLog_keeps | apply State.copyItem_keeps
      | apply State.flag_keeps | apply State.forEach_keeps | apply State.modBridge_keeps | apply State.putFld_keeps
      | apply State.refreshFree_keeps | apply State.setReg_keeps | apply State.writeRun_keeps | apply Keeps.ite
    | split | (dsimp only; split) | with_reducible apply Keeps.mk_cpl

theorem State.purgeGo_keeps {k₀ : Nat} {s₀ s : State}
    (hm : Covers k₀ 0x4000000000000000000000000000000000000000000000000000000000002) (hs : Keeps k₀ s₀ s) :
    Keeps k₀ s₀ (State.purgeGo s) := by
  unfold State.purgeGo
  repeat' first
    | exact hm.trans (by decide)
    | with_reducible first
      | exact WAY_CMD_in | assumption | intro _ | refine Keeps.of_eq (by with_reducible assumption) ?_
      | apply State.flag_keeps | apply Keeps.ite
    | split | (dsimp only; split)

theorem execWayPurge_keeps {k₀ : Nat} {s₀ s : State}
    (hm : Covers k₀ 0x4000000000000000000000000000000000000000000000000000000000002) (hs : Keeps k₀ s₀ s) :
    Outcome.Keeps k₀ s₀ (execWayPurge s) := by
  unfold execWayPurge
  repeat' first
    | exact hm.trans (by decide)
    | with_reducible first
      | assumption | intro _ | refine Keeps.of_eq (by with_reducible assumption) ?_ | apply State.purgeGo_keeps
      | apply Keeps.ite | apply Outcome.keeps_next
    | split | (dsimp only; split)

theorem State.replay_keeps {k₀ : Nat} {s₀ s : State}
    (hm : Covers k₀ 0x200618a0000000000000000000000000001383000000000000000000000000000001a00a8180000000000000000243001a) (hs : Keeps k₀ s₀ s) :
    Keeps k₀ s₀ (State.replay s) := by
  unfold State.replay
  repeat' first
    | exact hm.trans (by decide)
    | with_reducible first
      | exact WAY_BADENT_in | exact WAY_JQ_QNEXT_in | exact WAY_NEXT_in | exact WAY_STATUS_in | assumption | intro _
      | refine Keeps.of_eq (by with_reducible assumption) ?_ | apply State.bump_keeps | apply State.evState_keeps
      | apply State.flag_keeps | apply State.forEach_keeps | apply State.markEntry_keeps | apply State.modBridge_keeps
      | apply State.refreshFree_keeps | apply State.refreshReceipt_keeps | apply State.setReg_keeps | apply Keeps.ite
    | split | (dsimp only; split)

/-! ### Machine/Signals.lean -/

theorem State.useSignal_keeps {k₀ : Nat} {s₀ s : State} (i : Nat) (ue : Bool)
    (hm : Covers k₀ 0x200618a0000000000000000000000000000000070000000000000000000000000000000000000000000000000000410002) (hs : Keeps k₀ s₀ s) :
    Keeps k₀ s₀ (State.useSignal s i ue).1 := by
  unfold State.useSignal
  repeat' first
    | exact hm.trans (by decide)
    | with_reducible first
      | exact SMAP_BAD_in | exact SMAP_LAST_in | exact SMAP_STATUS_in | assumption | intro _
      | refine Keeps.of_eq (by with_reducible assumption) ?_ | apply State.bump_keeps | apply State.evGroup_keeps
      | apply State.flag_keeps | apply State.setReg_keeps | apply Keeps.ite
    | split | (dsimp only; split)

theorem State.readImage_keeps {k₀ : Nat} {s₀ s : State} (g : Signal)
    (hm : Covers k₀ 0x200618a0000000000000000000000000000000000000000000000000000000000001a00a81800000000000000010418002) (hs : Keeps k₀ s₀ s) :
    Keeps k₀ s₀ (State.readImage s g).1 := by
  unfold State.readImage
  repeat' first
    | exact hm.trans (by decide)
    | with_reducible first
      | assumption | intro _ | refine Keeps.of_eq (by with_reducible assumption) ?_ | apply State.bridgePoint_keeps
      | apply Keeps.ite
    | split | (dsimp only; split)

theorem State.writeImage_keeps {k₀ : Nat} {s₀ s : State} (g : Signal) (w : Word)
    (hm : Covers k₀ 0x200618a0000000000000000000000000000000000000000000000000000000000001a00a8180000000000000001243801a) (hs : Keeps k₀ s₀ s) :
    Keeps k₀ s₀ (State.writeImage s g w).1 := by
  unfold State.writeImage
  repeat' first
    | exact hm.trans (by decide)
    | with_reducible first
      | assumption | intro _ | refine Keeps.of_eq (by with_reducible assumption) ?_ | apply State.bridgePoint_keeps
      | apply State.bridgePut_keeps | apply State.copyItem_keeps | apply State.modBridge_keeps | apply Keeps.ite
    | split | (dsimp only; split)

theorem State.carryCells_keeps {k₀ : Nat} {s₀ s : State}
    (hm : Covers k₀ 0x200618a0000000000000000000000000000000000000000000000000000000000001a00a8180000000000000001241801a) (hs : Keeps k₀ s₀ s) :
    Keeps k₀ s₀ (State.carryCells s) := by
  unfold State.carryCells
  repeat' first
    | exact hm.trans (by decide)
    | with_reducible first
      | assumption | intro _ | refine Keeps.of_eq (by with_reducible assumption) ?_ | apply State.bridgePoint_keeps
      | apply State.bridgePut_keeps | apply State.forEach_keeps | apply State.modBridge_keeps | apply Keeps.ite
    | split | (dsimp only; split)

theorem State.countDisc_keeps {k₀ : Nat} {s₀ s : State} (ch : Nat) (k : Nat)
    (hm : Covers k₀ 0x210000000000000000000000000000000000000000000000000000002) (hs : Keeps k₀ s₀ s) :
    Keeps k₀ s₀ (State.countDisc s ch k) := by
  unfold State.countDisc
  repeat' first
    | exact hm.trans (by decide)
    | with_reducible first
      | exact BRG_CH_FDISC_in | exact BRG_FENCEDISC_in | assumption | intro _
      | refine Keeps.of_eq (by with_reducible assumption) ?_ | apply State.bumpBy_keeps | apply Keeps.ite
    | split | (dsimp only; split)

theorem State.discardItem_keeps {k₀ : Nat} {s₀ s : State} (e : WayEntry)
    (hm : Covers k₀ 0x200618a0000000000000000000000000000202000210000000000000000000000001a00a8180000000000000000243001a) (hs : Keeps k₀ s₀ s) :
    Keeps k₀ s₀ (State.discardItem s e) := by
  unfold State.discardItem
  repeat' first
    | exact hm.trans (by decide)
    | with_reducible first
      | assumption | intro _ | refine Keeps.of_eq (by with_reducible assumption) ?_ | apply State.countDisc_keeps
      | apply State.event_keeps | apply State.markEntry_keeps | apply Keeps.ite
    | split | (dsimp only; split)

theorem State.deliverWrite_keeps {k₀ : Nat} {s₀ s : State} (e : WayEntry)
    (hm : Covers k₀ 0x200618a0000000000000000000000000000202070210000000000000000000000001a00a8180000000000000001243801a) (hs : Keeps k₀ s₀ s) :
    Keeps k₀ s₀ (State.deliverWrite s e) := by
  unfold State.deliverWrite
  repeat' first
    | exact hm.trans (by decide)
    | with_reducible first
      | assumption | intro _ | refine Keeps.of_eq (by with_reducible assumption) ?_ | apply State.discardItem_keeps
      | apply State.markEntry_keeps | apply State.useSignal_keeps | apply State.writeImage_keeps | apply Keeps.ite
    | split | (dsimp only; split)

theorem State.deliverWrites_keeps {k₀ : Nat} {s₀ s : State}
    (hm : Covers k₀ 0x200618a0000000000000000000000000000202070210000000000000000000000001a00a8180000000000000001243801a) (hs : Keeps k₀ s₀ s) :
    Keeps k₀ s₀ (State.deliverWrites s) := by
  unfold State.deliverWrites
  repeat' first
    | exact hm.trans (by decide)
    | with_reducible first
      | assumption | intro _ | refine Keeps.of_eq (by with_reducible assumption) ?_ | apply State.deliverWrite_keeps
      | apply State.forEach_keeps | apply Keeps.ite
    | split | (dsimp only; split)

/-! ### Machine/Load.lean -/

theorem State.writeGroups_keeps {k₀ : Nat} {s₀ s : State} (p : Program) (ns : List Nat)
    (hm : Covers k₀ 0xf00000000020002) (hs : Keeps k₀ s₀ s) :
    Keeps k₀ s₀ (State.writeGroups s p ns) := by
  unfold State.writeGroups
  repeat' first
    | exact hm.trans (by decide)
    | with_reducible first
      | exact FRM_TCFG_in | exact FRM_TDEF_in | exact FRM_TDL_in | assumption | intro _
      | refine Keeps.of_eq (by with_reducible assumption) ?_ | apply State.copyItem_keeps | apply State.forEach_keeps
      | apply State.loadReg_keeps | apply State.putFld_keeps | apply State.showMove_keeps | apply Keeps.ite
    | split | (dsimp only; split)

/-! ### Machine/Modes.lean -/

theorem State.accept_keeps {k₀ : Nat} {s₀ s : State} (hs : Keeps k₀ s₀ s) :
    Keeps k₀ s₀ (State.accept s).1 := by
  unfold State.accept
  repeat' first
    | with_reducible first
      | assumption | intro _ | refine Keeps.of_eq (by with_reducible assumption) ?_ | apply Keeps.ite
    | split | (dsimp only; split)

theorem State.refuse_keeps {k₀ : Nat} {s₀ s : State} (item : Nat) (result : Nat)
    (hm : Covers k₀ 0x200618a0000000000000000000000000000000000000000000000000000000000000000000000000000000000000410002) (hs : Keeps k₀ s₀ s) :
    Keeps k₀ s₀ (State.refuse s item result).1 := by
  unfold State.refuse
  repeat' first
    | exact hm.trans (by decide)
    | with_reducible first
      | assumption | intro _ | refine Keeps.of_eq (by with_reducible assumption) ?_ | apply State.evRefused_keeps
      | apply Keeps.ite
    | split | (dsimp only; split)

theorem State.setChg_keeps {k₀ : Nat} {s₀ s : State} (v : Nat) (hm : Covers k₀ 0x10000000002) (hs : Keeps k₀ s₀ s) :
    Keeps k₀ s₀ (State.setChg s v) := by
  unfold State.setChg
  repeat' first
    | exact hm.trans (by decide)
    | with_reducible first
      | exact SYS_CHG_in | assumption | intro _ | refine Keeps.of_eq (by with_reducible assumption) ?_
      | apply State.putFld_keeps | apply Keeps.ite
    | split | (dsimp only; split)

theorem State.modModes_keeps {k₀ : Nat} {s₀ s : State} (g : Modes → Modes) (hm : Covers k₀ 0x1000) (hs : Keeps k₀ s₀ s) :
    Keeps k₀ s₀ (State.modModes s g) := by
  unfold State.modModes
  repeat' first
    | exact hm.trans (by decide)
    | with_reducible first
      | assumption | intro _ | refine Keeps.of_eq (by with_reducible assumption) ?_ | apply Keeps.ite
    | split | (dsimp only; split) | with_reducible apply Keeps.mk_modes

theorem State.forgetWaiting_keeps {k₀ : Nat} {s₀ s : State} (ch : Nat) (hm : Covers k₀ 0x1000) (hs : Keeps k₀ s₀ s) :
    Keeps k₀ s₀ (State.forgetWaiting s ch) := by
  unfold State.forgetWaiting
  repeat' first
    | exact hm.trans (by decide)
    | with_reducible first
      | assumption | intro _ | refine Keeps.of_eq (by with_reducible assumption) ?_ | apply State.modModes_keeps
      | apply Keeps.ite
    | split | (dsimp only; split)

theorem State.cancelWaiting_keeps {k₀ : Nat} {s₀ s : State} (ch : Nat)
    (hm : Covers k₀ 0x200618a0000000000000000000000000000000000000000000000000000000000000000000000000000000010000411002) (hs : Keeps k₀ s₀ s) :
    Keeps k₀ s₀ (State.cancelWaiting s ch) := by
  unfold State.cancelWaiting
  repeat' first
    | exact hm.trans (by decide)
    | with_reducible first
      | assumption | intro _ | refine Keeps.of_eq (by with_reducible assumption) ?_ | apply State.evState_keeps
      | apply State.forgetWaiting_keeps | apply State.setChg_keeps | apply Keeps.ite
    | split | (dsimp only; split)

theorem State.challenge_keeps {k₀ : Nat} {s₀ s : State} (ch : Nat) (c : Word) (w : Waiting)
    (hm : Covers k₀ 0x200618a0000000000000000000000000000000000000000000000000000000000000000000000000000000010000411002) (hs : Keeps k₀ s₀ s) :
    Keeps k₀ s₀ (State.challenge s ch c w).1 := by
  unfold State.challenge
  repeat' first
    | exact hm.trans (by decide)
    | with_reducible first
      | assumption | intro _ | refine Keeps.of_eq (by with_reducible assumption) ?_ | apply State.cancelWaiting_keeps
      | apply State.modModes_keeps | apply Keeps.ite
    | split | (dsimp only; split)

theorem State.cancelPending_keeps {k₀ : Nat} {s₀ s : State} (reason : Nat)
    (hm : Covers k₀ 0x200618a0000000000000000000000000000000000000000000000000000000000000000000000000000000010000412002) (hs : Keeps k₀ s₀ s) :
    Keeps k₀ s₀ (State.cancelPending s reason) := by
  unfold State.cancelPending
  repeat' first
    | exact hm.trans (by decide)
    | with_reducible first
      | assumption | intro _ | refine Keeps.of_eq (by with_reducible assumption) ?_ | apply State.cancelSwitch_keeps
      | apply Keeps.ite
    | split | (dsimp only; split)

theorem State.cancelUpd_keeps {k₀ : Nat} {s₀ s : State}
    (hm : Covers k₀ 0x300618a0000000000000000000000000000000000000000000000000000000000000000000000000000000000000410002) (hs : Keeps k₀ s₀ s) :
    Keeps k₀ s₀ (State.cancelUpd s) := by
  unfold State.cancelUpd
  repeat' first
    | exact hm.trans (by decide)
    | with_reducible first
      | exact UPD_SIDING_in | assumption | intro _ | refine Keeps.of_eq (by with_reducible assumption) ?_
      | apply State.evState_keeps | apply State.putFld_keeps | apply Keeps.ite
    | split | (dsimp only; split) | with_reducible apply Keeps.mk_update

theorem State.keyLeftProg_keeps {k₀ : Nat} {s₀ s : State}
    (hm : Covers k₀ 0x300618a0000000000000000000000000000000000000000000000000000000000000000000000000000000010000413002) (hs : Keeps k₀ s₀ s) :
    Keeps k₀ s₀ (State.keyLeftProg s) := by
  unfold State.keyLeftProg
  repeat' first
    | exact hm.trans (by decide)
    | with_reducible first
      | exact SYS_CHG_in | assumption | intro _ | refine Keeps.of_eq (by with_reducible assumption) ?_
      | apply State.cancelPending_keeps | apply State.cancelUpd_keeps | apply State.cancelWaiting_keeps
      | apply State.evState_keeps | apply State.forEach_keeps | apply State.modModes_keeps | apply Keeps.ite
    | split | (dsimp only; split)

theorem execKeyPositionStable_keeps {k₀ : Nat} {s₀ s : State} (code : BitVec 2)
    (hm : Covers k₀ 0x300618a0000000000000000000000000000000000000000000000000000000000000000000000000000000012000413002) (hs : Keeps k₀ s₀ s) :
    Outcome.Keeps k₀ s₀ (execKeyPositionStable code s) := by
  unfold execKeyPositionStable
  repeat' first
    | exact hm.trans (by decide)
    | with_reducible first
      | exact SYS_KEY_in | assumption | intro _ | refine Keeps.of_eq (by with_reducible assumption) ?_
      | apply State.evState_keeps | apply State.flag_keeps | apply State.keyLeftProg_keeps | apply State.putFld_keeps
      | apply Keeps.ite | apply Outcome.keeps_next
    | split | (dsimp only; split)

theorem execConfirmTimeout_keeps {k₀ : Nat} {s₀ s : State} (channel : Fin 17)
    (hm : Covers k₀ 0x300618a0000000000000000000000000000000000000000000000000000000000000000000000000000000010000411002) (hs : Keeps k₀ s₀ s) :
    Outcome.Keeps k₀ s₀ (execConfirmTimeout channel s) := by
  unfold execConfirmTimeout
  repeat' first
    | exact hm.trans (by decide)
    | with_reducible first
      | assumption | intro _ | refine Keeps.of_eq (by with_reducible assumption) ?_ | apply State.cancelUpd_keeps
      | apply State.cancelWaiting_keeps | apply Keeps.ite | apply Outcome.keeps_next
    | split | (dsimp only; split)

theorem State.modecfgWrite_keeps {k₀ : Nat} {s₀ s : State} (bellows : Bool) (v : Word)
    (hm : Covers k₀ 0x200618a0000000000000000000000000000000000000000000000000000000000000000000000000000000008000411002) (hs : Keeps k₀ s₀ s) :
    Keeps k₀ s₀ (State.modecfgWrite s bellows v) := by
  unfold State.modecfgWrite
  repeat' first
    | exact hm.trans (by decide)
    | with_reducible first
      | exact SYS_MODECFG_in | assumption | intro _ | refine Keeps.of_eq (by with_reducible assumption) ?_
      | apply State.evRefused_keeps | apply State.modModes_keeps | apply State.setReg_keeps | apply Keeps.ite
    | split | (dsimp only; split)

theorem execModecfgWrite_keeps {k₀ : Nat} {s₀ s : State} (who : Initiator) (value : Word)
    (hm : Covers k₀ 0x200618a0000000000000000000000000000000000000000000000000000000000000000000000000000000008000411002) (hs : Keeps k₀ s₀ s) :
    Outcome.Keeps k₀ s₀ (execModecfgWrite who value s) := by
  unfold execModecfgWrite
  repeat' first
    | exact hm.trans (by decide)
    | with_reducible first
      | assumption | intro _ | refine Keeps.of_eq (by with_reducible assumption) ?_ | apply State.modecfgWrite_keeps
      | apply Keeps.ite | apply Outcome.keeps_next
    | split | (dsimp only; split)

theorem State.keepForces_keeps {k₀ : Nat} {s₀ s : State} (l : List Force) (hm : Covers k₀ 0x1000021002)
    (hs : Keeps k₀ s₀ s) :
    Keeps k₀ s₀ (State.keepForces s l) := by
  unfold State.keepForces
  repeat' first
    | exact hm.trans (by decide)
    | with_reducible first
      | exact SYS_FORCES_in | assumption | intro _ | refine Keeps.of_eq (by with_reducible assumption) ?_
      | apply State.copyItem_keeps | apply State.modModes_keeps | apply State.putFld_keeps | apply Keeps.ite
    | split | (dsimp only; split)

theorem State.forceSet_keeps {k₀ : Nat} {s₀ s : State} (ch : Nat) (fs : List Force)
    (hm : Covers k₀ 0x200618a0000000000000000000000000000000000000000000000000000000000000000000000000000000011000431002) (hs : Keeps k₀ s₀ s) :
    Keeps k₀ s₀ (State.forceSet s ch fs).1 := by
  unfold State.forceSet
  repeat' first
    | exact hm.trans (by decide)
    | with_reducible first
      | assumption | intro _ | refine Keeps.of_eq (by with_reducible assumption) ?_ | apply State.accept_keeps
      | apply State.challenge_keeps | apply State.keepForces_keeps | apply State.refuse_keeps | apply Keeps.ite
    | split | (dsimp only; split)

theorem State.forceRel_keeps {k₀ : Nat} {s₀ s : State} (ch : Nat) (ps : List (Bool × Bool × Nat))
    (hm : Covers k₀ 0x200618a0000000000000000000000000000000000000000000000000000000000000000000000000000000011000431002) (hs : Keeps k₀ s₀ s) :
    Keeps k₀ s₀ (State.forceRel s ch ps).1 := by
  unfold State.forceRel
  repeat' first
    | exact hm.trans (by decide)
    | with_reducible first
      | assumption | intro _ | refine Keeps.of_eq (by with_reducible assumption) ?_ | apply State.accept_keeps
      | apply State.challenge_keeps | apply State.keepForces_keeps | apply State.refuse_keeps | apply Keeps.ite
    | split | (dsimp only; split)

theorem State.forceStart_keeps {k₀ : Nat} {s₀ s : State}
    (hm : Covers k₀ 0x200618a0000000000000000000000000000000000000000000000000000000000000000000000000000000004000410002) (hs : Keeps k₀ s₀ s) :
    Keeps k₀ s₀ (State.forceStart s).1 := by
  unfold State.forceStart
  repeat' first
    | exact hm.trans (by decide)
    | with_reducible first
      | exact SYS_MODE_in | assumption | intro _ | refine Keeps.of_eq (by with_reducible assumption) ?_
      | apply State.accept_keeps | apply State.putFld_keeps | apply State.refuse_keeps | apply Keeps.ite
    | split | (dsimp only; split)

theorem State.commandRestart_keeps {k₀ : Nat} {s₀ s : State} (k : RestartKind) (hm : Covers k₀ 0x1000)
    (hs : Keeps k₀ s₀ s) :
    Keeps k₀ s₀ (State.commandRestart s k) := by
  unfold State.commandRestart
  repeat' first
    | exact hm.trans (by decide)
    | with_reducible first
      | assumption | intro _ | refine Keeps.of_eq (by with_reducible assumption) ?_ | apply State.modModes_keeps
      | apply Keeps.ite
    | split | (dsimp only; split)

theorem State.restartCommand_keeps {k₀ : Nat} {s₀ s : State} (code : Nat) (k : RestartKind)
    (hm : Covers k₀ 0x200618a0000000000000000000000000000000000000000000000000000000000000000000000000000000000000411002) (hs : Keeps k₀ s₀ s) :
    Keeps k₀ s₀ (State.restartCommand s code k).1 := by
  unfold State.restartCommand
  repeat' first
    | exact hm.trans (by decide)
    | with_reducible first
      | assumption | intro _ | refine Keeps.of_eq (by with_reducible assumption) ?_ | apply State.accept_keeps
      | apply State.commandRestart_keeps | apply State.refuse_keeps | apply Keeps.ite
    | split | (dsimp only; split)

theorem State.purgeCommand_keeps {k₀ : Nat} {s₀ s : State} (ch : Nat)
    (hm : Covers k₀ 0x200618a0000000000000000000000000000000000000000000000000000000000000000000000000000000010000411002) (hs : Keeps k₀ s₀ s) :
    Keeps k₀ s₀ (State.purgeCommand s ch).1 := by
  unfold State.purgeCommand
  repeat' first
    | exact hm.trans (by decide)
    | with_reducible first
      | assumption | intro _ | refine Keeps.of_eq (by with_reducible assumption) ?_ | apply State.accept_keeps
      | apply State.challenge_keeps | apply State.refuse_keeps | apply Keeps.ite
    | split | (dsimp only; split)

theorem State.modeCommand_keeps {k₀ : Nat} {s₀ s : State} (m : Nat)
    (hm : Covers k₀ 0x200618a0000000000000000000000000000000000000000000000000000000000000000000000000000000004000410002) (hs : Keeps k₀ s₀ s) :
    Keeps k₀ s₀ (State.modeCommand s m).1 := by
  unfold State.modeCommand
  repeat' first
    | exact hm.trans (by decide)
    | with_reducible first
      | exact SYS_MODE_in | assumption | intro _ | refine Keeps.of_eq (by with_reducible assumption) ?_
      | apply State.accept_keeps | apply State.putFld_keeps | apply State.refuse_keeps | apply Keeps.ite
    | split | (dsimp only; split)

theorem State.taskRestartGo_keeps {k₀ : Nat} {s₀ s : State} (n : Nat)
    (hm : Covers k₀ 0x200618a0000000000000000000000000000000000000000000000000000000000000000000000000000800000000410002) (hs : Keeps k₀ s₀ s) :
    Keeps k₀ s₀ (State.taskRestartGo s n) := by
  unfold State.taskRestartGo
  repeat' first
    | exact hm.trans (by decide)
    | with_reducible first
      | assumption | intro _ | refine Keeps.of_eq (by with_reducible assumption) ?_ | apply State.evRefused_keeps
      | apply State.taskRestart_keeps | apply Keeps.ite
    | split | (dsimp only; split)

theorem execTaskRestart_keeps {k₀ : Nat} {s₀ s : State} (task : Fin 64)
    (hm : Covers k₀ 0x200618a0000000000000000000000000000000000000000000000000000000000000000000000000000800000000410002) (hs : Keeps k₀ s₀ s) :
    Outcome.Keeps k₀ s₀ (execTaskRestart task s) := by
  unfold execTaskRestart
  repeat' first
    | exact hm.trans (by decide)
    | with_reducible first
      | assumption | intro _ | refine Keeps.of_eq (by with_reducible assumption) ?_ | apply State.taskRestartGo_keeps
      | apply Keeps.ite | apply Outcome.keeps_next
    | split | (dsimp only; split)

theorem State.taskRestartCommand_keeps {k₀ : Nat} {s₀ s : State} (n : Nat)
    (hm : Covers k₀ 0x200618a0000000000000000000000000000000000000000000000000000000000000000000000000000800000000410002) (hs : Keeps k₀ s₀ s) :
    Keeps k₀ s₀ (State.taskRestartCommand s n).1 := by
  unfold State.taskRestartCommand
  repeat' first
    | exact hm.trans (by decide)
    | with_reducible first
      | assumption | intro _ | refine Keeps.of_eq (by with_reducible assumption) ?_ | apply State.accept_keeps
      | apply State.refuse_keeps | apply State.taskRestart_keeps | apply Keeps.ite
    | split | (dsimp only; split)

theorem State.setBankState_keeps {k₀ : Nat} {s₀ s : State} (c : Nat) (b : Nat) (v : Nat)
    (hm : Covers k₀ 0x100000000000000000000000000000000000000000000000000000000000000000000000000000000000000000000000002) (hs : Keeps k₀ s₀ s) :
    Keeps k₀ s₀ (State.setBankState s c b v) := by
  unfold State.setBankState
  repeat' first
    | exact hm.trans (by decide)
    | with_reducible first
      | exact UPD_COMP_STATE_in | assumption | intro _ | refine Keeps.of_eq (by with_reducible assumption) ?_
      | apply State.putFld_keeps | apply Keeps.ite
    | split | (dsimp only; split)

theorem State.setProgram_keeps {k₀ : Nat} {s₀ s : State} (b : Nat) (p : Program) (hm : Covers k₀ 0x400000)
    (hs : Keeps k₀ s₀ s) :
    Keeps k₀ s₀ (State.setProgram s b p) := by
  unfold State.setProgram
  repeat' first
    | exact hm.trans (by decide)
    | with_reducible first
      | assumption | intro _ | refine Keeps.of_eq (by with_reducible assumption) ?_ | apply Keeps.ite
    | split | (dsimp only; split) | with_reducible apply Keeps.mk_update

theorem State.fillProgramBank_keeps {k₀ : Nat} {s₀ s : State} (p : Option Package)
    (hm : Covers k₀ 0x10000000000000000000000000000000000000000000000000000000000000000000000000000000000000000000040000a) (hs : Keeps k₀ s₀ s) :
    Keeps k₀ s₀ (State.fillProgramBank s p) := by
  unfold State.fillProgramBank
  repeat' first
    | exact hm.trans (by decide)
    | with_reducible first
      | assumption | intro _ | refine Keeps.of_eq (by with_reducible assumption) ?_ | apply State.forEach_keeps
      | apply State.setBankState_keeps | apply State.setProgram_keeps | apply State.writeByte_keeps
      | apply State.writeProgram_keeps | apply Keeps.ite
    | split | (dsimp only; split)

theorem State.holdPackage_keeps {k₀ : Nat} {s₀ s : State} (pkg : Package)
    (hm : Covers k₀ 0x10000000000000000000000000000000000000000000000000000000000000000000000000000000000000001000040200a) (hs : Keeps k₀ s₀ s) :
    Keeps k₀ s₀ (State.holdPackage s pkg) := by
  unfold State.holdPackage
  repeat' first
    | exact hm.trans (by decide)
    | with_reducible first
      | exact SYS_CHG_in | assumption | intro _ | refine Keeps.of_eq (by with_reducible assumption) ?_
      | apply State.fillProgramBank_keeps | apply State.putFld_keeps | apply State.setChange_keeps
      | apply State.setChg_keeps | apply Keeps.ite
    | split | (dsimp only; split)

theorem State.dropPackage_keeps {k₀ : Nat} {s₀ s : State}
    (hm : Covers k₀ 0x10000000000000000000000000000000000000000000000000000000000000000000000000000000000000001000040200a) (hs : Keeps k₀ s₀ s) :
    Keeps k₀ s₀ (State.dropPackage s) := by
  unfold State.dropPackage
  repeat' first
    | exact hm.trans (by decide)
    | with_reducible first
      | exact SYS_CHG_in | assumption | intro _ | refine Keeps.of_eq (by with_reducible assumption) ?_
      | apply State.fillProgramBank_keeps | apply State.putFld_keeps | apply State.setChange_keeps
      | apply State.setChg_keeps | apply Keeps.ite
    | split | (dsimp only; split)

theorem State.takePackage_keeps {k₀ : Nat} {s₀ s : State} (pkg : Package) (check : Nat)
    (hm : Covers k₀ 0x1200618a000000000000000000000000000000000000000000000000000000000000000000000000000000001000043200a) (hs : Keeps k₀ s₀ s) :
    Keeps k₀ s₀ (State.takePackage s pkg check).1 := by
  unfold State.takePackage
  repeat' first
    | exact hm.trans (by decide)
    | with_reducible first
      | assumption | intro _ | refine Keeps.of_eq (by with_reducible assumption) ?_ | apply State.copyItem_keeps
      | apply State.dropPackage_keeps | apply State.evRefused_keeps | apply State.holdPackage_keeps | apply Keeps.ite
    | split | (dsimp only; split)

theorem State.chgLoad_keeps {k₀ : Nat} {s₀ s : State} (pkg : Package) (check : Nat)
    (hm : Covers k₀ 0x1200618a000000000000000000000000000000000000000000000000000000000000000000000000000000001000043200a) (hs : Keeps k₀ s₀ s) :
    Keeps k₀ s₀ (State.chgLoad s pkg check).1 := by
  unfold State.chgLoad
  repeat' first
    | exact hm.trans (by decide)
    | with_reducible first
      | assumption | intro _ | refine Keeps.of_eq (by with_reducible assumption) ?_ | apply State.refuse_keeps
      | apply State.takePackage_keeps | apply Keeps.ite
    | split | (dsimp only; split)

theorem State.chgSwitch_keeps {k₀ : Nat} {s₀ s : State} (ch : Nat)
    (hm : Covers k₀ 0x200618a0000000000000000000000000000000000000000000000000000000000000000000000000000000010000411002) (hs : Keeps k₀ s₀ s) :
    Keeps k₀ s₀ (State.chgSwitch s ch).1 := by
  unfold State.chgSwitch
  repeat' first
    | exact hm.trans (by decide)
    | with_reducible first
      | assumption | intro _ | refine Keeps.of_eq (by with_reducible assumption) ?_ | apply State.accept_keeps
      | apply State.challenge_keeps | apply State.refuse_keeps | apply State.setChg_keeps | apply Keeps.ite
    | split | (dsimp only; split)

theorem State.chgDiscard_keeps {k₀ : Nat} {s₀ s : State}
    (hm : Covers k₀ 0x1200618a000000000000000000000000000000000000000000000000000000000000000000000000000000001000041200a) (hs : Keeps k₀ s₀ s) :
    Keeps k₀ s₀ (State.chgDiscard s).1 := by
  unfold State.chgDiscard
  repeat' first
    | exact hm.trans (by decide)
    | with_reducible first
      | assumption | intro _ | refine Keeps.of_eq (by with_reducible assumption) ?_ | apply State.accept_keeps
      | apply State.dropPackage_keeps | apply State.refuse_keeps | apply Keeps.ite
    | split | (dsimp only; split)

theorem State.commitProgram_keeps {k₀ : Nat} {s₀ s : State}
    (hm : Covers k₀ 0x30000000000000000000000000000000000000000000000000000000000000000000000000000000000000001000040200a) (hs : Keeps k₀ s₀ s) :
    Keeps k₀ s₀ (State.commitProgram s) := by
  unfold State.commitProgram
  repeat' first
    | exact hm.trans (by decide)
    | with_reducible first
      | exact UPD_COMP_STATE_in | exact UPD_COMP_VER_in | assumption | intro _
      | refine Keeps.of_eq (by with_reducible assumption) ?_ | apply State.dropPackage_keeps | apply State.putFld_keeps
      | apply State.setBankState_keeps | apply State.setChange_keeps | apply State.setProgram_keeps
      | apply State.setReg_keeps | apply Keeps.ite
    | split | (dsimp only; split)

theorem State.chgCommit_keeps {k₀ : Nat} {s₀ s : State}
    (hm : Covers k₀ 0x3200618a000000000000000000000000000000000000000000000000000000000000000000000000000000001000041200a) (hs : Keeps k₀ s₀ s) :
    Keeps k₀ s₀ (State.chgCommit s).1 := by
  unfold State.chgCommit
  repeat' first
    | exact hm.trans (by decide)
    | with_reducible first
      | assumption | intro _ | refine Keeps.of_eq (by with_reducible assumption) ?_ | apply State.accept_keeps
      | apply State.commitProgram_keeps | apply State.refuse_keeps | apply Keeps.ite
    | split | (dsimp only; split)

theorem State.chgRollback_keeps {k₀ : Nat} {s₀ s : State} (ch : Nat)
    (hm : Covers k₀ 0x200618a0000000000000000000000000000000000000000000000000000000000000000000000000000000010000411002) (hs : Keeps k₀ s₀ s) :
    Keeps k₀ s₀ (State.chgRollback s ch).1 := by
  unfold State.chgRollback
  repeat' first
    | exact hm.trans (by decide)
    | with_reducible first
      | assumption | intro _ | refine Keeps.of_eq (by with_reducible assumption) ?_ | apply State.accept_keeps
      | apply State.challenge_keeps | apply State.refuse_keeps | apply State.setChg_keeps | apply Keeps.ite
    | split | (dsimp only; split)

theorem State.confirmed_keeps {k₀ : Nat} {s₀ s : State} (ch : Nat) (y0 : Waiting) (hm : Covers k₀ 0x10000001002)
    (hs : Keeps k₀ s₀ s) :
    Keeps k₀ s₀ (State.confirmed s ch y0) := by
  unfold State.confirmed
  repeat' first
    | exact hm.trans (by decide)
    | with_reducible first
      | assumption | intro _ | refine Keeps.of_eq (by with_reducible assumption) ?_ | apply State.modModes_keeps
      | apply State.setChg_keeps | apply Keeps.ite
    | split | (dsimp only; split)

theorem State.actConfirmed_keeps {k₀ : Nat} {s₀ s : State} (y0 : Waiting)
    (hm : Covers k₀ 0x200618a0000000000000000000000000000000000000000000000000000000000000000000000000000000011000431002) (hs : Keeps k₀ s₀ s) :
    Keeps k₀ s₀ (State.actConfirmed s y0) := by
  unfold State.actConfirmed
  repeat' first
    | exact hm.trans (by decide)
    | with_reducible first
      | assumption | intro _ | refine Keeps.of_eq (by with_reducible assumption) ?_ | apply State.commandRestart_keeps
      | apply State.evRefused_keeps | apply State.forceRel_keeps | apply State.forceSet_keeps
      | apply State.keepForces_keeps | apply Keeps.ite
    | split | (dsimp only; split)

theorem State.dueTick_keeps {k₀ : Nat} {s₀ s : State}
    (hm : Covers k₀ 0x200618a0000000000000000000000000000000000000000000000000000000000000000000000000000000011000431002) (hs : Keeps k₀ s₀ s) :
    Keeps k₀ s₀ (State.dueTick s) := by
  unfold State.dueTick
  repeat' first
    | exact hm.trans (by decide)
    | with_reducible first
      | assumption | intro _ | refine Keeps.of_eq (by with_reducible assumption) ?_ | apply State.actConfirmed_keeps
      | apply State.forEach_keeps | apply State.modModes_keeps | apply Keeps.ite
    | split | (dsimp only; split)

theorem State.confirmCommand_keeps {k₀ : Nat} {s₀ s : State} (ch : Nat) (c : Word)
    (hm : Covers k₀ 0x200618a0000000000000000000000000000000000000000000000000000000000000000000000000000000010000411002) (hs : Keeps k₀ s₀ s) :
    Keeps k₀ s₀ (State.confirmCommand s ch c).1 := by
  unfold State.confirmCommand
  repeat' first
    | exact hm.trans (by decide)
    | with_reducible first
      | assumption | intro _ | refine Keeps.of_eq (by with_reducible assumption) ?_ | apply State.accept_keeps
      | apply State.cancelWaiting_keeps | apply State.confirmed_keeps | apply State.forgetWaiting_keeps
      | apply State.refuse_keeps | apply Keeps.ite
    | split | (dsimp only; split)

theorem State.moveBytes_keeps {k₀ : Nat} {s₀ s : State} (src : Nat) (dst : Nat) (len : Nat)
    (hm : Covers k₀ 0x200618a0000000000000000000000000000000000000000000000000000000000001a00a8180000000000000000041001a) (hs : Keeps k₀ s₀ s) :
    Keeps k₀ s₀ (State.moveBytes s src dst len) := by
  unfold State.moveBytes
  repeat' first
    | exact hm.trans (by decide)
    | with_reducible first
      | assumption | intro _ | refine Keeps.of_eq (by with_reducible assumption) ?_ | apply State.writeRun_keeps
      | apply Keeps.ite
    | split | (dsimp only; split)

theorem State.migrateEntry_keeps {k₀ : Nat} {s₀ s : State} (old : Program) (new : Program) (lane : Nat) (m : Migration)
    (hm : Covers k₀ 0x200618a0000000000000000000000000000000000000000000000000000000000001a00a8180000000000000000041001a) (hs : Keeps k₀ s₀ s) :
    Keeps k₀ s₀ (State.migrateEntry s old new lane m) := by
  unfold State.migrateEntry
  repeat' first
    | exact hm.trans (by decide)
    | with_reducible first
      | assumption | intro _ | refine Keeps.of_eq (by with_reducible assumption) ?_ | apply State.forEach_keeps
      | apply State.moveBytes_keeps | apply State.writeRun_keeps | apply Keeps.ite
    | split | (dsimp only; split)

theorem State.migrate_keeps {k₀ : Nat} {s₀ s : State} (old : Program) (new : Program) (ms : List Migration)
    (hm : Covers k₀ 0x200618a0000000000000000000000000000000000000000000000000000000000001a00a8180000000000000000041001a) (hs : Keeps k₀ s₀ s) :
    Keeps k₀ s₀ (State.migrate s old new ms) := by
  unfold State.migrate
  repeat' first
    | exact hm.trans (by decide)
    | with_reducible first
      | assumption | intro _ | refine Keeps.of_eq (by with_reducible assumption) ?_ | apply State.forEach_keeps
      | apply State.migrateEntry_keeps | apply Keeps.ite
    | split | (dsimp only; split)

theorem State.deferSwitch_keeps {k₀ : Nat} {s₀ s : State}
    (hm : Covers k₀ 0x200618a0000000000000000000000000000000000000000000000000000000000000000000000000000000030000412002) (hs : Keeps k₀ s₀ s) :
    Keeps k₀ s₀ (State.deferSwitch s) := by
  unfold State.deferSwitch
  repeat' first
    | exact hm.trans (by decide)
    | with_reducible first
      | exact SYS_CHGDEF_in | assumption | intro _ | refine Keeps.of_eq (by with_reducible assumption) ?_
      | apply State.bump_keeps | apply State.cancelPending_keeps | apply State.setChange_keeps | apply Keeps.ite
    | split | (dsimp only; split)

theorem State.switchCheck_keeps {k₀ : Nat} {s₀ s : State} (partnerLoaded : Bool)
    (hm : Covers k₀ 0x200618a0000000000000000000000000000000000000000000000000000000000001a00a81800000000f0003000043201a) (hs : Keeps k₀ s₀ s) :
    Keeps k₀ s₀ (State.switchCheck s partnerLoaded) := by
  unfold State.switchCheck
  repeat' first
    | exact hm.trans (by decide)
    | with_reducible first
      | assumption | intro _ | refine Keeps.of_eq (by with_reducible assumption) ?_ | apply State.deferSwitch_keeps
      | apply State.migrate_keeps | apply State.setChange_keeps | apply State.writeGroups_keeps | apply Keeps.ite
    | split | (dsimp only; split)

theorem execChangeSwitchCheck_keeps {k₀ : Nat} {s₀ s : State} (partnerLoaded : Bool)
    (hm : Covers k₀ 0x200618a0000000000000000000000000000000000000000000000000000000000001a00a81800000000f0003000043201a) (hs : Keeps k₀ s₀ s) :
    Outcome.Keeps k₀ s₀ (execChangeSwitchCheck partnerLoaded s) := by
  unfold execChangeSwitchCheck
  repeat' first
    | exact hm.trans (by decide)
    | with_reducible first
      | assumption | intro _ | refine Keeps.of_eq (by with_reducible assumption) ?_ | apply State.switchCheck_keeps
      | apply Keeps.ite | apply Outcome.keeps_next
    | split | (dsimp only; split)

theorem State.stampLayout_keeps {k₀ : Nat} {s₀ s : State} (tp : TaskProg)
    (hm : Covers k₀ 0x200618a0000000000000000000000000000000000000000000000000000000000001a00a8180000000000000000041001a) (hs : Keeps k₀ s₀ s) :
    Keeps k₀ s₀ (State.stampLayout s tp) := by
  unfold State.stampLayout
  repeat' first
    | exact hm.trans (by decide)
    | with_reducible first
      | assumption | intro _ | refine Keeps.of_eq (by with_reducible assumption) ?_ | apply State.forEach_keeps
      | apply State.writeRun_keeps | apply Keeps.ite
    | split | (dsimp only; split)

theorem State.carryVoted_keeps {k₀ : Nat} {s₀ t : State} (s : State) (old new : TaskProg) (hm : Covers k₀ 0x200618a0000000000000000000000000000000000000000000000000000000000001a00a8180000000000000000041001a)
    (hs : Keeps k₀ s₀ t) : Keeps k₀ s₀ (State.carryVoted s t old new) := by
  unfold State.carryVoted
  refine Keeps.ite hs (State.forEach_keeps _ _ hs fun c u hu => ?_)
  split
  · exact hu
  · exact State.putCell_keeps _ _ _ (hm.trans (by decide)) hu

theorem State.moveMappings_keeps {k₀ : Nat} {s₀ s : State} (old : Program)
    (hm : Covers k₀ 0x200618a0000000000000000000000000000000000000000000000000000000000001a00a8180000000000000000041003a) (hs : Keeps k₀ s₀ s) :
    Keeps k₀ s₀ (State.moveMappings s old) := by
  unfold State.moveMappings
  repeat' first
    | exact hm.trans (by decide)
    | with_reducible first
      | assumption | intro _ | refine Keeps.of_eq (by with_reducible assumption) ?_ | apply State.flushTasks_keeps
      | apply State.forEach_keeps | apply State.loadTask_keeps | apply Keeps.ite
    | split | (dsimp only; split)

theorem State.switchTasks_keeps {k₀ : Nat} {s₀ s : State} (before : State) (old : Program) (new : Program)
    (affected : List Nat) (hm : Covers k₀ 0x200618a0000000000000000000000000000000000000000000000000000000000001a00a818008808808000000004300ba) (hs : Keeps k₀ s₀ s) :
    Keeps k₀ s₀ (State.switchTasks s before old new affected) := by
  unfold State.switchTasks
  repeat' first
    | exact hm.trans (by decide)
    | with_reducible first
      | assumption | intro _ | refine Keeps.of_eq (by with_reducible assumption) ?_ | apply State.advanceEpoch_keeps
      | apply State.carryVoted_keeps | apply State.forEach_keeps | apply State.putPub_keeps
      | apply State.stampLayout_keeps | apply State.startTask_keeps | apply Keeps.ite
    | split | (dsimp only; split)

theorem State.switchNow_keeps {k₀ : Nat} {s₀ s : State}
    (hm : Covers k₀ 0x200618a0000000000000000000000000000000000000000000000000000000000001a00a818008808808000100004320fa) (hs : Keeps k₀ s₀ s) :
    Keeps k₀ s₀ (State.switchNow s) := by
  unfold State.switchNow
  repeat' first
    | exact hm.trans (by decide)
    | with_reducible first
      | exact SYS_CHG_in | assumption | intro _ | refine Keeps.of_eq (by with_reducible assumption) ?_
      | apply State.forEach_keeps | apply State.modTask_keeps | apply State.moveMappings_keeps
      | apply State.putFld_keeps | apply State.setChange_keeps | apply State.setChg_keeps
      | apply State.switchTasks_keeps | apply Keeps.ite
    | split | (dsimp only; split) | with_reducible apply Keeps.mk_program

theorem execRollbackWindowClose_keeps {k₀ : Nat} {s₀ s : State} (hm : Covers k₀ 0x10000000002) (hs : Keeps k₀ s₀ s) :
    Outcome.Keeps k₀ s₀ (execRollbackWindowClose s) := by
  unfold execRollbackWindowClose
  repeat' first
    | exact hm.trans (by decide)
    | with_reducible first
      | exact SYS_CHG_in | assumption | intro _ | refine Keeps.of_eq (by with_reducible assumption) ?_
      | apply State.setChg_keeps | apply Keeps.ite | apply Outcome.keeps_next
    | split | (dsimp only; split)

/-! ### Machine/Streams.lean -/

theorem State.modLap_keeps {k₀ : Nat} {s₀ s : State} (n : Nat) (g : LapChannel → LapChannel) (hm : Covers k₀ 0x2000000)
    (hs : Keeps k₀ s₀ s) :
    Keeps k₀ s₀ (State.modLap s n g) := by
  unfold State.modLap
  repeat' first
    | exact hm.trans (by decide)
    | with_reducible first
      | assumption | intro _ | refine Keeps.of_eq (by with_reducible assumption) ?_ | apply State.modBridge_keeps
      | apply Keeps.ite
    | split | (dsimp only; split)

theorem State.modStream_keeps {k₀ : Nat} {s₀ s : State} (ch : Nat) (ring : Nat) (id : Nat) (g : RemStream → RemStream)
    (hm : Covers k₀ 0x2020000) (hs : Keeps k₀ s₀ s) :
    Keeps k₀ s₀ (State.modStream s ch ring id g) := by
  unfold State.modStream
  repeat' first
    | exact hm.trans (by decide)
    | with_reducible first
      | assumption | intro _ | refine Keeps.of_eq (by with_reducible assumption) ?_ | apply State.copyItem_keeps
      | apply State.modBridge_keeps | apply Keeps.ite
    | split | (dsimp only; split)

theorem State.showFailures_keeps {k₀ : Nat} {s₀ s : State} (ch : Nat)
    (hm : Covers k₀ 0x1c0000000000000000000000000000000000000000000000000020002) (hs : Keeps k₀ s₀ s) :
    Keeps k₀ s₀ (State.showFailures s ch) := by
  unfold State.showFailures
  repeat' first
    | exact hm.trans (by decide)
    | with_reducible first
      | exact BRG_CH_FINFO_in | exact BRG_CH_FSEQ_in | exact BRG_CH_STATE_in | assumption | intro _
      | refine Keeps.of_eq (by with_reducible assumption) ?_ | apply State.copyItem_keeps | apply State.putFld_keeps
      | apply State.setReg_keeps | apply Keeps.ite
    | split | (dsimp only; split)

theorem State.markItem_keeps {k₀ : Nat} {s₀ s : State} (ch : Nat) (seq : Nat) (bits : Nat)
    (hm : Covers k₀ 0x200618a0000000000000000000000000000202000000000000000000000000000001a00a8180000000000000000243001a) (hs : Keeps k₀ s₀ s) :
    Keeps k₀ s₀ (State.markItem s ch seq bits) := by
  unfold State.markItem
  repeat' first
    | exact hm.trans (by decide)
    | with_reducible first
      | assumption | intro _ | refine Keeps.of_eq (by with_reducible assumption) ?_ | apply State.markEntry_keeps
      | apply Keeps.ite
    | split | (dsimp only; split)

theorem State.discardWork_keeps {k₀ : Nat} {s₀ s : State} (ch : Nat) (ring : Nat) (id : Nat) (ws : List RemWork)
    (hm : Covers k₀ 0x200618a0000000000000000000000000000202000210000000000000000000000001a00a8180000000000000000243001a) (hs : Keeps k₀ s₀ s) :
    Keeps k₀ s₀ (State.discardWork s ch ring id ws) := by
  unfold State.discardWork
  repeat' first
    | exact hm.trans (by decide)
    | with_reducible first
      | assumption | intro _ | refine Keeps.of_eq (by with_reducible assumption) ?_ | apply State.countDisc_keeps
      | apply State.forEach_keeps | apply State.markItem_keeps | apply State.modStream_keeps | apply Keeps.ite
    | split | (dsimp only; split)

theorem State.farFailure_keeps {k₀ : Nat} {s₀ s : State} (ch : Nat) (ring : Nat) (id : Nat) (item : Option Nat)
    (code : Nat) (hm : Covers k₀ 0x200618a00000000000000000000000000002020003d0008000000000000000000001a00a8180000000000000000243003a) (hs : Keeps k₀ s₀ s) :
    Keeps k₀ s₀ (State.farFailure s ch ring id item code) := by
  unfold State.farFailure
  repeat' first
    | exact hm.trans (by decide)
    | with_reducible first
      | exact BRG_STATUS_in | assumption | intro _ | refine Keeps.of_eq (by with_reducible assumption) ?_
      | apply State.discardWork_keeps | apply State.event_keeps | apply State.flag_keeps | apply State.irq_keeps
      | apply State.markItem_keeps | apply State.modLap_keeps | apply State.modStream_keeps
      | apply State.showFailures_keeps | apply Keeps.ite
    | split | (dsimp only; split)

theorem State.addOrphan_keeps {k₀ : Nat} {s₀ s : State} (o : Orphan)
    (hm : Covers k₀ 0x200618a0000000000000000000000000000000000008008000000000000000000000000000000000000000000002430002) (hs : Keeps k₀ s₀ s) :
    Keeps k₀ s₀ (State.addOrphan s o) := by
  unfold State.addOrphan
  repeat' first
    | exact hm.trans (by decide)
    | with_reducible first
      | exact BRG_ORPHDROP_in | exact BRG_STATUS_in | assumption | intro _
      | refine Keeps.of_eq (by with_reducible assumption) ?_ | apply State.bump_keeps | apply State.copyItem_keeps
      | apply State.evLimit_keeps | apply State.flag_keeps | apply State.modBridge_keeps | apply Keeps.ite
    | split | (dsimp only; split)

theorem State.settleFetch_keeps {k₀ : Nat} {s₀ s : State} (ch : Nat) (f : Fetch)
    (hm : Covers k₀ 0x200618a0000000000000000000000000000000000008008000000000000000000000000000000000000000000002430002) (hs : Keeps k₀ s₀ s) :
    Keeps k₀ s₀ (State.settleFetch s ch f) := by
  unfold State.settleFetch
  repeat' first
    | exact hm.trans (by decide)
    | with_reducible first
      | assumption | intro _ | refine Keeps.of_eq (by with_reducible assumption) ?_ | apply State.addOrphan_keeps
      | apply State.modLap_keeps | apply Keeps.ite
    | split | (dsimp only; split)

theorem State.abandonFetch_keeps {k₀ : Nat} {s₀ s : State} (ch : Nat) (f : Fetch)
    (hm : Covers k₀ 0x200618a0000000000000000000000000000000000008008000000000000000000000000000000000000000000002430002) (hs : Keeps k₀ s₀ s) :
    Keeps k₀ s₀ (State.abandonFetch s ch f) := by
  unfold State.abandonFetch
  repeat' first
    | exact hm.trans (by decide)
    | with_reducible first
      | assumption | intro _ | refine Keeps.of_eq (by with_reducible assumption) ?_ | apply State.modLap_keeps
      | apply State.modStream_keeps | apply State.settleFetch_keeps | apply State.when_keeps | apply Keeps.ite
    | split | (dsimp only; split)

theorem State.fetchResult_keeps {k₀ : Nat} {s₀ s : State} (ch : Nat) (ring : Nat) (id : Nat) (addr : Nat)
    (words : Option (List Word)) (hm : Covers k₀ 0x200618a0000000000000000000000000000000000008008000000000000000000000000000000000000000000002430002) (hs : Keeps k₀ s₀ s) :
    Keeps k₀ s₀ (State.fetchResult s ch ring id addr words) := by
  unfold State.fetchResult
  repeat' first
    | exact hm.trans (by decide)
    | with_reducible first
      | assumption | intro _ | refine Keeps.of_eq (by with_reducible assumption) ?_ | apply State.forEach_keeps
      | apply State.modBridge_keeps | apply State.modLap_keeps | apply State.settleFetch_keeps | apply Keeps.ite
    | split | (dsimp only; split)

theorem State.dropCache_keeps {k₀ : Nat} {s₀ s : State} (ring : Nat) (id : Nat) (hm : Covers k₀ 0x2000000)
    (hs : Keeps k₀ s₀ s) :
    Keeps k₀ s₀ (State.dropCache s ring id) := by
  unfold State.dropCache
  repeat' first
    | exact hm.trans (by decide)
    | with_reducible first
      | assumption | intro _ | refine Keeps.of_eq (by with_reducible assumption) ?_ | apply State.modBridge_keeps
      | apply Keeps.ite
    | split | (dsimp only; split)

theorem State.failHead_keeps {k₀ : Nat} {s₀ s : State} (x : RemStream) (code : Nat)
    (hm : Covers k₀ 0x200618a00000000000000000000000000002020003d8008000000000000000000001a00a8180000000000000000243003a) (hs : Keeps k₀ s₀ s) :
    Keeps k₀ s₀ (State.failHead s x code) := by
  unfold State.failHead
  repeat' first
    | exact hm.trans (by decide)
    | with_reducible first
      | assumption | intro _ | refine Keeps.of_eq (by with_reducible assumption) ?_ | apply State.farFailure_keeps
      | apply State.fetchResult_keeps | apply State.modStream_keeps | apply Keeps.ite
    | split | (dsimp only; split)

theorem State.commandSent_keeps {k₀ : Nat} {s₀ s : State} (x : RemStream) (seq : Nat) (hm : Covers k₀ 0x2020000)
    (hs : Keeps k₀ s₀ s) :
    Keeps k₀ s₀ (State.commandSent s x seq) := by
  unfold State.commandSent
  repeat' first
    | exact hm.trans (by decide)
    | with_reducible first
      | assumption | intro _ | refine Keeps.of_eq (by with_reducible assumption) ?_ | apply State.dropCache_keeps
      | apply State.modBridge_keeps | apply State.modStream_keeps | apply Keeps.ite
    | split | (dsimp only; split)

theorem State.finishHead_keeps {k₀ : Nat} {s₀ s : State} (x : RemStream) (hm : Covers k₀ 0x2020000) (hs : Keeps k₀ s₀ s) :
    Keeps k₀ s₀ (State.finishHead s x) := by
  unfold State.finishHead
  repeat' first
    | exact hm.trans (by decide)
    | with_reducible first
      | assumption | intro _ | refine Keeps.of_eq (by with_reducible assumption) ?_ | apply State.modStream_keeps
      | apply Keeps.ite
    | split | (dsimp only; split)

theorem State.pwriteAnswer_keeps {k₀ : Nat} {s₀ s : State} (ring : Nat) (id : Nat) (seq : Nat) (result : Nat)
    (hm : Covers k₀ 0x200618a00000000000000000000000000002020003d8008000000000000000000001a00a8180000000000000000243003a) (hs : Keeps k₀ s₀ s) :
    Keeps k₀ s₀ (State.pwriteAnswer s ring id seq result) := by
  unfold State.pwriteAnswer
  repeat' first
    | exact hm.trans (by decide)
    | with_reducible first
      | assumption | intro _ | refine Keeps.of_eq (by with_reducible assumption) ?_ | apply State.failHead_keeps
      | apply State.finishHead_keeps | apply State.markItem_keeps | apply Keeps.ite
    | split | (dsimp only; split)

theorem State.preadAnswer_keeps {k₀ : Nat} {s₀ s : State} (ring : Nat) (id : Nat) (seq : Nat) (result : Nat)
    (data : List Byte) (hm : Covers k₀ 0x200618a0000000000000000000000000000000000008008000000000000000000000000000000000000000000002430002) (hs : Keeps k₀ s₀ s) :
    Keeps k₀ s₀ (State.preadAnswer s ring id seq result data) := by
  unfold State.preadAnswer
  repeat' first
    | exact hm.trans (by decide)
    | with_reducible first
      | assumption | intro _ | refine Keeps.of_eq (by with_reducible assumption) ?_ | apply State.fetchResult_keeps
      | apply State.finishHead_keeps | apply Keeps.ite
    | split | (dsimp only; split)

theorem State.farTimeout_keeps {k₀ : Nat} {s₀ s : State} (x : RemStream)
    (hm : Covers k₀ 0x200618a00000000000000000000000000002020003d8008000000000000000000001a00a8180000000000000000243003a) (hs : Keeps k₀ s₀ s) :
    Keeps k₀ s₀ (State.farTimeout s x) := by
  unfold State.farTimeout
  repeat' first
    | exact hm.trans (by decide)
    | with_reducible first
      | assumption | intro _ | refine Keeps.of_eq (by with_reducible assumption) ?_ | apply State.failHead_keeps
      | apply Keeps.ite
    | split | (dsimp only; split)

theorem execFarSideTimeout_keeps {k₀ : Nat} {s₀ s : State} (channel : Fin 17) (ring : Fin 6) (station : BitVec 8)
    (hm : Covers k₀ 0x200618a00000000000000000000000000002020003d8008000000000000000000001a00a8180000000000000000243003a) (hs : Keeps k₀ s₀ s) :
    Outcome.Keeps k₀ s₀ (execFarSideTimeout channel ring station s) := by
  unfold execFarSideTimeout
  repeat' first
    | exact hm.trans (by decide)
    | with_reducible first
      | assumption | intro _ | refine Keeps.of_eq (by with_reducible assumption) ?_ | apply State.farTimeout_keeps
      | apply Keeps.ite | apply Outcome.keeps_next
    | split | (dsimp only; split)

theorem State.requeueRemote_keeps {k₀ : Nat} {s₀ s : State}
    (hm : Covers k₀ 0x200618a0000000000000000000000000000202000210000000000000000000000001a00a8180000000000000000243001a) (hs : Keeps k₀ s₀ s) :
    Keeps k₀ s₀ (State.requeueRemote s) := by
  unfold State.requeueRemote
  repeat' first
    | exact hm.trans (by decide)
    | with_reducible first
      | assumption | intro _ | refine Keeps.of_eq (by with_reducible assumption) ?_ | apply State.discardItem_keeps
      | apply State.forEach_keeps | apply State.modBridge_keeps | apply State.modStream_keeps | apply Keeps.ite
    | split | (dsimp only; split)

theorem State.failInactive_keeps {k₀ : Nat} {s₀ s : State} (n : Nat)
    (hm : Covers k₀ 0x200618a00000000000000000000000000002020003d8008000000000000000000001a00a8180000000000000000243003a) (hs : Keeps k₀ s₀ s) :
    Keeps k₀ s₀ (State.failInactive s n) := by
  unfold State.failInactive
  repeat' first
    | exact hm.trans (by decide)
    | with_reducible first
      | assumption | intro _ | refine Keeps.of_eq (by with_reducible assumption) ?_ | apply State.failHead_keeps
      | apply State.forEach_keeps | apply Keeps.ite
    | split | (dsimp only; split)

theorem State.lapSend_keeps {k₀ : Nat} {s₀ s : State} (ch : Nat) (via : Nat) (peer : Nat) (op : Nat) (reqid : Nat)
    (seq : Nat) (fcnt : Nat) (status : Nat) (payload : List Byte) (hm : Covers k₀ 0x80000000000000000000000000000000000000000000a000002) (hs : Keeps k₀ s₀ s) :
    Keeps k₀ s₀ (State.lapSend s ch via peer op reqid seq fcnt status payload) := by
  unfold State.lapSend
  repeat' first
    | exact hm.trans (by decide)
    | with_reducible first
      | assumption | intro _ | refine Keeps.of_eq (by with_reducible assumption) ?_ | apply State.modLap_keeps
      | apply State.sendOn_keeps | apply Keeps.ite
    | split | (dsimp only; split)

theorem State.sendNotify_keeps {k₀ : Nat} {s₀ s : State} (ch : Nat) (n : Notify)
    (hm : Covers k₀ 0x80000000000000000000000000000000000000000000a000002) (hs : Keeps k₀ s₀ s) :
    Keeps k₀ s₀ (State.sendNotify s ch n) := by
  unfold State.sendNotify
  repeat' first
    | exact hm.trans (by decide)
    | with_reducible first
      | assumption | intro _ | refine Keeps.of_eq (by with_reducible assumption) ?_ | apply State.lapSend_keeps
      | apply Keeps.ite
    | split | (dsimp only; split)

theorem State.notify_keeps {k₀ : Nat} {s₀ s : State} (ring : Nat) (id : Nat) (kind : Nat) (fcnt : Nat)
    (records : List Byte) (hm : Covers k₀ 0x80000000000000000000000000000000000000000000a000002) (hs : Keeps k₀ s₀ s) :
    Keeps k₀ s₀ (State.notify s ring id kind fcnt records) := by
  unfold State.notify
  repeat' first
    | exact hm.trans (by decide)
    | with_reducible first
      | assumption | intro _ | refine Keeps.of_eq (by with_reducible assumption) ?_ | apply State.forEach_keeps
      | apply State.modLap_keeps | apply State.sendNotify_keeps | apply Keeps.ite
    | split | (dsimp only; split)

theorem State.evtgetAnswer_keeps {k₀ : Nat} {s₀ s : State} (ring : Nat) (id : Nat) (seq : Nat) (result : Nat)
    (count : Nat) (data : List Byte) (hm : Covers k₀ 0x80000000000000000000000000000000000000000000a820002) (hs : Keeps k₀ s₀ s) :
    Keeps k₀ s₀ (State.evtgetAnswer s ring id seq result count data) := by
  unfold State.evtgetAnswer
  repeat' first
    | exact hm.trans (by decide)
    | with_reducible first
      | assumption | intro _ | refine Keeps.of_eq (by with_reducible assumption) ?_ | apply State.finishHead_keeps
      | apply State.modStation_keeps | apply State.notify_keeps | apply State.when_keeps | apply Keeps.ite
    | split | (dsimp only; split)

theorem State.askEvents_keeps {k₀ : Nat} {s₀ s : State} (ring : Nat) (id : Nat) (hm : Covers k₀ 0x2020000)
    (hs : Keeps k₀ s₀ s) :
    Keeps k₀ s₀ (State.askEvents s ring id) := by
  unfold State.askEvents
  repeat' first
    | exact hm.trans (by decide)
    | with_reducible first
      | assumption | intro _ | refine Keeps.of_eq (by with_reducible assumption) ?_ | apply State.modStream_keeps
      | apply Keeps.ite
    | split | (dsimp only; split)

theorem State.askAllEvents_keeps {k₀ : Nat} {s₀ s : State} (n : Nat) (hm : Covers k₀ 0x2020000) (hs : Keeps k₀ s₀ s) :
    Keeps k₀ s₀ (State.askAllEvents s n) := by
  unfold State.askAllEvents
  repeat' first
    | exact hm.trans (by decide)
    | with_reducible first
      | assumption | intro _ | refine Keeps.of_eq (by with_reducible assumption) ?_ | apply State.askEvents_keeps
      | apply State.forEach_keeps | apply Keeps.ite
    | split | (dsimp only; split)

/-! ### Machine/RingRx.lean -/

theorem State.setRingState_keeps {k₀ : Nat} {s₀ s : State} (n : Nat) (v : Nat)
    (hm : Covers k₀ 0x400000000000000000000000000000002) (hs : Keeps k₀ s₀ s) :
    Keeps k₀ s₀ (State.setRingState s n v) := by
  unfold State.setRingState
  repeat' first
    | exact hm.trans (by decide)
    | with_reducible first
      | exact SOP_STATE_in | assumption | intro _ | refine Keeps.of_eq (by with_reducible assumption) ?_
      | apply State.putFld_keeps | apply Keeps.ite
    | split | (dsimp only; split)

theorem State.emptyRing_keeps {k₀ : Nat} {s₀ s : State} (n : Fin 6)
    (hm : Covers k₀ 0x40000000000000000800000000000000001100000000000000000000000000000004000002) (hs : Keeps k₀ s₀ s) :
    Keeps k₀ s₀ (State.emptyRing s n) := by
  unfold State.emptyRing
  repeat' first
    | exact hm.trans (by decide)
    | with_reducible first
      | assumption | intro _ | refine Keeps.of_eq (by with_reducible assumption) ?_ | apply State.emptyQueue_keeps
      | apply Keeps.ite
    | split | (dsimp only; split)

theorem State.forgetStations_keeps {k₀ : Nat} {s₀ s : State} (n : Nat)
    (hm : Covers k₀ 0x10000000000000000000000000000000000800002) (hs : Keeps k₀ s₀ s) :
    Keeps k₀ s₀ (State.forgetStations s n) := by
  unfold State.forgetStations
  repeat' first
    | exact hm.trans (by decide)
    | with_reducible first
      | assumption | intro _ | refine Keeps.of_eq (by with_reducible assumption) ?_ | apply State.forEach_keeps
      | apply State.modRing_keeps | apply State.setSta_keeps | apply Keeps.ite
    | split | (dsimp only; split)

theorem State.ringEnable_keeps {k₀ : Nat} {s₀ s : State} (n : Fin 6)
    (hm : Covers k₀ 0xc40000000000000000000000000800002) (hs : Keeps k₀ s₀ s) :
    Keeps k₀ s₀ (State.ringEnable s n) := by
  unfold State.ringEnable
  repeat' first
    | exact hm.trans (by decide)
    | with_reducible first
      | exact SOP_CTRL_in | exact SOP_LOOP_in | exact SOP_STATE_in | assumption | intro _
      | refine Keeps.of_eq (by with_reducible assumption) ?_ | apply State.flag_keeps | apply State.modRing_keeps
      | apply State.putFld_keeps | apply State.setRingState_keeps | apply Keeps.ite
    | split | (dsimp only; split)

theorem State.ringDisable_keeps {k₀ : Nat} {s₀ s : State} (n : Fin 6)
    (hm : Covers k₀ 0x40000000000000000800000000000000011100000440000000000000000000000004800002) (hs : Keeps k₀ s₀ s) :
    Keeps k₀ s₀ (State.ringDisable s n) := by
  unfold State.ringDisable
  repeat' first
    | exact hm.trans (by decide)
    | with_reducible first
      | exact SOP_CTRL_in | assumption | intro _ | refine Keeps.of_eq (by with_reducible assumption) ?_
      | apply State.emptyRing_keeps | apply State.forgetStations_keeps | apply State.modRing_keeps
      | apply State.putFld_keeps | apply State.setRingState_keeps | apply Keeps.ite
    | split | (dsimp only; split)

theorem execRingEnable_keeps {k₀ : Nat} {s₀ s : State} (ring : Fin 6)
    (hm : Covers k₀ 0xc40000000000000000000000000800002) (hs : Keeps k₀ s₀ s) :
    Outcome.Keeps k₀ s₀ (execRingEnable ring s) := by
  unfold execRingEnable
  repeat' first
    | exact hm.trans (by decide)
    | with_reducible first
      | assumption | intro _ | refine Keeps.of_eq (by with_reducible assumption) ?_ | apply State.ringEnable_keeps
      | apply Keeps.ite | apply Outcome.keeps_next
    | split | (dsimp only; split)

theorem execRingDisable_keeps {k₀ : Nat} {s₀ s : State} (ring : Fin 6)
    (hm : Covers k₀ 0x40000000000000000800000000000000011100000440000000000000000000000004800002) (hs : Keeps k₀ s₀ s) :
    Outcome.Keeps k₀ s₀ (execRingDisable ring s) := by
  unfold execRingDisable
  repeat' first
    | exact hm.trans (by decide)
    | with_reducible first
      | assumption | intro _ | refine Keeps.of_eq (by with_reducible assumption) ?_ | apply State.ringDisable_keeps
      | apply Keeps.ite | apply Outcome.keeps_next
    | split | (dsimp only; split)

theorem execListenTimeout_keeps {k₀ : Nat} {s₀ s : State} (ring : Fin 6)
    (hm : Covers k₀ 0x400000000000000000000000000000002) (hs : Keeps k₀ s₀ s) :
    Outcome.Keeps k₀ s₀ (execListenTimeout ring s) := by
  unfold execListenTimeout
  repeat' first
    | exact hm.trans (by decide)
    | with_reducible first
      | assumption | intro _ | refine Keeps.of_eq (by with_reducible assumption) ?_ | apply State.setRingState_keeps
      | apply Keeps.ite | apply Outcome.keeps_next
    | split | (dsimp only; split)

theorem State.collision_keeps {k₀ : Nat} {s₀ s : State} (n : Nat)
    (hm : Covers k₀ 0x800420000000000000000000000000800002) (hs : Keeps k₀ s₀ s) :
    Keeps k₀ s₀ (State.collision s n) := by
  unfold State.collision
  repeat' first
    | exact hm.trans (by decide)
    | with_reducible first
      | exact SOP_COLLCNT_in | exact SOP_STATE_in | exact SOP_STATUS_in | assumption | intro _
      | refine Keeps.of_eq (by with_reducible assumption) ?_ | apply State.bump_keeps | apply State.flag_keeps
      | apply State.modRing_keeps | apply State.putFld_keeps | apply Keeps.ite
    | split | (dsimp only; split)

theorem State.lonelyStart_keeps {k₀ : Nat} {s₀ s : State} (n : Nat)
    (hm : Covers k₀ 0x200618a0000000000000000000000000000000000000000000000000000000000000000000000000000000000000c10002) (hs : Keeps k₀ s₀ s) :
    Keeps k₀ s₀ (State.lonelyStart s n) := by
  unfold State.lonelyStart
  repeat' first
    | exact hm.trans (by decide)
    | with_reducible first
      | assumption | intro _ | refine Keeps.of_eq (by with_reducible assumption) ?_ | apply State.evLimit_keeps
      | apply State.modRing_keeps | apply Keeps.ite
    | split | (dsimp only; split)

theorem State.coldAgain_keeps {k₀ : Nat} {s₀ s : State} (n : Nat) (listen : Bool)
    (hm : Covers k₀ 0x400000000000000000000000000800002) (hs : Keeps k₀ s₀ s) :
    Keeps k₀ s₀ (State.coldAgain s n listen) := by
  unfold State.coldAgain
  repeat' first
    | exact hm.trans (by decide)
    | with_reducible first
      | exact SOP_STATE_in | assumption | intro _ | refine Keeps.of_eq (by with_reducible assumption) ?_
      | apply State.modRing_keeps | apply State.putFld_keeps | apply State.setRingState_keeps | apply State.when_keeps
      | apply Keeps.ite
    | split | (dsimp only; split)

theorem State.judgeRound_keeps {k₀ : Nat} {s₀ s : State} (n : Nat)
    (hm : Covers k₀ 0x200618a0000000000000000000000000000000000000000000000000000000000400000000000000000000000000c10002) (hs : Keeps k₀ s₀ s) :
    Keeps k₀ s₀ (State.judgeRound s n) := by
  unfold State.judgeRound
  repeat' first
    | exact hm.trans (by decide)
    | with_reducible first
      | exact SOP_STATE_in | assumption | intro _ | refine Keeps.of_eq (by with_reducible assumption) ?_
      | apply State.coldAgain_keeps | apply State.lonelyStart_keeps | apply State.modRing_keeps
      | apply State.putFld_keeps | apply Keeps.ite
    | split | (dsimp only; split)

theorem State.coldRound_keeps {k₀ : Nat} {s₀ s : State} (n : Nat) (raw : Int)
    (hm : Covers k₀ 0x200618a0000000000000000000000000000000000000000000000000000000000400000000000000000000000008c10002) (hs : Keeps k₀ s₀ s) :
    Keeps k₀ s₀ (State.coldRound s n raw) := by
  unfold State.coldRound
  repeat' first
    | exact hm.trans (by decide)
    | with_reducible first
      | assumption | intro _ | refine Keeps.of_eq (by with_reducible assumption) ?_ | apply State.judgeRound_keeps
      | apply State.modRing_keeps | apply State.sendCopies_keeps | apply Keeps.ite
    | split | (dsimp only; split)

theorem execColdstartRound_keeps {k₀ : Nat} {s₀ s : State} (ring : Fin 6) (raw : Int)
    (hm : Covers k₀ 0x200618a0000000000000000000000000000000000000000000000000000000000400000000000000000000000008c10002) (hs : Keeps k₀ s₀ s) :
    Outcome.Keeps k₀ s₀ (execColdstartRound ring raw s) := by
  unfold execColdstartRound
  repeat' first
    | exact hm.trans (by decide)
    | with_reducible first
      | assumption | intro _ | refine Keeps.of_eq (by with_reducible assumption) ?_ | apply State.coldRound_keeps
      | apply Keeps.ite | apply Outcome.keeps_next
    | split | (dsimp only; split)

theorem State.hearSync_keeps {k₀ : Nat} {s₀ s : State} (n : Nat) (src : Nat)
    (hm : Covers k₀ 0x400000000000000000000000000800002) (hs : Keeps k₀ s₀ s) :
    Keeps k₀ s₀ (State.hearSync s n src) := by
  unfold State.hearSync
  repeat' first
    | exact hm.trans (by decide)
    | with_reducible first
      | exact SOP_STATE_in | assumption | intro _ | refine Keeps.of_eq (by with_reducible assumption) ?_
      | apply State.modRing_keeps | apply State.putFld_keeps | apply Keeps.ite
    | split | (dsimp only; split)

theorem State.coldReceive_keeps {k₀ : Nat} {s₀ s : State} (n : Nat) (west : Bool) (t : Int) (h : RingHeader)
    (hm : Covers k₀ 0x800420000000000000000000000000800002) (hs : Keeps k₀ s₀ s) :
    Keeps k₀ s₀ (State.coldReceive s n west t h) := by
  unfold State.coldReceive
  repeat' first
    | exact hm.trans (by decide)
    | with_reducible first
      | assumption | intro _ | refine Keeps.of_eq (by with_reducible assumption) ?_ | apply State.coldAgain_keeps
      | apply State.collision_keeps | apply State.hearSync_keeps | apply State.modRing_keeps | apply Keeps.ite
    | split | (dsimp only; split)

theorem State.coldGarbled_keeps {k₀ : Nat} {s₀ s : State} (n : Nat)
    (hm : Covers k₀ 0x800420000000000000000000000000800002) (hs : Keeps k₀ s₀ s) :
    Keeps k₀ s₀ (State.coldGarbled s n) := by
  unfold State.coldGarbled
  repeat' first
    | exact hm.trans (by decide)
    | with_reducible first
      | assumption | intro _ | refine Keeps.of_eq (by with_reducible assumption) ?_ | apply State.collision_keeps
      | apply State.modRing_keeps | apply Keeps.ite
    | split | (dsimp only; split)

theorem State.listenReceive_keeps {k₀ : Nat} {s₀ s : State} (n : Nat) (h : RingHeader) (payload : List Byte)
    (hm : Covers k₀ 0xc00000000000000000000000000800002) (hs : Keeps k₀ s₀ s) :
    Keeps k₀ s₀ (State.listenReceive s n h payload) := by
  unfold State.listenReceive
  repeat' first
    | exact hm.trans (by decide)
    | with_reducible first
      | exact SOP_LOOP_in | assumption | intro _ | refine Keeps.of_eq (by with_reducible assumption) ?_
      | apply State.flag_keeps | apply State.hearSync_keeps | apply State.modRing_keeps | apply State.putFld_keeps
      | apply State.setRingState_keeps | apply Keeps.ite
    | split | (dsimp only; split)

theorem State.outsideActivity_keeps {k₀ : Nat} {s₀ s : State} (n : Nat) (bytes : Nat) (src : Nat)
    (hm : Covers k₀ 0x200618a0000000000000000000000000000000000000000000000000000000000020000000000000000000000000c10002) (hs : Keeps k₀ s₀ s) :
    Keeps k₀ s₀ (State.outsideActivity s n bytes src) := by
  unfold State.outsideActivity
  repeat' first
    | exact hm.trans (by decide)
    | with_reducible first
      | exact SOP_STATUS_in | assumption | intro _ | refine Keeps.of_eq (by with_reducible assumption) ?_
      | apply State.event_keeps | apply State.flag_keeps | apply State.modRing_keeps | apply Keeps.ite
    | split | (dsimp only; split)

theorem State.violation_keeps {k₀ : Nat} {s₀ s : State} (n : Nat) (src : Nat) (slot : Nat) (west : Bool)
    (hm : Covers k₀ 0x200618a0000000000000000000000000000000000000000000000000008040000020000000000000000000000000410002) (hs : Keeps k₀ s₀ s) :
    Keeps k₀ s₀ (State.violation s n src slot west) := by
  unfold State.violation
  repeat' first
    | exact hm.trans (by decide)
    | with_reducible first
      | exact SOP_LASTVIOL_in | exact SOP_SLOTVIOL_in | exact SOP_STATUS_in | assumption | intro _
      | refine Keeps.of_eq (by with_reducible assumption) ?_ | apply State.bump_keeps | apply State.event_keeps
      | apply State.flag_keeps | apply State.putFld_keeps | apply Keeps.ite
    | split | (dsimp only; split)

theorem State.stranger_keeps {k₀ : Nat} {s₀ s : State} (n : Nat) (src : Nat) (typ : Nat) (west : Bool)
    (hm : Covers k₀ 0x200618a0000000000000000000000000000000000000000000000000000020020020000000000000000000000000410002) (hs : Keeps k₀ s₀ s) :
    Keeps k₀ s₀ (State.stranger s n src typ west) := by
  unfold State.stranger
  repeat' first
    | exact hm.trans (by decide)
    | with_reducible first
      | exact SOP_LASTSTR_in | exact SOP_STATUS_in | exact SOP_STRCNT_in | assumption | intro _
      | refine Keeps.of_eq (by with_reducible assumption) ?_ | apply State.bump_keeps | apply State.event_keeps
      | apply State.flag_keeps | apply State.putFld_keeps | apply Keeps.ite
    | split | (dsimp only; split)

theorem State.outWindow_keeps {k₀ : Nat} {s₀ s : State} (n : Nat) (typ : Nat)
    (hm : Covers k₀ 0x410020000000000000000000000000000002) (hs : Keeps k₀ s₀ s) :
    Keeps k₀ s₀ (State.outWindow s n typ) := by
  unfold State.outWindow
  repeat' first
    | exact hm.trans (by decide)
    | with_reducible first
      | exact SOP_FCOLDCNT_in | exact SOP_OUTWIN_in | exact SOP_STATUS_in | assumption | intro _
      | refine Keeps.of_eq (by with_reducible assumption) ?_ | apply State.bump_keeps | apply State.flag_keeps
      | apply Keeps.ite
    | split | (dsimp only; split)

theorem State.modSlot_keeps {k₀ : Nat} {s₀ s : State} (n : Nat) (slot : Nat) (g : SlotUse → SlotUse)
    (hm : Covers k₀ 0x800000) (hs : Keeps k₀ s₀ s) :
    Keeps k₀ s₀ (State.modSlot s n slot g) := by
  unfold State.modSlot
  repeat' first
    | exact hm.trans (by decide)
    | with_reducible first
      | assumption | intro _ | refine Keeps.of_eq (by with_reducible assumption) ?_ | apply State.modRing_keeps
      | apply Keeps.ite
    | split | (dsimp only; split)

theorem State.gotCopy_keeps {k₀ : Nat} {s₀ s : State} (n : Nat) (slot : Nat) (west : Bool) (hm : Covers k₀ 0x800000)
    (hs : Keeps k₀ s₀ s) :
    Keeps k₀ s₀ (State.gotCopy s n slot west) := by
  unfold State.gotCopy
  repeat' first
    | exact hm.trans (by decide)
    | with_reducible first
      | assumption | intro _ | refine Keeps.of_eq (by with_reducible assumption) ?_ | apply State.modSlot_keeps
      | apply Keeps.ite
    | split | (dsimp only; split)

theorem State.ownSync_keeps {k₀ : Nat} {s₀ s : State} (n : Nat) (u : SlotUse) (h : RingHeader) (west : Bool) (t : Int)
    (payload : List Byte) (hm : Covers k₀ 0x1800000000000000000000000000800002) (hs : Keeps k₀ s₀ s) :
    Keeps k₀ s₀ (State.ownSync s n u h west t payload) := by
  unfold State.ownSync
  repeat' first
    | exact hm.trans (by decide)
    | with_reducible first
      | exact SOP_BREAK_in | exact SOP_LOOP_in | assumption | intro _
      | refine Keeps.of_eq (by with_reducible assumption) ?_ | apply State.flag_keeps | apply State.gotCopy_keeps
      | apply State.modRing_keeps | apply State.putFld_keeps | apply Keeps.ite
    | split | (dsimp only; split)

theorem State.acceptFrame_keeps {k₀ : Nat} {s₀ s : State} (n : Fin 6) (u : SlotUse) (h : RingHeader) (west : Bool)
    (t : Int) (f : List Byte) (hm : Covers k₀ 0x200618a00000000000000000c000000000000000180000000000000000330018180000000000000000000000000cc10002) (hs : Keeps k₀ s₀ s) :
    Keeps k₀ s₀ (State.acceptFrame s n u h west t f) := by
  unfold State.acceptFrame
  repeat' first
    | exact hm.trans (by decide)
    | with_reducible first
      | exact SOP_FCSERR_in | exact SOP_LONG_in | assumption | intro _
      | refine Keeps.of_eq (by with_reducible assumption) ?_ | apply State.bump_keeps | apply State.endPacket_keeps
      | apply State.enqueue_keeps | apply State.gotCopy_keeps | apply State.modRing_keeps | apply State.modStation_keeps
      | apply State.ownSync_keeps | apply State.send_keeps | apply Keeps.ite
    | split | (dsimp only; split)

theorem State.police_keeps {k₀ : Nat} {s₀ s : State} (n : Fin 6) (h : RingHeader) (west : Bool) (t : Int)
    (f : List Byte) (hm : Covers k₀ 0x200618a00000000000000000c000000000000000180000000000000000b3605b182000000000000000000000000cc10002) (hs : Keeps k₀ s₀ s) :
    Keeps k₀ s₀ (State.police s n h west t f) := by
  unfold State.police
  repeat' first
    | exact hm.trans (by decide)
    | with_reducible first
      | assumption | intro _ | refine Keeps.of_eq (by with_reducible assumption) ?_ | apply State.acceptFrame_keeps
      | apply State.modRing_keeps | apply State.outWindow_keeps | apply State.outsideActivity_keeps
      | apply State.stranger_keeps | apply State.violation_keeps | apply State.when_keeps | apply Keeps.ite
    | split | (dsimp only; split)

theorem State.ringReceive_keeps {k₀ : Nat} {s₀ s : State} (n : Fin 6) (west : Bool) (raw : Int) (f : List Byte)
    (hm : Covers k₀ 0x200618a00000000000000000c000000000000000180000000000000000b360df1c2000000000000000000000000cc10002) (hs : Keeps k₀ s₀ s) :
    Keeps k₀ s₀ (State.ringReceive s n west raw f) := by
  unfold State.ringReceive
  repeat' first
    | exact hm.trans (by decide)
    | with_reducible first
      | exact SOP_FCSERR_in | exact SOP_HDRERR_in | assumption | intro _
      | refine Keeps.of_eq (by with_reducible assumption) ?_ | apply State.bump_keeps | apply State.coldGarbled_keeps
      | apply State.coldReceive_keeps | apply State.listenReceive_keeps | apply State.modRing_keeps
      | apply State.outsideActivity_keeps | apply State.police_keeps | apply State.send_keeps | apply Keeps.ite
    | split | (dsimp only; split)

theorem execRingFrameReceived_keeps {k₀ : Nat} {s₀ s : State} (ring : Fin 6) (west : Bool) (raw : Int)
    (frame : List Byte) (hm : Covers k₀ 0x200618a00000000000000000c000000000000000180000000000000000b360df1c2000000000000000000000000cc10002) (hs : Keeps k₀ s₀ s) :
    Outcome.Keeps k₀ s₀ (execRingFrameReceived ring west raw frame s) := by
  unfold execRingFrameReceived
  repeat' first
    | exact hm.trans (by decide)
    | with_reducible first
      | assumption | intro _ | refine Keeps.of_eq (by with_reducible assumption) ?_ | apply State.ringReceive_keeps
      | apply Keeps.ite | apply Outcome.keeps_next
    | split | (dsimp only; split)

theorem State.measureLoop_keeps {k₀ : Nat} {s₀ s : State} (n : Nat) (c : Nat)
    (hm : Covers k₀ 0x200618a0000000000000000000000000000000000000000000000000000000000820000000000000000000000000410002) (hs : Keeps k₀ s₀ s) :
    Keeps k₀ s₀ (State.measureLoop s n c) := by
  unfold State.measureLoop
  repeat' first
    | exact hm.trans (by decide)
    | with_reducible first
      | exact SOP_LOOP_in | exact SOP_STATUS_in | assumption | intro _
      | refine Keeps.of_eq (by with_reducible assumption) ?_ | apply State.evLimit_keeps | apply State.flag_keeps
      | apply State.putFld_keeps | apply State.when_keeps | apply Keeps.ite
    | split | (dsimp only; split)

theorem State.measureHop_keeps {k₀ : Nat} {s₀ s : State} (n : Nat)
    (hm : Covers k₀ 0x400000000000000000000000000000000000000000000000000000000000000000000002) (hs : Keeps k₀ s₀ s) :
    Keeps k₀ s₀ (State.measureHop s n) := by
  unfold State.measureHop
  repeat' first
    | exact hm.trans (by decide)
    | with_reducible first
      | exact CPL_HOP_in | assumption | intro _ | refine Keeps.of_eq (by with_reducible assumption) ?_
      | apply State.flag_keeps | apply State.putFld_keeps | apply Keeps.ite
    | split | (dsimp only; split)

theorem execSyncReturn_keeps {k₀ : Nat} {s₀ s : State} (ring : Fin 6)
    (hm : Covers k₀ 0x200618a0000000000000000000400000000000000000000000000000000000000820000000000000000000000000410002) (hs : Keeps k₀ s₀ s) :
    Outcome.Keeps k₀ s₀ (execSyncReturn ring s) := by
  unfold execSyncReturn
  repeat' first
    | exact hm.trans (by decide)
    | with_reducible first
      | assumption | intro _ | refine Keeps.of_eq (by with_reducible assumption) ?_ | apply State.measureHop_keeps
      | apply State.measureLoop_keeps | apply Keeps.ite | apply Outcome.keeps_next
    | split | (dsimp only; split)

theorem State.inFrame_keeps {k₀ : Nat} {s₀ s : State} (n : Fin 6) (west : Bool)
    (hm : Covers k₀ 0x200618a00000000000000000c0000000000000001800000000000000003300000001a00a81800000000000000005c1001a) (hs : Keeps k₀ s₀ s) :
    Keeps k₀ s₀ (State.inFrame s n west) := by
  unfold State.inFrame
  repeat' first
    | exact hm.trans (by decide)
    | with_reducible first
      | assumption | intro _ | refine Keeps.of_eq (by with_reducible assumption) ?_ | apply State.evState_keeps
      | apply State.fillInput_keeps | apply State.forEach_keeps | apply State.headPacket_keeps
      | apply State.modSlot_keeps | apply State.modStation_keeps | apply State.popPacket_keeps | apply Keeps.ite
    | split | (dsimp only; split)

theorem execInFrame_keeps {k₀ : Nat} {s₀ s : State} (ring : Fin 6) (west : Bool)
    (hm : Covers k₀ 0x200618a00000000000000000c0000000000000001800000000000000003300000001a00a81800000000000000005c1001a) (hs : Keeps k₀ s₀ s) :
    Outcome.Keeps k₀ s₀ (execInFrame ring west s) := by
  unfold execInFrame
  repeat' first
    | exact hm.trans (by decide)
    | with_reducible first
      | assumption | intro _ | refine Keeps.of_eq (by with_reducible assumption) ?_ | apply State.inFrame_keeps
      | apply Keeps.ite | apply Outcome.keeps_next
    | split | (dsimp only; split)

theorem State.breakDeclare_keeps {k₀ : Nat} {s₀ s : State} (n : Nat)
    (hm : Covers k₀ 0x200618a0000000000000000000000000000000000000000000000000000010001000000000000000000000000000410002) (hs : Keeps k₀ s₀ s) :
    Keeps k₀ s₀ (State.breakDeclare s n) := by
  unfold State.breakDeclare
  repeat' first
    | exact hm.trans (by decide)
    | with_reducible first
      | exact SOP_BREAK_in | exact SOP_BREAKCNT_in | assumption | intro _
      | refine Keeps.of_eq (by with_reducible assumption) ?_ | apply State.bump_keeps | apply State.event_keeps
      | apply State.flag_keeps | apply State.putFld_keeps | apply Keeps.ite
    | split | (dsimp only; split)

theorem execBreakDeclare_keeps {k₀ : Nat} {s₀ s : State} (ring : Fin 6)
    (hm : Covers k₀ 0x200618a0000000000000000000000000000000000000000000000000000010001000000000000000000000000000410002) (hs : Keeps k₀ s₀ s) :
    Outcome.Keeps k₀ s₀ (execBreakDeclare ring s) := by
  unfold execBreakDeclare
  repeat' first
    | exact hm.trans (by decide)
    | with_reducible first
      | assumption | intro _ | refine Keeps.of_eq (by with_reducible assumption) ?_ | apply State.breakDeclare_keeps
      | apply Keeps.ite | apply Outcome.keeps_next
    | split | (dsimp only; split)

theorem State.breakHeal_keeps {k₀ : Nat} {s₀ s : State} (n : Nat)
    (hm : Covers k₀ 0x200618a0000000000000000000000000000000000000000000000000000000001820000000000000000000000000c10002) (hs : Keeps k₀ s₀ s) :
    Keeps k₀ s₀ (State.breakHeal s n) := by
  unfold State.breakHeal
  repeat' first
    | exact hm.trans (by decide)
    | with_reducible first
      | exact SOP_BREAK_in | assumption | intro _ | refine Keeps.of_eq (by with_reducible assumption) ?_
      | apply State.measureLoop_keeps | apply State.modRing_keeps | apply State.putFld_keeps | apply Keeps.ite
    | split | (dsimp only; split)

theorem execBreakHeal_keeps {k₀ : Nat} {s₀ s : State} (ring : Fin 6)
    (hm : Covers k₀ 0x200618a0000000000000000000000000000000000000000000000000000000001820000000000000000000000000c10002) (hs : Keeps k₀ s₀ s) :
    Outcome.Keeps k₀ s₀ (execBreakHeal ring s) := by
  unfold execBreakHeal
  repeat' first
    | exact hm.trans (by decide)
    | with_reducible first
      | assumption | intro _ | refine Keeps.of_eq (by with_reducible assumption) ?_ | apply State.breakHeal_keeps
      | apply Keeps.ite | apply Outcome.keeps_next
    | split | (dsimp only; split)

theorem execOnecopyPattern_keeps {k₀ : Nat} {s₀ s : State} (ring : Fin 6)
    (hm : Covers k₀ 0x200618a0000000000000000000000000000000000000000000000000000000000000000000000000000000000000c10002) (hs : Keeps k₀ s₀ s) :
    Outcome.Keeps k₀ s₀ (execOnecopyPattern ring s) := by
  unfold execOnecopyPattern
  repeat' first
    | exact hm.trans (by decide)
    | with_reducible first
      | assumption | intro _ | refine Keeps.of_eq (by with_reducible assumption) ?_ | apply State.event_keeps
      | apply State.modRing_keeps | apply Keeps.ite | apply Outcome.keeps_next
    | split | (dsimp only; split)

theorem State.judgeHop_keeps {k₀ : Nat} {s₀ s : State} (n : Nat) (west : Bool) (len : Nat)
    (hm : Covers k₀ 0x200618a0000000000000000000000000000000000000000000000000000000000000000000000000000000000000610002) (hs : Keeps k₀ s₀ s) :
    Keeps k₀ s₀ (State.judgeHop s n west len) := by
  unfold State.judgeHop
  repeat' first
    | exact hm.trans (by decide)
    | with_reducible first
      | assumption | intro _ | refine Keeps.of_eq (by with_reducible assumption) ?_ | apply State.evLimit_keeps
      | apply State.when_keeps | apply Keeps.ite
    | split | (dsimp only; split) | with_reducible apply Keeps.mk_bellows

theorem execTdrMeasure_keeps {k₀ : Nat} {s₀ s : State} (ring : Fin 6) (eStat : BitVec 2) (eLen : BitVec 6)
    (wStat : BitVec 2) (wLen : BitVec 6) (hm : Covers k₀ 0x200618a0000000000000000000000000000000000000000000000000000000008000000000000000000000000000610002) (hs : Keeps k₀ s₀ s) :
    Outcome.Keeps k₀ s₀ (execTdrMeasure ring eStat eLen wStat wLen s) := by
  unfold execTdrMeasure
  repeat' first
    | exact hm.trans (by decide)
    | with_reducible first
      | exact SOP_TDR_in | assumption | intro _ | refine Keeps.of_eq (by with_reducible assumption) ?_
      | apply State.flag_keeps | apply State.judgeHop_keeps | apply State.putFld_keeps | apply Keeps.ite
      | apply Outcome.keeps_next
    | split | (dsimp only; split)

/-! ### Machine/RingInt.lean -/

theorem State.addJob_keeps {k₀ : Nat} {s₀ s : State} (n : Nat) (j : MgmtJob) (hm : Covers k₀ 0x800000)
    (hs : Keeps k₀ s₀ s) :
    Keeps k₀ s₀ (State.addJob s n j) := by
  unfold State.addJob
  repeat' first
    | exact hm.trans (by decide)
    | with_reducible first
      | assumption | intro _ | refine Keeps.of_eq (by with_reducible assumption) ?_ | apply State.modRing_keeps
      | apply Keeps.ite
    | split | (dsimp only; split)

theorem State.rejectStation_keeps {k₀ : Nat} {s₀ s : State} (n : Nat) (id : Nat) (reason : Nat)
    (hm : Covers k₀ 0x200618a0000000000000000000000000000000000000000000000000010000000020000000000000000000000000c10002) (hs : Keeps k₀ s₀ s) :
    Keeps k₀ s₀ (State.rejectStation s n id reason) := by
  unfold State.rejectStation
  repeat' first
    | exact hm.trans (by decide)
    | with_reducible first
      | exact SOP_STA_in | exact SOP_STATUS_in | assumption | intro _
      | refine Keeps.of_eq (by with_reducible assumption) ?_ | apply State.addJob_keeps | apply State.event_keeps
      | apply State.flag_keeps | apply State.modRing_keeps | apply State.modStation_keeps | apply State.putFld_keeps
      | apply State.setSta_keeps | apply Keeps.ite
    | split | (dsimp only; split)

theorem State.slotNames_keeps {k₀ : Nat} {s₀ s : State} (n : Nat) (id : Nat)
    (hm : Covers k₀ 0x200618a0000000000000000000000000000000000000000000000000010000000020000000000000000000000000c10002) (hs : Keeps k₀ s₀ s) :
    Keeps k₀ s₀ (State.slotNames s n id) := by
  unfold State.slotNames
  repeat' first
    | exact hm.trans (by decide)
    | with_reducible first
      | assumption | intro _ | refine Keeps.of_eq (by with_reducible assumption) ?_ | apply State.rejectStation_keeps
      | apply State.useConsist_keeps | apply Keeps.ite
    | split | (dsimp only; split)

theorem State.needAnswer_keeps {k₀ : Nat} {s₀ s : State} (n : Nat) (id : Nat) (hm : Covers k₀ 0x800000)
    (hs : Keeps k₀ s₀ s) :
    Keeps k₀ s₀ (State.needAnswer s n id) := by
  unfold State.needAnswer
  repeat' first
    | exact hm.trans (by decide)
    | with_reducible first
      | assumption | intro _ | refine Keeps.of_eq (by with_reducible assumption) ?_ | apply State.modStation_keeps
      | apply Keeps.ite
    | split | (dsimp only; split)

theorem State.jobFrame_keeps {k₀ : Nat} {s₀ s : State} (n : Nat) (room : Nat) (j : MgmtJob)
    (hm : Covers k₀ 0x3c00000000000000000000000000000000000800002) (hs : Keeps k₀ s₀ s) :
    Keeps k₀ s₀ (State.jobFrame s n room j).1 := by
  unfold State.jobFrame
  repeat' first
    | exact hm.trans (by decide)
    | with_reducible first
      | assumption | intro _ | refine Keeps.of_eq (by with_reducible assumption) ?_ | apply State.enableSlots_keeps
      | apply State.forEach_keeps | apply State.modRing_keeps | apply State.modStation_keeps
      | apply State.needAnswer_keeps | apply Keeps.ite
    | split | (dsimp only; split)

theorem State.nextSeq_keeps {k₀ : Nat} {s₀ s : State} (n : Nat) (hm : Covers k₀ 0x800000) (hs : Keeps k₀ s₀ s) :
    Keeps k₀ s₀ (State.nextSeq s n) := by
  unfold State.nextSeq
  repeat' first
    | exact hm.trans (by decide)
    | with_reducible first
      | assumption | intro _ | refine Keeps.of_eq (by with_reducible assumption) ?_ | apply State.modRing_keeps
      | apply Keeps.ite
    | split | (dsimp only; split)

theorem State.jobCommand_keeps {k₀ : Nat} {s₀ s : State} (n : Nat) (room : Nat) (y0 : Nat)
    (hm : Covers k₀ 0x3c00000000000000000000000000000000000800002) (hs : Keeps k₀ s₀ s) :
    Keeps k₀ s₀ (State.jobCommand s n room y0).1 := by
  fun_induction State.jobCommand s n room y0
  all_goals
    repeat' first
      | exact hm.trans (by decide)
      | with_reducible first
        | assumption | intro _ | refine (‹Keeps _ _ _ → _› ?_) | refine Keeps.of_eq (by with_reducible assumption) ?_
        | apply State.jobFrame_keeps | apply State.modRing_keeps | apply State.nextSeq_keeps | apply Keeps.ite
      | split | (dsimp only; split)

theorem State.bridgeCommand_keeps {k₀ : Nat} {s₀ s : State} (n : Nat)
    (hm : Covers k₀ 0x200618a00000000000000000000000000002020003d8008000000000000000000001a00a81800000000000000002c3003a) (hs : Keeps k₀ s₀ s) :
    Keeps k₀ s₀ (State.bridgeCommand s n).1 := by
  unfold State.bridgeCommand
  repeat' first
    | exact hm.trans (by decide)
    | with_reducible first
      | assumption | intro _ | refine Keeps.of_eq (by with_reducible assumption) ?_ | apply State.commandSent_keeps
      | apply State.failInactive_keeps | apply State.modRing_keeps | apply State.nextSeq_keeps | apply Keeps.ite
    | split | (dsimp only; split)

theorem State.mgmtCommand_keeps {k₀ : Nat} {s₀ s : State} (n : Nat) (len : Nat)
    (hm : Covers k₀ 0x200618a00000000000000000000000000002020003d8008000000003c00000000001a00a81800000000000000002c3003a) (hs : Keeps k₀ s₀ s) :
    Keeps k₀ s₀ (State.mgmtCommand s n len).1 := by
  unfold State.mgmtCommand
  repeat' first
    | exact hm.trans (by decide)
    | with_reducible first
      | assumption | intro _ | refine Keeps.of_eq (by with_reducible assumption) ?_ | apply State.bridgeCommand_keeps
      | apply State.jobCommand_keeps | apply Keeps.ite
    | split | (dsimp only; split)

theorem State.slotFrame_keeps {k₀ : Nat} {s₀ s : State} (n : Nat) (u : SlotUse)
    (hm : Covers k₀ 0x200618a00000000000000000000000000002020003d8008000000003c00008000001a00a81800000000000000002c3003a) (hs : Keeps k₀ s₀ s) :
    Keeps k₀ s₀ (State.slotFrame s n u).1 := by
  unfold State.slotFrame
  repeat' first
    | exact hm.trans (by decide)
    | with_reducible first
      | assumption | intro _ | refine Keeps.of_eq (by with_reducible assumption) ?_ | apply State.mgmtCommand_keeps
      | apply State.outPayload_keeps | apply Keeps.ite
    | split | (dsimp only; split)

theorem State.alignBrake_keeps {k₀ : Nat} {s₀ s : State} (n : Nat) (off : Int) (hm : Covers k₀ 0x800000)
    (hs : Keeps k₀ s₀ s) :
    Keeps k₀ s₀ (State.alignBrake s n off) := by
  unfold State.alignBrake
  repeat' first
    | exact hm.trans (by decide)
    | with_reducible first
      | assumption | intro _ | refine Keeps.of_eq (by with_reducible assumption) ?_ | apply State.modRing_keeps
      | apply Keeps.ite
    | split | (dsimp only; split)

theorem State.countBrake_keeps {k₀ : Nat} {s₀ s : State} (n : Nat)
    (hm : Covers k₀ 0x200020000000000000000000000000000002) (hs : Keeps k₀ s₀ s) :
    Keeps k₀ s₀ (State.countBrake s n) := by
  unfold State.countBrake
  repeat' first
    | exact hm.trans (by decide)
    | with_reducible first
      | exact SOP_BRKCNT_in | exact SOP_STATUS_in | assumption | intro _
      | refine Keeps.of_eq (by with_reducible assumption) ?_ | apply State.bump_keeps | apply State.flag_keeps
      | apply Keeps.ite
    | split | (dsimp only; split)

theorem State.sendSlot_keeps {k₀ : Nat} {s₀ s : State} (n : Nat) (u : SlotUse) (off : Int)
    (hm : Covers k₀ 0x200618a00000000000000000000000000002020003d8008000000003c00008200021a00a8180000000000000000ac3003a) (hs : Keeps k₀ s₀ s) :
    Keeps k₀ s₀ (State.sendSlot s n u off) := by
  unfold State.sendSlot
  repeat' first
    | exact hm.trans (by decide)
    | with_reducible first
      | assumption | intro _ | refine Keeps.of_eq (by with_reducible assumption) ?_ | apply State.countBrake_keeps
      | apply State.sendFrame_keeps | apply State.slotFrame_keeps | apply State.when_keeps | apply Keeps.ite
    | split | (dsimp only; split)

theorem State.readSlot_keeps {k₀ : Nat} {s₀ s : State} (n : Nat) (i : Nat)
    (hm : Covers k₀ 0x200618a000000000000000000000000000000000000000000000000001000200002da00a81800000000000000000c10002) (hs : Keeps k₀ s₀ s) :
    Keeps k₀ s₀ (State.readSlot s n i).1 := by
  unfold State.readSlot
  repeat' first
    | exact hm.trans (by decide)
    | with_reducible first
      | exact SOP_SLOTSKEW_in | exact SOP_STATUS_in | assumption | intro _
      | refine Keeps.of_eq (by with_reducible assumption) ?_ | apply State.bump_keeps | apply State.evGroup_keeps
      | apply State.flag_keeps | apply State.forEach_keeps | apply State.slotNames_keeps | apply State.useIdts_keeps
      | apply Keeps.ite
    | split | (dsimp only; split)

theorem State.joinSlot_keeps {k₀ : Nat} {s₀ s : State} (n : Nat) (i : Nat)
    (hm : Covers k₀ 0x3c00000000000000000000000000000000000000002) (hs : Keeps k₀ s₀ s) :
    Keeps k₀ s₀ (State.joinSlot s n i) := by
  unfold State.joinSlot
  repeat' first
    | exact hm.trans (by decide)
    | with_reducible first
      | assumption | intro _ | refine Keeps.of_eq (by with_reducible assumption) ?_ | apply State.enableSlot_keeps
      | apply Keeps.ite
    | split | (dsimp only; split)

theorem State.slotStartAct_keeps {k₀ : Nat} {s₀ s : State} (n : Nat) (i : Nat) (skew : Int) (brake : Int)
    (hm : Covers k₀ 0x200618a00000000000000000000000000002020003d8008000000003c1000a20042da00a8180000000000000000ac3003a) (hs : Keeps k₀ s₀ s) :
    Keeps k₀ s₀ (State.slotStartAct s n i skew brake) := by
  unfold State.slotStartAct
  repeat' first
    | exact hm.trans (by decide)
    | with_reducible first
      | exact SOP_STATE_in | assumption | intro _ | refine Keeps.of_eq (by with_reducible assumption) ?_
      | apply State.alignBrake_keeps | apply State.evState_keeps | apply State.fillSafe_keeps
      | apply State.forEach_keeps | apply State.joinSlot_keeps | apply State.modRing_keeps | apply State.readSlot_keeps
      | apply State.sendSlot_keeps | apply State.setRingState_keeps | apply Keeps.ite
    | split | (dsimp only; split)

theorem execRingSlotStart_keeps {k₀ : Nat} {s₀ s : State} (ring : Fin 6) (slot : Fin 1024) (skew : Int) (brake : Int)
    (hm : Covers k₀ 0x200618a00000000000000000000000000002020003d8008000000003c1000a20042da00a8180000000000000000ac3003a) (hs : Keeps k₀ s₀ s) :
    Outcome.Keeps k₀ s₀ (execRingSlotStart ring slot skew brake s) := by
  unfold execRingSlotStart
  repeat' first
    | exact hm.trans (by decide)
    | with_reducible first
      | assumption | intro _ | refine Keeps.of_eq (by with_reducible assumption) ?_ | apply State.slotStartAct_keeps
      | apply Keeps.ite | apply Outcome.keeps_next
    | split | (dsimp only; split)

theorem State.takeAnswer_keeps {k₀ : Nat} {s₀ s : State} (n : Fin 6) (west : Bool) (typ : Nat) (cmd : Option Nat)
    (hm : Covers k₀ 0xc0000000000000001800000000000000003300000000000000000000000000000004000002) (hs : Keeps k₀ s₀ s) :
    Keeps k₀ s₀ (State.takeAnswer s n west typ cmd).1 := by
  unfold State.takeAnswer
  repeat' first
    | exact hm.trans (by decide)
    | with_reducible first
      | assumption | intro _ | refine Keeps.of_eq (by with_reducible assumption) ?_ | apply State.headPacket_keeps
      | apply State.popPacket_keeps | apply Keeps.ite
    | split | (dsimp only; split)

theorem State.answered_keeps {k₀ : Nat} {s₀ s : State} (n : Nat) (id : Nat) (hm : Covers k₀ 0x800000) (hs : Keeps k₀ s₀ s) :
    Keeps k₀ s₀ (State.answered s n id) := by
  unfold State.answered
  repeat' first
    | exact hm.trans (by decide)
    | with_reducible first
      | assumption | intro _ | refine Keeps.of_eq (by with_reducible assumption) ?_ | apply State.modStation_keeps
      | apply Keeps.ite
    | split | (dsimp only; split)

theorem State.keepInventory_keeps {k₀ : Nat} {s₀ s : State} (n : Nat) (id : Nat) (r : Nat)
    (hm : Covers k₀ 0x200618a0000004000000000000000000000000000000000000000000000000000000000000000000000000000000610002) (hs : Keeps k₀ s₀ s) :
    Keeps k₀ s₀ (State.keepInventory s n id r) := by
  unfold State.keepInventory
  repeat' first
    | exact hm.trans (by decide)
    | with_reducible first
      | exact BLW_STATUS_in | assumption | intro _ | refine Keeps.of_eq (by with_reducible assumption) ?_
      | apply State.event_keeps | apply State.flag_keeps | apply Keeps.ite
    | split | (dsimp only; split) | with_reducible apply Keeps.mk_bellows

theorem State.keepPosition_keeps {k₀ : Nat} {s₀ s : State} (n : Nat) (id : Nat) (c : Copies)
    (hm : Covers k₀ 0x10000000000000000000000000000000000000002) (hs : Keeps k₀ s₀ s) :
    Keeps k₀ s₀ (State.keepPosition s n id c) := by
  unfold State.keepPosition
  repeat' first
    | exact hm.trans (by decide)
    | with_reducible first
      | exact SOP_STA_in | assumption | intro _ | refine Keeps.of_eq (by with_reducible assumption) ?_
      | apply State.flag_keeps | apply State.putFld_keeps | apply Keeps.ite
    | split | (dsimp only; split)

theorem State.joinStation_keeps {k₀ : Nat} {s₀ s : State} (n : Nat) (id : Nat)
    (hm : Covers k₀ 0x200618a0000000000000000000000000000000000000000000000003c10000000020000000000000000000000010c10002) (hs : Keeps k₀ s₀ s) :
    Keeps k₀ s₀ (State.joinStation s n id) := by
  unfold State.joinStation
  repeat' first
    | exact hm.trans (by decide)
    | with_reducible first
      | assumption | intro _ | refine Keeps.of_eq (by with_reducible assumption) ?_ | apply State.enableSlots_keeps
      | apply State.modRing_keeps | apply State.modStation_keeps | apply State.rejectStation_keeps
      | apply State.setSta_keeps | apply State.tickFree_keeps | apply Keeps.ite
    | split | (dsimp only; split)

theorem State.judgeIdentity_keeps {k₀ : Nat} {s₀ s : State} (n : Nat) (id : Nat) (claim : Bool) (c : Copies)
    (hm : Covers k₀ 0x200618a0000004000000000000000000000000000000000000000003c10000000020000000000000000000000010e10022) (hs : Keeps k₀ s₀ s) :
    Keeps k₀ s₀ (State.judgeIdentity s n id claim c) := by
  unfold State.judgeIdentity
  repeat' first
    | exact hm.trans (by decide)
    | with_reducible first
      | assumption | intro _ | refine Keeps.of_eq (by with_reducible assumption) ?_ | apply State.evState_keeps
      | apply State.irq_keeps | apply State.joinStation_keeps | apply State.keepInventory_keeps
      | apply State.keepPosition_keeps | apply State.modRing_keeps | apply State.modStation_keeps
      | apply State.rejectStation_keeps | apply State.setSta_keeps | apply State.useConsist_keeps | apply Keeps.ite
    | split | (dsimp only; split)

theorem State.identityCopy_keeps {k₀ : Nat} {s₀ s : State} (n : Nat) (west : Bool) (claim : Bool) (h : RingHeader)
    (pl : List Byte) (t : Int) (hm : Covers k₀ 0x200618a0000004000000000000000000000000000000000000000003c10000000020000000000000000000000010e10022) (hs : Keeps k₀ s₀ s) :
    Keeps k₀ s₀ (State.identityCopy s n west claim h pl t) := by
  unfold State.identityCopy
  repeat' first
    | exact hm.trans (by decide)
    | with_reducible first
      | assumption | intro _ | refine Keeps.of_eq (by with_reducible assumption) ?_ | apply State.judgeIdentity_keeps
      | apply State.modSlot_keeps | apply Keeps.ite
    | split | (dsimp only; split)

theorem execIdentResponse_keeps {k₀ : Nat} {s₀ s : State} (ring : Fin 6) (west : Bool)
    (hm : Covers k₀ 0x200618a00000040000000000c0000000000000001800000000000003c13300000020000000000000000000000014e10022) (hs : Keeps k₀ s₀ s) :
    Outcome.Keeps k₀ s₀ (execIdentResponse ring west s) := by
  unfold execIdentResponse
  repeat' first
    | exact hm.trans (by decide)
    | with_reducible first
      | assumption | intro _ | refine Keeps.of_eq (by with_reducible assumption) ?_ | apply State.identityCopy_keeps
      | apply State.takeAnswer_keeps | apply Keeps.ite | apply Outcome.keeps_next
    | split | (dsimp only; split)

theorem execClaim_keeps {k₀ : Nat} {s₀ s : State} (ring : Fin 6) (west : Bool)
    (hm : Covers k₀ 0x200618a00000040000000000c0000000000000001800000000000003c13300000020000000000000000000000014e10022) (hs : Keeps k₀ s₀ s) :
    Outcome.Keeps k₀ s₀ (execClaim ring west s) := by
  unfold execClaim
  repeat' first
    | exact hm.trans (by decide)
    | with_reducible first
      | assumption | intro _ | refine Keeps.of_eq (by with_reducible assumption) ?_ | apply State.identityCopy_keeps
      | apply State.takeAnswer_keeps | apply Keeps.ite | apply Outcome.keeps_next
    | split | (dsimp only; split)

theorem State.firstCopy_keeps {k₀ : Nat} {s₀ s : State} (n : Nat) (h : RingHeader) (pl : List Byte) (g : State → State)
    (hm : Covers k₀ 0x200618a0000000000000000000000000000000000000000000000000000000000000000000000000000000000000c10002) (hs : Keeps k₀ s₀ s) (hg : ∀ x0, Keeps k₀ s₀ x0 → Keeps k₀ s₀ (g x0)) :
    Keeps k₀ s₀ (State.firstCopy s n h pl g) := by
  unfold State.firstCopy
  repeat' first
    | exact hm.trans (by decide)
    | with_reducible first
      | assumption | intro _ | apply hg | refine Keeps.of_eq (by with_reducible assumption) ?_
      | apply State.answered_keeps | apply State.evState_keeps | apply State.modSlot_keeps | apply Keeps.ite
    | split | (dsimp only; split)

theorem State.loadAck_keeps {k₀ : Nat} {s₀ s : State} (n : Fin 6) (west : Bool) (cmd : Nat)
    (hm : Covers k₀ 0x200618a00000000000000000c0000000000000001800000000000000013300000020000000000000000000000004c10002) (hs : Keeps k₀ s₀ s) :
    Keeps k₀ s₀ (State.loadAck s n west cmd) := by
  unfold State.loadAck
  repeat' first
    | exact hm.trans (by decide)
    | with_reducible first
      | assumption | intro _ | refine Keeps.of_eq (by with_reducible assumption) ?_ | apply State.firstCopy_keeps
      | apply State.rejectStation_keeps | apply State.takeAnswer_keeps | apply Keeps.ite
    | split | (dsimp only; split)

theorem execSchedAck_keeps {k₀ : Nat} {s₀ s : State} (ring : Fin 6) (west : Bool)
    (hm : Covers k₀ 0x200618a00000000000000000c0000000000000001800000000000000013300000020000000000000000000000004c10002) (hs : Keeps k₀ s₀ s) :
    Outcome.Keeps k₀ s₀ (execSchedAck ring west s) := by
  unfold execSchedAck
  repeat' first
    | exact hm.trans (by decide)
    | with_reducible first
      | assumption | intro _ | refine Keeps.of_eq (by with_reducible assumption) ?_ | apply State.loadAck_keeps
      | apply Keeps.ite | apply Outcome.keeps_next
    | split | (dsimp only; split)

theorem execPosnAck_keeps {k₀ : Nat} {s₀ s : State} (ring : Fin 6) (west : Bool)
    (hm : Covers k₀ 0x200618a00000000000000000c0000000000000001800000000000000013300000020000000000000000000000004c10002) (hs : Keeps k₀ s₀ s) :
    Outcome.Keeps k₀ s₀ (execPosnAck ring west s) := by
  unfold execPosnAck
  repeat' first
    | exact hm.trans (by decide)
    | with_reducible first
      | assumption | intro _ | refine Keeps.of_eq (by with_reducible assumption) ?_ | apply State.loadAck_keeps
      | apply Keeps.ite | apply Outcome.keeps_next
    | split | (dsimp only; split)

theorem execCscfgResponse_keeps {k₀ : Nat} {s₀ s : State} (ring : Fin 6) (west : Bool)
    (hm : Covers k₀ 0x200618a00000000000000000c0000000000000001800000000000000003300000000000000000000000000000004c10002) (hs : Keeps k₀ s₀ s) :
    Outcome.Keeps k₀ s₀ (execCscfgResponse ring west s) := by
  unfold execCscfgResponse
  repeat' first
    | exact hm.trans (by decide)
    | with_reducible first
      | assumption | intro _ | refine Keeps.of_eq (by with_reducible assumption) ?_ | apply State.evRefused_keeps
      | apply State.firstCopy_keeps | apply State.modStation_keeps | apply State.takeAnswer_keeps | apply Keeps.ite
      | apply Outcome.keeps_next
    | split | (dsimp only; split)

theorem State.commandAnswer_keeps {k₀ : Nat} {s₀ s : State} (n : Fin 6) (west : Bool) (cmd : Nat)
    (g : Nat → Nat → Nat → Nat → List Byte → State → State) (hm : Covers k₀ 0x200618a00000000000000000c0000000000000001800000000000000003300000000000000000000000000000004c10002) (hs : Keeps k₀ s₀ s) (hg : ∀ x0 x1 x2 x3 x4 x5, Keeps k₀ s₀ x5 → Keeps k₀ s₀ (g x0 x1 x2 x3 x4 x5)) :
    Keeps k₀ s₀ (State.commandAnswer s n west cmd g) := by
  unfold State.commandAnswer
  repeat' first
    | exact hm.trans (by decide)
    | with_reducible first
      | assumption | intro _ | apply hg | refine Keeps.of_eq (by with_reducible assumption) ?_
      | apply State.firstCopy_keeps | apply State.takeAnswer_keeps | apply Keeps.ite
    | split | (dsimp only; split)

theorem execPwriteResponse_keeps {k₀ : Nat} {s₀ s : State} (ring : Fin 6) (west : Bool)
    (hm : Covers k₀ 0x200618a00000000000000000c0000000000202001bd8008000000000003300000001a00a81800000000000000006c3003a) (hs : Keeps k₀ s₀ s) :
    Outcome.Keeps k₀ s₀ (execPwriteResponse ring west s) := by
  unfold execPwriteResponse
  repeat' first
    | exact hm.trans (by decide)
    | with_reducible first
      | assumption | intro _ | refine Keeps.of_eq (by with_reducible assumption) ?_ | apply State.commandAnswer_keeps
      | apply State.pwriteAnswer_keeps | apply Keeps.ite | apply Outcome.keeps_next
    | split | (dsimp only; split)

theorem execPreadResponse_keeps {k₀ : Nat} {s₀ s : State} (ring : Fin 6) (west : Bool)
    (hm : Covers k₀ 0x200618a00000000000000000c0000000000000001808008000000000003300000000000000000000000000000006c30002) (hs : Keeps k₀ s₀ s) :
    Outcome.Keeps k₀ s₀ (execPreadResponse ring west s) := by
  unfold execPreadResponse
  repeat' first
    | exact hm.trans (by decide)
    | with_reducible first
      | assumption | intro _ | refine Keeps.of_eq (by with_reducible assumption) ?_ | apply State.commandAnswer_keeps
      | apply State.preadAnswer_keeps | apply Keeps.ite | apply Outcome.keeps_next
    | split | (dsimp only; split)

theorem execEvtgetResponse_keeps {k₀ : Nat} {s₀ s : State} (ring : Fin 6) (west : Bool)
    (hm : Covers k₀ 0x200618a00000000000000000c000000000000000180000080000000000330000000000000000000000000000000ec30002) (hs : Keeps k₀ s₀ s) :
    Outcome.Keeps k₀ s₀ (execEvtgetResponse ring west s) := by
  unfold execEvtgetResponse
  repeat' first
    | exact hm.trans (by decide)
    | with_reducible first
      | assumption | intro _ | refine Keeps.of_eq (by with_reducible assumption) ?_ | apply State.commandAnswer_keeps
      | apply State.evtgetAnswer_keeps | apply Keeps.ite | apply Outcome.keeps_next
    | split | (dsimp only; split)

theorem State.closeAnswers_keeps {k₀ : Nat} {s₀ s : State} (n : Nat)
    (hm : Covers k₀ 0x200618a0000004000000000000000000000000000000000000000003c10000000020000000000000000000000010e10022) (hs : Keeps k₀ s₀ s) :
    Keeps k₀ s₀ (State.closeAnswers s n) := by
  unfold State.closeAnswers
  repeat' first
    | exact hm.trans (by decide)
    | with_reducible first
      | assumption | intro _ | refine Keeps.of_eq (by with_reducible assumption) ?_ | apply State.forEach_keeps
      | apply State.judgeIdentity_keeps | apply Keeps.ite
    | split | (dsimp only; split)

theorem State.closeInputs_keeps {k₀ : Nat} {s₀ s : State} (n : Nat) (j : Nat)
    (hm : Covers k₀ 0x200618a0000000000000000000000000000000000000000000000000000000000001a00a81800000000000000000c1001a) (hs : Keeps k₀ s₀ s) :
    Keeps k₀ s₀ (State.closeInputs s n j) := by
  unfold State.closeInputs
  repeat' first
    | exact hm.trans (by decide)
    | with_reducible first
      | assumption | intro _ | refine Keeps.of_eq (by with_reducible assumption) ?_ | apply State.fillDropped_keeps
      | apply State.fillLate_keeps | apply State.forEach_keeps | apply State.modStation_keeps | apply Keeps.ite
    | split | (dsimp only; split)

theorem State.closeCopies_keeps {k₀ : Nat} {s₀ s : State} (n : Nat)
    (hm : Covers k₀ 0x1000000000000000000000000000000800002) (hs : Keeps k₀ s₀ s) :
    Keeps k₀ s₀ (State.closeCopies s n) := by
  unfold State.closeCopies
  repeat' first
    | exact hm.trans (by decide)
    | with_reducible first
      | exact SOP_ONECOPY_in | assumption | intro _ | refine Keeps.of_eq (by with_reducible assumption) ?_
      | apply State.bumpBy_keeps | apply State.modRing_keeps | apply Keeps.ite
    | split | (dsimp only; split)

theorem State.closeDiscards_keeps {k₀ : Nat} {s₀ s : State} (n : Nat)
    (hm : Covers k₀ 0x200618a0000000000000000000000000000000000000000000000000000000000000000000000000000000000000c10002) (hs : Keeps k₀ s₀ s) :
    Keeps k₀ s₀ (State.closeDiscards s n) := by
  unfold State.closeDiscards
  repeat' first
    | exact hm.trans (by decide)
    | with_reducible first
      | assumption | intro _ | refine Keeps.of_eq (by with_reducible assumption) ?_ | apply State.event_keeps
      | apply State.forEach_keeps | apply State.modRing_keeps | apply Keeps.ite
    | split | (dsimp only; split)

theorem State.ringBegin_keeps {k₀ : Nat} {s₀ s : State} (n : Nat)
    (hm : Covers k₀ 0x200618a0000000000000000000000000000000000000000000000000000000000c20000000000000000000000000c10002) (hs : Keeps k₀ s₀ s) :
    Keeps k₀ s₀ (State.ringBegin s n) := by
  unfold State.ringBegin
  repeat' first
    | exact hm.trans (by decide)
    | with_reducible first
      | assumption | intro _ | refine Keeps.of_eq (by with_reducible assumption) ?_ | apply State.judgeRound_keeps
      | apply State.measureLoop_keeps | apply State.modRing_keeps | apply State.setRingState_keeps
      | apply State.when_keeps | apply Keeps.ite
    | split | (dsimp only; split)

theorem State.enableJoins_keeps {k₀ : Nat} {s₀ s : State} (n : Nat) (k : Nat)
    (hm : Covers k₀ 0x3c00000000200000000000000000000000000800002) (hs : Keeps k₀ s₀ s) :
    Keeps k₀ s₀ (State.enableJoins s n k) := by
  unfold State.enableJoins
  repeat' first
    | exact hm.trans (by decide)
    | with_reducible first
      | exact SOP_SCHEDID_in | assumption | intro _ | refine Keeps.of_eq (by with_reducible assumption) ?_
      | apply State.enableSlots_keeps | apply State.forEach_keeps | apply State.modStation_keeps
      | apply State.setReg_keeps | apply Keeps.ite
    | split | (dsimp only; split)

theorem State.openFrame_keeps {k₀ : Nat} {s₀ s : State} (n : Nat) (hm : Covers k₀ 0x800000) (hs : Keeps k₀ s₀ s) :
    Keeps k₀ s₀ (State.openFrame s n) := by
  unfold State.openFrame
  repeat' first
    | exact hm.trans (by decide)
    | with_reducible first
      | assumption | intro _ | refine Keeps.of_eq (by with_reducible assumption) ?_ | apply State.modRing_keeps
      | apply Keeps.ite
    | split | (dsimp only; split)

theorem State.activateStations_keeps {k₀ : Nat} {s₀ s : State} (n : Nat)
    (hm : Covers k₀ 0x80000000001000000000000000000000000000000000a800002) (hs : Keeps k₀ s₀ s) :
    Keeps k₀ s₀ (State.activateStations s n) := by
  unfold State.activateStations
  repeat' first
    | exact hm.trans (by decide)
    | with_reducible first
      | assumption | intro _ | refine Keeps.of_eq (by with_reducible assumption) ?_ | apply State.addJob_keeps
      | apply State.forEach_keeps | apply State.modStation_keeps | apply State.notify_keeps | apply State.setSta_keeps
      | apply Keeps.ite
    | split | (dsimp only; split)

theorem State.lapseGrants_keeps {k₀ : Nat} {s₀ s : State} (n : Nat) (hm : Covers k₀ 0x800000) (hs : Keeps k₀ s₀ s) :
    Keeps k₀ s₀ (State.lapseGrants s n) := by
  unfold State.lapseGrants
  repeat' first
    | exact hm.trans (by decide)
    | with_reducible first
      | assumption | intro _ | refine Keeps.of_eq (by with_reducible assumption) ?_ | apply State.forEach_keeps
      | apply State.modStation_keeps | apply Keeps.ite
    | split | (dsimp only; split)

theorem State.readmit_keeps {k₀ : Nat} {s₀ s : State} (n : Nat)
    (hm : Covers k₀ 0x10000000000000000000000000000000000000002) (hs : Keeps k₀ s₀ s) :
    Keeps k₀ s₀ (State.readmit s n) := by
  unfold State.readmit
  repeat' first
    | exact hm.trans (by decide)
    | with_reducible first
      | assumption | intro _ | refine Keeps.of_eq (by with_reducible assumption) ?_ | apply State.forEach_keeps
      | apply State.setSta_keeps | apply Keeps.ite
    | split | (dsimp only; split)

theorem State.probeStations_keeps {k₀ : Nat} {s₀ s : State} (n : Nat) (hm : Covers k₀ 0x800000) (hs : Keeps k₀ s₀ s) :
    Keeps k₀ s₀ (State.probeStations s n) := by
  unfold State.probeStations
  repeat' first
    | exact hm.trans (by decide)
    | with_reducible first
      | assumption | intro _ | refine Keeps.of_eq (by with_reducible assumption) ?_ | apply State.forEach_keeps
      | apply State.modRing_keeps | apply State.modStation_keeps | apply Keeps.ite
    | split | (dsimp only; split)

theorem State.ringClose_keeps {k₀ : Nat} {s₀ s : State} (n : Nat)
    (hm : Covers k₀ 0x200618a0000004000000000000000000000000000000000000000003c10001000021a00a81800000000000000010e1003a) (hs : Keeps k₀ s₀ s) :
    Keeps k₀ s₀ (State.ringClose s n) := by
  unfold State.ringClose
  repeat' first
    | exact hm.trans (by decide)
    | with_reducible first
      | assumption | intro _ | refine Keeps.of_eq (by with_reducible assumption) ?_ | apply State.closeAnswers_keeps
      | apply State.closeCopies_keeps | apply State.closeDiscards_keeps | apply State.closeInputs_keeps
      | apply State.when_keeps | apply Keeps.ite
    | split | (dsimp only; split)

theorem State.ringOpen_keeps {k₀ : Nat} {s₀ s : State} (n : Nat)
    (hm : Covers k₀ 0x200618a0000000000000000000000000000000000000000800000003c10000000e2000000000000000000000000ac30002) (hs : Keeps k₀ s₀ s) :
    Keeps k₀ s₀ (State.ringOpen s n) := by
  unfold State.ringOpen
  repeat' first
    | exact hm.trans (by decide)
    | with_reducible first
      | assumption | intro _ | refine Keeps.of_eq (by with_reducible assumption) ?_ | apply State.activateStations_keeps
      | apply State.askAllEvents_keeps | apply State.enableJoins_keeps | apply State.lapseGrants_keeps
      | apply State.modRing_keeps | apply State.openFrame_keeps | apply State.probeStations_keeps
      | apply State.readmit_keeps | apply State.ringBegin_keeps | apply State.when_keeps | apply Keeps.ite
    | split | (dsimp only; split)

theorem State.openRings_keeps {k₀ : Nat} {s₀ s : State}
    (hm : Covers k₀ 0x200618a0000000000000000000000000000000000000000800000003c10000000e2000000000000000000000000ac34002) (hs : Keeps k₀ s₀ s) :
    Keeps k₀ s₀ (State.openRings s) := by
  unfold State.openRings
  repeat' first
    | exact hm.trans (by decide)
    | with_reducible first
      | assumption | intro _ | refine Keeps.of_eq (by with_reducible assumption) ?_ | apply State.forEach_keeps
      | apply State.ringOpen_keeps | apply State.sampleTb_keeps | apply Keeps.ite
    | split | (dsimp only; split)

end Sys2Proof.Machine
end

