-- ==== Sys2Proof/Laws/KeepsLap.lean ====
section
/-!
SUPPORT. What `Keeps` says of the operations of
LAP, the backbone, the local I/O commands, reset, the recorder, the update and Bellows:
each keeps the canonical form and every part of the state outside its set.
A lemma stands for each operation, in the order of the Machine files.
-/

namespace Sys2Proof.Machine

set_option Elab.async false
set_option linter.all false

/-! ### Machine/Lap.lean -/

theorem State.setSession_keeps {k₀ : Nat} {s₀ s : State} (ch : Nat) (v : Nat)
    (hm : Covers k₀ 0x40000000000000000000000000000000000000000000000000000002) (hs : Keeps k₀ s₀ s) :
    Keeps k₀ s₀ (State.setSession s ch v) := by
  unfold State.setSession
  repeat' first
    | exact hm.trans (by decide)
    | with_reducible first
      | exact BRG_CH_STATE_in | assumption | intro _ | refine Keeps.of_eq (by with_reducible assumption) ?_
      | apply State.putFld_keeps | apply Keeps.ite
    | split | (dsimp only; split)

theorem State.endSession_keeps {k₀ : Nat} {s₀ s : State} (ch : Nat)
    (hm : Covers k₀ 0x200618a0000000000000000040000400160000000848008000000000001100000000000000000000000000010006431022) (hs : Keeps k₀ s₀ s) :
    Keeps k₀ s₀ (State.endSession s ch) := by
  unfold State.endSession
  repeat' first
    | exact hm.trans (by decide)
    | with_reducible first
      | assumption | intro _ | refine Keeps.of_eq (by with_reducible assumption) ?_ | apply State.abandonFetch_keeps
      | apply State.cancelWaiting_keeps | apply State.emptyQueue_keeps | apply State.endpointReset_keeps
      | apply State.forEach_keeps | apply State.modLap_keeps | apply State.setSession_keeps | apply Keeps.ite
    | split | (dsimp only; split)

theorem State.failAttempt_keeps {k₀ : Nat} {s₀ s : State} (ch : Nat) (op : Nat)
    (hm : Covers k₀ 0x200618a0000000000000000000000000000000000040000000000000000000000000000000000000000000000002410002) (hs : Keeps k₀ s₀ s) :
    Keeps k₀ s₀ (State.failAttempt s ch op) := by
  unfold State.failAttempt
  repeat' first
    | exact hm.trans (by decide)
    | with_reducible first
      | assumption | intro _ | refine Keeps.of_eq (by with_reducible assumption) ?_ | apply State.evRefused_keeps
      | apply State.modLap_keeps | apply State.setSession_keeps | apply Keeps.ite
    | split | (dsimp only; split)

theorem State.lapBare_keeps {k₀ : Nat} {s₀ s : State} (r : LapRequest) (op : Nat) (status : Nat)
    (hm : Covers k₀ 0x800000000000000000000000000000000000000000008000002) (hs : Keeps k₀ s₀ s) :
    Keeps k₀ s₀ (State.lapBare s r op status) := by
  unfold State.lapBare
  repeat' first
    | exact hm.trans (by decide)
    | with_reducible first
      | assumption | intro _ | refine Keeps.of_eq (by with_reducible assumption) ?_ | apply State.sendOn_keeps
      | apply Keeps.ite
    | split | (dsimp only; split)

theorem State.lapUnknown_keeps {k₀ : Nat} {s₀ s : State} (r : LapRequest) (op : Nat)
    (hm : Covers k₀ 0x400080000000000000000000000000000000000000000000a000002) (hs : Keeps k₀ s₀ s) :
    Keeps k₀ s₀ (State.lapUnknown s r op) := by
  unfold State.lapUnknown
  repeat' first
    | exact hm.trans (by decide)
    | with_reducible first
      | exact BRG_MALF_in | assumption | intro _ | refine Keeps.of_eq (by with_reducible assumption) ?_
      | apply State.bump_keeps | apply State.lapBare_keeps | apply State.modBridge_keeps | apply Keeps.ite
    | split | (dsimp only; split)

theorem State.lapAnswer_keeps {k₀ : Nat} {s₀ s : State} (ch : Nat) (r : LapRequest) (op : Nat) (seq : Nat) (fcnt : Nat)
    (status : Nat) (payload : List Byte) (hm : Covers k₀ 0x80000000000000000000000000000000000000000000a000002) (hs : Keeps k₀ s₀ s) :
    Keeps k₀ s₀ (State.lapAnswer s ch r op seq fcnt status payload) := by
  unfold State.lapAnswer
  repeat' first
    | exact hm.trans (by decide)
    | with_reducible first
      | assumption | intro _ | refine Keeps.of_eq (by with_reducible assumption) ?_ | apply State.lapSend_keeps
      | apply Keeps.ite
    | split | (dsimp only; split)

theorem State.lapStatus_keeps {k₀ : Nat} {s₀ s : State} (ch : Nat) (r : LapRequest) (op : Nat) (status : Nat)
    (hm : Covers k₀ 0x80000000000000000000000000000000000000000000a000002) (hs : Keeps k₀ s₀ s) :
    Keeps k₀ s₀ (State.lapStatus s ch r op status) := by
  unfold State.lapStatus
  repeat' first
    | exact hm.trans (by decide)
    | with_reducible first
      | assumption | intro _ | refine Keeps.of_eq (by with_reducible assumption) ?_ | apply State.lapAnswer_keeps
      | apply Keeps.ite
    | split | (dsimp only; split)

theorem State.lapTake_keeps {k₀ : Nat} {s₀ s : State} (op : Nat) (r : LapRequest)
    (hm : Covers k₀ 0x700880000000000000000000000000000000000000000000a000002) (hs : Keeps k₀ s₀ s) :
    Keeps k₀ s₀ (State.lapTake s op r).1 := by
  unfold State.lapTake
  repeat' first
    | exact hm.trans (by decide)
    | with_reducible first
      | exact BRG_MACERR_in | exact BRG_MALF_in | exact BRG_REPLAY_in | exact BRG_STATUS_in | assumption | intro _
      | refine Keeps.of_eq (by with_reducible assumption) ?_ | apply State.bump_keeps | apply State.flag_keeps
      | apply State.lapUnknown_keeps | apply State.modLap_keeps | apply Keeps.ite
    | split | (dsimp only; split)

theorem State.lapServe_keeps {k₀ : Nat} {s₀ s : State} (op : Nat) (standbyToo : Bool) (r : LapRequest)
    (f : State → Nat → State) (hm : Covers k₀ 0x700880000000000000000000000000000000000000000000a000002) (hs : Keeps k₀ s₀ s) (hf : ∀ x0 x1, Keeps k₀ s₀ x0 → Keeps k₀ s₀ (f x0 x1)) :
    Keeps k₀ s₀ (State.lapServe s op standbyToo r f) := by
  unfold State.lapServe
  repeat' first
    | exact hm.trans (by decide)
    | with_reducible first
      | assumption | intro _ | apply hf | refine Keeps.of_eq (by with_reducible assumption) ?_
      | apply State.lapStatus_keeps | apply State.lapTake_keeps | apply Keeps.ite
    | split | (dsimp only; split)

theorem State.serve_keeps {k₀ : Nat} {s₀ s : State} (op : Nat) (standbyToo : Bool) (r : LapRequest)
    (f : State → Nat → State) (hm : Covers k₀ 0x7008c0000000000000000000000000000000000000000000a000002) (hs : Keeps k₀ s₀ s) (hf : ∀ x0 x1, Keeps k₀ s₀ x0 → Keeps k₀ s₀ (f x0 x1)) :
    Keeps k₀ s₀ (State.serve s op standbyToo r f) := by
  unfold State.serve
  repeat' first
    | exact hm.trans (by decide)
    | with_reducible first
      | assumption | intro _ | apply hf | refine Keeps.of_eq (by with_reducible assumption) ?_
      | apply State.arrive_keeps | apply State.lapServe_keeps | apply Keeps.ite
    | split | (dsimp only; split)

theorem State.hello_keeps {k₀ : Nat} {s₀ s : State} (r : LapRequest)
    (hm : Covers k₀ 0x4400080000000000000000000000000000000000000000001a000002) (hs : Keeps k₀ s₀ s) :
    Keeps k₀ s₀ (State.hello s r) := by
  unfold State.hello
  repeat' first
    | exact hm.trans (by decide)
    | with_reducible first
      | exact BRG_MALF_in | assumption | intro _ | refine Keeps.of_eq (by with_reducible assumption) ?_
      | apply State.bump_keeps | apply State.lapBare_keeps | apply State.modLap_keeps | apply State.sendOn_keeps
      | apply State.setSession_keeps | apply State.tickFree_keeps | apply Keeps.ite
    | split | (dsimp only; split)

theorem State.keyx_keeps {k₀ : Nat} {s₀ s : State} (r : LapRequest) (sigOk : Bool)
    (hm : Covers k₀ 0x200618a000000000000000004000040016000000084f00880000000000110000000000000000000000000001000e431022) (hs : Keeps k₀ s₀ s) :
    Keeps k₀ s₀ (State.keyx s r sigOk) := by
  unfold State.keyx
  repeat' first
    | exact hm.trans (by decide)
    | with_reducible first
      | exact BRG_MACERR_in | exact BRG_REPLAY_in | exact BRG_STATUS_in | assumption | intro _
      | refine Keeps.of_eq (by with_reducible assumption) ?_ | apply State.bump_keeps | apply State.endSession_keeps
      | apply State.endpointReset_keeps | apply State.failAttempt_keeps | apply State.flag_keeps
      | apply State.lapServe_keeps | apply State.lapStatus_keeps | apply State.modLap_keeps | apply State.sendOn_keeps
      | apply State.setSession_keeps | apply Keeps.ite
    | split | (dsimp only; split)

theorem execHello_keeps {k₀ : Nat} {s₀ s : State} (r : LapRequest)
    (hm : Covers k₀ 0x44000c0000000000000000000000000000000000000000001a000002) (hs : Keeps k₀ s₀ s) :
    Outcome.Keeps k₀ s₀ (execHello r s) := by
  unfold execHello
  repeat' first
    | exact hm.trans (by decide)
    | with_reducible first
      | assumption | intro _ | refine Keeps.of_eq (by with_reducible assumption) ?_ | apply State.arrive_keeps
      | apply State.hello_keeps | apply Keeps.ite | apply Outcome.keeps_next
    | split | (dsimp only; split)

theorem execKeyx_keeps {k₀ : Nat} {s₀ s : State} (r : LapRequest) (sigOk : Bool)
    (hm : Covers k₀ 0x200618a000000000000000004000040016000000084f008c0000000000110000000000000000000000000001000e431022) (hs : Keeps k₀ s₀ s) :
    Outcome.Keeps k₀ s₀ (execKeyx r sigOk s) := by
  unfold execKeyx
  repeat' first
    | exact hm.trans (by decide)
    | with_reducible first
      | assumption | intro _ | refine Keeps.of_eq (by with_reducible assumption) ?_ | apply State.arrive_keeps
      | apply State.keyx_keeps | apply Keeps.ite | apply Outcome.keeps_next
    | split | (dsimp only; split)

theorem execLapClose_keeps {k₀ : Nat} {s₀ s : State} (r : LapRequest)
    (hm : Covers k₀ 0x200618a000000000000000004000040016000000084f008c0000000000110000000000000000000000000001000e431022) (hs : Keeps k₀ s₀ s) :
    Outcome.Keeps k₀ s₀ (execLapClose r s) := by
  unfold execLapClose
  repeat' first
    | exact hm.trans (by decide)
    | with_reducible first
      | assumption | intro _ | refine Keeps.of_eq (by with_reducible assumption) ?_ | apply State.endSession_keeps
      | apply State.lapStatus_keeps | apply State.serve_keeps | apply Keeps.ite | apply Outcome.keeps_next
    | split | (dsimp only; split)

theorem execKeepalive_keeps {k₀ : Nat} {s₀ s : State} (r : LapRequest)
    (hm : Covers k₀ 0x7008c0000000000000000000000000000000000000000000a000002) (hs : Keeps k₀ s₀ s) :
    Outcome.Keeps k₀ s₀ (execKeepalive r s) := by
  unfold execKeepalive
  repeat' first
    | exact hm.trans (by decide)
    | with_reducible first
      | assumption | intro _ | refine Keeps.of_eq (by with_reducible assumption) ?_ | apply State.lapStatus_keeps
      | apply State.serve_keeps | apply Keeps.ite | apply Outcome.keeps_next
    | split | (dsimp only; split)

theorem execSessionTimeout_keeps {k₀ : Nat} {s₀ s : State} (channel : Fin 16)
    (hm : Covers k₀ 0x200618a0000000000000000040000400160000000848008000000000001100000000000000000000000000010006431022) (hs : Keeps k₀ s₀ s) :
    Outcome.Keeps k₀ s₀ (execSessionTimeout channel s) := by
  unfold execSessionTimeout
  repeat' first
    | exact hm.trans (by decide)
    | with_reducible first
      | assumption | intro _ | refine Keeps.of_eq (by with_reducible assumption) ?_ | apply State.endSession_keeps
      | apply Keeps.ite | apply Outcome.keeps_next
    | split | (dsimp only; split)

theorem execHalfOpenTimeout_keeps {k₀ : Nat} {s₀ s : State} (channel : Fin 16)
    (hm : Covers k₀ 0x200618a0000000000000000000000000000000000040000000000000000000000000000000000000000000000002410002) (hs : Keeps k₀ s₀ s) :
    Outcome.Keeps k₀ s₀ (execHalfOpenTimeout channel s) := by
  unfold execHalfOpenTimeout
  repeat' first
    | exact hm.trans (by decide)
    | with_reducible first
      | assumption | intro _ | refine Keeps.of_eq (by with_reducible assumption) ?_ | apply State.failAttempt_keeps
      | apply Keeps.ite | apply Outcome.keeps_next
    | split | (dsimp only; split)

theorem execUnknownSession_keeps {k₀ : Nat} {s₀ s : State} (op : BitVec 8) (r : LapRequest)
    (hm : Covers k₀ 0x7008c0000000000000000000000000000000000000000000a000002) (hs : Keeps k₀ s₀ s) :
    Outcome.Keeps k₀ s₀ (execUnknownSession op r s) := by
  unfold execUnknownSession
  repeat' first
    | exact hm.trans (by decide)
    | with_reducible first
      | assumption | intro _ | refine Keeps.of_eq (by with_reducible assumption) ?_ | apply State.arrive_keeps
      | apply State.lapTake_keeps | apply Keeps.ite | apply Outcome.keeps_next
    | split | (dsimp only; split)

theorem execLapReservedOp_keeps {k₀ : Nat} {s₀ s : State} (op : BitVec 8) (r : LapRequest)
    (hm : Covers k₀ 0x7008c0000000000000000000000000000000000000000000a000002) (hs : Keeps k₀ s₀ s) :
    Outcome.Keeps k₀ s₀ (execLapReservedOp op r s) := by
  unfold execLapReservedOp
  repeat' first
    | exact hm.trans (by decide)
    | with_reducible first
      | assumption | intro _ | refine Keeps.of_eq (by with_reducible assumption) ?_ | apply State.lapStatus_keeps
      | apply State.serve_keeps | apply Keeps.ite | apply Outcome.keeps_next
    | split | (dsimp only; split)

theorem State.bridgeOff_keeps {k₀ : Nat} {s₀ s : State}
    (hm : Covers k₀ 0x200618a0000000000000000040000400160000000848008000000000001100000000000000000000000000010006431022) (hs : Keeps k₀ s₀ s) :
    Keeps k₀ s₀ (State.bridgeOff s) := by
  unfold State.bridgeOff
  repeat' first
    | exact hm.trans (by decide)
    | with_reducible first
      | assumption | intro _ | refine Keeps.of_eq (by with_reducible assumption) ?_ | apply State.emptyQueue_keeps
      | apply State.endSession_keeps | apply State.forEach_keeps | apply State.modLap_keeps
      | apply State.setSession_keeps | apply Keeps.ite
    | split | (dsimp only; split)

theorem execBridgeDisable_keeps {k₀ : Nat} {s₀ s : State}
    (hm : Covers k₀ 0x200618a0000000000000000040000400160000000848018000000000001100000000000000000000000000010006431022) (hs : Keeps k₀ s₀ s) :
    Outcome.Keeps k₀ s₀ (execBridgeDisable s) := by
  unfold execBridgeDisable
  repeat' first
    | exact hm.trans (by decide)
    | with_reducible first
      | exact BRG_CTRL_in | assumption | intro _ | refine Keeps.of_eq (by with_reducible assumption) ?_
      | apply State.bridgeOff_keeps | apply State.putFld_keeps | apply Keeps.ite | apply Outcome.keeps_next
    | split | (dsimp only; split)

theorem execArpRequest_keeps {k₀ : Nat} {s₀ s : State} (via : Fin 5) (peer : Nat) (address : Word)
    (hm : Covers k₀ 0xc00000000000000000000000000000000000000000008000002) (hs : Keeps k₀ s₀ s) :
    Outcome.Keeps k₀ s₀ (execArpRequest via peer address s) := by
  unfold execArpRequest
  repeat' first
    | exact hm.trans (by decide)
    | with_reducible first
      | assumption | intro _ | refine Keeps.of_eq (by with_reducible assumption) ?_ | apply State.arrive_keeps
      | apply State.sendOn_keeps | apply Keeps.ite | apply Outcome.keeps_next
    | split | (dsimp only; split)

theorem execIcmpEcho_keeps {k₀ : Nat} {s₀ s : State} (via : Fin 5) (peer : Nat) (address : Word) (data : List Byte)
    (hm : Covers k₀ 0xc00000000000000000000000000000000000000000008000002) (hs : Keeps k₀ s₀ s) :
    Outcome.Keeps k₀ s₀ (execIcmpEcho via peer address data s) := by
  unfold execIcmpEcho
  repeat' first
    | exact hm.trans (by decide)
    | with_reducible first
      | assumption | intro _ | refine Keeps.of_eq (by with_reducible assumption) ?_ | apply State.arrive_keeps
      | apply State.sendOn_keeps | apply Keeps.ite | apply Outcome.keeps_next
    | split | (dsimp only; split)

theorem State.dropFetch_keeps {k₀ : Nat} {s₀ s : State} (ch : Nat) (f : Fetch) (hm : Covers k₀ 0x2000000)
    (hs : Keeps k₀ s₀ s) :
    Keeps k₀ s₀ (State.dropFetch s ch f) := by
  unfold State.dropFetch
  repeat' first
    | exact hm.trans (by decide)
    | with_reducible first
      | assumption | intro _ | refine Keeps.of_eq (by with_reducible assumption) ?_ | apply State.modLap_keeps
      | apply Keeps.ite
    | split | (dsimp only; split)

theorem State.readRemote_keeps {k₀ : Nat} {s₀ s : State} (ch : Nat) (g : Signal) (hm : Covers k₀ 0x2020000)
    (hs : Keeps k₀ s₀ s) :
    Keeps k₀ s₀ (State.readRemote s ch g).1 := by
  unfold State.readRemote
  repeat' first
    | exact hm.trans (by decide)
    | with_reducible first
      | assumption | intro _ | refine Keeps.of_eq (by with_reducible assumption) ?_ | apply State.copyItem_keeps
      | apply State.dropFetch_keeps | apply State.modBridge_keeps | apply State.modLap_keeps
      | apply State.modStream_keeps | apply Keeps.ite
    | split | (dsimp only; split)

theorem State.readItem_keeps {k₀ : Nat} {s₀ s : State} (ch : Nat) (ue : List Nat) (i : Nat)
    (hm : Covers k₀ 0x200618a0000000000000000000000000000000070000000000000000000000000001a00a81800000000000000012438002) (hs : Keeps k₀ s₀ s) :
    Keeps k₀ s₀ (State.readItem s ch ue i).1 := by
  unfold State.readItem
  repeat' first
    | exact hm.trans (by decide)
    | with_reducible first
      | assumption | intro _ | refine Keeps.of_eq (by with_reducible assumption) ?_ | apply State.readImage_keeps
      | apply State.readRemote_keeps | apply State.useSignal_keeps | apply Keeps.ite
    | split | (dsimp only; split)

theorem State.readItems_keeps {k₀ : Nat} {s₀ s : State} (ch : Nat) (ue : List Nat) (y0 : List Nat)
    (hm : Covers k₀ 0x200618a0000000000000000000000000000000070000000000000000000000000001a00a81800000000000000012438002) (hs : Keeps k₀ s₀ s) :
    Keeps k₀ s₀ (State.readItems s ch ue y0).1 := by
  fun_induction State.readItems s ch ue y0
  all_goals
    repeat' first
      | exact hm.trans (by decide)
      | with_reducible first
        | assumption | intro _ | refine (‹Keeps _ _ _ → _› ?_) | refine Keeps.of_eq (by with_reducible assumption) ?_
        | apply State.readItem_keeps | apply Keeps.ite
      | split | (dsimp only; split)

theorem execLapRead_keeps {k₀ : Nat} {s₀ s : State} (r : LapRequest) (ue : List Nat)
    (hm : Covers k₀ 0x200618a0000000000000000000000000000000070007008c00000000000000000001a00a8180000000000000001a438002) (hs : Keeps k₀ s₀ s) :
    Outcome.Keeps k₀ s₀ (execLapRead r ue s) := by
  unfold execLapRead
  repeat' first
    | exact hm.trans (by decide)
    | with_reducible first
      | assumption | intro _ | refine Keeps.of_eq (by with_reducible assumption) ?_ | apply State.lapAnswer_keeps
      | apply State.lapStatus_keeps | apply State.readItems_keeps | apply State.serve_keeps | apply Keeps.ite
      | apply Outcome.keeps_next
    | split | (dsimp only; split)

theorem State.checkWrite_keeps {k₀ : Nat} {s₀ s : State} (ch : Nat) (ue : List Nat) (committed : Bool) (i : Nat)
    (w : Word) (hm : Covers k₀ 0x200618a0000000000000000000000000000000070000000000000000000000000000000000000000000000000000410002) (hs : Keeps k₀ s₀ s) :
    Keeps k₀ s₀ (State.checkWrite s ch ue committed i w).1 := by
  unfold State.checkWrite
  repeat' first
    | exact hm.trans (by decide)
    | with_reducible first
      | assumption | intro _ | refine Keeps.of_eq (by with_reducible assumption) ?_ | apply State.useSignal_keeps
      | apply Keeps.ite
    | split | (dsimp only; split)

theorem State.plainItem_keeps {k₀ : Nat} {s₀ s : State} (ch : Nat) (ue : List Nat) (i : Nat) (w : Word)
    (hm : Covers k₀ 0x200618a00000000000000000000000000002020703d0008000000000000000000001a00a8180000000000000001243803a) (hs : Keeps k₀ s₀ s) :
    Keeps k₀ s₀ (State.plainItem s ch ue i w).1 := by
  unfold State.plainItem
  repeat' first
    | exact hm.trans (by decide)
    | with_reducible first
      | assumption | intro _ | refine Keeps.of_eq (by with_reducible assumption) ?_ | apply State.checkWrite_keeps
      | apply State.farFailure_keeps | apply State.modStream_keeps | apply State.writeImage_keeps | apply Keeps.ite
    | split | (dsimp only; split)

theorem Keeps.covered {α : Type} {k₀ : Nat} {s₀ : State} {g : α → Covered} {l : List α}
    (h : ∀ x u q, Keeps k₀ s₀ u → Keeps k₀ s₀ (g x u q).1) :
    ∀ f ∈ l.map g, ∀ x0 x1, Keeps k₀ s₀ x0 → Keeps k₀ s₀ (f x0 x1).1 := by
  intro f hf
  obtain ⟨x, -, rfl⟩ := List.mem_map.1 hf
  exact h x

theorem Keeps.coveredOne {k₀ : Nat} {s₀ : State} {g : Covered} (h : ∀ u q, Keeps k₀ s₀ u → Keeps k₀ s₀ (g u q).1) :
    ∀ f ∈ [g], ∀ x0 x1, Keeps k₀ s₀ x0 → Keeps k₀ s₀ (f x0 x1).1 := by
  intro f hf
  obtain rfl := List.mem_singleton.1 hf
  exact h

theorem State.coverItems_keeps {k₀ : Nat} {s₀ s : State} (ch : Nat) (q : Nat) (refused full : Bool) (fs : List Covered)
    (hfs : ∀ f ∈ fs, ∀ x0 x1, Keeps k₀ s₀ x0 → Keeps k₀ s₀ (f x0 x1).1) (hm : Covers k₀ 0x61000000000000000000000000000000000000000000000000000000000002) (hs : Keeps k₀ s₀ s) :
    Keeps k₀ s₀ (State.coverItems s ch q refused full fs).1 := by
  induction fs generalizing s q refused full with
  | nil => exact hs
  | cons f fs ih =>
    have ih := fun {u} q r b (h : Keeps k₀ s₀ u) => ih (s := u) q r b (fun g hg => hfs g (List.mem_cons_of_mem _ hg)) h
    unfold State.coverItems
    dsimp only
    split
    · exact ih _ _ _ (Keeps.ite (State.wayBusy_keeps (hm.trans (by decide)) hs) hs)
    · split
      · exact ih _ _ _ (State.bump_keeps _ WAY_DUPCNT_in (hm.trans (by decide)) hs)
      · exact ih _ _ _ (hfs f List.mem_cons_self _ _ hs)

theorem State.cover_keeps {k₀ : Nat} {s₀ s : State} (ch : Nat) (seq : Nat) (items : List Covered) (hm : Covers k₀ 0x61000000000000000000000000000000000000000000000000000000000002)
    (hs : Keeps k₀ s₀ s) (hfs : ∀ f ∈ items, ∀ x0 x1, Keeps k₀ s₀ x0 → Keeps k₀ s₀ (f x0 x1).1) :
    Keeps k₀ s₀ (State.cover s ch seq items).1 := by
  unfold State.cover
  repeat' first
    | assumption | split | (dsimp only; split) | with_reducible refine Keeps.of_eq (by with_reducible assumption) ?_
    | exact State.coverItems_keeps _ _ _ _ _ hfs hm hs

theorem State.answerCovered_keeps {k₀ : Nat} {s₀ s : State} (ch : Nat) (r : LapRequest) (op : Nat) (items : List Covered)
    (hm : Covers k₀ 0x6100000000080000000000000000000000000000000000000000000a000002) (hs : Keeps k₀ s₀ s) (hfs : ∀ f ∈ items, ∀ x0 x1, Keeps k₀ s₀ x0 → Keeps k₀ s₀ (f x0 x1).1) :
    Keeps k₀ s₀ (State.answerCovered s ch r op items) := by
  have h := State.cover_keeps ch r.seq.toNat items (hm.trans (by decide)) hs hfs
  unfold State.answerCovered
  split
  · exact State.lapStatus_keeps _ _ _ _ (hm.trans (by decide)) (Keeps.of_eq (by assumption) h)
  · exact State.lapAnswer_keeps _ _ _ _ _ _ _ (hm.trans (by decide)) (Keeps.of_eq (by assumption) h)

theorem State.acceptItem_keeps {k₀ : Nat} {s₀ s : State} (kind : Nat) (ch : Nat) (seq : Nat) (key : Nat) (key2 : Nat)
    (payload : List Byte) (remote : Bool) (after : State → State) (hm : Covers k₀ 0x200618a0000000000000000000000000000353000000000000000000000000000001a00a8180000000000000000243001a) (hs : Keeps k₀ s₀ s) (hafter : ∀ x0, Keeps k₀ s₀ x0 → Keeps k₀ s₀ (after x0)) :
    Keeps k₀ s₀ (State.acceptItem s kind ch seq key key2 payload remote after).1 := by
  unfold State.acceptItem
  repeat' first
    | exact hm.trans (by decide)
    | with_reducible first
      | assumption | intro _ | apply hafter | refine Keeps.of_eq (by with_reducible assumption) ?_
      | apply State.wayBusy_keeps
      | refine State.journalItem_keeps' _ _ _ _ _ _ _ (by with_reducible assumption) (hm.trans (by decide)) ?_
      | apply Keeps.ite
    | split | (dsimp only; split)

theorem committedItem_keeps {k₀ : Nat} {s₀ y0 : State} (ch : Nat) (ue : List Nat) (i : Nat) (w : Word) (y1 : Nat)
    (hm : Covers k₀ 0x200618a0000000000000000000000000000353070000000000000000000000000001a00a8180000000000000000243001a) (hs : Keeps k₀ s₀ y0) :
    Keeps k₀ s₀ (committedItem ch ue i w y0 y1).1 := by
  unfold committedItem
  repeat' first
    | exact hm.trans (by decide)
    | with_reducible first
      | assumption | intro _ | refine Keeps.of_eq (by with_reducible assumption) ?_ | apply State.acceptItem_keeps
      | apply State.checkWrite_keeps | apply State.modStream_keeps | apply Keeps.ite
    | split | (dsimp only; split)

theorem State.plainItems_keeps {k₀ : Nat} {s₀ s : State} (ch : Nat) (ue : List Nat) (y0 : List (Nat × Word))
    (hm : Covers k₀ 0x200618a00000000000000000000000000002020703d0008000000000000000000001a00a8180000000000000001243803a) (hs : Keeps k₀ s₀ s) :
    Keeps k₀ s₀ (State.plainItems s ch ue y0).1 := by
  fun_induction State.plainItems s ch ue y0
  all_goals
    repeat' first
      | exact hm.trans (by decide)
      | with_reducible first
        | assumption | intro _ | refine (‹Keeps _ _ _ → _› ?_) | refine Keeps.of_eq (by with_reducible assumption) ?_
        | apply State.plainItem_keeps | apply Keeps.ite
      | split | (dsimp only; split)

theorem execLapWrite_keeps {k₀ : Nat} {s₀ s : State} (r : LapRequest) (ue : List Nat)
    (hm : Covers k₀ 0x200618a00000000000000000000000000003730703d7008c00000000000000000001a00a8180000000000000001a43803a) (hs : Keeps k₀ s₀ s) :
    Outcome.Keeps k₀ s₀ (execLapWrite r ue s) := by
  unfold execLapWrite
  repeat' first
    | exact hm.trans (by decide)
    | with_reducible first
      | assumption | refine Keeps.covered ?_ | refine Keeps.coveredOne ?_ | intro _
      | refine Keeps.of_eq (by with_reducible assumption) ?_ | apply State.answerCovered_keeps
      | apply State.lapAnswer_keeps | apply State.lapStatus_keeps | apply State.plainItems_keeps
      | apply State.serve_keeps | apply committedItem_keeps | apply Keeps.ite | apply Outcome.keeps_next
    | split | (dsimp only; split)

theorem execFailget_keeps {k₀ : Nat} {s₀ s : State} (r : LapRequest)
    (hm : Covers k₀ 0x7008c0000000000000000000000000000000000000000000a000002) (hs : Keeps k₀ s₀ s) :
    Outcome.Keeps k₀ s₀ (execFailget r s) := by
  unfold execFailget
  repeat' first
    | exact hm.trans (by decide)
    | with_reducible first
      | assumption | intro _ | refine Keeps.of_eq (by with_reducible assumption) ?_ | apply State.lapAnswer_keeps
      | apply State.lapStatus_keeps | apply State.serve_keeps | apply Keeps.ite | apply Outcome.keeps_next
    | split | (dsimp only; split)

theorem State.failAck_keeps {k₀ : Nat} {s₀ s : State} (ch : Nat) (ring : Nat) (id : Nat) (fseq : Nat)
    (hm : Covers k₀ 0x1c0000000000000000000000000000000000000000000000002020002) (hs : Keeps k₀ s₀ s) :
    Keeps k₀ s₀ (State.failAck s ch ring id fseq).1 := by
  unfold State.failAck
  repeat' first
    | exact hm.trans (by decide)
    | with_reducible first
      | assumption | intro _ | refine Keeps.of_eq (by with_reducible assumption) ?_ | apply State.modLap_keeps
      | apply State.modStream_keeps | apply State.showFailures_keeps | apply Keeps.ite
    | split | (dsimp only; split)

theorem execFailack_keeps {k₀ : Nat} {s₀ s : State} (r : LapRequest)
    (hm : Covers k₀ 0x1c7008c0000000000000000000000000000000000000000000a020002) (hs : Keeps k₀ s₀ s) :
    Outcome.Keeps k₀ s₀ (execFailack r s) := by
  unfold execFailack
  repeat' first
    | exact hm.trans (by decide)
    | with_reducible first
      | assumption | intro _ | refine Keeps.of_eq (by with_reducible assumption) ?_ | apply State.failAck_keeps
      | apply State.lapAnswer_keeps | apply State.lapStatus_keeps | apply State.serve_keeps | apply Keeps.ite
      | apply Outcome.keeps_next
    | split | (dsimp only; split)

theorem jobItem_keeps {k₀ : Nat} {s₀ y0 : State} (ch : Nat) (q : Nat) (words : List Byte) (y1 : Nat)
    (hm : Covers k₀ 0x200618a0000000000000000000000000001353000000000000000000000000000001a00a8180000000000000000243001a) (hs : Keeps k₀ s₀ y0) :
    Keeps k₀ s₀ (jobItem ch q words y0 y1).1 := by
  unfold jobItem
  repeat' first
    | exact hm.trans (by decide)
    | with_reducible first
      | exact WAY_JQ_QNEXT_in | assumption | intro _ | refine Keeps.of_eq (by with_reducible assumption) ?_
      | apply State.acceptItem_keeps | apply State.setReg_keeps | apply State.useJq_keeps | apply Keeps.ite
    | split | (dsimp only; split)

theorem execJob_keeps {k₀ : Nat} {s₀ s : State} (r : LapRequest)
    (hm : Covers k₀ 0x200618a0000000000000000000000000001373000007008c00000000000000000001a00a8180000000000000000a43001a) (hs : Keeps k₀ s₀ s) :
    Outcome.Keeps k₀ s₀ (execJob r s) := by
  unfold execJob
  repeat' first
    | exact hm.trans (by decide)
    | with_reducible first
      | assumption | refine Keeps.covered ?_ | refine Keeps.coveredOne ?_ | intro _
      | refine Keeps.of_eq (by with_reducible assumption) ?_ | apply State.answerCovered_keeps
      | apply State.lapStatus_keeps | apply State.serve_keeps | apply jobItem_keeps | apply Keeps.ite
      | apply Outcome.keeps_next
    | split | (dsimp only; split)

theorem State.mbxpostPlain_keeps {k₀ : Nat} {s₀ s : State} (r : LapRequest) (states : List Nat)
    (f : State → Nat → Nat → State) (hm : Covers k₀ 0x7008c0000000000000000000000000000000000000000000a000002) (hs : Keeps k₀ s₀ s) (hf : ∀ x0 x1 x2, Keeps k₀ s₀ x0 → Keeps k₀ s₀ (f x0 x1 x2)) :
    Keeps k₀ s₀ (State.mbxpostPlain s r states f) := by
  unfold State.mbxpostPlain
  repeat' first
    | exact hm.trans (by decide)
    | with_reducible first
      | assumption | intro _ | apply hf | refine Keeps.of_eq (by with_reducible assumption) ?_
      | apply State.lapAnswer_keeps | apply State.lapStatus_keeps | apply State.serve_keeps | apply Keeps.ite
    | split | (dsimp only; split)

theorem execMbxpostStatus_keeps {k₀ : Nat} {s₀ s : State} (r : LapRequest)
    (hm : Covers k₀ 0x7008c0000000000000000000000000000000000000000000a000002) (hs : Keeps k₀ s₀ s) :
    Outcome.Keeps k₀ s₀ (execMbxpostStatus r s) := by
  unfold execMbxpostStatus
  repeat' first
    | exact hm.trans (by decide)
    | with_reducible first
      | assumption | intro _ | refine Keeps.of_eq (by with_reducible assumption) ?_ | apply State.mbxpostPlain_keeps
      | apply Keeps.ite | apply Outcome.keeps_next
    | split | (dsimp only; split)

theorem execMbxpostDone_keeps {k₀ : Nat} {s₀ s : State} (r : LapRequest)
    (hm : Covers k₀ 0x200618a000000000000000000000040006c000000007008c0000000000000000000000000000000000000000000a430022) (hs : Keeps k₀ s₀ s) :
    Outcome.Keeps k₀ s₀ (execMbxpostDone r s) := by
  unfold execMbxpostDone
  repeat' first
    | exact hm.trans (by decide)
    | with_reducible first
      | assumption | intro _ | refine Keeps.of_eq (by with_reducible assumption) ?_ | apply State.mbxDone_keeps
      | apply State.mbxpostPlain_keeps | apply Keeps.ite | apply Outcome.keeps_next
    | split | (dsimp only; split)

theorem execMbxpostWithdraw_keeps {k₀ : Nat} {s₀ s : State} (r : LapRequest)
    (hm : Covers k₀ 0x200618a000000000000000000000040006c000000007008c0000000000000000000000000000000000000000000a430022) (hs : Keeps k₀ s₀ s) :
    Outcome.Keeps k₀ s₀ (execMbxpostWithdraw r s) := by
  unfold execMbxpostWithdraw
  repeat' first
    | exact hm.trans (by decide)
    | with_reducible first
      | assumption | intro _ | refine Keeps.of_eq (by with_reducible assumption) ?_ | apply State.mbxWithdraw_keeps
      | apply State.mbxpostPlain_keeps | apply Keeps.ite | apply Outcome.keeps_next
    | split | (dsimp only; split)

theorem postItem_keeps {k₀ : Nat} {s₀ y0 : State} (ch : Nat) (c : Nat) (message : List Byte) (y1 : Nat)
    (hm : Covers k₀ 0x200618a0000000000000000000000000000353000000000000000000000000000001a00a8180000000000000000243001a) (hs : Keeps k₀ s₀ y0) :
    Keeps k₀ s₀ (postItem ch c message y0 y1).1 := by
  unfold postItem
  repeat' first
    | exact hm.trans (by decide)
    | assumption
    | with_reducible first
      | assumption | intro _ | refine Keeps.of_eq (by with_reducible assumption) ?_ | apply State.acceptItem_keeps
      | apply Keeps.ite
    | split | (dsimp only; split)

theorem execMbxpostPost_keeps {k₀ : Nat} {s₀ s : State} (r : LapRequest)
    (hm : Covers k₀ 0x200618a0000000000000000000000000000373000007008c00000000000000000001a00a8180000000000000000a43001a) (hs : Keeps k₀ s₀ s) :
    Outcome.Keeps k₀ s₀ (execMbxpostPost r s) := by
  unfold execMbxpostPost
  repeat' first
    | exact hm.trans (by decide)
    | with_reducible first
      | assumption | refine Keeps.covered ?_ | refine Keeps.coveredOne ?_ | intro _
      | refine Keeps.of_eq (by with_reducible assumption) ?_ | apply State.cover_keeps | apply State.lapAnswer_keeps
      | apply State.lapStatus_keeps | apply State.serve_keeps | apply postItem_keeps | apply Keeps.ite
      | apply Outcome.keeps_next
    | split | (dsimp only; split)

theorem execSubscribe_keeps {k₀ : Nat} {s₀ s : State} (r : LapRequest)
    (hm : Covers k₀ 0x7008c0000000000000000000000000000000000000000000a000002) (hs : Keeps k₀ s₀ s) :
    Outcome.Keeps k₀ s₀ (execSubscribe r s) := by
  unfold execSubscribe
  repeat' first
    | exact hm.trans (by decide)
    | with_reducible first
      | assumption | intro _ | refine Keeps.of_eq (by with_reducible assumption) ?_ | apply State.lapStatus_keeps
      | apply State.modLap_keeps | apply State.serve_keeps | apply Keeps.ite | apply Outcome.keeps_next
    | split | (dsimp only; split)

theorem execNotifyack_keeps {k₀ : Nat} {s₀ s : State} (r : LapRequest)
    (hm : Covers k₀ 0x7008c0000000000000000000000000000000000000000000a000002) (hs : Keeps k₀ s₀ s) :
    Outcome.Keeps k₀ s₀ (execNotifyack r s) := by
  unfold execNotifyack
  repeat' first
    | exact hm.trans (by decide)
    | with_reducible first
      | assumption | intro _ | refine Keeps.of_eq (by with_reducible assumption) ?_ | apply State.lapStatus_keeps
      | apply State.modLap_keeps | apply State.serve_keeps | apply Keeps.ite | apply Outcome.keeps_next
    | split | (dsimp only; split)

theorem State.retryNotify_keeps {k₀ : Nat} {s₀ s : State} (ch : Nat) (reqid : Nat)
    (hm : Covers k₀ 0x200618a000000000000000000000000000000000002000080000000000000000000000000000000000000000000a410002) (hs : Keeps k₀ s₀ s) :
    Keeps k₀ s₀ (State.retryNotify s ch reqid) := by
  unfold State.retryNotify
  repeat' first
    | exact hm.trans (by decide)
    | with_reducible first
      | exact BRG_NOTIFYDROP_in | assumption | intro _ | refine Keeps.of_eq (by with_reducible assumption) ?_
      | apply State.bump_keeps | apply State.evLimit_keeps | apply State.modLap_keeps | apply State.sendNotify_keeps
      | apply Keeps.ite
    | split | (dsimp only; split)

theorem execNotifyRetry_keeps {k₀ : Nat} {s₀ s : State} (channel : Fin 16) (reqid : Nat)
    (hm : Covers k₀ 0x200618a000000000000000000000000000000000002000080000000000000000000000000000000000000000000a410002) (hs : Keeps k₀ s₀ s) :
    Outcome.Keeps k₀ s₀ (execNotifyRetry channel reqid s) := by
  unfold execNotifyRetry
  repeat' first
    | exact hm.trans (by decide)
    | with_reducible first
      | assumption | intro _ | refine Keeps.of_eq (by with_reducible assumption) ?_ | apply State.retryNotify_keeps
      | apply Keeps.ite | apply Outcome.keeps_next
    | split | (dsimp only; split)

theorem execFetchAbandon_keeps {k₀ : Nat} {s₀ s : State} (channel : Fin 16) (ring : Fin 6) (station : BitVec 8)
    (address : BitVec 16) (hm : Covers k₀ 0x200618a0000000000000000000000000000000000008008000000000000000000000000000000000000000000002430002) (hs : Keeps k₀ s₀ s) :
    Outcome.Keeps k₀ s₀ (execFetchAbandon channel ring station address s) := by
  unfold execFetchAbandon
  repeat' first
    | exact hm.trans (by decide)
    | with_reducible first
      | assumption | intro _ | refine Keeps.of_eq (by with_reducible assumption) ?_ | apply State.abandonFetch_keeps
      | apply Keeps.ite | apply Outcome.keeps_next
    | split | (dsimp only; split)

theorem execOrphanExpire_keeps {k₀ : Nat} {s₀ s : State} (channel : Fin 16) (ring : Fin 6) (station : BitVec 8)
    (address : BitVec 16) (hm : Covers k₀ 0x2020000) (hs : Keeps k₀ s₀ s) :
    Outcome.Keeps k₀ s₀ (execOrphanExpire channel ring station address s) := by
  unfold execOrphanExpire
  repeat' first
    | exact hm.trans (by decide)
    | with_reducible first
      | assumption | intro _ | refine Keeps.of_eq (by with_reducible assumption) ?_ | apply State.copyItem_keeps
      | apply State.modBridge_keeps | apply Keeps.ite | apply Outcome.keeps_next
    | split | (dsimp only; split)

theorem execPrefetchExpire_keeps {k₀ : Nat} {s₀ s : State} (ring : Fin 6) (station : BitVec 8) (address : BitVec 16)
    (hm : Covers k₀ 0x2000000) (hs : Keeps k₀ s₀ s) :
    Outcome.Keeps k₀ s₀ (execPrefetchExpire ring station address s) := by
  unfold execPrefetchExpire
  repeat' first
    | exact hm.trans (by decide)
    | with_reducible first
      | assumption | intro _ | refine Keeps.of_eq (by with_reducible assumption) ?_ | apply State.modBridge_keeps
      | apply Keeps.ite | apply Outcome.keeps_next
    | split | (dsimp only; split)

/-! ### Machine/Backbone.lean -/

theorem State.useBch_keeps {k₀ : Nat} {s₀ s : State} (c : Nat)
    (hm : Covers k₀ 0x200618a0000000004000000000000000000000000000000000000000000000000000000000000000000000000000410002) (hs : Keeps k₀ s₀ s) :
    Keeps k₀ s₀ (State.useBch s c) := by
  unfold State.useBch
  repeat' first
    | exact hm.trans (by decide)
    | with_reducible first
      | exact SAF_STATUS_in | assumption | intro _ | refine Keeps.of_eq (by with_reducible assumption) ?_
      | apply State.evGroup_keeps | apply State.flag_keeps | apply Keeps.ite
    | split | (dsimp only; split)

theorem State.putWords_keeps {k₀ : Nat} {s₀ s : State} (bank : Nat) (start : Nat) (tag : Nat) (ws : List Word)
    (hm : Covers k₀ 0x200618a0000000000000000000000000000000000000000000000000000000000001a00a8180000000000000001041801a) (hs : Keeps k₀ s₀ s) :
    Keeps k₀ s₀ (State.putWords s bank start tag ws) := by
  unfold State.putWords
  repeat' first
    | exact hm.trans (by decide)
    | with_reducible first
      | assumption | intro _ | refine Keeps.of_eq (by with_reducible assumption) ?_ | apply State.bridgePut_keeps
      | apply State.forEach_keeps | apply Keeps.ite
    | split | (dsimp only; split)

theorem State.journalSafe_keeps {k₀ : Nat} {s₀ s : State} (c : Nat) (ws : List Word) (bytes : List Byte)
    (hm : Covers k₀ 0x200618a0000000000000000000000000000373000000000000000000000000000001a00a8180000000000000000243001a) (hs : Keeps k₀ s₀ s) :
    Keeps k₀ s₀ (State.journalSafe s c ws bytes) := by
  unfold State.journalSafe
  repeat' first
    | exact hm.trans (by decide)
    | with_reducible first
      | exact WAY_DUPCNT_in | assumption | intro _ | refine Keeps.of_eq (by with_reducible assumption) ?_
      | apply State.bump_keeps | apply State.modBridge_keeps | apply State.wayBusy_keeps
      | refine State.journalItem_keeps' _ _ _ _ _ _ _ (by with_reducible assumption) (hm.trans (by decide)) ?_
      | apply Keeps.ite
    | split | (dsimp only; split)

theorem State.safeDrop_keeps {k₀ : Nat} {s₀ s : State}
    (hm : Covers k₀ 0x44000000000000000000000000000000000000000000000000000000000000000000000000000000002) (hs : Keeps k₀ s₀ s) :
    Keeps k₀ s₀ (State.safeDrop s) := by
  unfold State.safeDrop
  repeat' first
    | exact hm.trans (by decide)
    | with_reducible first
      | exact SAF_BBDROP_in | exact SAF_STATUS_in | assumption | intro _
      | refine Keeps.of_eq (by with_reducible assumption) ?_ | apply State.bump_keeps | apply State.flag_keeps
      | apply Keeps.ite
    | split | (dsimp only; split)

theorem State.safeDatagram_keeps {k₀ : Nat} {s₀ s : State} (port : Nat) (source : Word) (pl : List Byte)
    (hm : Covers k₀ 0x200618a0000000044000000000000000000373000000000000000000000000000001a00a8180000000000000001243801a) (hs : Keeps k₀ s₀ s) :
    Keeps k₀ s₀ (State.safeDatagram s port source pl) := by
  unfold State.safeDatagram
  repeat' first
    | exact hm.trans (by decide)
    | with_reducible first
      | assumption | intro _ | refine Keeps.of_eq (by with_reducible assumption) ?_ | apply State.journalSafe_keeps
      | apply State.modBridge_keeps | apply State.putWords_keeps | apply State.safeDrop_keeps | apply State.useBch_keeps
      | apply Keeps.ite
    | split | (dsimp only; split)

theorem execSafetyDatagram_keeps {k₀ : Nat} {s₀ s : State} (port : Fin 4) (source : Word) (payload : List Byte)
    (hm : Covers k₀ 0x200618a0000000044000000000000000000373000000000400000000000000000001a00a8180000000000000001243801a) (hs : Keeps k₀ s₀ s) :
    Outcome.Keeps k₀ s₀ (execSafetyDatagram port source payload s) := by
  unfold execSafetyDatagram
  repeat' first
    | exact hm.trans (by decide)
    | with_reducible first
      | assumption | intro _ | refine Keeps.of_eq (by with_reducible assumption) ?_ | apply State.arrive_keeps
      | apply State.safeDatagram_keeps | apply Keeps.ite | apply Outcome.keeps_next
    | split | (dsimp only; split)

theorem State.bridgeWords_keeps {k₀ : Nat} {s₀ s : State} (start : Nat) (y0 : Nat)
    (hm : Covers k₀ 0x200618a0000000000000000000000000000000000000000000000000000000000001a00a81800000000000000010418002) (hs : Keeps k₀ s₀ s) :
    Keeps k₀ s₀ (State.bridgeWords s start y0).1 := by
  fun_induction State.bridgeWords s start y0
  all_goals
    repeat' first
      | exact hm.trans (by decide)
      | with_reducible first
        | assumption | intro _ | refine (‹Keeps _ _ _ → _› ?_) | refine Keeps.of_eq (by with_reducible assumption) ?_
        | apply State.bridgePoint_keeps | apply Keeps.ite
      | split | (dsimp only; split)

theorem State.safeSend_keeps {k₀ : Nat} {s₀ s : State} (c : Nat)
    (hm : Covers k₀ 0x200618a0000000004000000000000000000000000000000800000000000000000001a00a81800000000000000018418002) (hs : Keeps k₀ s₀ s) :
    Keeps k₀ s₀ (State.safeSend s c) := by
  unfold State.safeSend
  repeat' first
    | exact hm.trans (by decide)
    | with_reducible first
      | assumption | intro _ | refine Keeps.of_eq (by with_reducible assumption) ?_ | apply State.bridgeWords_keeps
      | apply State.sendOn_keeps | apply State.useBch_keeps | apply Keeps.ite
    | split | (dsimp only; split)

theorem execSafetyDatagramSend_keeps {k₀ : Nat} {s₀ s : State} (channel : Fin 32)
    (hm : Covers k₀ 0x200618a0000000004000000000000000000000000000000800000000000000000001a00a81800000000000000018418002) (hs : Keeps k₀ s₀ s) :
    Outcome.Keeps k₀ s₀ (execSafetyDatagramSend channel s) := by
  unfold execSafetyDatagramSend
  repeat' first
    | exact hm.trans (by decide)
    | with_reducible first
      | assumption | intro _ | refine Keeps.of_eq (by with_reducible assumption) ?_ | apply State.safeSend_keeps
      | apply Keeps.ite | apply Outcome.keeps_next
    | split | (dsimp only; split)

theorem State.safeLate_keeps {k₀ : Nat} {s₀ s : State} (bank : Nat) (prev : Nat)
    (hm : Covers k₀ 0x200618a0000000000000000000000000000000000000000000000000000000000001a00a8180000000000000001241801a) (hs : Keeps k₀ s₀ s) :
    Keeps k₀ s₀ (State.safeLate s bank prev) := by
  unfold State.safeLate
  repeat' first
    | exact hm.trans (by decide)
    | with_reducible first
      | assumption | intro _ | refine Keeps.of_eq (by with_reducible assumption) ?_ | apply State.bridgePoint_keeps
      | apply State.bridgePut_keeps | apply State.forEach_keeps | apply State.modBridge_keeps | apply Keeps.ite
    | split | (dsimp only; split)

theorem State.deliverSafe_keeps {k₀ : Nat} {s₀ s : State}
    (hm : Covers k₀ 0x200618a0000000000000000000000000000202000000000000000000000000000001a00a8180000000000000000243001a) (hs : Keeps k₀ s₀ s) :
    Keeps k₀ s₀ (State.deliverSafe s) := by
  unfold State.deliverSafe
  repeat' first
    | exact hm.trans (by decide)
    | with_reducible first
      | assumption | intro _ | refine Keeps.of_eq (by with_reducible assumption) ?_ | apply State.forEach_keeps
      | apply State.markEntry_keeps | apply Keeps.ite
    | split | (dsimp only; split)

theorem State.endPortSessions_keeps {k₀ : Nat} {s₀ s : State} (p : Nat)
    (hm : Covers k₀ 0x200618a0000000000000000040000400160000000848008000000000001100000000000000000000000000010006431022) (hs : Keeps k₀ s₀ s) :
    Keeps k₀ s₀ (State.endPortSessions s p) := by
  unfold State.endPortSessions
  repeat' first
    | exact hm.trans (by decide)
    | with_reducible first
      | assumption | intro _ | refine Keeps.of_eq (by with_reducible assumption) ?_ | apply State.endSession_keeps
      | apply State.forEach_keeps | apply State.modLap_keeps | apply State.setSession_keeps | apply Keeps.ite
    | split | (dsimp only; split)

theorem State.linkLost_keeps {k₀ : Nat} {s₀ s : State} (p : Nat)
    (hm : Covers k₀ 0x40000000000000000000000000000000000000000000000002) (hs : Keeps k₀ s₀ s) :
    Keeps k₀ s₀ (State.linkLost s p) := by
  unfold State.linkLost
  repeat' first
    | exact hm.trans (by decide)
    | with_reducible first
      | exact BKB_STATUS_in | assumption | intro _ | refine Keeps.of_eq (by with_reducible assumption) ?_
      | apply State.flag_keeps | apply State.putFld_keeps | apply Keeps.ite
    | split | (dsimp only; split)

theorem State.portOff_keeps {k₀ : Nat} {s₀ s : State} (p : Nat)
    (hm : Covers k₀ 0x200618a0000000000000000040000400160000000848008040000000001100000000000000000000000000010006431022) (hs : Keeps k₀ s₀ s) :
    Keeps k₀ s₀ (State.portOff s p) := by
  unfold State.portOff
  repeat' first
    | exact hm.trans (by decide)
    | with_reducible first
      | assumption | intro _ | refine Keeps.of_eq (by with_reducible assumption) ?_ | apply State.endPortSessions_keeps
      | apply State.linkLost_keeps | apply Keeps.ite
    | split | (dsimp only; split)

theorem execBackbonePortEnable_keeps {k₀ : Nat} {s₀ s : State} (port : Fin 4) (en : Bool)
    (hm : Covers k₀ 0x200618a00000000000000000400004001600000008480080c0000000001100000000000000000000000000010006431022) (hs : Keeps k₀ s₀ s) :
    Outcome.Keeps k₀ s₀ (execBackbonePortEnable port en s) := by
  unfold execBackbonePortEnable
  repeat' first
    | exact hm.trans (by decide)
    | with_reducible first
      | exact BKB_CTRL_in | assumption | intro _ | refine Keeps.of_eq (by with_reducible assumption) ?_
      | apply State.portOff_keeps | apply State.putFld_keeps | apply Keeps.ite | apply Outcome.keeps_next
    | split | (dsimp only; split)

theorem execBackboneLinkChange_keeps {k₀ : Nat} {s₀ s : State} (port : Fin 4) (up : Bool)
    (hm : Covers k₀ 0x40000000000000000000000000000000000000000000000002) (hs : Keeps k₀ s₀ s) :
    Outcome.Keeps k₀ s₀ (execBackboneLinkChange port up s) := by
  unfold execBackboneLinkChange
  repeat' first
    | exact hm.trans (by decide)
    | with_reducible first
      | exact BKB_STATUS_in | assumption | intro _ | refine Keeps.of_eq (by with_reducible assumption) ?_
      | apply State.linkLost_keeps | apply State.putFld_keeps | apply Keeps.ite | apply Outcome.keeps_next
    | split | (dsimp only; split)

theorem execBackbonePacketDiscard_keeps {k₀ : Nat} {s₀ s : State} (port : Fin 5) (why : Discard)
    (hm : Covers k₀ 0x4003440000000000000000000000000000000000000000000000002) (hs : Keeps k₀ s₀ s) :
    Outcome.Keeps k₀ s₀ (execBackbonePacketDiscard port why s) := by
  unfold execBackbonePacketDiscard
  repeat' first
    | exact hm.trans (by decide)
    | with_reducible first
      | exact BKB_FCSERR_in | exact BKB_RXDISC_in | exact BKB_STATUS_in | exact BRG_MALF_in | assumption | intro _
      | refine Keeps.of_eq (by with_reducible assumption) ?_ | apply State.arrive_keeps | apply State.bump_keeps
      | apply State.flag_keeps | apply State.when_keeps | apply Keeps.ite | apply Outcome.keeps_next
    | split | (dsimp only; split)

/-! ### Machine/LocalIo.lean -/

theorem execDiSample_keeps {k₀ : Nat} {s₀ s : State} (x : DioSample)
    (hm : Covers k₀ 0x200618a00000000a40000edc00000000000000000000000000000000000000000000000000000000000000000010450002) (hs : Keeps k₀ s₀ s) :
    Outcome.Keeps k₀ s₀ (execDiSample x s) := by
  unfold execDiSample
  repeat' first
    | exact hm.trans (by decide)
    | with_reducible first
      | assumption | intro _ | refine Keeps.of_eq (by with_reducible assumption) ?_ | apply State.forEach_keeps
      | apply State.guardSample_keeps | apply State.sampleInput_keeps | apply State.sampleOutput_keeps | apply Keeps.ite
      | apply Outcome.keeps_next
    | split | (dsimp only; split)

theorem execTestRunStart_keeps {k₀ : Nat} {s₀ s : State} (cause : RunCause)
    (hm : Covers k₀ 0x4000000000000000000000000000000000000000000000000000000000000000000000000000040002) (hs : Keeps k₀ s₀ s) :
    Outcome.Keeps k₀ s₀ (execTestRunStart cause s) := by
  unfold execTestRunStart
  repeat' first
    | exact hm.trans (by decide)
    | with_reducible first
      | assumption | intro _ | refine Keeps.of_eq (by with_reducible assumption) ?_ | apply State.startRun_keeps
      | apply Keeps.ite | apply Outcome.keeps_next
    | split | (dsimp only; split)

theorem execTestTestIssue_keeps {k₀ : Nat} {s₀ s : State}
    (hm : Covers k₀ 0xc000000000000000000000000000000000000000000000000000000000000000000000000000040002) (hs : Keeps k₀ s₀ s) :
    Outcome.Keeps k₀ s₀ (execTestTestIssue s) := by
  unfold execTestTestIssue
  repeat' first
    | exact hm.trans (by decide)
    | with_reducible first
      | assumption | intro _ | refine Keeps.of_eq (by with_reducible assumption) ?_ | apply State.issueTest_keeps
      | apply Keeps.ite | apply Outcome.keeps_next
    | split | (dsimp only; split)

theorem execTestRunEnd_keeps {k₀ : Nat} {s₀ s : State}
    (hm : Covers k₀ 0x200618a00000000bc000001000000000000000000000000000000000000000000000000000000000000000000000450002) (hs : Keeps k₀ s₀ s) :
    Outcome.Keeps k₀ s₀ (execTestRunEnd s) := by
  unfold execTestRunEnd
  repeat' first
    | exact hm.trans (by decide)
    | with_reducible first
      | assumption | intro _ | refine Keeps.of_eq (by with_reducible assumption) ?_ | apply State.endRun_keeps
      | apply Keeps.ite | apply Outcome.keeps_next
    | split | (dsimp only; split)

theorem execFaultAbsentTimeout_keeps {k₀ : Nat} {s₀ s : State} (i : Fin 16) (hm : Covers k₀ 0x40000) (hs : Keeps k₀ s₀ s) :
    Outcome.Keeps k₀ s₀ (execFaultAbsentTimeout i s) := by
  unfold execFaultAbsentTimeout
  repeat' first
    | exact hm.trans (by decide)
    | with_reducible first
      | assumption | intro _ | refine Keeps.of_eq (by with_reducible assumption) ?_ | apply State.modDi_keeps
      | apply Keeps.ite | apply Outcome.keeps_next
    | split | (dsimp only; split)

theorem execTpOverload_keeps {k₀ : Nat} {s₀ s : State} (src : Fin 4) (mA : Nat)
    (hm : Covers k₀ 0x200618a0000000024000001400000000000000000000000000000000000000000000000000000000000000000000450002) (hs : Keeps k₀ s₀ s) :
    Outcome.Keeps k₀ s₀ (execTpOverload src mA s) := by
  unfold execTpOverload
  repeat' first
    | exact hm.trans (by decide)
    | with_reducible first
      | exact DIO_STATUS_in | assumption | intro _ | refine Keeps.of_eq (by with_reducible assumption) ?_
      | apply State.evLimit_keeps | apply State.flag_keeps | apply State.forEach_keeps | apply State.latchInput_keeps
      | apply Keeps.ite | apply Outcome.keeps_next
    | split | (dsimp only; split) | with_reducible apply Keeps.mk_dio

theorem execTpRetry_keeps {k₀ : Nat} {s₀ s : State} (src : Fin 4) (hm : Covers k₀ 0x40000) (hs : Keeps k₀ s₀ s) :
    Outcome.Keeps k₀ s₀ (execTpRetry src s) := by
  unfold execTpRetry
  repeat' first
    | exact hm.trans (by decide)
    | with_reducible first
      | assumption | intro _ | refine Keeps.of_eq (by with_reducible assumption) ?_ | apply Keeps.ite
      | apply Outcome.keeps_next
    | split | (dsimp only; split) | with_reducible apply Keeps.mk_dio

theorem execDoLoadMeasure_keeps {k₀ : Nat} {s₀ s : State} (c : Fin 8) (load : Fin 4)
    (hm : Covers k₀ 0x200618a000000000000008c400000000000000000000000000000000000000000000000000000000000000000000450002) (hs : Keeps k₀ s₀ s) :
    Outcome.Keeps k₀ s₀ (execDoLoadMeasure c load s) := by
  unfold execDoLoadMeasure
  repeat' first
    | exact hm.trans (by decide)
    | with_reducible first
      | exact DIO_DOLOAD_in | exact DIO_STATUS_in | assumption | intro _
      | refine Keeps.of_eq (by with_reducible assumption) ?_ | apply State.doFault_keeps | apply State.evState_keeps
      | apply State.flag_keeps | apply State.putFld_keeps | apply Keeps.ite | apply Outcome.keeps_next
    | split | (dsimp only; split)

theorem execDoClear_keeps {k₀ : Nat} {s₀ s : State} (mask : BitVec 8)
    (hm : Covers k₀ 0x14000000000000000000000000000000000000000000000000000000000000000000000000002) (hs : Keeps k₀ s₀ s) :
    Outcome.Keeps k₀ s₀ (execDoClear mask s) := by
  unfold execDoClear
  repeat' first
    | exact hm.trans (by decide)
    | with_reducible first
      | exact DIO_DOCLR_in | assumption | intro _ | refine Keeps.of_eq (by with_reducible assumption) ?_
      | apply State.doClear_keeps | apply State.putFld_keeps | apply Keeps.ite | apply Outcome.keeps_next
    | split | (dsimp only; split)

theorem execFg1Loss_keeps {k₀ : Nat} {s₀ s : State}
    (hm : Covers k₀ 0x200618a000000002400000d400000000000000000000000000000000000000000000000000000000000000000000450002) (hs : Keeps k₀ s₀ s) :
    Outcome.Keeps k₀ s₀ (execFg1Loss s) := by
  unfold execFg1Loss
  repeat' first
    | exact hm.trans (by decide)
    | with_reducible first
      | exact DIO_STATUS_in | assumption | intro _ | refine Keeps.of_eq (by with_reducible assumption) ?_
      | apply State.flag_keeps | apply State.forEach_keeps | apply State.latchInput_keeps | apply State.setDoCmd_keeps
      | apply Keeps.ite | apply Outcome.keeps_next
    | split | (dsimp only; split)

theorem execFg1Return_keeps {k₀ : Nat} {s₀ s : State}
    (hm : Covers k₀ 0x400000000000000000000000000000000000000000000000000000000000000000000000002) (hs : Keeps k₀ s₀ s) :
    Outcome.Keeps k₀ s₀ (execFg1Return s) := by
  unfold execFg1Return
  repeat' first
    | exact hm.trans (by decide)
    | with_reducible first
      | exact DIO_STATUS_in | assumption | intro _ | refine Keeps.of_eq (by with_reducible assumption) ?_
      | apply State.putFld_keeps | apply Keeps.ite | apply Outcome.keeps_next
    | split | (dsimp only; split)

theorem execLoopSample_keeps {k₀ : Nat} {s₀ s : State} (c : Fin 4) (m : LoopMeasure)
    (hm : Covers k₀ 0x200618a00000000002b4000000000000000000000000000000000000000000000000000000000000000000000000490002) (hs : Keeps k₀ s₀ s) :
    Outcome.Keeps k₀ s₀ (execLoopSample c m s) := by
  unfold execLoopSample
  repeat' first
    | exact hm.trans (by decide)
    | with_reducible first
      | assumption | intro _ | refine Keeps.of_eq (by with_reducible assumption) ?_ | apply State.sampleLoop_keeps
      | apply Keeps.ite | apply Outcome.keeps_next
    | split | (dsimp only; split)

theorem execComplianceTimeout_keeps {k₀ : Nat} {s₀ s : State} (c : Fin 4)
    (hm : Covers k₀ 0x200618a00000000000a4000000000000000000000000000000000000000000000000000000000000000000000000490002) (hs : Keeps k₀ s₀ s) :
    Outcome.Keeps k₀ s₀ (execComplianceTimeout c s) := by
  unfold execComplianceTimeout
  repeat' first
    | exact hm.trans (by decide)
    | with_reducible first
      | assumption | intro _ | refine Keeps.of_eq (by with_reducible assumption) ?_ | apply State.loopFault_keeps
      | apply Keeps.ite | apply Outcome.keeps_next
    | split | (dsimp only; split)

theorem execLoopThermal_keeps {k₀ : Nat} {s₀ s : State} (c : Fin 4) (hot : Bool)
    (hm : Covers k₀ 0x200618a00000000000a4000000000000000000000000000000000000000000000000000000000000000000000000490002) (hs : Keeps k₀ s₀ s) :
    Outcome.Keeps k₀ s₀ (execLoopThermal c hot s) := by
  unfold execLoopThermal
  repeat' first
    | exact hm.trans (by decide)
    | with_reducible first
      | assumption | intro _ | refine Keeps.of_eq (by with_reducible assumption) ?_ | apply State.loopDrive_keeps
      | apply State.loopFault_keeps | apply State.modLoop_keeps | apply Keeps.ite | apply Outcome.keeps_next
    | split | (dsimp only; split)

theorem execLoopModeSettled_keeps {k₀ : Nat} {s₀ s : State} (c : Fin 4) (hm : Covers k₀ 0x80000) (hs : Keeps k₀ s₀ s) :
    Outcome.Keeps k₀ s₀ (execLoopModeSettled c s) := by
  unfold execLoopModeSettled
  repeat' first
    | exact hm.trans (by decide)
    | with_reducible first
      | assumption | intro _ | refine Keeps.of_eq (by with_reducible assumption) ?_ | apply State.loopDrive_keeps
      | apply State.modLoop_keeps | apply Keeps.ite | apply Outcome.keeps_next
    | split | (dsimp only; split)

theorem execLoopLoadCompute_keeps {k₀ : Nat} {s₀ s : State} (c : Fin 4)
    (hm : Covers k₀ 0x400000000000000000000000000000000000000000000000000000000000000000000000000000002) (hs : Keeps k₀ s₀ s) :
    Outcome.Keeps k₀ s₀ (execLoopLoadCompute c s) := by
  unfold execLoopLoadCompute
  repeat' first
    | exact hm.trans (by decide)
    | with_reducible first
      | assumption | intro _ | refine Keeps.of_eq (by with_reducible assumption) ?_ | apply State.firmware_keeps
      | apply State.loopLoad_keeps | apply Keeps.ite | apply Outcome.keeps_next
    | split | (dsimp only; split)

theorem execLoopClear_keeps {k₀ : Nat} {s₀ s : State} (mask : BitVec 4)
    (hm : Covers k₀ 0x60000000000000000000000000000000000000000000000000000000000000000000000000080002) (hs : Keeps k₀ s₀ s) :
    Outcome.Keeps k₀ s₀ (execLoopClear mask s) := by
  unfold execLoopClear
  repeat' first
    | exact hm.trans (by decide)
    | with_reducible first
      | exact LOOP_CLR_in | assumption | intro _ | refine Keeps.of_eq (by with_reducible assumption) ?_
      | apply State.loopClear_keeps | apply State.putFld_keeps | apply Keeps.ite | apply Outcome.keeps_next
    | split | (dsimp only; split)

theorem execFg2Loss_keeps {k₀ : Nat} {s₀ s : State}
    (hm : Covers k₀ 0x4000000000000000000000000000000000000000000000000000000000000000000000000080002) (hs : Keeps k₀ s₀ s) :
    Outcome.Keeps k₀ s₀ (execFg2Loss s) := by
  unfold execFg2Loss
  repeat' first
    | exact hm.trans (by decide)
    | with_reducible first
      | exact LOOP_STATUS_in | assumption | intro _ | refine Keeps.of_eq (by with_reducible assumption) ?_
      | apply State.flag_keeps | apply State.loopsDrive_keeps | apply Keeps.ite | apply Outcome.keeps_next
    | split | (dsimp only; split)

theorem execFg2Return_keeps {k₀ : Nat} {s₀ s : State}
    (hm : Covers k₀ 0x4000000000000000000000000000000000000000000000000000000000000000000000000000002) (hs : Keeps k₀ s₀ s) :
    Outcome.Keeps k₀ s₀ (execFg2Return s) := by
  unfold execFg2Return
  repeat' first
    | exact hm.trans (by decide)
    | with_reducible first
      | exact LOOP_STATUS_in | assumption | intro _ | refine Keeps.of_eq (by with_reducible assumption) ?_
      | apply State.putFld_keeps | apply Keeps.ite | apply Outcome.keeps_next
    | split | (dsimp only; split)

/-! ### Machine/Reset.lean -/

theorem State.stageZero_keeps {k₀ : Nat} {s₀ s : State}
    (hm : Covers k₀ 0x200000000000000000000000000000000000000000000000000000000000000000000000000000000000002) (hs : Keeps k₀ s₀ s) :
    Keeps k₀ s₀ (State.stageZero s) := by
  unfold State.stageZero
  repeat' first
    | exact hm.trans (by decide)
    | with_reducible first
      | exact BLW_STAGE_in | assumption | intro _ | refine Keeps.of_eq (by with_reducible assumption) ?_
      | apply State.setReg_keeps | apply Keeps.ite
    | split | (dsimp only; split)

theorem State.startAfter_keeps {k₀ : Nat} {s₀ t : State} (cause : Nat) (prev : Nat)
    (hm : Covers k₀ 0x122c000000000000000000000000000000000000000000000000000000000000000000000000000800600002) (hs : Keeps k₀ s₀ t) :
    Keeps k₀ s₀ (State.startAfter t cause prev) := by
  unfold State.startAfter
  repeat' first
    | exact hm.trans (by decide)
    | with_reducible first
      | exact BLW_CMD_in | exact BLW_PWRCYC_in | exact BLW_STATUS_in | exact BLW_WDTIME_in | exact SYS_RSTCAUSE_in
      | assumption | intro _ | refine Keeps.of_eq (by with_reducible assumption) ?_ | apply State.putFld_keeps
      | apply State.setReg_keeps | apply State.stageZero_keeps | apply Keeps.ite
    | split | (dsimp only; split) | with_reducible apply Keeps.mk_bellows_update

theorem State.moduleResetNow_keeps {k₀ : Nat} {s₀ s : State} (cause : Nat)
    (hm : Covers k₀ 0xffffffffffffffffffffffffffffffffffffffffffffffffffffffffffffffffffffffffffffffffffffffffffffff1ffffffe) (hs : Keeps k₀ s₀ s) :
    Keeps k₀ s₀ (State.moduleResetNow s cause) := by
  unfold State.moduleResetNow
  repeat' first
    | exact hm.trans (by decide)
    | with_reducible first
      | exact SYS_RSTCAUSE_in | assumption | intro _ | refine Keeps.of_eq (by with_reducible assumption) ?_
      | apply State.startAfter_keeps | apply State.unitsReset_keeps | apply Keeps.ite
    | split | (dsimp only; split)

theorem State.moduleReset_keeps {k₀ : Nat} {s₀ s : State} (cause : Nat)
    (hm : Covers k₀ 0xffffffffffffffffffffffffffffffffffffffffffffffffffffffffffffffffffffffffffffffffffffffffffffff1ffffffe) (hs : Keeps k₀ s₀ s) :
    Keeps k₀ s₀ (State.moduleReset s cause) := by
  unfold State.moduleReset
  repeat' first
    | exact hm.trans (by decide)
    | with_reducible first
      | exact BLW_STATUS_in | exact EVR_STATUS_in | assumption | intro _
      | refine Keeps.of_eq (by with_reducible assumption) ?_ | apply State.moduleResetNow_keeps | apply Keeps.ite
    | split | (dsimp only; split) | with_reducible apply Keeps.mk_bellows

theorem State.resetCommand_keeps {k₀ : Nat} {s₀ s : State}
    (hm : Covers k₀ 0xffffffffffffffffffffffffffffffffffffffffffffffffffffffffffffffffffffffffffffffffffffffffffffff1ffffffe) (hs : Keeps k₀ s₀ s) :
    Keeps k₀ s₀ (State.resetCommand s) := by
  unfold State.resetCommand
  repeat' first
    | exact hm.trans (by decide)
    | with_reducible first
      | exact BLW_CMD_in | assumption | intro _ | refine Keeps.of_eq (by with_reducible assumption) ?_
      | apply State.flag_keeps | apply State.moduleReset_keeps | apply Keeps.ite
    | split | (dsimp only; split)

theorem State.resetDeferred_keeps {k₀ : Nat} {s₀ s : State}
    (hm : Covers k₀ 0xffffffffffffffffffffffffffffffffffffffffffffffffffffffffffffffffffffffffffffffffffffffffffffff1ffffffe) (hs : Keeps k₀ s₀ s) :
    Keeps k₀ s₀ (State.resetDeferred s) := by
  unfold State.resetDeferred
  repeat' first
    | exact hm.trans (by decide)
    | with_reducible first
      | assumption | intro _ | refine Keeps.of_eq (by with_reducible assumption) ?_ | apply State.moduleResetNow_keeps
      | apply Keeps.ite
    | split | (dsimp only; split)

theorem execModuleReset_keeps {k₀ : Nat} {s₀ s : State} (cause : BitVec 3)
    (hm : Covers k₀ 0xffffffffffffffffffffffffffffffffffffffffffffffffffffffffffffffffffffffffffffffffffffffffffffff1ffffffe) (hs : Keeps k₀ s₀ s) :
    Outcome.Keeps k₀ s₀ (execModuleReset cause s) := by
  unfold execModuleReset
  repeat' first
    | exact hm.trans (by decide)
    | with_reducible first
      | assumption | intro _ | refine Keeps.of_eq (by with_reducible assumption) ?_ | apply State.moduleReset_keeps
      | apply State.when_keeps | apply Keeps.ite | apply Outcome.keeps_next
    | split | (dsimp only; split)

theorem execPowerUp_keeps {k₀ : Nat} {s₀ s : State}
    (hm : Covers k₀ 0xffffffffffffffffffffffffffffffffffffffffffffffffffffffffffffffffffffffffffffffffffffffffffffff1ffffffe) (hs : Keeps k₀ s₀ s) :
    Outcome.Keeps k₀ s₀ (execPowerUp s) := by
  unfold execPowerUp
  repeat' first
    | exact hm.trans (by decide)
    | with_reducible first
      | exact BLW_OPTIMEH_in | exact BLW_OPTIMEL_in | exact UPD_SIDING_in | exact UPD_STATUS_in | assumption | intro _
      | refine Keeps.of_eq (by with_reducible assumption) ?_ | apply State.putFld_keeps | apply State.setReg_keeps
      | apply State.startAfter_keeps | apply State.unpowered_keeps | apply Keeps.ite | apply Outcome.keeps_next
    | split | (dsimp only; split)

/-! ### Machine/Recorder.lean -/

theorem State.modRecorder_keeps {k₀ : Nat} {s₀ s : State} (g : Recorder → Recorder) (hm : Covers k₀ 0x10000)
    (hs : Keeps k₀ s₀ s) :
    Keeps k₀ s₀ (State.modRecorder s g) := by
  unfold State.modRecorder
  repeat' first
    | exact hm.trans (by decide)
    | with_reducible first
      | assumption | intro _ | refine Keeps.of_eq (by with_reducible assumption) ?_ | apply Keeps.ite
    | split | (dsimp only; split) | with_reducible apply Keeps.mk_recorder

theorem execEventRaise_keeps {k₀ : Nat} {s₀ s : State} (source : BitVec 8) (code : BitVec 16) (severity : BitVec 2)
    (safety : Bool) (params : List Word) (hm : Covers k₀ 0x200618a0000000000000000000000000000000000000000000000000000000000000000000000000000000000000410002) (hs : Keeps k₀ s₀ s) :
    Outcome.Keeps k₀ s₀ (execEventRaise source code severity safety params s) := by
  unfold execEventRaise
  repeat' first
    | exact hm.trans (by decide)
    | with_reducible first
      | assumption | intro _ | refine Keeps.of_eq (by with_reducible assumption) ?_ | apply State.raise_keeps
      | apply Keeps.ite | apply Outcome.keeps_next
    | split | (dsimp only; split)

theorem State.creditTokens_keeps {k₀ : Nat} {s₀ s : State} (hm : Covers k₀ 0x10000) (hs : Keeps k₀ s₀ s) :
    Keeps k₀ s₀ (State.creditTokens s) := by
  unfold State.creditTokens
  repeat' first
    | exact hm.trans (by decide)
    | with_reducible first
      | assumption | intro _ | refine Keeps.of_eq (by with_reducible assumption) ?_ | apply State.modRecorder_keeps
      | apply Keeps.ite
    | split | (dsimp only; split)

theorem execTokenCredit_keeps {k₀ : Nat} {s₀ s : State} (hm : Covers k₀ 0x10000) (hs : Keeps k₀ s₀ s) :
    Outcome.Keeps k₀ s₀ (execTokenCredit s) := by
  unfold execTokenCredit
  repeat' first
    | exact hm.trans (by decide)
    | with_reducible first
      | assumption | intro _ | refine Keeps.of_eq (by with_reducible assumption) ?_ | apply State.creditTokens_keeps
      | apply State.firmware_keeps | apply Keeps.ite | apply Outcome.keeps_next
    | split | (dsimp only; split)

theorem State.retireBlock_keeps {k₀ : Nat} {s₀ s : State} (block : Nat)
    (hm : Covers k₀ 0x200e18a0000000000000000000000000000000000000000000000000000000000000000000000000000000000000410002) (hs : Keeps k₀ s₀ s) :
    Keeps k₀ s₀ (State.retireBlock s block) := by
  unfold State.retireBlock
  repeat' first
    | exact hm.trans (by decide)
    | with_reducible first
      | exact EVR_BADBLK_in | assumption | intro _ | refine Keeps.of_eq (by with_reducible assumption) ?_
      | apply State.bump_keeps | apply State.event_keeps | apply State.modRecorder_keeps | apply Keeps.ite
    | split | (dsimp only; split)

theorem State.eraseBlock_keeps {k₀ : Nat} {s₀ s : State} (block : Nat) (ok : Bool)
    (hm : Covers k₀ 0x200e1fa0000000000000000000000000000000000000000000000000000000000000000000000000000000000000410002) (hs : Keeps k₀ s₀ s) :
    Keeps k₀ s₀ (State.eraseBlock s block ok) := by
  unfold State.eraseBlock
  repeat' first
    | exact hm.trans (by decide)
    | with_reducible first
      | exact EVR_STATUS_in | exact EVR_WEAR_in | assumption | intro _
      | refine Keeps.of_eq (by with_reducible assumption) ?_ | apply State.evLimit_keeps | apply State.flag_keeps
      | apply State.modRecorder_keeps | apply State.putFld_keeps | apply State.retireBlock_keeps
      | apply State.setEvrFirst_keeps | apply Keeps.ite
    | split | (dsimp only; split)

theorem execLogBlockErase_keeps {k₀ : Nat} {s₀ s : State} (block : Fin 269) (ok : Bool)
    (hm : Covers k₀ 0x200e1fa0000000000000000000000000000000000000000000000000000000000000000000000000000000000000410002) (hs : Keeps k₀ s₀ s) :
    Outcome.Keeps k₀ s₀ (execLogBlockErase block ok s) := by
  unfold execLogBlockErase
  repeat' first
    | exact hm.trans (by decide)
    | with_reducible first
      | assumption | intro _ | refine Keeps.of_eq (by with_reducible assumption) ?_ | apply State.eraseBlock_keeps
      | apply State.firmware_keeps | apply Keeps.ite | apply Outcome.keeps_next
    | split | (dsimp only; split)

theorem State.clearLogNow_keeps {k₀ : Nat} {s₀ s : State}
    (hm : Covers k₀ 0x41ee0000000000000000000000000000000000000000000000000000000000000000000000000000000000000010002) (hs : Keeps k₀ s₀ s) :
    Keeps k₀ s₀ (State.clearLogNow s) := by
  unfold State.clearLogNow
  repeat' first
    | exact hm.trans (by decide)
    | with_reducible first
      | exact EVR_CMD_in | exact EVR_FIRSTL_in | assumption | intro _
      | refine Keeps.of_eq (by with_reducible assumption) ?_ | apply State.modRecorder_keeps | apply State.putFld_keeps
      | apply State.setEvrFirst_keeps | apply State.storeRecord_keeps | apply Keeps.ite
    | split | (dsimp only; split)

theorem State.clearIfReady_keeps {k₀ : Nat} {s₀ s : State}
    (hm : Covers k₀ 0x41ee0000000000000000000000000000000000000000000000000000000000000000000000000000000000000010002) (hs : Keeps k₀ s₀ s) :
    Keeps k₀ s₀ (State.clearIfReady s) := by
  unfold State.clearIfReady
  repeat' first
    | exact hm.trans (by decide)
    | with_reducible first
      | exact EVR_STATUS_in | assumption | intro _ | refine Keeps.of_eq (by with_reducible assumption) ?_
      | apply State.clearLogNow_keeps | apply Keeps.ite
    | split | (dsimp only; split)

theorem State.evrClear_keeps {k₀ : Nat} {s₀ s : State}
    (hm : Covers k₀ 0x20061ee0000000000000000000000000000000000000000000000000000000000000000000000000000000000000410002) (hs : Keeps k₀ s₀ s) :
    Keeps k₀ s₀ (State.evrClear s) := by
  unfold State.evrClear
  repeat' first
    | exact hm.trans (by decide)
    | with_reducible first
      | exact EVR_CMD_in | assumption | intro _ | refine Keeps.of_eq (by with_reducible assumption) ?_
      | apply State.clearIfReady_keeps | apply State.evRefused_keeps | apply State.flag_keeps
      | apply State.modRecorder_keeps | apply Keeps.ite
    | split | (dsimp only; split)

theorem execEvrClear_keeps {k₀ : Nat} {s₀ s : State}
    (hm : Covers k₀ 0x20061ee0000000000000000000000000000000000000000000000000000000000000000000000000000000000000410002) (hs : Keeps k₀ s₀ s) :
    Outcome.Keeps k₀ s₀ (execEvrClear s) := by
  unfold execEvrClear
  repeat' first
    | exact hm.trans (by decide)
    | with_reducible first
      | assumption | intro _ | refine Keeps.of_eq (by with_reducible assumption) ?_ | apply State.evrClear_keeps
      | apply Keeps.ite | apply Outcome.keeps_next
    | split | (dsimp only; split)

theorem State.flushDone_keeps {k₀ : Nat} {s₀ s : State} (failed : Nat)
    (hm : Covers k₀ 0xffffffffffffffffffffffffffffffffffffffffffffffffffffffffffffffffffffffffffffffffffffffffffffff1ffffffe) (hs : Keeps k₀ s₀ s) :
    Keeps k₀ s₀ (State.flushDone s failed) := by
  unfold State.flushDone
  repeat' first
    | exact hm.trans (by decide)
    | with_reducible first
      | exact EVR_BUFCNT_in | exact EVR_CMD_in | exact EVR_STATUS_in | assumption | intro _
      | refine Keeps.of_eq (by with_reducible assumption) ?_ | apply State.clearIfReady_keeps
      | apply State.forEach_keeps | apply State.modRecorder_keeps | apply State.putFld_keeps
      | apply State.resetDeferred_keeps | apply State.retireBlock_keeps | apply Keeps.ite
    | split | (dsimp only; split)

theorem execFlushComplete_keeps {k₀ : Nat} {s₀ s : State} (failed : Nat)
    (hm : Covers k₀ 0xffffffffffffffffffffffffffffffffffffffffffffffffffffffffffffffffffffffffffffffffffffffffffffff1ffffffe) (hs : Keeps k₀ s₀ s) :
    Outcome.Keeps k₀ s₀ (execFlushComplete failed s) := by
  unfold execFlushComplete
  repeat' first
    | exact hm.trans (by decide)
    | with_reducible first
      | assumption | intro _ | refine Keeps.of_eq (by with_reducible assumption) ?_ | apply State.firmware_keeps
      | apply State.flushDone_keeps | apply Keeps.ite | apply Outcome.keeps_next
    | split | (dsimp only; split)

theorem State.evrFlush_keeps {k₀ : Nat} {s₀ s : State}
    (hm : Covers k₀ 0x60000000000000000000000000000000000000000000000000000000000000000000000000000000000000000002) (hs : Keeps k₀ s₀ s) :
    Keeps k₀ s₀ (State.evrFlush s) := by
  unfold State.evrFlush
  repeat' first
    | exact hm.trans (by decide)
    | with_reducible first
      | exact EVR_CMD_in | assumption | intro _ | refine Keeps.of_eq (by with_reducible assumption) ?_
      | apply State.flag_keeps | apply State.startFlush_keeps | apply Keeps.ite
    | split | (dsimp only; split)

theorem execEvrFlush_keeps {k₀ : Nat} {s₀ s : State}
    (hm : Covers k₀ 0x60000000000000000000000000000000000000000000000000000000000000000000000000000000000000000002) (hs : Keeps k₀ s₀ s) :
    Outcome.Keeps k₀ s₀ (execEvrFlush s) := by
  unfold execEvrFlush
  repeat' first
    | exact hm.trans (by decide)
    | with_reducible first
      | assumption | intro _ | refine Keeps.of_eq (by with_reducible assumption) ?_ | apply State.evrFlush_keeps
      | apply Keeps.ite | apply Outcome.keeps_next
    | split | (dsimp only; split)

theorem State.evrRead_keeps {k₀ : Nat} {s₀ s : State} (crcOk : Bool)
    (hm : Covers k₀ 0x18000000000000000000000000000000000000000000000000000000000000000000000000000000000000010000002) (hs : Keeps k₀ s₀ s) :
    Keeps k₀ s₀ (State.evrRead s crcOk) := by
  unfold State.evrRead
  repeat' first
    | exact hm.trans (by decide)
    | with_reducible first
      | exact EVR_RDATA_in | exact EVR_RDSTAT_in | assumption | intro _
      | refine Keeps.of_eq (by with_reducible assumption) ?_ | apply State.forEach_keeps | apply State.putFld_keeps
      | apply State.setReg_keeps | apply Keeps.ite
    | split | (dsimp only; split) | with_reducible apply Keeps.mk_free

theorem execEvrRead_keeps {k₀ : Nat} {s₀ s : State} (crcOk : Bool)
    (hm : Covers k₀ 0x18000000000000000000000000000000000000000000000000000000000000000000000000000000000000010000002) (hs : Keeps k₀ s₀ s) :
    Outcome.Keeps k₀ s₀ (execEvrRead crcOk s) := by
  unfold execEvrRead
  repeat' first
    | exact hm.trans (by decide)
    | with_reducible first
      | assumption | intro _ | refine Keeps.of_eq (by with_reducible assumption) ?_ | apply State.evrRead_keeps
      | apply Keeps.ite | apply Outcome.keeps_next
    | split | (dsimp only; split)

/-! ### Machine/Update.lean -/

theorem State.setSiding_keeps {k₀ : Nat} {s₀ s : State} (v : Nat)
    (hm : Covers k₀ 0x10000000000000000000000000000000000000000000000000000000000000000000000000000000000000000000000002) (hs : Keeps k₀ s₀ s) :
    Keeps k₀ s₀ (State.setSiding s v) := by
  unfold State.setSiding
  repeat' first
    | exact hm.trans (by decide)
    | with_reducible first
      | exact UPD_SIDING_in | assumption | intro _ | refine Keeps.of_eq (by with_reducible assumption) ?_
      | apply State.putFld_keeps | apply Keeps.ite
    | split | (dsimp only; split)

theorem State.modUpdate_keeps {k₀ : Nat} {s₀ s : State} (g : Update → Update) (hm : Covers k₀ 0x400000)
    (hs : Keeps k₀ s₀ s) :
    Keeps k₀ s₀ (State.modUpdate s g) := by
  unfold State.modUpdate
  repeat' first
    | exact hm.trans (by decide)
    | with_reducible first
      | assumption | intro _ | refine Keeps.of_eq (by with_reducible assumption) ?_ | apply Keeps.ite
    | split | (dsimp only; split) | with_reducible apply Keeps.mk_update

theorem State.updRefused_keeps {k₀ : Nat} {s₀ s : State} (reason : Nat)
    (hm : Covers k₀ 0x200618a0000000000000000000000000000000000000000000000000000000000000000000000000000000000000410002) (hs : Keeps k₀ s₀ s) :
    Keeps k₀ s₀ (State.updRefused s reason) := by
  unfold State.updRefused
  repeat' first
    | exact hm.trans (by decide)
    | with_reducible first
      | assumption | intro _ | refine Keeps.of_eq (by with_reducible assumption) ?_ | apply State.evRefused_keeps
      | apply Keeps.ite
    | split | (dsimp only; split)

theorem State.sidingWrite_keeps {k₀ : Nat} {s₀ s : State}
    (hm : Covers k₀ 0x310618a0000000000000000000000000000000000000000000000000000000000000000000000000000000000000410002) (hs : Keeps k₀ s₀ s) :
    Keeps k₀ s₀ (State.sidingWrite s) := by
  unfold State.sidingWrite
  repeat' first
    | exact hm.trans (by decide)
    | with_reducible first
      | exact UPD_CMD_in | exact UPD_SIDING_in | assumption | intro _
      | refine Keeps.of_eq (by with_reducible assumption) ?_ | apply State.cancelUpd_keeps | apply State.flag_keeps
      | apply State.modUpdate_keeps | apply State.putFld_keeps | apply State.setSiding_keeps
      | apply State.updRefused_keeps | apply Keeps.ite
    | split | (dsimp only; split)

theorem execSidingWrite_keeps {k₀ : Nat} {s₀ s : State}
    (hm : Covers k₀ 0x310618a0000000000000000000000000000000000000000000000000000000000000000000000000000000000000410002) (hs : Keeps k₀ s₀ s) :
    Outcome.Keeps k₀ s₀ (execSidingWrite s) := by
  unfold execSidingWrite
  repeat' first
    | exact hm.trans (by decide)
    | with_reducible first
      | assumption | intro _ | refine Keeps.of_eq (by with_reducible assumption) ?_ | apply State.sidingWrite_keeps
      | apply Keeps.ite | apply Outcome.keeps_next
    | split | (dsimp only; split)

theorem execSidingWriteDone_keeps {k₀ : Nat} {s₀ s : State} (ok : Bool)
    (hm : Covers k₀ 0x318618a0000000000000000000000000000000000000000000000000000000000001a00a8180000000000000000041001a) (hs : Keeps k₀ s₀ s) :
    Outcome.Keeps k₀ s₀ (execSidingWriteDone ok s) := by
  unfold execSidingWriteDone
  repeat' first
    | exact hm.trans (by decide)
    | with_reducible first
      | exact UPD_CMD_in | exact UPD_SIDING_in | exact UPD_STATUS_in | assumption | intro _
      | refine Keeps.of_eq (by with_reducible assumption) ?_ | apply State.firmware_keeps | apply State.flag_keeps
      | apply State.modUpdate_keeps | apply State.moveBytes_keeps | apply State.putFld_keeps | apply Keeps.ite
      | apply Outcome.keeps_next
    | split | (dsimp only; split)

theorem State.updDiscard_keeps {k₀ : Nat} {s₀ s : State}
    (hm : Covers k₀ 0x300618a0000000000000000000000000000000000000000000000000000000000000000000000000000000000000410002) (hs : Keeps k₀ s₀ s) :
    Keeps k₀ s₀ (State.updDiscard s) := by
  unfold State.updDiscard
  repeat' first
    | exact hm.trans (by decide)
    | with_reducible first
      | assumption | intro _ | refine Keeps.of_eq (by with_reducible assumption) ?_ | apply State.cancelUpd_keeps
      | apply State.setSiding_keeps | apply State.updRefused_keeps | apply Keeps.ite
    | split | (dsimp only; split)

theorem execUpdDiscard_keeps {k₀ : Nat} {s₀ s : State}
    (hm : Covers k₀ 0x300618a0000000000000000000000000000000000000000000000000000000000000000000000000000000000000410002) (hs : Keeps k₀ s₀ s) :
    Outcome.Keeps k₀ s₀ (execUpdDiscard s) := by
  unfold execUpdDiscard
  repeat' first
    | exact hm.trans (by decide)
    | with_reducible first
      | assumption | intro _ | refine Keeps.of_eq (by with_reducible assumption) ?_ | apply State.updDiscard_keeps
      | apply Keeps.ite | apply Outcome.keeps_next
    | split | (dsimp only; split)

theorem State.updChallenge_keeps {k₀ : Nat} {s₀ s : State} (w : UpdWait) (c : Word)
    (hm : Covers k₀ 0x700618a0000000000000000000000000000000000000000000000000000000000000000000000000000000000000410002) (hs : Keeps k₀ s₀ s) :
    Keeps k₀ s₀ (State.updChallenge s w c) := by
  unfold State.updChallenge
  repeat' first
    | exact hm.trans (by decide)
    | with_reducible first
      | exact UPD_CHAL_in | assumption | intro _ | refine Keeps.of_eq (by with_reducible assumption) ?_
      | apply State.cancelUpd_keeps | apply State.modUpdate_keeps | apply State.setReg_keeps | apply Keeps.ite
    | split | (dsimp only; split)

theorem State.updAnswered_keeps {k₀ : Nat} {s₀ s : State} (hm : Covers k₀ 0x400000) (hs : Keeps k₀ s₀ s) :
    Keeps k₀ s₀ (State.updAnswered s) := by
  unfold State.updAnswered
  repeat' first
    | exact hm.trans (by decide)
    | with_reducible first
      | assumption | intro _ | refine Keeps.of_eq (by with_reducible assumption) ?_ | apply State.modUpdate_keeps
      | apply Keeps.ite
    | split | (dsimp only; split)

theorem State.refuseApply_keeps {k₀ : Nat} {s₀ s : State} (reason : Nat)
    (hm : Covers k₀ 0x300618a0000000000000000000000000000000000000000000000000000000000000000000000000000000000000410002) (hs : Keeps k₀ s₀ s) :
    Keeps k₀ s₀ (State.refuseApply s reason) := by
  unfold State.refuseApply
  repeat' first
    | exact hm.trans (by decide)
    | with_reducible first
      | exact UPD_SIDING_in | assumption | intro _ | refine Keeps.of_eq (by with_reducible assumption) ?_
      | apply State.putFld_keeps | apply State.updRefused_keeps | apply Keeps.ite
    | split | (dsimp only; split)

theorem State.apply_keeps {k₀ : Nat} {s₀ s : State} (now : Bool) (granted : Bool)
    (hm : Covers k₀ 0xffffffffffffffffffffffffffffffffffffffffffffffffffffffffffffffffffffffffffffffffffffffffffffff1ffffffe) (hs : Keeps k₀ s₀ s) :
    Keeps k₀ s₀ (State.apply s now granted) := by
  unfold State.apply
  repeat' first
    | exact hm.trans (by decide)
    | with_reducible first
      | assumption | intro _ | refine Keeps.of_eq (by with_reducible assumption) ?_ | apply State.moduleReset_keeps
      | apply State.refuseApply_keeps | apply State.send_keeps | apply State.setSiding_keeps
      | apply State.updAnswered_keeps | apply State.updChallenge_keeps | apply State.updRefused_keeps | apply Keeps.ite
    | split | (dsimp only; split) | with_reducible apply Keeps.mk_cpl

theorem execApply_keeps {k₀ : Nat} {s₀ s : State} (now : Bool) (granted : Bool)
    (hm : Covers k₀ 0xffffffffffffffffffffffffffffffffffffffffffffffffffffffffffffffffffffffffffffffffffffffffffffff1ffffffe) (hs : Keeps k₀ s₀ s) :
    Outcome.Keeps k₀ s₀ (execApply now granted s) := by
  unfold execApply
  repeat' first
    | exact hm.trans (by decide)
    | with_reducible first
      | assumption | intro _ | refine Keeps.of_eq (by with_reducible assumption) ?_ | apply State.apply_keeps
      | apply Keeps.ite | apply Outcome.keeps_next
    | split | (dsimp only; split)

theorem State.showDirectory_keeps {k₀ : Nat} {s₀ s : State} (c : Nat)
    (hm : Covers k₀ 0x200800000000000000000000000000000000000000000000000000000000000000000000000000000000000000000000002) (hs : Keeps k₀ s₀ s) :
    Keeps k₀ s₀ (State.showDirectory s c) := by
  unfold State.showDirectory
  repeat' first
    | exact hm.trans (by decide)
    | with_reducible first
      | exact UPD_COMP_VER_in | exact UPD_STATUS_in | assumption | intro _
      | refine Keeps.of_eq (by with_reducible assumption) ?_ | apply State.putFld_keeps | apply State.setReg_keeps
      | apply Keeps.ite
    | split | (dsimp only; split)

theorem State.loadFlash_keeps {k₀ : Nat} {s₀ s : State} (hm : Covers k₀ 0x2000) (hs : Keeps k₀ s₀ s) :
    Keeps k₀ s₀ (State.loadFlash s) := by
  unfold State.loadFlash
  repeat' first
    | exact hm.trans (by decide)
    | with_reducible first
      | assumption | intro _ | refine Keeps.of_eq (by with_reducible assumption) ?_ | apply State.setChange_keeps
      | apply Keeps.ite
    | split | (dsimp only; split)

theorem State.saveMram_keeps {k₀ : Nat} {s₀ s : State}
    (hm : Covers k₀ 0x200618a0000000000000000000000000000000000000000000000000000000000001a00a8180000000000000000041001a) (hs : Keeps k₀ s₀ s) :
    Keeps k₀ s₀ (State.saveMram s) := by
  unfold State.saveMram
  repeat' first
    | exact hm.trans (by decide)
    | with_reducible first
      | assumption | intro _ | refine Keeps.of_eq (by with_reducible assumption) ?_ | apply State.modUpdate_keeps
      | apply State.moveBytes_keeps | apply Keeps.ite
    | split | (dsimp only; split)

theorem State.restoreMram_keeps {k₀ : Nat} {s₀ s : State}
    (hm : Covers k₀ 0x200618a0000000000000000000000000000000000000000000000000000000000001a00a8180000000000000000051101a) (hs : Keeps k₀ s₀ s) :
    Keeps k₀ s₀ (State.restoreMram s) := by
  unfold State.restoreMram
  repeat' first
    | exact hm.trans (by decide)
    | with_reducible first
      | assumption | intro _ | refine Keeps.of_eq (by with_reducible assumption) ?_ | apply State.evState_keeps
      | apply State.moveBytes_keeps | apply Keeps.ite
    | split | (dsimp only; split) | with_reducible apply Keeps.mk_modes_calib_update

theorem State.fallBack_keeps {k₀ : Nat} {s₀ s : State} (cs : List Nat)
    (hm : Covers k₀ 0x3308618a0000000000000000000000000000000000000000000000000000000000001a00a8180000000000000000051301a) (hs : Keeps k₀ s₀ s) :
    Keeps k₀ s₀ (State.fallBack s cs) := by
  unfold State.fallBack
  repeat' first
    | exact hm.trans (by decide)
    | with_reducible first
      | exact UPD_COMP_STATE_in | exact UPD_STATUS_in | assumption | intro _
      | refine Keeps.of_eq (by with_reducible assumption) ?_ | apply State.evState_keeps | apply State.flag_keeps
      | apply State.forEach_keeps | apply State.loadFlash_keeps | apply State.putFld_keeps
      | apply State.restoreMram_keeps | apply State.setBankState_keeps | apply State.setSiding_keeps
      | apply State.showDirectory_keeps | apply Keeps.ite
    | split | (dsimp only; split)

theorem State.fillBank_keeps {k₀ : Nat} {s₀ s : State} (c : Nat) (b : Nat) (p : Program) (k : ConfigData)
    (hm : Covers k₀ 0x400000) (hs : Keeps k₀ s₀ s) :
    Keeps k₀ s₀ (State.fillBank s c b p k) := by
  unfold State.fillBank
  repeat' first
    | exact hm.trans (by decide)
    | with_reducible first
      | assumption | intro _ | refine Keeps.of_eq (by with_reducible assumption) ?_ | apply State.modUpdate_keeps
      | apply State.setProgram_keeps | apply Keeps.ite
    | split | (dsimp only; split)

theorem State.installImage_keeps {k₀ : Nat} {s₀ s : State} (off : Nat) (copyOk : Bool) (p : Program) (k : ConfigData)
    (hm : Covers k₀ 0x3208618a0000000000000000000000000000000000000000000000000000000000001a00a8180000000000000000041201a) (hs : Keeps k₀ s₀ s) :
    Keeps k₀ s₀ (State.installImage s off copyOk p k).1 := by
  unfold State.installImage
  repeat' first
    | exact hm.trans (by decide)
    | with_reducible first
      | exact UPD_COMP_STATE_in | exact UPD_TRIAL_in | assumption | intro _
      | refine Keeps.of_eq (by with_reducible assumption) ?_ | apply State.fillBank_keeps | apply State.loadFlash_keeps
      | apply State.modUpdate_keeps | apply State.moveBytes_keeps | apply State.putFld_keeps
      | apply State.saveMram_keeps | apply State.setBankState_keeps | apply State.setReg_keeps
      | apply State.showDirectory_keeps | apply Keeps.ite
    | split | (dsimp only; split)

theorem State.rejectPackage_keeps {k₀ : Nat} {s₀ s : State} (result : Nat)
    (hm : Covers k₀ 0x308618a0000000000000000000000000000000000000000000000000000000000000000000000000000000000000410002) (hs : Keeps k₀ s₀ s) :
    Keeps k₀ s₀ (State.rejectPackage s result) := by
  unfold State.rejectPackage
  repeat' first
    | exact hm.trans (by decide)
    | with_reducible first
      | exact UPD_SIDING_in | exact UPD_STATUS_in | assumption | intro _
      | refine Keeps.of_eq (by with_reducible assumption) ?_ | apply State.evRefused_keeps | apply State.flag_keeps
      | apply State.putFld_keeps | apply State.setSiding_keeps | apply Keeps.ite
    | split | (dsimp only; split)

theorem State.bootPackage_keeps {k₀ : Nat} {s₀ s : State} (f : StageFinding)
    (hm : Covers k₀ 0x3308618a0000000000000000000000000000000000000000000000000000000000001a00a8180000000000000000041201a) (hs : Keeps k₀ s₀ s) :
    Keeps k₀ s₀ (State.bootPackage s f).1 := by
  unfold State.bootPackage
  repeat' first
    | exact hm.trans (by decide)
    | with_reducible first
      | exact UPD_SIDING_in | assumption | intro _ | refine Keeps.of_eq (by with_reducible assumption) ?_
      | apply State.installImage_keeps | apply State.putFld_keeps | apply State.rejectPackage_keeps
      | apply State.setSiding_keeps | apply Keeps.ite
    | split | (dsimp only; split)

theorem State.chooseBank_keeps {k₀ : Nat} {s₀ s : State} (verified : BitVec 10) (c : Nat)
    (hm : Covers k₀ 0x3208618a0000000000000000000000000000000000000000000000000000000000000000000000000000000000000410002) (hs : Keeps k₀ s₀ s) :
    Keeps k₀ s₀ (State.chooseBank s verified c) := by
  unfold State.chooseBank
  repeat' first
    | exact hm.trans (by decide)
    | with_reducible first
      | exact UPD_COMP_STATE_in | assumption | intro _ | refine Keeps.of_eq (by with_reducible assumption) ?_
      | apply State.evState_keeps | apply State.modUpdate_keeps | apply State.putFld_keeps
      | apply State.setProgram_keeps | apply State.showDirectory_keeps | apply Keeps.ite
    | split | (dsimp only; split)

theorem State.boot_keeps {k₀ : Nat} {s₀ s : State} (f : StageFinding)
    (hm : Covers k₀ 0x3308618a0000000000000000000000000000000000000000000000000000000000001a00a8180000000000000000051301a) (hs : Keeps k₀ s₀ s) :
    Keeps k₀ s₀ (State.boot s f).1 := by
  unfold State.boot
  repeat' first
    | exact hm.trans (by decide)
    | with_reducible first
      | assumption | intro _ | refine Keeps.of_eq (by with_reducible assumption) ?_ | apply State.bootPackage_keeps
      | apply State.chooseBank_keeps | apply State.fallBack_keeps | apply State.forEach_keeps
      | apply State.loadFlash_keeps | apply State.modUpdate_keeps | apply Keeps.ite
    | split | (dsimp only; split)

theorem State.confirmTrial_keeps {k₀ : Nat} {s₀ s : State}
    (hm : Covers k₀ 0x1208618a0000000000000000000000000000000000000000000000000000000000000000000000000000000000000410002) (hs : Keeps k₀ s₀ s) :
    Keeps k₀ s₀ (State.confirmTrial s) := by
  unfold State.confirmTrial
  repeat' first
    | exact hm.trans (by decide)
    | with_reducible first
      | exact UPD_COMP_STATE_in | exact UPD_STATUS_in | exact UPD_TRIAL_in | assumption | intro _
      | refine Keeps.of_eq (by with_reducible assumption) ?_ | apply State.evState_keeps | apply State.flag_keeps
      | apply State.forEach_keeps | apply State.modUpdate_keeps | apply State.putFld_keeps
      | apply State.setBankState_keeps | apply State.setReg_keeps | apply Keeps.ite
    | split | (dsimp only; split)

theorem execTrialConfirm_keeps {k₀ : Nat} {s₀ s : State}
    (hm : Covers k₀ 0x1208618a0000000000000000000000000000000000000000000000000000000000000000000000000000000000000410002) (hs : Keeps k₀ s₀ s) :
    Outcome.Keeps k₀ s₀ (execTrialConfirm s) := by
  unfold execTrialConfirm
  repeat' first
    | exact hm.trans (by decide)
    | with_reducible first
      | exact UPD_TRIAL_in | assumption | intro _ | refine Keeps.of_eq (by with_reducible assumption) ?_
      | apply State.confirmTrial_keeps | apply State.firmware_keeps | apply Keeps.ite | apply Outcome.keeps_next
    | split | (dsimp only; split)

theorem State.updConfirm_keeps {k₀ : Nat} {s₀ s : State}
    (hm : Covers k₀ 0x1208618a0000000000000000000000000000000000000000000000000000000000000000000000000000000000000410002) (hs : Keeps k₀ s₀ s) :
    Keeps k₀ s₀ (State.updConfirm s) := by
  unfold State.updConfirm
  repeat' first
    | exact hm.trans (by decide)
    | with_reducible first
      | assumption | intro _ | refine Keeps.of_eq (by with_reducible assumption) ?_ | apply State.confirmTrial_keeps
      | apply State.updRefused_keeps | apply Keeps.ite
    | split | (dsimp only; split)

theorem execUpdConfirm_keeps {k₀ : Nat} {s₀ s : State}
    (hm : Covers k₀ 0x1208618a0000000000000000000000000000000000000000000000000000000000000000000000000000000000000410002) (hs : Keeps k₀ s₀ s) :
    Outcome.Keeps k₀ s₀ (execUpdConfirm s) := by
  unfold execUpdConfirm
  repeat' first
    | exact hm.trans (by decide)
    | with_reducible first
      | assumption | intro _ | refine Keeps.of_eq (by with_reducible assumption) ?_ | apply State.updConfirm_keeps
      | apply Keeps.ite | apply Outcome.keeps_next
    | split | (dsimp only; split)

theorem State.updRecover_keeps {k₀ : Nat} {s₀ s : State}
    (hm : Covers k₀ 0xffffffffffffffffffffffffffffffffffffffffffffffffffffffffffffffffffffffffffffffffffffffffffffff1ffffffe) (hs : Keeps k₀ s₀ s) :
    Keeps k₀ s₀ (State.updRecover s) := by
  unfold State.updRecover
  repeat' first
    | exact hm.trans (by decide)
    | with_reducible first
      | exact SYS_RSTCAUSE_in | assumption | intro _ | refine Keeps.of_eq (by with_reducible assumption) ?_
      | apply State.modUpdate_keeps | apply State.setReg_keeps | apply State.stageZero_keeps
      | apply State.unitsReset_keeps | apply State.updAnswered_keeps | apply State.updChallenge_keeps
      | apply State.updRefused_keeps | apply Keeps.ite
    | split | (dsimp only; split)

theorem execUpdRecover_keeps {k₀ : Nat} {s₀ s : State}
    (hm : Covers k₀ 0xffffffffffffffffffffffffffffffffffffffffffffffffffffffffffffffffffffffffffffffffffffffffffffff1ffffffe) (hs : Keeps k₀ s₀ s) :
    Outcome.Keeps k₀ s₀ (execUpdRecover s) := by
  unfold execUpdRecover
  repeat' first
    | exact hm.trans (by decide)
    | with_reducible first
      | assumption | intro _ | refine Keeps.of_eq (by with_reducible assumption) ?_ | apply State.updRecover_keeps
      | apply Keeps.ite | apply Outcome.keeps_next
    | split | (dsimp only; split)

theorem execRecoveryAnnounce_keeps {k₀ : Nat} {s₀ s : State} (hm : Covers k₀ 0x8000000) (hs : Keeps k₀ s₀ s) :
    Outcome.Keeps k₀ s₀ (execRecoveryAnnounce s) := by
  unfold execRecoveryAnnounce
  repeat' first
    | exact hm.trans (by decide)
    | with_reducible first
      | assumption | intro _ | refine Keeps.of_eq (by with_reducible assumption) ?_ | apply State.send_keeps
      | apply Keeps.ite | apply Outcome.keeps_next
    | split | (dsimp only; split)

theorem execRecoveryBlock_keeps {k₀ : Nat} {s₀ s : State} (offset : Nat) (data : List Byte) (ok : Bool)
    (hm : Covers k₀ 0x200618a0000000000000000000000000000000000000000000000000000000000001a00a8180000000000000000841001a) (hs : Keeps k₀ s₀ s) :
    Outcome.Keeps k₀ s₀ (execRecoveryBlock offset data ok s) := by
  unfold execRecoveryBlock
  repeat' first
    | exact hm.trans (by decide)
    | with_reducible first
      | assumption | intro _ | refine Keeps.of_eq (by with_reducible assumption) ?_ | apply State.send_keeps
      | apply State.writeRun_keeps | apply Keeps.ite | apply Outcome.keeps_next
    | split | (dsimp only; split)

theorem State.recoveryEnd_keeps {k₀ : Nat} {s₀ s : State} (images : List RecoveryImage)
    (hm : Covers k₀ 0xffffffffffffffffffffffffffffffffffffffffffffffffffffffffffffffffffffffffffffffffffffffffffffff1ffffffe) (hs : Keeps k₀ s₀ s) :
    Keeps k₀ s₀ (State.recoveryEnd s images) := by
  unfold State.recoveryEnd
  repeat' first
    | exact hm.trans (by decide)
    | with_reducible first
      | exact UPD_SIDING_in | exact UPD_STATUS_in | assumption | intro _
      | refine Keeps.of_eq (by with_reducible assumption) ?_ | apply State.fallBack_keeps | apply State.flag_keeps
      | apply State.forEach_keeps | apply State.installImage_keeps | apply State.modUpdate_keeps
      | apply State.moduleResetNow_keeps | apply State.putFld_keeps | apply State.send_keeps
      | apply State.setSiding_keeps | apply State.when_keeps | apply Keeps.ite
    | split | (dsimp only; split)

theorem execRecoveryEnd_keeps {k₀ : Nat} {s₀ s : State} (length : Nat) (images : List RecoveryImage)
    (hm : Covers k₀ 0xffffffffffffffffffffffffffffffffffffffffffffffffffffffffffffffffffffffffffffffffffffffffffffff1ffffffe) (hs : Keeps k₀ s₀ s) :
    Outcome.Keeps k₀ s₀ (execRecoveryEnd length images s) := by
  unfold execRecoveryEnd
  repeat' first
    | exact hm.trans (by decide)
    | with_reducible first
      | assumption | intro _ | refine Keeps.of_eq (by with_reducible assumption) ?_ | apply State.recoveryEnd_keeps
      | apply Keeps.ite | apply Outcome.keeps_next
    | split | (dsimp only; split)

theorem State.secRefused_keeps {k₀ : Nat} {s₀ s : State} (reason : Nat)
    (hm : Covers k₀ 0x8200618a0000000000000000000000000000000000000000000000000000000000000000000000000000000000000410002) (hs : Keeps k₀ s₀ s) :
    Keeps k₀ s₀ (State.secRefused s reason) := by
  unfold State.secRefused
  repeat' first
    | exact hm.trans (by decide)
    | with_reducible first
      | exact SEC_STATUS_in | assumption | intro _ | refine Keeps.of_eq (by with_reducible assumption) ?_
      | apply State.evRefused_keeps | apply State.flag_keeps | apply Keeps.ite
    | split | (dsimp only; split)

theorem State.enroll_keeps {k₀ : Nat} {s₀ s : State} (slot : Nat)
    (hm : Covers k₀ 0x408700618a0000000000000000000000000000000000000000000000000000000000000000000000000000000000000410002) (hs : Keeps k₀ s₀ s) :
    Keeps k₀ s₀ (State.enroll s slot) := by
  unfold State.enroll
  repeat' first
    | exact hm.trans (by decide)
    | with_reducible first
      | exact SEC_PKEY_in | exact UPD_CHAL_in | assumption | intro _
      | refine Keeps.of_eq (by with_reducible assumption) ?_ | apply State.modUpdate_keeps | apply State.putFld_keeps
      | apply State.secRefused_keeps | apply State.updAnswered_keeps | apply State.updChallenge_keeps | apply Keeps.ite
    | split | (dsimp only; split)

theorem State.revoke_keeps {k₀ : Nat} {s₀ s : State} (slot : Nat)
    (hm : Covers k₀ 0x408700618a0000000000000000000000000000000000000000000000000000000000000000000000000000000000000410002) (hs : Keeps k₀ s₀ s) :
    Keeps k₀ s₀ (State.revoke s slot) := by
  unfold State.revoke
  repeat' first
    | exact hm.trans (by decide)
    | with_reducible first
      | exact SEC_PKEY_in | assumption | intro _ | refine Keeps.of_eq (by with_reducible assumption) ?_
      | apply State.putFld_keeps | apply State.secRefused_keeps | apply State.updAnswered_keeps
      | apply State.updChallenge_keeps | apply Keeps.ite
    | split | (dsimp only; split)

theorem execEnroll_keeps {k₀ : Nat} {s₀ s : State} (slot : Fin 4)
    (hm : Covers k₀ 0x408700618a0000000000000000000000000000000000000000000000000000000000000000000000000000000000000410002) (hs : Keeps k₀ s₀ s) :
    Outcome.Keeps k₀ s₀ (execEnroll slot s) := by
  unfold execEnroll
  repeat' first
    | exact hm.trans (by decide)
    | with_reducible first
      | assumption | intro _ | refine Keeps.of_eq (by with_reducible assumption) ?_ | apply State.enroll_keeps
      | apply Keeps.ite | apply Outcome.keeps_next
    | split | (dsimp only; split)

theorem execRevoke_keeps {k₀ : Nat} {s₀ s : State} (slot : Fin 4)
    (hm : Covers k₀ 0x408700618a0000000000000000000000000000000000000000000000000000000000000000000000000000000000000410002) (hs : Keeps k₀ s₀ s) :
    Outcome.Keeps k₀ s₀ (execRevoke slot s) := by
  unfold execRevoke
  repeat' first
    | exact hm.trans (by decide)
    | with_reducible first
      | assumption | intro _ | refine Keeps.of_eq (by with_reducible assumption) ?_ | apply State.revoke_keeps
      | apply Keeps.ite | apply Outcome.keeps_next
    | split | (dsimp only; split)

theorem State.attest_keeps {k₀ : Nat} {s₀ s : State}
    (hm : Covers k₀ 0x1000000000000000000000000000000000000000000000000000000000000000000000000000000000000000000000400002) (hs : Keeps k₀ s₀ s) :
    Keeps k₀ s₀ (State.attest s) := by
  unfold State.attest
  repeat' first
    | exact hm.trans (by decide)
    | with_reducible first
      | exact SEC_CMD_in | assumption | intro _ | refine Keeps.of_eq (by with_reducible assumption) ?_
      | apply State.flag_keeps | apply State.modUpdate_keeps | apply Keeps.ite
    | split | (dsimp only; split)

theorem execAttest_keeps {k₀ : Nat} {s₀ s : State}
    (hm : Covers k₀ 0x1000000000000000000000000000000000000000000000000000000000000000000000000000000000000000000000400002) (hs : Keeps k₀ s₀ s) :
    Outcome.Keeps k₀ s₀ (execAttest s) := by
  unfold execAttest
  repeat' first
    | exact hm.trans (by decide)
    | with_reducible first
      | assumption | intro _ | refine Keeps.of_eq (by with_reducible assumption) ?_ | apply State.attest_keeps
      | apply Keeps.ite | apply Outcome.keeps_next
    | split | (dsimp only; split)

theorem execAttestComplete_keeps {k₀ : Nat} {s₀ s : State}
    (hm : Covers k₀ 0x101800000000000000000000000000000000000000000000000000000000000000000000000000000000000000000010400002) (hs : Keeps k₀ s₀ s) :
    Outcome.Keeps k₀ s₀ (execAttestComplete s) := by
  unfold execAttestComplete
  repeat' first
    | exact hm.trans (by decide)
    | with_reducible first
      | exact SEC_CMD_in | exact SEC_RPT_in | exact SEC_STATUS_in | assumption | intro _
      | refine Keeps.of_eq (by with_reducible assumption) ?_ | apply State.firmware_keeps | apply State.flag_keeps
      | apply State.forEach_keeps | apply State.modUpdate_keeps | apply State.putFld_keeps | apply State.setReg_keeps
      | apply State.tickFree_keeps | apply Keeps.ite | apply Outcome.keeps_next
    | split | (dsimp only; split)

/-! ### Machine/Bellows.lean -/

theorem State.setStage_keeps {k₀ : Nat} {s₀ s : State} (v : Nat)
    (hm : Covers k₀ 0x200000000000000000000000000000000000000000000000000000000000000000000000000000000000002) (hs : Keeps k₀ s₀ s) :
    Keeps k₀ s₀ (State.setStage s v) := by
  unfold State.setStage
  repeat' first
    | exact hm.trans (by decide)
    | with_reducible first
      | exact BLW_STAGE_in | assumption | intro _ | refine Keeps.of_eq (by with_reducible assumption) ?_
      | apply State.putFld_keeps | apply Keeps.ite
    | split | (dsimp only; split)

theorem State.stageEvent_keeps {k₀ : Nat} {s₀ s : State} (unit : Nat)
    (hm : Covers k₀ 0x200618a0000000000000000000000000000000000000000000000000000000000000000000000000000000000000410002) (hs : Keeps k₀ s₀ s) :
    Keeps k₀ s₀ (State.stageEvent s unit) := by
  unfold State.stageEvent
  repeat' first
    | exact hm.trans (by decide)
    | with_reducible first
      | assumption | intro _ | refine Keeps.of_eq (by with_reducible assumption) ?_ | apply State.evState_keeps
      | apply Keeps.ite
    | split | (dsimp only; split)

theorem State.stageHeld_keeps {k₀ : Nat} {s₀ s : State}
    (hm : Covers k₀ 0x200618a0000200000000000000000000000000000000000000000000000000000000000000000000000000000000410002) (hs : Keeps k₀ s₀ s) :
    Keeps k₀ s₀ (State.stageHeld s) := by
  unfold State.stageHeld
  repeat' first
    | exact hm.trans (by decide)
    | with_reducible first
      | assumption | intro _ | refine Keeps.of_eq (by with_reducible assumption) ?_ | apply State.setStage_keeps
      | apply State.stageEvent_keeps | apply Keeps.ite
    | split | (dsimp only; split)

theorem State.takeConfig_keeps {k₀ : Nat} {s₀ s : State} (k : ConfigData)
    (hm : Covers k₀ 0xffffffffffffffffffffffffffffffffffffffffffffffffffffffffffffffffffffffffffffffffffffffffffffff0000000e) (hs : Keeps k₀ s₀ s) :
    Keeps k₀ s₀ (State.takeConfig s k) := by
  unfold State.takeConfig
  repeat' first
    | exact hm.trans (by decide)
    | with_reducible first
      | exact inRows_all | assumption | intro _ | refine Keeps.of_eq (by with_reducible assumption) ?_
      | apply State.forEach_keeps | apply State.loadReg_keeps | apply State.loadSmap_keeps | apply State.writeByte_keeps
      | apply Keeps.ite
    | split | (dsimp only; split)

theorem State.takeFlash_keeps {k₀ : Nat} {s₀ s : State}
    (hm : Covers k₀ 0x200618a0000000000000000000000000000000000000000000000000000000000000000000000000000f0000000043004a) (hs : Keeps k₀ s₀ s) :
    Keeps k₀ s₀ (State.takeFlash s) := by
  unfold State.takeFlash
  repeat' first
    | exact hm.trans (by decide)
    | with_reducible first
      | assumption | intro _ | refine Keeps.of_eq (by with_reducible assumption) ?_ | apply State.evRefused_keeps
      | apply State.writeGroups_keeps | apply State.writeProgram_keeps | apply Keeps.ite
    | split | (dsimp only; split) | with_reducible apply Keeps.mk_program

theorem State.loadBanks_keeps {k₀ : Nat} {s₀ s : State}
    (hm : Covers k₀ 0xffffffffffffffffffffffffffffffffffffffffffffffffffffffffffffffffffffffffffffffffffffffffffffff0043004e) (hs : Keeps k₀ s₀ s) :
    Keeps k₀ s₀ (State.loadBanks s) := by
  unfold State.loadBanks
  repeat' first
    | exact hm.trans (by decide)
    | with_reducible first
      | assumption | intro _ | refine Keeps.of_eq (by with_reducible assumption) ?_ | apply State.takeConfig_keeps
      | apply State.takeFlash_keeps | apply Keeps.ite
    | split | (dsimp only; split)

theorem State.loadUlat_keeps {k₀ : Nat} {s₀ s : State}
    (hm : Covers k₀ 0x200618a0000000000000000000000000000000000000000010000008000000000000000000000000000000000000410002) (hs : Keeps k₀ s₀ s) :
    Keeps k₀ s₀ (State.loadUlat s) := by
  unfold State.loadUlat
  repeat' first
    | exact hm.trans (by decide)
    | with_reducible first
      | exact TIME_STATUS_in | exact TIME_ULAT_in | assumption | intro _
      | refine Keeps.of_eq (by with_reducible assumption) ?_ | apply State.evState_keeps | apply State.flag_keeps
      | apply State.forEach_keeps | apply State.setReg_keeps | apply Keeps.ite
    | split | (dsimp only; split)

theorem State.loadPair_keeps {k₀ : Nat} {s₀ s : State}
    (hm : Covers k₀ 0x8000000000000000000000000000000000000040000000000000000000000000020002) (hs : Keeps k₀ s₀ s) :
    Keeps k₀ s₀ (State.loadPair s) := by
  unfold State.loadPair
  repeat' first
    | exact hm.trans (by decide)
    | with_reducible first
      | exact CPL_CFG_in | exact SOP_CTRL_in | assumption | intro _
      | refine Keeps.of_eq (by with_reducible assumption) ?_ | apply State.flag_keeps | apply State.forEach_keeps
      | apply State.setReg_keeps | apply Keeps.ite
    | split | (dsimp only; split) | with_reducible apply Keeps.mk_cpl

theorem State.restartAfterReset_keeps {k₀ : Nat} {s₀ s : State} (hm : Covers k₀ 0x1000) (hs : Keeps k₀ s₀ s) :
    Keeps k₀ s₀ (State.restartAfterReset s) := by
  unfold State.restartAfterReset
  repeat' first
    | exact hm.trans (by decide)
    | with_reducible first
      | assumption | intro _ | refine Keeps.of_eq (by with_reducible assumption) ?_ | apply State.modModes_keeps
      | apply Keeps.ite
    | split | (dsimp only; split)

theorem State.releaseLane_keeps {k₀ : Nat} {s₀ s : State} (pass : BitVec 3) (l : Nat)
    (hm : Covers k₀ 0x20000000000000000000000000000000000000000000000000000000000000000000000000030000000000000000400022) (hs : Keeps k₀ s₀ s) :
    Keeps k₀ s₀ (State.releaseLane s pass l) := by
  unfold State.releaseLane
  repeat' first
    | exact hm.trans (by decide)
    | with_reducible first
      | assumption | intro _ | refine Keeps.of_eq (by with_reducible assumption) ?_ | apply State.forEach_keeps
      | apply State.modCore_keeps | apply State.setLaneState_keeps | apply Keeps.ite
    | split | (dsimp only; split)

theorem State.stageBegin_keeps {k₀ : Nat} {s₀ s : State} (f : StageFinding)
    (hm : Covers k₀ 0x3308618a0000200000000000000000000000000000000000000000000000000000001a00a8180000000000000000051301a) (hs : Keeps k₀ s₀ s) :
    Keeps k₀ s₀ (State.stageBegin s f) := by
  unfold State.stageBegin
  repeat' first
    | exact hm.trans (by decide)
    | with_reducible first
      | exact BLW_STAGE_in | assumption | intro _ | refine Keeps.of_eq (by with_reducible assumption) ?_
      | apply State.boot_keeps | apply State.flag_keeps | apply State.setStage_keeps | apply State.stageHeld_keeps
      | apply State.startFlush_keeps | apply Keeps.ite
    | split | (dsimp only; split) | with_reducible apply Keeps.mk_calib

theorem State.stageUnits_keeps {k₀ : Nat} {s₀ s : State} (field : Field) (n : Nat) (f : StageFinding)
    (hm : Covers k₀ 0x200618a0000200000000000000000000000000000000000000000000000000000000000000000000000000000000410002) (hs : Keeps k₀ s₀ s) :
    Keeps k₀ s₀ (State.stageUnits s field n f) := by
  unfold State.stageUnits
  repeat' first
    | exact hm.trans (by decide)
    | with_reducible first
      | exact BLW_STAGE_in | assumption | intro _ | refine Keeps.of_eq (by with_reducible assumption) ?_
      | apply State.forEach_keeps | apply State.putFld_keeps | apply State.stageEvent_keeps | apply Keeps.ite
    | split | (dsimp only; split)

theorem State.stageFields_keeps {k₀ : Nat} {s₀ s : State} (f : StageFinding)
    (hm : Covers k₀ 0x200618a00002000008042004000000000000000000000000000000000000000000000000000000000000000000004d0002) (hs : Keeps k₀ s₀ s) :
    Keeps k₀ s₀ (State.stageFields s f) := by
  unfold State.stageFields
  repeat' first
    | exact hm.trans (by decide)
    | with_reducible first
      | exact BLW_STAGE_in | exact DIO_STATUS_in | exact LOOP_STATUS_in | assumption | intro _
      | refine Keeps.of_eq (by with_reducible assumption) ?_ | apply State.flag_keeps | apply State.loadDiCal_keeps
      | apply State.loadLoopCal_keeps | apply State.putFld_keeps | apply State.setStage_keeps
      | apply State.stageEvent_keeps | apply Keeps.ite
    | split | (dsimp only; split) | with_reducible first | apply Keeps.mk_dio | apply Keeps.mk_loop

theorem State.stageStep_keeps {k₀ : Nat} {s₀ s : State} (f : StageFinding)
    (hm : Covers k₀ 0x3308618a0000200000804200400000000000000000000000000000000000000000001a00a818000000000000000005d301a) (hs : Keeps k₀ s₀ s) :
    Keeps k₀ s₀ (State.stageStep s f) := by
  unfold State.stageStep
  repeat' first
    | exact hm.trans (by decide)
    | with_reducible first
      | exact BLW_STAGE_in | assumption | intro _ | refine Keeps.of_eq (by with_reducible assumption) ?_
      | apply State.flag_keeps | apply State.setStage_keeps | apply State.stageBegin_keeps
      | apply State.stageFields_keeps | apply State.stageHeld_keeps | apply State.stageUnits_keeps | apply Keeps.ite
    | split | (dsimp only; split)

theorem execStagedStartStep_keeps {k₀ : Nat} {s₀ s : State} (f : StageFinding)
    (hm : Covers k₀ 0x3308618a0000200000804200400000000000000000000000000000000000000000001a00a818000000000000000005d301a) (hs : Keeps k₀ s₀ s) :
    Outcome.Keeps k₀ s₀ (execStagedStartStep f s) := by
  unfold execStagedStartStep
  repeat' first
    | exact hm.trans (by decide)
    | with_reducible first
      | assumption | intro _ | refine Keeps.of_eq (by with_reducible assumption) ?_ | apply State.stageStep_keeps
      | apply State.when_keeps | apply Keeps.ite | apply Outcome.keeps_next
    | split | (dsimp only; split)

theorem execLaneRelease_keeps {k₀ : Nat} {s₀ s : State} (pass : BitVec 3)
    (hm : Covers k₀ 0xffffffffffffffffffffffffffffffffffffffffffffffffffffffffffffffffffffffffffffffffffffffffffffff0043106e) (hs : Keeps k₀ s₀ s) :
    Outcome.Keeps k₀ s₀ (execLaneRelease pass s) := by
  unfold execLaneRelease
  repeat' first
    | exact hm.trans (by decide)
    | with_reducible first
      | exact BLW_STAGE_in | exact SYS_FORCES_in | exact SYS_MODE_in | exact SYS_MODECFG_in | assumption | intro _
      | refine Keeps.of_eq (by with_reducible assumption) ?_ | apply State.forEach_keeps | apply State.loadBanks_keeps
      | apply State.loadPair_keeps | apply State.loadUlat_keeps | apply State.putFld_keeps
      | apply State.releaseLane_keeps | apply State.restartAfterReset_keeps | apply State.setLaneState_keeps
      | apply State.setReg_keeps | apply State.setStage_keeps | apply State.stageHeld_keeps | apply Keeps.ite
      | apply Outcome.keeps_next
    | split | (dsimp only; split)

theorem execStagedStartAbort_keeps {k₀ : Nat} {s₀ s : State}
    (hm : Covers k₀ 0xffffffffffffffffffffffffffffffffffffffffffffffffffffffffffffffffffffffffffffffffffffffffffffff1ffffffe) (hs : Keeps k₀ s₀ s) :
    Outcome.Keeps k₀ s₀ (execStagedStartAbort s) := by
  unfold execStagedStartAbort
  repeat' first
    | exact hm.trans (by decide)
    | with_reducible first
      | exact SYS_RSTCAUSE_in | assumption | intro _ | refine Keeps.of_eq (by with_reducible assumption) ?_
      | apply State.setReg_keeps | apply State.stageEvent_keeps | apply State.stageZero_keeps
      | apply State.unitsReset_keeps | apply State.when_keeps | apply Keeps.ite | apply Outcome.keeps_next
    | split | (dsimp only; split)

theorem execPowerFailWarning_keeps {k₀ : Nat} {s₀ s : State} (joules : Nat)
    (hm : Covers k₀ 0x200618a01c000c000000000000000000000000000000000000000000000000000000000000000000000000000000610022) (hs : Keeps k₀ s₀ s) :
    Outcome.Keeps k₀ s₀ (execPowerFailWarning joules s) := by
  unfold execPowerFailWarning
  repeat' first
    | exact hm.trans (by decide)
    | with_reducible first
      | exact BLW_CMD_in | exact BLW_ETOTH_in | exact BLW_ETOTL_in | exact BLW_PFCNT_in | exact BLW_STATUS_in
      | assumption | intro _ | refine Keeps.of_eq (by with_reducible assumption) ?_ | apply State.bump_keeps
      | apply State.event_keeps | apply State.flag_keeps | apply State.irq_keeps | apply State.putFld_keeps
      | apply State.setReg_keeps | apply State.startFlush_keeps | apply State.when_keeps | apply Keeps.ite
      | apply Outcome.keeps_next
    | split | (dsimp only; split) | with_reducible apply Keeps.mk_bellows

theorem execPowerFailEnd_keeps {k₀ : Nat} {s₀ s : State} (milliseconds : Nat)
    (hm : Covers k₀ 0x200618a0000004000000000000000000000000000000000000000000000000000000000000000000000000000000410002) (hs : Keeps k₀ s₀ s) :
    Outcome.Keeps k₀ s₀ (execPowerFailEnd milliseconds s) := by
  unfold execPowerFailEnd
  repeat' first
    | exact hm.trans (by decide)
    | with_reducible first
      | exact BLW_STATUS_in | assumption | intro _ | refine Keeps.of_eq (by with_reducible assumption) ?_
      | apply State.evState_keeps | apply State.putFld_keeps | apply State.when_keeps | apply Keeps.ite
      | apply Outcome.keeps_next
    | split | (dsimp only; split)

theorem execHoldupExhausted_keeps {k₀ : Nat} {s₀ s : State}
    (hm : Covers k₀ 0xffffffffffffffffffffffffffffffffffffffffffffffffffffffffffffffffffffffffffffffffffffffffffffff1ffffffe) (hs : Keeps k₀ s₀ s) :
    Outcome.Keeps k₀ s₀ (execHoldupExhausted s) := by
  unfold execHoldupExhausted
  repeat' first
    | exact hm.trans (by decide)
    | with_reducible first
      | exact BLW_STATUS_in | assumption | intro _ | refine Keeps.of_eq (by with_reducible assumption) ?_
      | apply State.moduleResetNow_keeps | apply State.when_keeps | apply Keeps.ite | apply Outcome.keeps_next
    | split | (dsimp only; split)

theorem execRailFault_keeps {k₀ : Nat} {s₀ s : State} (rail : Fin 12) (mv : BitVec 16)
    (hm : Covers k₀ 0xffffffffffffffffffffffffffffffffffffffffffffffffffffffffffffffffffffffffffffffffffffffffffffff1ffffffe) (hs : Keeps k₀ s₀ s) :
    Outcome.Keeps k₀ s₀ (execRailFault rail mv s) := by
  unfold execRailFault
  repeat' first
    | exact hm.trans (by decide)
    | with_reducible first
      | exact BLW_RAIL_in | exact BLW_RAILCNT_in | exact BLW_STATUS_in | assumption | intro _
      | refine Keeps.of_eq (by with_reducible assumption) ?_ | apply State.bump_keeps | apply State.evLimit_keeps
      | apply State.event_keeps | apply State.fence_keeps | apply State.firmware_keeps | apply State.flag_keeps
      | apply State.moduleResetNow_keeps | apply State.putFld_keeps | apply State.settle_keeps | apply Keeps.ite
      | apply Outcome.keeps_next
    | split | (dsimp only; split)

theorem State.sensor_keeps {k₀ : Nat} {s₀ s : State} (i : Nat) (raw : BitVec 12)
    (hm : Covers k₀ 0x200618a2400004000000000000000000000000000000000000000000000000000000000000000000000000000000610002) (hs : Keeps k₀ s₀ s) :
    Keeps k₀ s₀ (State.sensor s i raw) := by
  unfold State.sensor
  repeat' first
    | exact hm.trans (by decide)
    | with_reducible first
      | exact BLW_STATUS_in | exact BLW_TEMP_in | exact BLW_THERMCNT_in | assumption | intro _
      | refine Keeps.of_eq (by with_reducible assumption) ?_ | apply State.bump_keeps | apply State.event_keeps
      | apply State.flag_keeps | apply State.putFld_keeps | apply Keeps.ite
    | split | (dsimp only; split) | with_reducible apply Keeps.mk_bellows

theorem State.refreshCap_keeps {k₀ : Nat} {s₀ s : State}
    (hm : Covers k₀ 0x80000000000000000000000000000000000000000000000000000000000000000000000000000000000002) (hs : Keeps k₀ s₀ s) :
    Keeps k₀ s₀ (State.refreshCap s) := by
  unfold State.refreshCap
  repeat' first
    | exact hm.trans (by decide)
    | with_reducible first
      | exact BLW_OPCAP_in | assumption | intro _ | refine Keeps.of_eq (by with_reducible assumption) ?_
      | apply State.putFld_keeps | apply Keeps.ite
    | split | (dsimp only; split)

theorem execTempSample_keeps {k₀ : Nat} {s₀ s : State} (temps : Vector (BitVec 12) 8)
    (hm : Covers k₀ 0xffffffffffffffffffffffffffffffffffffffffffffffffffffffffffffffffffffffffffffffffffffffffffffff1ffffffe) (hs : Keeps k₀ s₀ s) :
    Outcome.Keeps k₀ s₀ (execTempSample temps s) := by
  unfold execTempSample
  repeat' first
    | exact hm.trans (by decide)
    | with_reducible first
      | assumption | intro _ | refine Keeps.of_eq (by with_reducible assumption) ?_ | apply State.firmware_keeps
      | apply State.forEach_keeps | apply State.moduleResetNow_keeps | apply State.refreshCap_keeps
      | apply State.sensor_keeps | apply State.when_keeps | apply Keeps.ite | apply Outcome.keeps_next
    | split | (dsimp only; split)

theorem State.watchdogKey_keeps {k₀ : Nat} {s₀ s : State} (key : Nat)
    (hm : Covers k₀ 0xffffffffffffffffffffffffffffffffffffffffffffffffffffffffffffffffffffffffffffffffffffffffffffff1ffffffe) (hs : Keeps k₀ s₀ s) :
    Keeps k₀ s₀ (State.watchdogKey s key) := by
  unfold State.watchdogKey
  repeat' first
    | exact hm.trans (by decide)
    | with_reducible first
      | exact BLW_WDTIME_in | assumption | intro _ | refine Keeps.of_eq (by with_reducible assumption) ?_
      | apply State.moduleReset_keeps | apply Keeps.ite
    | split | (dsimp only; split) | with_reducible apply Keeps.mk_bellows

theorem execRuntimeWatchdogKey_keeps {k₀ : Nat} {s₀ s : State} (key : BitVec 8)
    (hm : Covers k₀ 0xffffffffffffffffffffffffffffffffffffffffffffffffffffffffffffffffffffffffffffffffffffffffffffff1ffffffe) (hs : Keeps k₀ s₀ s) :
    Outcome.Keeps k₀ s₀ (execRuntimeWatchdogKey key s) := by
  unfold execRuntimeWatchdogKey
  repeat' first
    | exact hm.trans (by decide)
    | with_reducible first
      | assumption | intro _ | refine Keeps.of_eq (by with_reducible assumption) ?_ | apply State.watchdogKey_keeps
      | apply Keeps.ite | apply Outcome.keeps_next
    | split | (dsimp only; split)

theorem State.watchdogEnable_keeps {k₀ : Nat} {s₀ s : State}
    (hm : Covers k₀ 0x20000000000000000000000000000000000000000000000000000000000000000000000000000000200002) (hs : Keeps k₀ s₀ s) :
    Keeps k₀ s₀ (State.watchdogEnable s) := by
  unfold State.watchdogEnable
  repeat' first
    | exact hm.trans (by decide)
    | with_reducible first
      | exact BLW_WDTIME_in | assumption | intro _ | refine Keeps.of_eq (by with_reducible assumption) ?_
      | apply State.flag_keeps | apply Keeps.ite
    | split | (dsimp only; split) | with_reducible apply Keeps.mk_bellows

theorem execRuntimeWatchdogEnable_keeps {k₀ : Nat} {s₀ s : State}
    (hm : Covers k₀ 0x20000000000000000000000000000000000000000000000000000000000000000000000000000000200002) (hs : Keeps k₀ s₀ s) :
    Outcome.Keeps k₀ s₀ (execRuntimeWatchdogEnable s) := by
  unfold execRuntimeWatchdogEnable
  repeat' first
    | exact hm.trans (by decide)
    | with_reducible first
      | assumption | intro _ | refine Keeps.of_eq (by with_reducible assumption) ?_ | apply State.watchdogEnable_keeps
      | apply Keeps.ite | apply Outcome.keeps_next
    | split | (dsimp only; split)

theorem execRuntimeWatchdogExpiry_keeps {k₀ : Nat} {s₀ s : State}
    (hm : Covers k₀ 0xffffffffffffffffffffffffffffffffffffffffffffffffffffffffffffffffffffffffffffffffffffffffffffff1ffffffe) (hs : Keeps k₀ s₀ s) :
    Outcome.Keeps k₀ s₀ (execRuntimeWatchdogExpiry s) := by
  unfold execRuntimeWatchdogExpiry
  repeat' first
    | exact hm.trans (by decide)
    | with_reducible first
      | exact BLW_WDTIME_in | assumption | intro _ | refine Keeps.of_eq (by with_reducible assumption) ?_
      | apply State.moduleReset_keeps | apply State.when_keeps | apply Keeps.ite | apply Outcome.keeps_next
    | split | (dsimp only; split)

theorem execBellowsWatchdogExpiry_keeps {k₀ : Nat} {s₀ s : State}
    (hm : Covers k₀ 0x3308618a0000000000000000000000400160000000000000000000000000000000001a00a8180000000000000000073303a) (hs : Keeps k₀ s₀ s) :
    Outcome.Keeps k₀ s₀ (execBellowsWatchdogExpiry s) := by
  unfold execBellowsWatchdogExpiry
  repeat' first
    | exact hm.trans (by decide)
    | with_reducible first
      | assumption | intro _ | refine Keeps.of_eq (by with_reducible assumption) ?_ | apply State.endpointReset_keeps
      | apply State.fallBack_keeps | apply State.firmware_keeps | apply State.trialFault_keeps | apply Keeps.ite
      | apply Outcome.keeps_next
    | split | (dsimp only; split) | with_reducible apply Keeps.mk_bellows

theorem execBellowsRestartEnd_keeps {k₀ : Nat} {s₀ s : State}
    (hm : Covers k₀ 0x200618a0800004000000000000000000000000000000000000000000000000000000000000000000000000000000610002) (hs : Keeps k₀ s₀ s) :
    Outcome.Keeps k₀ s₀ (execBellowsRestartEnd s) := by
  unfold execBellowsRestartEnd
  repeat' first
    | exact hm.trans (by decide)
    | with_reducible first
      | exact BLW_BRSTCNT_in | exact BLW_STATUS_in | assumption | intro _
      | refine Keeps.of_eq (by with_reducible assumption) ?_ | apply State.bump_keeps | apply State.deliver_keeps
      | apply State.evState_keeps | apply State.flag_keeps | apply State.forEach_keeps | apply State.modRecorder_keeps
      | apply State.when_keeps | apply Keeps.ite | apply Outcome.keeps_next
    | split | (dsimp only; split) | with_reducible apply Keeps.mk_bellows

theorem execBlwResetCommand_keeps {k₀ : Nat} {s₀ s : State}
    (hm : Covers k₀ 0xffffffffffffffffffffffffffffffffffffffffffffffffffffffffffffffffffffffffffffffffffffffffffffff1ffffffe) (hs : Keeps k₀ s₀ s) :
    Outcome.Keeps k₀ s₀ (execBlwResetCommand s) := by
  unfold execBlwResetCommand
  repeat' first
    | exact hm.trans (by decide)
    | with_reducible first
      | assumption | intro _ | refine Keeps.of_eq (by with_reducible assumption) ?_ | apply State.resetCommand_keeps
      | apply Keeps.ite | apply Outcome.keeps_next
    | split | (dsimp only; split)

theorem execHoldtest_keeps {k₀ : Nat} {s₀ s : State} (result : BitVec 16)
    (hm : Covers k₀ 0x200618a000010c000000000000000000000000000000000000000000000000000000000000000000000000000000410002) (hs : Keeps k₀ s₀ s) :
    Outcome.Keeps k₀ s₀ (execHoldtest result s) := by
  unfold execHoldtest
  repeat' first
    | exact hm.trans (by decide)
    | with_reducible first
      | exact BLW_CMD_in | exact BLW_HOLDUP_in | exact BLW_STATUS_in | assumption | intro _
      | refine Keeps.of_eq (by with_reducible assumption) ?_ | apply State.evLimit_keeps | apply State.firmware_keeps
      | apply State.flag_keeps | apply State.putFld_keeps | apply Keeps.ite | apply Outcome.keeps_next
    | split | (dsimp only; split)

theorem execHealthForm_keeps {k₀ : Nat} {s₀ s : State} (clocksDiffer : Bool)
    (hm : Covers k₀ 0xc44000000000000000000000000000000000000000000000000000000000000000000000000000000000002) (hs : Keeps k₀ s₀ s) :
    Outcome.Keeps k₀ s₀ (execHealthForm clocksDiffer s) := by
  unfold execHealthForm
  repeat' first
    | exact hm.trans (by decide)
    | with_reducible first
      | exact BLW_HEALTH_in | exact BLW_OPTIMEH_in | exact BLW_OPTIMEL_in | exact BLW_STATUS_in | assumption | intro _
      | refine Keeps.of_eq (by with_reducible assumption) ?_ | apply State.firmware_keeps | apply State.flag_keeps
      | apply State.putFld_keeps | apply State.setReg_keeps | apply Keeps.ite | apply Outcome.keeps_next
    | split | (dsimp only; split)

theorem execEnergyTotalSave_keeps {k₀ : Nat} {s₀ s : State} (joules : Nat)
    (hm : Covers k₀ 0xc0000000000000000000000000000000000000000000000000000000000000000000000000000000000000002) (hs : Keeps k₀ s₀ s) :
    Outcome.Keeps k₀ s₀ (execEnergyTotalSave joules s) := by
  unfold execEnergyTotalSave
  repeat' first
    | exact hm.trans (by decide)
    | with_reducible first
      | exact BLW_ETOTH_in | exact BLW_ETOTL_in | assumption | intro _
      | refine Keeps.of_eq (by with_reducible assumption) ?_ | apply State.firmware_keeps | apply State.setReg_keeps
      | apply Keeps.ite | apply Outcome.keeps_next
    | split | (dsimp only; split)

theorem State.consoleRequest_keeps {k₀ : Nat} {s₀ s : State} (cmd : Nat) (data : List Byte) (crc : BitVec 16)
    (f : State → State) (hs : Keeps k₀ s₀ s) (hf : ∀ x0, Keeps k₀ s₀ x0 → Keeps k₀ s₀ (f x0)) :
    Keeps k₀ s₀ (State.consoleRequest s cmd data crc f) := by
  unfold State.consoleRequest
  repeat' first
    | with_reducible first
      | assumption | intro _ | apply hf | refine Keeps.of_eq (by with_reducible assumption) ?_
      | apply State.firmware_keeps | apply Keeps.ite
    | split | (dsimp only; split)

theorem execConsoleHealth_keeps {k₀ : Nat} {s₀ s : State} (crc : BitVec 16) (hm : Covers k₀ 0x8000000)
    (hs : Keeps k₀ s₀ s) :
    Outcome.Keeps k₀ s₀ (execConsoleHealth crc s) := by
  unfold execConsoleHealth
  repeat' first
    | exact hm.trans (by decide)
    | with_reducible first
      | assumption | intro _ | refine Keeps.of_eq (by with_reducible assumption) ?_ | apply State.consoleRequest_keeps
      | apply State.send_keeps | apply Keeps.ite | apply Outcome.keeps_next
    | split | (dsimp only; split)

theorem execConsoleIdent_keeps {k₀ : Nat} {s₀ s : State} (crc : BitVec 16) (hm : Covers k₀ 0x8000000) (hs : Keeps k₀ s₀ s) :
    Outcome.Keeps k₀ s₀ (execConsoleIdent crc s) := by
  unfold execConsoleIdent
  repeat' first
    | exact hm.trans (by decide)
    | with_reducible first
      | assumption | intro _ | refine Keeps.of_eq (by with_reducible assumption) ?_ | apply State.consoleRequest_keeps
      | apply State.send_keeps | apply Keeps.ite | apply Outcome.keeps_next
    | split | (dsimp only; split)

theorem execConsoleEvents_keeps {k₀ : Nat} {s₀ s : State} (crc : BitVec 16) (start : Nat) (count : Nat)
    (hm : Covers k₀ 0x8000000) (hs : Keeps k₀ s₀ s) :
    Outcome.Keeps k₀ s₀ (execConsoleEvents crc start count s) := by
  unfold execConsoleEvents
  repeat' first
    | exact hm.trans (by decide)
    | with_reducible first
      | assumption | intro _ | refine Keeps.of_eq (by with_reducible assumption) ?_ | apply State.consoleRequest_keeps
      | apply State.send_keeps | apply Keeps.ite | apply Outcome.keeps_next
    | split | (dsimp only; split)

theorem execConsoleReset_keeps {k₀ : Nat} {s₀ s : State} (crc : BitVec 16)
    (hm : Covers k₀ 0xffffffffffffffffffffffffffffffffffffffffffffffffffffffffffffffffffffffffffffffffffffffffffffff1ffffffe) (hs : Keeps k₀ s₀ s) :
    Outcome.Keeps k₀ s₀ (execConsoleReset crc s) := by
  unfold execConsoleReset
  repeat' first
    | exact hm.trans (by decide)
    | with_reducible first
      | assumption | intro _ | refine Keeps.of_eq (by with_reducible assumption) ?_ | apply State.consoleRequest_keeps
      | apply State.evRefused_keeps | apply State.moduleReset_keeps | apply State.send_keeps | apply Keeps.ite
      | apply Outcome.keeps_next
    | split | (dsimp only; split)

end Sys2Proof.Machine
end

