-- ==== Sys2Proof/Laws/KeepsPair.lean ====
section
/-!
SUPPORT. What `Keeps` says of the operations of
the restart and the coupler:
each keeps the canonical form and every part of the state outside its set.
A lemma stands for each operation, in the order of the Machine files.
-/

namespace Sys2Proof.Machine

set_option Elab.async false
set_option linter.all false

/-! ### Machine/Restart.lean -/

theorem State.stopOutputs_keeps {k₀ : Nat} {s₀ s : State}
    (hm : Covers k₀ 0x200618a0000000000000000000000000000000000000000000000000000000000001a00a818000000008000000004300ba) (hs : Keeps k₀ s₀ s) :
    Keeps k₀ s₀ (State.stopOutputs s) := by
  unfold State.stopOutputs
  repeat' first
    | exact hm.trans (by decide)
    | with_reducible first
      | assumption | intro _ | refine Keeps.of_eq (by with_reducible assumption) ?_ | apply State.closeCycle_keeps
      | apply State.forEach_keeps | apply State.substitute_keeps | apply Keeps.ite
    | split | (dsimp only; split)

theorem State.restartBegin_keeps {k₀ : Nat} {s₀ s : State}
    (hm : Covers k₀ 0x200618a0000000000000000000000400160000000000000000000000000000000001a00a818000000008000140004330ba) (hs : Keeps k₀ s₀ s) :
    Keeps k₀ s₀ (State.restartBegin s) := by
  unfold State.restartBegin
  repeat' first
    | exact hm.trans (by decide)
    | with_reducible first
      | exact SYS_MODE_in | assumption | intro _ | refine Keeps.of_eq (by with_reducible assumption) ?_
      | apply State.cancelPending_keeps | apply State.coresReset_keeps | apply State.modModes_keeps
      | apply State.putFld_keeps | apply State.stopOutputs_keeps | apply Keeps.ite
    | split | (dsimp only; split)

theorem State.clearFaults_keeps {k₀ : Nat} {s₀ s : State} (hm : Covers k₀ 0x2002002000000000000002) (hs : Keeps k₀ s₀ s) :
    Keeps k₀ s₀ (State.clearFaults s) := by
  unfold State.clearFaults
  repeat' first
    | exact hm.trans (by decide)
    | with_reducible first
      | exact ANX_STATUS_in | exact ANY_STATUS_in | exact LANE_STATUS_in | assumption | intro _
      | refine Keeps.of_eq (by with_reducible assumption) ?_ | apply State.forEach_keeps | apply State.putFld_keeps
      | apply Keeps.ite
    | split | (dsimp only; split)

theorem State.reviveLanes_keeps {k₀ : Nat} {s₀ s : State}
    (hm : Covers k₀ 0x20000000000000000000000000000000000000000000000000000000000000000000000000030000000000000000400102) (hs : Keeps k₀ s₀ s) :
    Keeps k₀ s₀ (State.reviveLanes s) := by
  unfold State.reviveLanes
  repeat' first
    | exact hm.trans (by decide)
    | with_reducible first
      | assumption | intro _ | refine Keeps.of_eq (by with_reducible assumption) ?_ | apply State.forEach_keeps
      | apply State.modLane_keeps | apply State.setLaneState_keeps | apply Keeps.ite
    | split | (dsimp only; split)

theorem State.nameMode_keeps {k₀ : Nat} {s₀ s : State} (t : Nat) (hm : Covers k₀ 0x18000000000000000000302)
    (hs : Keeps k₀ s₀ s) :
    Keeps k₀ s₀ (State.nameMode s t) := by
  unfold State.nameMode
  repeat' first
    | exact hm.trans (by decide)
    | with_reducible first
      | exact LANE_MODE_in | assumption | intro _ | refine Keeps.of_eq (by with_reducible assumption) ?_
      | apply State.forEach_keeps | apply State.modLane_keeps | apply State.modTriad_keeps | apply State.putFld_keeps
      | apply State.setTriad_keeps | apply State.setTriadState_keeps | apply Keeps.ite
    | split | (dsimp only; split)

theorem State.namedModes_keeps {k₀ : Nat} {s₀ s : State}
    (hm : Covers k₀ 0x20000000000000000000000000000000000000000000000000000000000000000000000000038000000000000000400302) (hs : Keeps k₀ s₀ s) :
    Keeps k₀ s₀ (State.namedModes s) := by
  unfold State.namedModes
  repeat' first
    | exact hm.trans (by decide)
    | with_reducible first
      | assumption | intro _ | refine Keeps.of_eq (by with_reducible assumption) ?_ | apply State.forEach_keeps
      | apply State.nameMode_keeps | apply State.reviveLanes_keeps | apply Keeps.ite
    | split | (dsimp only; split)

theorem State.initVariables_keeps {k₀ : Nat} {s₀ s : State} (n : Nat) (retained : Bool)
    (hm : Covers k₀ 0x200618a0000000000000000000000000000000000000000000000000000000000001a00a8180000000000000000041001a) (hs : Keeps k₀ s₀ s) :
    Keeps k₀ s₀ (State.initVariables s n retained) := by
  unfold State.initVariables
  repeat' first
    | exact hm.trans (by decide)
    | with_reducible first
      | assumption | intro _ | refine Keeps.of_eq (by with_reducible assumption) ?_ | apply State.forEach_keeps
      | apply State.writeRun_keeps | apply Keeps.ite
    | split | (dsimp only; split)

theorem State.reconcileWord_keeps {k₀ : Nat} {s₀ s : State} (n : Nat) (lanes : List Nat) (off : Nat)
    (hm : Covers k₀ 0x200618a000000000000000000000000000000000000000000000000000000000000000000000000000000000000041001a) (hs : Keeps k₀ s₀ s) :
    Keeps k₀ s₀ (State.reconcileWord s n lanes off).1 := by
  unfold State.reconcileWord
  repeat' first
    | exact hm.trans (by decide)
    | with_reducible first
      | assumption | intro _ | refine Keeps.of_eq (by with_reducible assumption) ?_ | apply State.evState_keeps
      | apply State.forEach_keeps | apply State.healUe_keeps | apply State.writeWord_keeps | apply Keeps.ite
    | split | (dsimp only; split)

theorem State.reconcileWords_keeps {k₀ : Nat} {s₀ s : State} (n : Nat) (lanes : List Nat) (y0 : List Nat)
    (hm : Covers k₀ 0x200618a000000000000000000000000000000000000000000000000000000000000000000000000000000000000041001a) (hs : Keeps k₀ s₀ s) :
    Keeps k₀ s₀ (State.reconcileWords s n lanes y0).1 := by
  fun_induction State.reconcileWords s n lanes y0
  all_goals
    repeat' first
      | exact hm.trans (by decide)
      | with_reducible first
        | assumption | intro _ | refine (‹Keeps _ _ _ → _› ?_) | refine Keeps.of_eq (by with_reducible assumption) ?_
        | apply State.reconcileWord_keeps | apply Keeps.ite
      | split | (dsimp only; split)

theorem State.reconcileTask_keeps {k₀ : Nat} {s₀ s : State} (n : Nat)
    (hm : Covers k₀ 0x200618a000000000000000000000000000000000000000000000000000000000000000000000000000000000000041001a) (hs : Keeps k₀ s₀ s) :
    Keeps k₀ s₀ (State.reconcileTask s n).1 := by
  unfold State.reconcileTask
  repeat' first
    | exact hm.trans (by decide)
    | with_reducible first
      | assumption | intro _ | refine Keeps.of_eq (by with_reducible assumption) ?_ | apply State.reconcileWords_keeps
      | apply Keeps.ite
    | split | (dsimp only; split)

theorem State.reconcileTasks_keeps {k₀ : Nat} {s₀ s : State} (y0 : List Nat)
    (hm : Covers k₀ 0x200618a0000000000000000000000000000000000000000000000000000000000001a00a8180000000000000000041001a) (hs : Keeps k₀ s₀ s) :
    Keeps k₀ s₀ (State.reconcileTasks s y0).1 := by
  fun_induction State.reconcileTasks s y0
  all_goals
    repeat' first
      | exact hm.trans (by decide)
      | with_reducible first
        | assumption | intro _ | refine (‹Keeps _ _ _ → _› ?_) | refine Keeps.of_eq (by with_reducible assumption) ?_
        | apply State.evState_keeps | apply State.initVariables_keeps | apply State.reconcileTask_keeps | apply Keeps.ite
      | split | (dsimp only; split)

theorem State.convertTask_keeps {k₀ : Nat} {s₀ s : State} (old : Program) (table : List Migration) (n : Nat)
    (was : TaskProg) (now : TaskProg) (l : Nat) (hm : Covers k₀ 0x200618a0000000000000000000000000000000000000000000000000000000000001a00a8180000000000000000041001a) (hs : Keeps k₀ s₀ s) :
    Keeps k₀ s₀ (State.convertTask s old table n was now l) := by
  unfold State.convertTask
  repeat' first
    | exact hm.trans (by decide)
    | with_reducible first
      | assumption | intro _ | refine Keeps.of_eq (by with_reducible assumption) ?_ | apply State.forEach_keeps
      | apply State.migrateEntry_keeps | apply State.writeRun_keeps | apply Keeps.ite
    | split | (dsimp only; split)

theorem State.convertRetained_keeps {k₀ : Nat} {s₀ s : State}
    (hm : Covers k₀ 0x200618a0000000000000000000000000000000000000000000000000000000000001a00a8180000000000000000041201a) (hs : Keeps k₀ s₀ s) :
    Keeps k₀ s₀ (State.convertRetained s) := by
  unfold State.convertRetained
  repeat' first
    | exact hm.trans (by decide)
    | with_reducible first
      | assumption | intro _ | refine Keeps.of_eq (by with_reducible assumption) ?_ | apply State.convertTask_keeps
      | apply State.forEach_keeps | apply State.setChange_keeps | apply Keeps.ite
    | split | (dsimp only; split)

theorem State.coldStart_keeps {k₀ : Nat} {s₀ s : State}
    (hm : Covers k₀ 0x200618a0000000000000000000000000000000000000000000000000000000000001a00a8180000000000000100043109a) (hs : Keeps k₀ s₀ s) :
    Keeps k₀ s₀ (State.coldStart s) := by
  unfold State.coldStart
  repeat' first
    | exact hm.trans (by decide)
    | with_reducible first
      | assumption | intro _ | refine Keeps.of_eq (by with_reducible assumption) ?_ | apply State.forEach_keeps
      | apply State.initVariables_keeps | apply State.keepForces_keeps | apply State.modTask_keeps | apply Keeps.ite
    | split | (dsimp only; split)

theorem State.restartVariables_keeps {k₀ : Nat} {s₀ s : State} (kind : RestartKind)
    (hm : Covers k₀ 0x200618a0000000000000000000000000000000000000000000000000000000000001a00a8180000000000000100043309a) (hs : Keeps k₀ s₀ s) :
    Keeps k₀ s₀ (State.restartVariables s kind) := by
  unfold State.restartVariables
  repeat' first
    | exact hm.trans (by decide)
    | with_reducible first
      | assumption | intro _ | refine Keeps.of_eq (by with_reducible assumption) ?_ | apply State.coldStart_keeps
      | apply State.convertRetained_keeps | apply State.forEach_keeps | apply State.initVariables_keeps
      | apply State.reconcileTasks_keeps | apply Keeps.ite
    | split | (dsimp only; split)

theorem State.restartJournal_keeps {k₀ : Nat} {s₀ s : State} (kind : RestartKind)
    (hm : Covers k₀ 0x200618a000000000000000000000000000138f0003d0000000000000000000000001a00a8180000000000000000243001a) (hs : Keeps k₀ s₀ s) :
    Keeps k₀ s₀ (State.restartJournal s kind) := by
  unfold State.restartJournal
  repeat' first
    | exact hm.trans (by decide)
    | with_reducible first
      | assumption | intro _ | refine Keeps.of_eq (by with_reducible assumption) ?_ | apply State.forEach_keeps
      | apply State.purgeJournal_keeps | apply State.replay_keeps | apply State.requeueRemote_keeps
      | apply State.showFailures_keeps | apply Keeps.ite
    | split | (dsimp only; split)

theorem State.restartTicks_keeps {k₀ : Nat} {s₀ s : State} (hm : Covers k₀ 0x8011800000008a2) (hs : Keeps k₀ s₀ s) :
    Keeps k₀ s₀ (State.restartTicks s) := by
  unfold State.restartTicks
  repeat' first
    | exact hm.trans (by decide)
    | with_reducible first
      | exact FRM_STATUS_in | assumption | intro _ | refine Keeps.of_eq (by with_reducible assumption) ?_
      | apply State.frmStart_keeps | apply State.frmStop_keeps | apply Keeps.ite
    | split | (dsimp only; split)

theorem State.loadTables_keeps {k₀ : Nat} {s₀ s : State}
    (hm : Covers k₀ 0x200618a0000000000000000000000000000000000000000000000000000000000001a00a8180000000000000000041003a) (hs : Keeps k₀ s₀ s) :
    Keeps k₀ s₀ (State.loadTables s) := by
  unfold State.loadTables
  repeat' first
    | exact hm.trans (by decide)
    | with_reducible first
      | assumption | intro _ | refine Keeps.of_eq (by with_reducible assumption) ?_ | apply State.forEach_keeps
      | apply State.loadTask_keeps | apply Keeps.ite
    | split | (dsimp only; split)

theorem State.restartSteps_keeps {k₀ : Nat} {s₀ s : State} (kind : RestartKind)
    (hm : Covers k₀ 0x200618a000000008402000400000000000138f0003d0000000000000000000000001a00a8183a8828828011810024f3fba) (hs : Keeps k₀ s₀ s) :
    Keeps k₀ s₀ (State.restartSteps s kind) := by
  unfold State.restartSteps
  repeat' first
    | exact hm.trans (by decide)
    | with_reducible first
      | assumption | intro _ | refine Keeps.of_eq (by with_reducible assumption) ?_ | apply State.clearFaults_keeps
      | apply State.clearLoops_keeps | apply State.clearOutputs_keeps | apply State.forEach_keeps
      | apply State.loadTables_keeps | apply State.modModes_keeps | apply State.modTask_keeps
      | apply State.modTriad_keeps | apply State.namedModes_keeps | apply State.restartGuards_keeps
      | apply State.restartJournal_keeps | apply State.restartTicks_keeps | apply State.restartVariables_keeps
      | apply State.startTask_keeps | apply State.when_keeps | apply Keeps.ite
    | split | (dsimp only; split) | with_reducible apply Keeps.mk_anvils

theorem execProgramRestart_keeps {k₀ : Nat} {s₀ s : State}
    (hm : Covers k₀ 0x200618a000000008402000400000040016138f0003d0000000000000000000000001a00a8183a8828828011950024f3fba) (hs : Keeps k₀ s₀ s) :
    Outcome.Keeps k₀ s₀ (execProgramRestart s) := by
  unfold execProgramRestart
  repeat' first
    | exact hm.trans (by decide)
    | with_reducible first
      | assumption | intro _ | refine Keeps.of_eq (by with_reducible assumption) ?_ | apply State.restartBegin_keeps
      | apply State.restartSteps_keeps | apply Keeps.ite | apply Outcome.keeps_next
    | split | (dsimp only; split)

/-! ### Machine/Coupler.lean -/

theorem State.modCpl_keeps {k₀ : Nat} {s₀ s : State} (g : Cpl → Cpl) (hm : Covers k₀ 0x20000) (hs : Keeps k₀ s₀ s) :
    Keeps k₀ s₀ (State.modCpl s g) := by
  unfold State.modCpl
  repeat' first
    | exact hm.trans (by decide)
    | with_reducible first
      | assumption | intro _ | refine Keeps.of_eq (by with_reducible assumption) ?_ | apply Keeps.ite
    | split | (dsimp only; split) | with_reducible apply Keeps.mk_cpl

theorem State.evTakeover_keeps {k₀ : Nat} {s₀ s : State}
    (hm : Covers k₀ 0x200618a0000000000000000000000000000000000000000000000000000000000000000000000000000000000000410002) (hs : Keeps k₀ s₀ s) :
    Keeps k₀ s₀ (State.evTakeover s) := by
  unfold State.evTakeover
  repeat' first
    | exact hm.trans (by decide)
    | with_reducible first
      | assumption | intro _ | refine Keeps.of_eq (by with_reducible assumption) ?_ | apply State.event_keeps
      | apply Keeps.ite
    | split | (dsimp only; split)

theorem State.evPairRefused_keeps {k₀ : Nat} {s₀ s : State} (code : Nat)
    (hm : Covers k₀ 0x200618a0000000000000000000000000000000000000000000000000000000000000000000000000000000000000410002) (hs : Keeps k₀ s₀ s) :
    Keeps k₀ s₀ (State.evPairRefused s code) := by
  unfold State.evPairRefused
  repeat' first
    | exact hm.trans (by decide)
    | with_reducible first
      | assumption | intro _ | refine Keeps.of_eq (by with_reducible assumption) ?_ | apply State.event_keeps
      | apply Keeps.ite
    | split | (dsimp only; split)

theorem State.evLinkDown_keeps {k₀ : Nat} {s₀ s : State} (link : Nat)
    (hm : Covers k₀ 0x200618a0000000000000000000000000000000000000000000000000000000000000000000000000000000000000410002) (hs : Keeps k₀ s₀ s) :
    Keeps k₀ s₀ (State.evLinkDown s link) := by
  unfold State.evLinkDown
  repeat' first
    | exact hm.trans (by decide)
    | with_reducible first
      | assumption | intro _ | refine Keeps.of_eq (by with_reducible assumption) ?_ | apply State.event_keeps
      | apply Keeps.ite
    | split | (dsimp only; split)

theorem State.evRecordLate_keeps {k₀ : Nat} {s₀ s : State} (frame : Nat)
    (hm : Covers k₀ 0x200618a0000000000000000000000000000000000000000000000000000000000000000000000000000000000000410002) (hs : Keeps k₀ s₀ s) :
    Keeps k₀ s₀ (State.evRecordLate s frame) := by
  unfold State.evRecordLate
  repeat' first
    | exact hm.trans (by decide)
    | with_reducible first
      | assumption | intro _ | refine Keeps.of_eq (by with_reducible assumption) ?_ | apply State.event_keeps
      | apply Keeps.ite
    | split | (dsimp only; split)

theorem State.setPstate_keeps {k₀ : Nat} {s₀ s : State} (v : Nat)
    (hm : Covers k₀ 0x200618a0000000000000000000020000000000000000000000000000000000000000000000000000000000000000430022) (hs : Keeps k₀ s₀ s) :
    Keeps k₀ s₀ (State.setPstate s v) := by
  unfold State.setPstate
  repeat' first
    | exact hm.trans (by decide)
    | with_reducible first
      | exact CPL_STATE_in | assumption | intro _ | refine Keeps.of_eq (by with_reducible assumption) ?_
      | apply State.evState_keeps | apply State.irq_keeps | apply State.modCpl_keeps | apply State.putFld_keeps
      | apply Keeps.ite
    | split | (dsimp only; split)

theorem State.inPair_keeps {k₀ : Nat} {s₀ s : State} (f : State → State) (hs : Keeps k₀ s₀ s)
    (hf : ∀ x0, Keeps k₀ s₀ x0 → Keeps k₀ s₀ (f x0)) :
    Keeps k₀ s₀ (State.inPair s f) := by
  unfold State.inPair
  repeat' first
    | with_reducible first
      | assumption | intro _ | apply hf | refine Keeps.of_eq (by with_reducible assumption) ?_ | apply Keeps.ite
    | split | (dsimp only; split)

theorem State.pump_keeps {k₀ : Nat} {s₀ s : State} (hm : Covers k₀ 0x8020000) (hs : Keeps k₀ s₀ s) :
    Keeps k₀ s₀ (State.pump s) := by
  unfold State.pump
  repeat' first
    | exact hm.trans (by decide)
    | with_reducible first
      | assumption | intro _ | refine Keeps.of_eq (by with_reducible assumption) ?_ | apply State.forEach_keeps
      | apply State.modCpl_keeps | apply State.send_keeps | apply Keeps.ite
    | split | (dsimp only; split)

theorem State.itemsSeen_keeps {k₀ : Nat} {s₀ s : State} (l : List ItemRead)
    (hm : Covers k₀ 0x200618a0000000000000000000000000000000000000000000000000000000000001a00a81800000000000000010418002) (hs : Keeps k₀ s₀ s) :
    Keeps k₀ s₀ (State.itemsSeen s l) := by
  unfold State.itemsSeen
  repeat' first
    | exact hm.trans (by decide)
    | with_reducible first
      | assumption | intro _ | refine Keeps.of_eq (by with_reducible assumption) ?_ | apply State.forEach_keeps
      | apply State.unitAddr_keeps | apply Keeps.ite
    | split | (dsimp only; split)

theorem State.closeRecord_keeps {k₀ : Nat} {s₀ s : State}
    (hm : Covers k₀ 0x200618a0000000000000000000000000000000000000000000000000000000000001a00a81800000000000000018438002) (hs : Keeps k₀ s₀ s) :
    Keeps k₀ s₀ (State.closeRecord s) := by
  unfold State.closeRecord
  repeat' first
    | exact hm.trans (by decide)
    | with_reducible first
      | assumption | intro _ | refine Keeps.of_eq (by with_reducible assumption) ?_ | apply State.itemsSeen_keeps
      | apply State.modCpl_keeps | apply State.pump_keeps | apply State.tickFree_keeps | apply Keeps.ite
    | split | (dsimp only; split)

theorem State.copySent_keeps {k₀ : Nat} {s₀ s : State} (full : Bool)
    (hm : Covers k₀ 0x200618a0000000000000000000000000000000000000000000000000000000000001a00a81800000000000000018438002) (hs : Keeps k₀ s₀ s) :
    Keeps k₀ s₀ (State.copySent s full) := by
  unfold State.copySent
  repeat' first
    | exact hm.trans (by decide)
    | with_reducible first
      | assumption | intro _ | refine Keeps.of_eq (by with_reducible assumption) ?_ | apply State.forEach_keeps
      | apply State.itemsSeen_keeps | apply State.modCpl_keeps | apply State.pump_keeps | apply State.send_keeps
      | apply Keeps.ite
    | split | (dsimp only; split)

theorem execCopyPacketsSent_keeps {k₀ : Nat} {s₀ s : State} (full : Bool)
    (hm : Covers k₀ 0x200618a0000000000000000000000000000000000000000000000000000000000001a00a81800000000000000018438002) (hs : Keeps k₀ s₀ s) :
    Outcome.Keeps k₀ s₀ (execCopyPacketsSent full s) := by
  unfold execCopyPacketsSent
  repeat' first
    | exact hm.trans (by decide)
    | with_reducible first
      | assumption | intro _ | refine Keeps.of_eq (by with_reducible assumption) ?_ | apply State.copySent_keeps
      | apply State.inPair_keeps | apply Keeps.ite | apply Outcome.keeps_next
    | split | (dsimp only; split)

theorem State.packetIn_keeps {k₀ : Nat} {s₀ s : State} (p : PairHead) (f : State → State)
    (hm : Covers k₀ 0x4804000000000000000000000000000000000000000000000000000000000000000000002) (hs : Keeps k₀ s₀ s) (hf : ∀ x0, Keeps k₀ s₀ x0 → Keeps k₀ s₀ (f x0)) :
    Keeps k₀ s₀ (State.packetIn s p f) := by
  unfold State.packetIn
  repeat' first
    | exact hm.trans (by decide)
    | with_reducible first
      | exact CPL_PKTERR_in | exact CPL_STALE_CNT_in | exact CPL_STATUS_in | assumption | intro _ | apply hf
      | refine Keeps.of_eq (by with_reducible assumption) ?_ | apply State.bump_keeps | apply State.flag_keeps
      | apply State.inPair_keeps | apply Keeps.ite
    | split | (dsimp only; split)

theorem State.becomeReady_keeps {k₀ : Nat} {s₀ s : State}
    (hm : Covers k₀ 0x200618a0000000000000000000020000000000000000000000000000000000000000000000000000000000000000431022) (hs : Keeps k₀ s₀ s) :
    Keeps k₀ s₀ (State.becomeReady s) := by
  unfold State.becomeReady
  repeat' first
    | exact hm.trans (by decide)
    | with_reducible first
      | assumption | intro _ | refine Keeps.of_eq (by with_reducible assumption) ?_ | apply State.modModes_keeps
      | apply State.setPstate_keeps | apply Keeps.ite
    | split | (dsimp only; split)

theorem State.applyLine_keeps {k₀ : Nat} {s₀ s : State} (retained : Bool) (off : Nat) (data : List Byte)
    (hm : Covers k₀ 0x200618a0000000000000000000000000000000000000000000000000000000000001a00a8180000000000000001041801a) (hs : Keeps k₀ s₀ s) :
    Keeps k₀ s₀ (State.applyLine s retained off data) := by
  unfold State.applyLine
  repeat' first
    | exact hm.trans (by decide)
    | with_reducible first
      | assumption | intro _ | refine Keeps.of_eq (by with_reducible assumption) ?_ | apply State.forEach_keeps
      | apply State.unitWrite_keeps | apply Keeps.ite
    | split | (dsimp only; split)

theorem State.applyTask_keeps {k₀ : Nat} {s₀ s : State} (n : Nat) (k : PairTask)
    (hm : Covers k₀ 0x800800800000000000082) (hs : Keeps k₀ s₀ s) :
    Keeps k₀ s₀ (State.applyTask s n k) := by
  unfold State.applyTask
  repeat' first
    | exact hm.trans (by decide)
    | with_reducible first
      | exact FRM_TSTAT_in | assumption | intro _ | refine Keeps.of_eq (by with_reducible assumption) ?_
      | apply State.modTask_keeps | apply State.putFld_keeps | apply State.setEpochs_keeps | apply Keeps.ite
    | split | (dsimp only; split)

theorem State.applyBridge_keeps {k₀ : Nat} {s₀ s : State} (ch : Nat) (fs : List Failure) (full : Bool) (fenced : List
    (Nat × Nat)) (reads : List PairRead) (hm : Covers k₀ 0x1c0000000000000000000000000000000000000000000000002020002) (hs : Keeps k₀ s₀ s) :
    Keeps k₀ s₀ (State.applyBridge s ch fs full fenced reads) := by
  unfold State.applyBridge
  repeat' first
    | exact hm.trans (by decide)
    | with_reducible first
      | assumption | intro _ | refine Keeps.of_eq (by with_reducible assumption) ?_ | apply State.forEach_keeps
      | apply State.modBridge_keeps | apply State.modLap_keeps | apply State.modStream_keeps
      | apply State.showFailures_keeps | apply Keeps.ite
    | split | (dsimp only; split)

theorem State.applyChg_keeps {k₀ : Nat} {s₀ s : State} (v : Word)
    (hm : Covers k₀ 0x30000000000000000000000000000000000000000000000000000000000000000000000000000000000000001000040200a) (hs : Keeps k₀ s₀ s) :
    Keeps k₀ s₀ (State.applyChg s v) := by
  unfold State.applyChg
  repeat' first
    | exact hm.trans (by decide)
    | with_reducible first
      | exact SYS_CHG_in | assumption | intro _ | refine Keeps.of_eq (by with_reducible assumption) ?_
      | apply State.commitProgram_keeps | apply State.dropPackage_keeps | apply State.putFld_keeps
      | apply State.setChg_keeps | apply Keeps.ite
    | split | (dsimp only; split)

theorem State.applyPackage_keeps {k₀ : Nat} {s₀ s : State} (p : Package)
    (hm : Covers k₀ 0x1200618a000000000000000000000000000000000000000000000000000000000000000000000000000000001000043200a) (hs : Keeps k₀ s₀ s) :
    Keeps k₀ s₀ (State.applyPackage s p) := by
  unfold State.applyPackage
  repeat' first
    | exact hm.trans (by decide)
    | with_reducible first
      | assumption | intro _ | refine Keeps.of_eq (by with_reducible assumption) ?_ | apply State.takePackage_keeps
      | apply Keeps.ite
    | split | (dsimp only; split)

theorem State.applySwitch_keeps {k₀ : Nat} {s₀ s : State} (tick : Nat)
    (hm : Covers k₀ 0x200618a0000000000000000000000000000000000000000000000000000000000001a00a818008808808000100004320fa) (hs : Keeps k₀ s₀ s) :
    Keeps k₀ s₀ (State.applySwitch s tick) := by
  unfold State.applySwitch
  repeat' first
    | exact hm.trans (by decide)
    | with_reducible first
      | assumption | intro _ | refine Keeps.of_eq (by with_reducible assumption) ?_ | apply State.setChange_keeps
      | apply State.switchNow_keeps | apply State.when_keeps | apply Keeps.ite
    | split | (dsimp only; split)

theorem State.applyMailbox_keeps {k₀ : Nat} {s₀ s : State} (c : Nat) (ws : List Word)
    (hm : Covers k₀ 0xffffffffffffffffffffffffffffffffffffffffffffffffffffffffffffffffffffffffffffffffffffffffffffff00020022) (hs : Keeps k₀ s₀ s) :
    Keeps k₀ s₀ (State.applyMailbox s c ws) := by
  unfold State.applyMailbox
  repeat' first
    | exact hm.trans (by decide)
    | with_reducible first
      | exact inRows_all | assumption | intro _ | refine Keeps.of_eq (by with_reducible assumption) ?_
      | apply State.forEach_keeps | apply State.setMbxState_keeps | apply State.setReg_keeps | apply Keeps.ite
    | split | (dsimp only; split)

theorem State.applyRegister_keeps {k₀ : Nat} {s₀ s : State} (a : Nat) (v : Word)
    (hm : Covers k₀ 0xffffffffffffffffffffffffffffffffffffffffffffffffffffffffffffffffffffffffffffffffffffffffffffff0240200e) (hs : Keeps k₀ s₀ s) :
    Keeps k₀ s₀ (State.applyRegister s a v) := by
  unfold State.applyRegister
  repeat' first
    | exact hm.trans (by decide)
    | with_reducible first
      | exact SYS_CHG_in | exact inRows_all | assumption | intro _
      | refine Keeps.of_eq (by with_reducible assumption) ?_ | apply State.applyChg_keeps | apply State.loadReg_keeps
      | apply State.loadSmap_keeps | apply State.setReg_keeps | apply Keeps.ite
    | split | (dsimp only; split) | with_reducible apply Keeps.mk_bridge

theorem State.applyItem_keeps {k₀ : Nat} {s₀ s : State} (y0 : PairItem) (hm : Covers k₀ 0xffffffffffffffffffffffffffffffffffffffffffffffffffffffffffffffffffffffffffffffffffffffffffffff12c3b0fe) (hs : Keeps k₀ s₀ s) :
    Keeps k₀ s₀ (State.applyItem s y0) := by
  have H {k : Nat} (h : Covers 0xffffffffffffffffffffffffffffffffffffffffffffffffffffffffffffffffffffffffffffffffffffffffffffff12c3b0fe k) : Covers k₀ k := hm.trans h
  cases y0 with
  | voted n off data =>
    show Keeps k₀ s₀ ((s.taskProg n).elim s fun p => s.unitWrite couplerCtx (p.votedCopy + off) data)
    cases s.taskProg n with
    | none => exact hs
    | some p => exact State.unitWrite_keeps _ _ _ (H (by decide +kernel)) hs
  | line retained off data => exact State.applyLine_keeps _ _ _ (H (by decide +kernel)) hs
  | task n k => exact State.applyTask_keeps _ _ (H (by decide +kernel)) hs
  | purge =>
    dsimp only [State.applyItem]
    exact State.purgeJournal_keeps (H (by decide +kernel)) hs
  | bridge ch fs full fenced reads => exact State.applyBridge_keeps _ _ _ _ _ (H (by decide +kernel)) hs
  | forces l => exact State.keepForces_keeps _ (H (by decide +kernel)) hs
  | _ =>
    dsimp only [State.applyItem]
    repeat' first
      | exact hm.trans (by decide)
      | with_reducible first
        | exact SOP_BREAK_in | assumption | intro _ | apply State.unitWrite_keeps | apply State.modBridge_keeps
        | apply State.forEach_keeps | apply State.setReg_keeps | apply State.setSta_keeps | apply State.modRing_keeps
        | apply State.applyMailbox_keeps | apply State.applyRegister_keeps | apply State.applyPackage_keeps
        | apply State.applySwitch_keeps

theorem State.applyItems_keeps {k₀ : Nat} {s₀ s : State} (l : List PairItem)
    (hm : Covers k₀ 0xffffffffffffffffffffffffffffffffffffffffffffffffffffffffffffffffffffffffffffffffffffffffffffff12c3b0fe) (hs : Keeps k₀ s₀ s) :
    Keeps k₀ s₀ (State.applyItems s l) := by
  unfold State.applyItems
  repeat' first
    | exact hm.trans (by decide)
    | with_reducible first
      | assumption | intro _ | refine Keeps.of_eq (by with_reducible assumption) ?_ | apply State.applyItem_keeps
      | apply State.forEach_keeps | apply Keeps.ite
    | split | (dsimp only; split)

theorem State.applyStaged_keeps {k₀ : Nat} {s₀ s : State}
    (hm : Covers k₀ 0xffffffffffffffffffffffffffffffffffffffffffffffffffffffffffffffffffffffffffffffffffffffffffffff12c3b0fe) (hs : Keeps k₀ s₀ s) :
    Keeps k₀ s₀ (State.applyStaged s) := by
  unfold State.applyStaged
  repeat' first
    | exact hm.trans (by decide)
    | with_reducible first
      | exact CPL_APPLIED_in | assumption | intro _ | refine Keeps.of_eq (by with_reducible assumption) ?_
      | apply State.applyItems_keeps | apply State.modCpl_keeps | apply State.setReg_keeps | apply Keeps.ite
    | split | (dsimp only; split)

theorem State.checkReady_keeps {k₀ : Nat} {s₀ s : State}
    (hm : Covers k₀ 0xffffffffffffffffffffffffffffffffffffffffffffffffffffffffffffffffffffffffffffffffffffffffffffff12c3b0fe) (hs : Keeps k₀ s₀ s) :
    Keeps k₀ s₀ (State.checkReady s) := by
  unfold State.checkReady
  repeat' first
    | exact hm.trans (by decide)
    | with_reducible first
      | assumption | intro _ | refine Keeps.of_eq (by with_reducible assumption) ?_ | apply State.applyStaged_keeps
      | apply State.setPstate_keeps | apply Keeps.ite
    | split | (dsimp only; split)

theorem execDataPacket_keeps {k₀ : Nat} {s₀ s : State} (p : PairHead) (items : List PairItem)
    (hm : Covers k₀ 0xffffffffffffffffffffffffffffffffffffffffffffffffffffffffffffffffffffffffffffffffffffffffffffff12c3b0fe) (hs : Keeps k₀ s₀ s) :
    Outcome.Keeps k₀ s₀ (execDataPacket p items s) := by
  unfold execDataPacket
  repeat' first
    | exact hm.trans (by decide)
    | with_reducible first
      | assumption | intro _ | refine Keeps.of_eq (by with_reducible assumption) ?_ | apply State.applyItems_keeps
      | apply State.modCpl_keeps | apply State.packetIn_keeps | apply Keeps.ite | apply Outcome.keeps_next
    | split | (dsimp only; split)

theorem execMarker_keeps {k₀ : Nat} {s₀ s : State} (p : PairHead) (count : Nat) (fullDone : Bool)
    (hm : Covers k₀ 0x200618a0000000000000000004a24000000000000000000000000000000000000000000000000000000000000008431022) (hs : Keeps k₀ s₀ s) :
    Outcome.Keeps k₀ s₀ (execMarker p count fullDone s) := by
  unfold execMarker
  repeat' first
    | exact hm.trans (by decide)
    | with_reducible first
      | exact CPL_APPLIED_in | assumption | intro _ | refine Keeps.of_eq (by with_reducible assumption) ?_
      | apply State.becomeReady_keeps | apply State.modCpl_keeps | apply State.packetIn_keeps | apply State.send_keeps
      | apply State.setReg_keeps | apply Keeps.ite | apply Outcome.keeps_next
    | split | (dsimp only; split)

theorem execRecordApply_keeps {k₀ : Nat} {s₀ s : State}
    (hm : Covers k₀ 0xffffffffffffffffffffffffffffffffffffffffffffffffffffffffffffffffffffffffffffffffffffffffffffff12c3b0fe) (hs : Keeps k₀ s₀ s) :
    Outcome.Keeps k₀ s₀ (execRecordApply s) := by
  unfold execRecordApply
  repeat' first
    | exact hm.trans (by decide)
    | with_reducible first
      | exact CPL_APPLIED_in | assumption | intro _ | refine Keeps.of_eq (by with_reducible assumption) ?_
      | apply State.applyItems_keeps | apply State.checkReady_keeps | apply State.inPair_keeps
      | apply State.modCpl_keeps | apply State.setReg_keeps | apply Keeps.ite | apply Outcome.keeps_next
    | split | (dsimp only; split)

theorem State.recordComplete_keeps {k₀ : Nat} {s₀ s : State} (frame : Nat) (ready : Bool)
    (hm : Covers k₀ 0x200618a0000000000000000000180000000202000000000000000000000000000001a00a8180000000000000000243001a) (hs : Keeps k₀ s₀ s) :
    Keeps k₀ s₀ (State.recordComplete s frame ready) := by
  unfold State.recordComplete
  repeat' first
    | exact hm.trans (by decide)
    | with_reducible first
      | exact CPL_COPYLAST_in | exact CPL_COPYMAX_in | assumption | intro _
      | refine Keeps.of_eq (by with_reducible assumption) ?_ | apply State.commitLines_keeps | apply State.modCpl_keeps
      | apply State.setReg_keeps | apply Keeps.ite
    | split | (dsimp only; split)

theorem execCouplerAck_keeps {k₀ : Nat} {s₀ s : State} (p : PairHead) (missing : List Nat) (ready : Bool)
    (hm : Covers k₀ 0x200618a0000000000000000004984000000202000000000000000000000000000001a00a8180000000000000000a43001a) (hs : Keeps k₀ s₀ s) :
    Outcome.Keeps k₀ s₀ (execCouplerAck p missing ready s) := by
  unfold execCouplerAck
  repeat' first
    | exact hm.trans (by decide)
    | with_reducible first
      | assumption | intro _ | refine Keeps.of_eq (by with_reducible assumption) ?_ | apply State.modCpl_keeps
      | apply State.packetIn_keeps | apply State.pump_keeps | apply State.recordComplete_keeps | apply Keeps.ite
      | apply Outcome.keeps_next
    | split | (dsimp only; split)

theorem State.recordLate_keeps {k₀ : Nat} {s₀ s : State}
    (hm : Covers k₀ 0x200618a0000000000000000002024000000000000000000000000000000000000000000000000000000000000000430022) (hs : Keeps k₀ s₀ s) :
    Keeps k₀ s₀ (State.recordLate s) := by
  unfold State.recordLate
  repeat' first
    | exact hm.trans (by decide)
    | with_reducible first
      | exact CPL_COPYLATE_in | exact CPL_STATUS_in | assumption | intro _
      | refine Keeps.of_eq (by with_reducible assumption) ?_ | apply State.bump_keeps | apply State.evRecordLate_keeps
      | apply State.flag_keeps | apply State.modCpl_keeps | apply State.setPstate_keeps | apply Keeps.ite
    | split | (dsimp only; split)

theorem execRecordLate_keeps {k₀ : Nat} {s₀ s : State}
    (hm : Covers k₀ 0x200618a0000000000000000002024000000000000000000000000000000000000000000000000000000000000000430022) (hs : Keeps k₀ s₀ s) :
    Outcome.Keeps k₀ s₀ (execRecordLate s) := by
  unfold execRecordLate
  repeat' first
    | exact hm.trans (by decide)
    | with_reducible first
      | assumption | intro _ | refine Keeps.of_eq (by with_reducible assumption) ?_ | apply State.inPair_keeps
      | apply State.recordLate_keeps | apply Keeps.ite | apply Outcome.keeps_next
    | split | (dsimp only; split)

theorem execCouplerLinkUp_keeps {k₀ : Nat} {s₀ s : State} (link : Fin 4)
    (hm : Covers k₀ 0x20000000000000000000000000000000000000000000000000000000000000008020002) (hs : Keeps k₀ s₀ s) :
    Outcome.Keeps k₀ s₀ (execCouplerLinkUp link s) := by
  unfold execCouplerLinkUp
  repeat' first
    | exact hm.trans (by decide)
    | with_reducible first
      | exact CPL_STATE_in | assumption | intro _ | refine Keeps.of_eq (by with_reducible assumption) ?_
      | apply State.inPair_keeps | apply State.modCpl_keeps | apply State.pump_keeps | apply State.putFld_keeps
      | apply State.send_keeps | apply Keeps.ite | apply Outcome.keeps_next
    | split | (dsimp only; split)

theorem execCouplerLinkDown_keeps {k₀ : Nat} {s₀ s : State} (link : Fin 4)
    (hm : Covers k₀ 0x200618a000000000000000004102400000000000080000000000000000110000000000000000000000000000000c430022) (hs : Keeps k₀ s₀ s) :
    Outcome.Keeps k₀ s₀ (execCouplerLinkDown link s) := by
  unfold execCouplerLinkDown
  repeat' first
    | exact hm.trans (by decide)
    | with_reducible first
      | exact CPL_HBLOSS_in | exact CPL_STATE_in | exact CPL_STATUS_in | assumption | intro _
      | refine Keeps.of_eq (by with_reducible assumption) ?_ | apply State.bump_keeps | apply State.emptyQueue_keeps
      | apply State.evLinkDown_keeps | apply State.flag_keeps | apply State.inPair_keeps | apply State.irq_keeps
      | apply State.modCpl_keeps | apply State.pump_keeps | apply State.putFld_keeps | apply Keeps.ite
      | apply Outcome.keeps_next
    | split | (dsimp only; split)

theorem execPauseWord_keeps {k₀ : Nat} {s₀ s : State} (link : Fin 4) (hm : Covers k₀ 0x20000) (hs : Keeps k₀ s₀ s) :
    Outcome.Keeps k₀ s₀ (execPauseWord link s) := by
  unfold execPauseWord
  repeat' first
    | exact hm.trans (by decide)
    | with_reducible first
      | assumption | intro _ | refine Keeps.of_eq (by with_reducible assumption) ?_ | apply State.inPair_keeps
      | apply State.modCpl_keeps | apply Keeps.ite | apply Outcome.keeps_next
    | split | (dsimp only; split)

theorem execResumeWord_keeps {k₀ : Nat} {s₀ s : State} (link : Fin 4) (hm : Covers k₀ 0x8020000) (hs : Keeps k₀ s₀ s) :
    Outcome.Keeps k₀ s₀ (execResumeWord link s) := by
  unfold execResumeWord
  repeat' first
    | exact hm.trans (by decide)
    | with_reducible first
      | assumption | intro _ | refine Keeps.of_eq (by with_reducible assumption) ?_ | apply State.inPair_keeps
      | apply State.modCpl_keeps | apply State.pump_keeps | apply Keeps.ite | apply Outcome.keeps_next
    | split | (dsimp only; split)

theorem execHeartbeat_keeps {k₀ : Nat} {s₀ s : State} (link : Fin 4) (_fcnt : Word) (pstate : BitVec 2) (offset : Int)
    (hm : Covers k₀ 0xffffffffffffffffffffffffffffffffffffffffffffffffffffffffffffffffffffffffffffffffffffffffffffff12c3b0fe) (hs : Keeps k₀ s₀ s) :
    Outcome.Keeps k₀ s₀ (execHeartbeat link _fcnt pstate offset s) := by
  unfold execHeartbeat
  repeat' first
    | exact hm.trans (by decide)
    | with_reducible first
      | exact CPL_STATE_in | assumption | intro _ | refine Keeps.of_eq (by with_reducible assumption) ?_
      | apply State.checkReady_keeps | apply State.inPair_keeps | apply State.modCpl_keeps | apply Keeps.ite
      | apply Outcome.keeps_next
    | split | (dsimp only; split)

theorem execHeartbeatSend_keeps {k₀ : Nat} {s₀ s : State} (hm : Covers k₀ 0x8000000) (hs : Keeps k₀ s₀ s) :
    Outcome.Keeps k₀ s₀ (execHeartbeatSend s) := by
  unfold execHeartbeatSend
  repeat' first
    | exact hm.trans (by decide)
    | with_reducible first
      | assumption | intro _ | refine Keeps.of_eq (by with_reducible assumption) ?_ | apply State.forEach_keeps
      | apply State.inPair_keeps | apply State.send_keeps | apply Keeps.ite | apply Outcome.keeps_next
    | split | (dsimp only; split)

theorem State.pairUp_keeps {k₀ : Nat} {s₀ s : State}
    (hm : Covers k₀ 0x200618a0000000000000000000020000000000000000000000000000000000000000000000000000000000000000430022) (hs : Keeps k₀ s₀ s) :
    Keeps k₀ s₀ (State.pairUp s) := by
  unfold State.pairUp
  repeat' first
    | exact hm.trans (by decide)
    | with_reducible first
      | assumption | intro _ | refine Keeps.of_eq (by with_reducible assumption) ?_ | apply State.modCpl_keeps
      | apply State.setPstate_keeps | apply Keeps.ite
    | split | (dsimp only; split)

theorem State.checkPairing_keeps {k₀ : Nat} {s₀ s : State} (cap : CapWord)
    (hm : Covers k₀ 0x200618a0000000000000000000024000000000000000000000000000000000000000000000000000000000000000430022) (hs : Keeps k₀ s₀ s) :
    Keeps k₀ s₀ (State.checkPairing s cap) := by
  unfold State.checkPairing
  repeat' first
    | exact hm.trans (by decide)
    | with_reducible first
      | exact CPL_STATE_in | exact CPL_STATUS_in | assumption | intro _
      | refine Keeps.of_eq (by with_reducible assumption) ?_ | apply State.evPairRefused_keeps | apply State.flag_keeps
      | apply State.modCpl_keeps | apply State.pairUp_keeps | apply State.putFld_keeps | apply State.setPstate_keeps
      | apply Keeps.ite
    | split | (dsimp only; split)

theorem execCapPacket_keeps {k₀ : Nat} {s₀ s : State} (p : PairHead) (cap : CapWord)
    (hm : Covers k₀ 0x200618a0000000000000000004024000000000000000000000000000000000000000000000000000000000000000430022) (hs : Keeps k₀ s₀ s) :
    Outcome.Keeps k₀ s₀ (execCapPacket p cap s) := by
  unfold execCapPacket
  repeat' first
    | exact hm.trans (by decide)
    | with_reducible first
      | exact CPL_PKTERR_in | exact CPL_STATE_in | assumption | intro _
      | refine Keeps.of_eq (by with_reducible assumption) ?_ | apply State.bump_keeps | apply State.checkPairing_keeps
      | apply State.inPair_keeps | apply State.modCpl_keeps | apply State.putFld_keeps | apply Keeps.ite
      | apply Outcome.keeps_next
    | split | (dsimp only; split)

theorem State.capTick_keeps {k₀ : Nat} {s₀ s : State}
    (hm : Covers k₀ 0x200618a0000000000000000000024000000000000000000000000000000000000000000000000000000000000008430022) (hs : Keeps k₀ s₀ s) :
    Keeps k₀ s₀ (State.capTick s) := by
  unfold State.capTick
  repeat' first
    | exact hm.trans (by decide)
    | with_reducible first
      | assumption | intro _ | refine Keeps.of_eq (by with_reducible assumption) ?_ | apply State.checkPairing_keeps
      | apply State.modCpl_keeps | apply State.send_keeps | apply Keeps.ite
    | split | (dsimp only; split)

theorem execPairingTimeout_keeps {k₀ : Nat} {s₀ s : State}
    (hm : Covers k₀ 0x200618a0000000000000000000000000000000000000000000000000000000000000000000000000000000000000430002) (hs : Keeps k₀ s₀ s) :
    Outcome.Keeps k₀ s₀ (execPairingTimeout s) := by
  unfold execPairingTimeout
  repeat' first
    | exact hm.trans (by decide)
    | with_reducible first
      | assumption | intro _ | refine Keeps.of_eq (by with_reducible assumption) ?_ | apply State.evState_keeps
      | apply State.inPair_keeps | apply State.modCpl_keeps | apply Keeps.ite | apply Outcome.keeps_next
    | split | (dsimp only; split)

theorem State.sendHealth_keeps {k₀ : Nat} {s₀ s : State} (hm : Covers k₀ 0x8020000) (hs : Keeps k₀ s₀ s) :
    Keeps k₀ s₀ (State.sendHealth s) := by
  unfold State.sendHealth
  repeat' first
    | exact hm.trans (by decide)
    | with_reducible first
      | assumption | intro _ | refine Keeps.of_eq (by with_reducible assumption) ?_ | apply State.modCpl_keeps
      | apply State.send_keeps | apply Keeps.ite
    | split | (dsimp only; split)

theorem execHealthPacket_keeps {k₀ : Nat} {s₀ s : State} (p : PairHead) (h : PairHealth)
    (hm : Covers k₀ 0x200618a0000000000000000004824000000000000000000000000000000000000000000000000000000000000000430022) (hs : Keeps k₀ s₀ s) :
    Outcome.Keeps k₀ s₀ (execHealthPacket p h s) := by
  unfold execHealthPacket
  repeat' first
    | exact hm.trans (by decide)
    | with_reducible first
      | exact CPL_STATE_in | assumption | intro _ | refine Keeps.of_eq (by with_reducible assumption) ?_
      | apply State.inPair_keeps | apply State.irq_keeps | apply State.modCpl_keeps | apply State.packetIn_keeps
      | apply State.pairUp_keeps | apply State.putFld_keeps | apply Keeps.ite | apply Outcome.keeps_next
    | split | (dsimp only; split)

theorem State.driveRings_keeps {k₀ : Nat} {s₀ s : State} (hm : Covers k₀ 0x40000000000000000000000000000002)
    (hs : Keeps k₀ s₀ s) :
    Keeps k₀ s₀ (State.driveRings s) := by
  unfold State.driveRings
  repeat' first
    | exact hm.trans (by decide)
    | with_reducible first
      | exact SOP_CTRL_in | assumption | intro _ | refine Keeps.of_eq (by with_reducible assumption) ?_
      | apply State.forEach_keeps | apply State.putFld_keeps | apply Keeps.ite
    | split | (dsimp only; split)

theorem State.abandonScan_keeps {k₀ : Nat} {s₀ s : State}
    (hm : Covers k₀ 0x20000000000000000000000000000000000000000000000000000000000000000000000000030000000000000000420002) (hs : Keeps k₀ s₀ s) :
    Keeps k₀ s₀ (State.abandonScan s) := by
  unfold State.abandonScan
  repeat' first
    | exact hm.trans (by decide)
    | with_reducible first
      | assumption | intro _ | refine Keeps.of_eq (by with_reducible assumption) ?_ | apply State.modCpl_keeps
      | apply State.setLaneState_keeps | apply Keeps.ite
    | split | (dsimp only; split)

theorem State.activate_keeps {k₀ : Nat} {s₀ s : State}
    (hm : Covers k₀ 0x200618a0000000000000000000020000000000000000000000000000000000000040000000030000000000000000430022) (hs : Keeps k₀ s₀ s) :
    Keeps k₀ s₀ (State.activate s) := by
  unfold State.activate
  repeat' first
    | exact hm.trans (by decide)
    | with_reducible first
      | assumption | intro _ | refine Keeps.of_eq (by with_reducible assumption) ?_ | apply State.abandonScan_keeps
      | apply State.driveRings_keeps | apply State.modCpl_keeps | apply State.setPstate_keeps | apply Keeps.ite
    | split | (dsimp only; split)

theorem State.warmRestart_keeps {k₀ : Nat} {s₀ s : State} (hm : Covers k₀ 0x1000) (hs : Keeps k₀ s₀ s) :
    Keeps k₀ s₀ (State.warmRestart s) := by
  unfold State.warmRestart
  repeat' first
    | exact hm.trans (by decide)
    | with_reducible first
      | assumption | intro _ | refine Keeps.of_eq (by with_reducible assumption) ?_ | apply State.modModes_keeps
      | apply Keeps.ite
    | split | (dsimp only; split)

theorem State.standDown_keeps {k₀ : Nat} {s₀ s : State} (v : Nat)
    (hm : Covers k₀ 0x200618a00000000000000000000600000000000000000000000000000000000000400000000000000008000000004300a2) (hs : Keeps k₀ s₀ s) :
    Keeps k₀ s₀ (State.standDown s v) := by
  unfold State.standDown
  repeat' first
    | exact hm.trans (by decide)
    | with_reducible first
      | exact CPL_COMMAND_in | exact SOP_CTRL_in | assumption | intro _
      | refine Keeps.of_eq (by with_reducible assumption) ?_ | apply State.closeCycle_keeps | apply State.flag_keeps
      | apply State.forEach_keeps | apply State.modCpl_keeps | apply State.putFld_keeps | apply State.setPstate_keeps
      | apply Keeps.ite
    | split | (dsimp only; split)

theorem State.fillBankAtSwitch_keeps {k₀ : Nat} {s₀ s : State}
    (hm : Covers k₀ 0x200618a0000000000000000000000000000001000000000000000000000000000001a00a8180000000000000001241801a) (hs : Keeps k₀ s₀ s) :
    Keeps k₀ s₀ (State.fillBankAtSwitch s) := by
  unfold State.fillBankAtSwitch
  repeat' first
    | exact hm.trans (by decide)
    | with_reducible first
      | assumption | intro _ | refine Keeps.of_eq (by with_reducible assumption) ?_ | apply State.forEach_keeps
      | apply State.jobWindows_keeps | apply State.modBridge_keeps | apply State.putWords_keeps | apply Keeps.ite
    | split | (dsimp only; split)

theorem State.takeLine_keeps {k₀ : Nat} {s₀ s : State}
    (hm : Covers k₀ 0x200618a0000000000000000040020400161383000a58008000000000001100000041a00a818388008000000100164393ba) (hs : Keeps k₀ s₀ s) :
    Keeps k₀ s₀ (State.takeLine s) := by
  unfold State.takeLine
  repeat' first
    | exact hm.trans (by decide)
    | with_reducible first
      | exact CPL_STATE_in | assumption | intro _ | refine Keeps.of_eq (by with_reducible assumption) ?_
      | apply State.abandonFetch_keeps | apply State.abandonScan_keeps | apply State.activate_keeps
      | apply State.advanceEpoch_keeps | apply State.endSession_keeps | apply State.fillBankAtSwitch_keeps
      | apply State.forEach_keeps | apply State.mbxTakeover_keeps | apply State.modCpl_keeps
      | apply State.modModes_keeps | apply State.namedModes_keeps | apply State.putFld_keeps | apply State.replay_keeps
      | apply State.requeueRemote_keeps | apply Keeps.ite
    | split | (dsimp only; split)

theorem execPartnerLost_keeps {k₀ : Nat} {s₀ s : State}
    (hm : Covers k₀ 0x200618a0000000000000000000020000000000000000000000000000000000000000000000000000000000000000430022) (hs : Keeps k₀ s₀ s) :
    Outcome.Keeps k₀ s₀ (execPartnerLost s) := by
  unfold execPartnerLost
  repeat' first
    | exact hm.trans (by decide)
    | with_reducible first
      | exact CPL_STATE_in | assumption | intro _ | refine Keeps.of_eq (by with_reducible assumption) ?_
      | apply State.evState_keeps | apply State.inPair_keeps | apply State.irq_keeps | apply State.modCpl_keeps
      | apply State.putFld_keeps | apply Keeps.ite | apply Outcome.keeps_next
    | split | (dsimp only; split)

theorem execTakeover_keeps {k₀ : Nat} {s₀ s : State}
    (hm : Covers k₀ 0x200618a0000000000000000048024400161383000a58008000000000001100000041a00a818388008000000100164393ba) (hs : Keeps k₀ s₀ s) :
    Outcome.Keeps k₀ s₀ (execTakeover s) := by
  unfold execTakeover
  repeat' first
    | exact hm.trans (by decide)
    | with_reducible first
      | exact CPL_STATE_in | exact CPL_STATUS_in | exact CPL_TAKEOVER_in | assumption | intro _
      | refine Keeps.of_eq (by with_reducible assumption) ?_ | apply State.activate_keeps | apply State.bump_keeps
      | apply State.evTakeover_keeps | apply State.flag_keeps | apply State.inPair_keeps | apply State.irq_keeps
      | apply State.putFld_keeps | apply State.takeLine_keeps | apply State.warmRestart_keeps | apply Keeps.ite
      | apply Outcome.keeps_next
    | split | (dsimp only; split)

theorem State.respond_keeps {k₀ : Nat} {s₀ s : State} (kind : Nat) (granted : Bool) (tick : Nat)
    (hm : Covers k₀ 0x8000000) (hs : Keeps k₀ s₀ s) :
    Keeps k₀ s₀ (State.respond s kind granted tick) := by
  unfold State.respond
  repeat' first
    | exact hm.trans (by decide)
    | with_reducible first
      | assumption | intro _ | refine Keeps.of_eq (by with_reducible assumption) ?_ | apply State.send_keeps
      | apply Keeps.ite
    | split | (dsimp only; split)

theorem execTakeoverRequest_keeps {k₀ : Nat} {s₀ s : State} (p : PairHead) (kind : SwitchKind)
    (hm : Covers k₀ 0x4804000000000000000000000000000000000000000000000000000000000000008020002) (hs : Keeps k₀ s₀ s) :
    Outcome.Keeps k₀ s₀ (execTakeoverRequest p kind s) := by
  unfold execTakeoverRequest
  repeat' first
    | exact hm.trans (by decide)
    | with_reducible first
      | assumption | intro _ | refine Keeps.of_eq (by with_reducible assumption) ?_ | apply State.modCpl_keeps
      | apply State.packetIn_keeps | apply State.respond_keeps | apply Keeps.ite | apply Outcome.keeps_next
    | split | (dsimp only; split)

theorem execTakeoverResponse_keeps {k₀ : Nat} {s₀ s : State} (p : PairHead) (granted : Bool) (tick : Word)
    (hm : Covers k₀ 0x200618a0000000000000000004844000000000000000000000000000000000000000000000000000000000000000430002) (hs : Keeps k₀ s₀ s) :
    Outcome.Keeps k₀ s₀ (execTakeoverResponse p granted tick s) := by
  unfold execTakeoverResponse
  repeat' first
    | exact hm.trans (by decide)
    | with_reducible first
      | exact CPL_COMMAND_in | assumption | intro _ | refine Keeps.of_eq (by with_reducible assumption) ?_
      | apply State.evRefused_keeps | apply State.modCpl_keeps | apply State.packetIn_keeps | apply State.putFld_keeps
      | apply Keeps.ite | apply Outcome.keeps_next
    | split | (dsimp only; split)

theorem execUpdateRequest_keeps {k₀ : Nat} {s₀ s : State} (p : PairHead)
    (hm : Covers k₀ 0x4804000000000000000000000000000000000000000000000000000000000000008000002) (hs : Keeps k₀ s₀ s) :
    Outcome.Keeps k₀ s₀ (execUpdateRequest p s) := by
  unfold execUpdateRequest
  repeat' first
    | exact hm.trans (by decide)
    | with_reducible first
      | assumption | intro _ | refine Keeps.of_eq (by with_reducible assumption) ?_ | apply State.packetIn_keeps
      | apply State.respond_keeps | apply Keeps.ite | apply Outcome.keeps_next
    | split | (dsimp only; split)

theorem State.plannedSwitch_keeps {k₀ : Nat} {s₀ s : State}
    (hm : Covers k₀ 0x200618a0000000000000000000040000000000000000000000000000000000000000000000000000000000000008430002) (hs : Keeps k₀ s₀ s) :
    Keeps k₀ s₀ (State.plannedSwitch s) := by
  unfold State.plannedSwitch
  repeat' first
    | exact hm.trans (by decide)
    | with_reducible first
      | exact CPL_COMMAND_in | assumption | intro _ | refine Keeps.of_eq (by with_reducible assumption) ?_
      | apply State.evRefused_keeps | apply State.flag_keeps | apply State.modCpl_keeps | apply State.send_keeps
      | apply Keeps.ite
    | split | (dsimp only; split)

theorem execPlannedSwitch_keeps {k₀ : Nat} {s₀ s : State}
    (hm : Covers k₀ 0x200618a0000000000000000000040000000000000000000000000000000000000000000000000000000000000008430002) (hs : Keeps k₀ s₀ s) :
    Outcome.Keeps k₀ s₀ (execPlannedSwitch s) := by
  unfold execPlannedSwitch
  repeat' first
    | exact hm.trans (by decide)
    | with_reducible first
      | assumption | intro _ | refine Keeps.of_eq (by with_reducible assumption) ?_ | apply State.plannedSwitch_keeps
      | apply Keeps.ite | apply Outcome.keeps_next
    | split | (dsimp only; split)

theorem execSoakComplete_keeps {k₀ : Nat} {s₀ s : State} (hm : Covers k₀ 0x8020000) (hs : Keeps k₀ s₀ s) :
    Outcome.Keeps k₀ s₀ (execSoakComplete s) := by
  unfold execSoakComplete
  repeat' first
    | exact hm.trans (by decide)
    | with_reducible first
      | assumption | intro _ | refine Keeps.of_eq (by with_reducible assumption) ?_ | apply State.inPair_keeps
      | apply State.modCpl_keeps | apply State.send_keeps | apply Keeps.ite | apply Outcome.keeps_next
    | split | (dsimp only; split)

theorem execHandBack_keeps {k₀ : Nat} {s₀ s : State}
    (hm : Covers k₀ 0x200618a0000000000000000050064400161383000a58008000000000001100000041a00a818388008008000100164393ba) (hs : Keeps k₀ s₀ s) :
    Outcome.Keeps k₀ s₀ (execHandBack s) := by
  unfold execHandBack
  repeat' first
    | exact hm.trans (by decide)
    | with_reducible first
      | exact CPL_COMMAND_in | exact CPL_HANDBACK_in | exact CPL_STATUS_in | assumption | intro _
      | refine Keeps.of_eq (by with_reducible assumption) ?_ | apply State.bump_keeps | apply State.evState_keeps
      | apply State.flag_keeps | apply State.inPair_keeps | apply State.irq_keeps | apply State.modCpl_keeps
      | apply State.putFld_keeps | apply State.standDown_keeps | apply State.takeLine_keeps | apply Keeps.ite
      | apply Outcome.keeps_next
    | split | (dsimp only; split)

theorem execStepDown_keeps {k₀ : Nat} {s₀ s : State} (hm : Covers k₀ 0x20000) (hs : Keeps k₀ s₀ s) :
    Outcome.Keeps k₀ s₀ (execStepDown s) := by
  unfold execStepDown
  repeat' first
    | exact hm.trans (by decide)
    | with_reducible first
      | assumption | intro _ | refine Keeps.of_eq (by with_reducible assumption) ?_ | apply State.inPair_keeps
      | apply State.modCpl_keeps | apply Keeps.ite | apply Outcome.keeps_next
    | split | (dsimp only; split)

theorem State.pairTick_keeps {k₀ : Nat} {s₀ s : State}
    (hm : Covers k₀ 0xffffffffffffffffffffffffffffffffffffffffffffffffffffffffffffffffffffffffffffffffffffffffffffff1ac3b0fe) (hs : Keeps k₀ s₀ s) :
    Keeps k₀ s₀ (State.pairTick s) := by
  unfold State.pairTick
  repeat' first
    | exact hm.trans (by decide)
    | with_reducible first
      | exact CPL_STATUS_in | assumption | intro _ | refine Keeps.of_eq (by with_reducible assumption) ?_
      | apply State.activate_keeps | apply State.capTick_keeps | apply State.checkReady_keeps
      | apply State.evState_keeps | apply State.flag_keeps | apply State.inPair_keeps | apply State.modCpl_keeps
      | apply State.standDown_keeps | apply Keeps.ite
    | split | (dsimp only; split)

theorem State.scanPassed_keeps {k₀ : Nat} {s₀ s : State} (lane : Nat) (hm : Covers k₀ 0x20000) (hs : Keeps k₀ s₀ s) :
    Keeps k₀ s₀ (State.scanPassed s lane) := by
  unfold State.scanPassed
  repeat' first
    | exact hm.trans (by decide)
    | with_reducible first
      | assumption | intro _ | refine Keeps.of_eq (by with_reducible assumption) ?_ | apply State.modCpl_keeps
      | apply Keeps.ite
    | split | (dsimp only; split)

theorem execTemperScan_keeps {k₀ : Nat} {s₀ s : State} (lane : Fin 3) (pass : Bool)
    (hm : Covers k₀ 0xffffffffffffffffffffffffffffffffffffffffffffffffffffffffffffffffffffffffffffffffffffffffffffff1acfb3fe) (hs : Keeps k₀ s₀ s) :
    Outcome.Keeps k₀ s₀ (execTemperScan lane pass s) := by
  unfold execTemperScan
  repeat' first
    | exact hm.trans (by decide)
    | with_reducible first
      | assumption | intro _ | refine Keeps.of_eq (by with_reducible assumption) ?_ | apply State.checkReady_keeps
      | apply State.fence_keeps | apply State.modCpl_keeps | apply State.scanPassed_keeps
      | apply State.setLaneState_keeps | apply Keeps.ite | apply Outcome.keeps_next
    | split | (dsimp only; split)

end Sys2Proof.Machine
end

