-- ==== Sys2Proof/Laws/KeepsCore.lean ====
section
/-!
SUPPORT. What `Keeps` says of the operations of
the Helin instructions, the bus, DMA and the system commands:
each keeps the canonical form and every part of the state outside its set.
A lemma stands for each operation, in the order of the Machine files.
-/

namespace Sys2Proof.Machine

set_option Elab.async false
set_option linter.all false

/-! ### Machine/Dma.lean -/

theorem State.setDesc_keeps {k₀ : Nat} {s₀ s : State} (n : Nat) (d : Option Desc) (hm : Covers k₀ 0x8000)
    (hs : Keeps k₀ s₀ s) :
    Keeps k₀ s₀ (State.setDesc s n d) := by
  unfold State.setDesc
  repeat' first
    | exact hm.trans (by decide)
    | with_reducible first
      | assumption | intro _ | refine Keeps.of_eq (by with_reducible assumption) ?_ | apply Keeps.ite
    | split | (dsimp only; split) | with_reducible apply Keeps.mk_dma

theorem State.descBack_keeps {k₀ : Nat} {s₀ s : State} (n : Nat) (d : Desc) (status : Nat)
    (hm : Covers k₀ 0x200618a0000000000000000000000000000000000000000000000000000000000001a00a8180000000000000001041801a) (hs : Keeps k₀ s₀ s) :
    Keeps k₀ s₀ (State.descBack s n d status).1 := by
  unfold State.descBack
  repeat' first
    | exact hm.trans (by decide)
    | with_reducible first
      | assumption | intro _ | refine Keeps.of_eq (by with_reducible assumption) ?_ | apply State.ctxTranslate_keeps
      | apply State.evAccess_keeps | apply State.writeRun_keeps | apply Keeps.ite
    | split | (dsimp only; split)

theorem State.descLast_keeps {k₀ : Nat} {s₀ s : State} (n : Nat) (d : Desc) (status : Nat)
    (hm : Covers k₀ 0x200618a0000000000000000000000000000000000000000000000000000000000001a80a8180000000000000001041801a) (hs : Keeps k₀ s₀ s) :
    Keeps k₀ s₀ (State.descLast s n d status) := by
  unfold State.descLast
  repeat' first
    | exact hm.trans (by decide)
    | with_reducible first
      | exact DMA_CH_STATE_in | assumption | intro _ | refine Keeps.of_eq (by with_reducible assumption) ?_
      | apply State.descBack_keeps | apply State.putFld_keeps | apply Keeps.ite
    | split | (dsimp only; split)

theorem State.dmaIdle_keeps {k₀ : Nat} {s₀ s : State} (n : Nat) (hm : Covers k₀ 0xc0000000000000000000000008002)
    (hs : Keeps k₀ s₀ s) :
    Keeps k₀ s₀ (State.dmaIdle s n) := by
  unfold State.dmaIdle
  repeat' first
    | exact hm.trans (by decide)
    | with_reducible first
      | exact DMA_CH_CMD_in | exact DMA_CH_STATE_in | assumption | intro _
      | refine Keeps.of_eq (by with_reducible assumption) ?_ | apply State.putFld_keeps | apply State.setDesc_keeps
      | apply Keeps.ite
    | split | (dsimp only; split)

theorem State.dmaHalt_keeps {k₀ : Nat} {s₀ s : State} (n : Nat) (d : Desc) (status : Nat)
    (hm : Covers k₀ 0x200618a0000000000000000000000000000000000000000000000000000000000001ac8a8180000000000000001041803a) (hs : Keeps k₀ s₀ s) :
    Keeps k₀ s₀ (State.dmaHalt s n d status) := by
  unfold State.dmaHalt
  repeat' first
    | exact hm.trans (by decide)
    | with_reducible first
      | exact DMA_FAULT_in | assumption | intro _ | refine Keeps.of_eq (by with_reducible assumption) ?_
      | apply State.descLast_keeps | apply State.dmaIdle_keeps | apply State.evState_keeps | apply State.irq_keeps
      | apply State.setBit_keeps | apply Keeps.ite
    | split | (dsimp only; split)

theorem State.dmaLoad_keeps {k₀ : Nat} {s₀ s : State} (n : Nat) (addr : Nat)
    (hm : Covers k₀ 0x200618a0000000000000000000000000000000000000000000000000000000000001ac8a8180000000000000001041803a) (hs : Keeps k₀ s₀ s) :
    Keeps k₀ s₀ (State.dmaLoad s n addr) := by
  unfold State.dmaLoad
  repeat' first
    | exact hm.trans (by decide)
    | with_reducible first
      | assumption | intro _ | refine Keeps.of_eq (by with_reducible assumption) ?_ | apply State.ctxTranslate_keeps
      | apply State.dmaHalt_keeps | apply State.evAccess_keeps | apply State.reportUe_keeps | apply State.setDesc_keeps
      | apply Keeps.ite
    | split | (dsimp only; split)

theorem State.dmaStart_keeps {k₀ : Nat} {s₀ s : State} (n : Nat)
    (hm : Covers k₀ 0x200618a0000000000000000000000000000000000000000000000000000000000001ac8a8180000000000000001041803a) (hs : Keeps k₀ s₀ s) :
    Keeps k₀ s₀ (State.dmaStart s n) := by
  unfold State.dmaStart
  repeat' first
    | exact hm.trans (by decide)
    | with_reducible first
      | exact DMA_CH_CMD_in | exact DMA_CH_STATE_in | assumption | intro _
      | refine Keeps.of_eq (by with_reducible assumption) ?_ | apply State.dmaLoad_keeps | apply State.flag_keeps
      | apply State.putFld_keeps | apply Keeps.ite
    | split | (dsimp only; split)

theorem State.dmaStop_keeps {k₀ : Nat} {s₀ s : State} (n : Nat)
    (hm : Covers k₀ 0x200618a0000000000000000000000000000000000000000000000000000000000001ac8a8180000000000000001041803a) (hs : Keeps k₀ s₀ s) :
    Keeps k₀ s₀ (State.dmaStop s n) := by
  unfold State.dmaStop
  repeat' first
    | exact hm.trans (by decide)
    | with_reducible first
      | assumption | intro _ | refine Keeps.of_eq (by with_reducible assumption) ?_ | apply State.dmaHalt_keeps
      | apply Keeps.ite
    | split | (dsimp only; split)

theorem State.dmaComplete_keeps {k₀ : Nat} {s₀ s : State} (n : Nat)
    (hm : Covers k₀ 0x200618a0000000000000000000000000000000000000000000000000000000000001acca8180000000000000001041803a) (hs : Keeps k₀ s₀ s) :
    Keeps k₀ s₀ (State.dmaComplete s n) := by
  unfold State.dmaComplete
  repeat' first
    | exact hm.trans (by decide)
    | with_reducible first
      | exact DMA_STATUS_in | assumption | intro _ | refine Keeps.of_eq (by with_reducible assumption) ?_
      | apply State.descLast_keeps | apply State.dmaIdle_keeps | apply State.dmaLoad_keeps | apply State.irq_keeps
      | apply State.setBit_keeps | apply Keeps.ite
    | split | (dsimp only; split)

theorem execIommuInvalidate_keeps {k₀ : Nat} {s₀ s : State} (all : Bool) (ctx : Fin 32) (hm : Covers k₀ 0x8000)
    (hs : Keeps k₀ s₀ s) :
    Outcome.Keeps k₀ s₀ (execIommuInvalidate all ctx s) := by
  unfold execIommuInvalidate
  repeat' first
    | exact hm.trans (by decide)
    | with_reducible first
      | assumption | intro _ | refine Keeps.of_eq (by with_reducible assumption) ?_ | apply State.iommuInvalidate_keeps
      | apply Keeps.ite | apply Outcome.keeps_next
    | split | (dsimp only; split)

theorem execDmaStart_keeps {k₀ : Nat} {s₀ s : State} (n : Fin 16)
    (hm : Covers k₀ 0x200618a0000000000000000000000000000000000000000000000000000000000001ac8a8180000000000000001041803a) (hs : Keeps k₀ s₀ s) :
    Outcome.Keeps k₀ s₀ (execDmaStart n s) := by
  unfold execDmaStart
  repeat' first
    | exact hm.trans (by decide)
    | with_reducible first
      | assumption | intro _ | refine Keeps.of_eq (by with_reducible assumption) ?_ | apply State.dmaStart_keeps
      | apply Keeps.ite | apply Outcome.keeps_next
    | split | (dsimp only; split)

theorem execDmaStop_keeps {k₀ : Nat} {s₀ s : State} (n : Fin 16)
    (hm : Covers k₀ 0x200618a0000000000000000000000000000000000000000000000000000000000001ac8a8180000000000000001041803a) (hs : Keeps k₀ s₀ s) :
    Outcome.Keeps k₀ s₀ (execDmaStop n s) := by
  unfold execDmaStop
  repeat' first
    | exact hm.trans (by decide)
    | with_reducible first
      | assumption | intro _ | refine Keeps.of_eq (by with_reducible assumption) ?_ | apply State.dmaStop_keeps
      | apply Keeps.ite | apply Outcome.keeps_next
    | split | (dsimp only; split)

theorem execDmaDescriptorComplete_keeps {k₀ : Nat} {s₀ s : State} (n : Fin 16)
    (hm : Covers k₀ 0x200618a0000000000000000000000000000000000000000000000000000000000001acca8180000000000000001041803a) (hs : Keeps k₀ s₀ s) :
    Outcome.Keeps k₀ s₀ (execDmaDescriptorComplete n s) := by
  unfold execDmaDescriptorComplete
  repeat' first
    | exact hm.trans (by decide)
    | with_reducible first
      | assumption | intro _ | refine Keeps.of_eq (by with_reducible assumption) ?_ | apply State.dmaComplete_keeps
      | apply Keeps.ite | apply Outcome.keeps_next
    | split | (dsimp only; split)

theorem execScrubStep_keeps {k₀ : Nat} {s₀ s : State} (pa : BitVec 40) (ecc : Ecc)
    (hm : Covers k₀ 0x200618a0000000000000000000000000000000000000000000000000000000000001e00ff180000000000000001041001a) (hs : Keeps k₀ s₀ s) :
    Outcome.Keeps k₀ s₀ (execScrubStep pa ecc s) := by
  unfold execScrubStep
  repeat' first
    | exact hm.trans (by decide)
    | with_reducible first
      | assumption | intro _ | refine Keeps.of_eq (by with_reducible assumption) ?_ | apply State.eccCheck_keeps
      | apply Keeps.ite | apply Outcome.keeps_next
    | split | (dsimp only; split)

theorem execCodeDigestCheck_keeps {k₀ : Nat} {s₀ s : State} (page : BitVec 28) (good : Bool)
    (hm : Covers k₀ 0x200618a0000000000000000000000000000000000000000000000000000000000000001000800000000000000000412082) (hs : Keeps k₀ s₀ s) :
    Outcome.Keeps k₀ s₀ (execCodeDigestCheck page good s) := by
  unfold execCodeDigestCheck
  repeat' first
    | exact hm.trans (by decide)
    | with_reducible first
      | exact MMU_DIGEST_FAIL_in | exact MMU_STATUS_in | assumption | intro _
      | refine Keeps.of_eq (by with_reducible assumption) ?_ | apply State.bump_keeps | apply State.event_keeps
      | apply State.flag_keeps | apply State.forEach_keeps | apply State.modTask_keeps | apply State.setChange_keeps
      | apply Keeps.ite | apply Outcome.keeps_next
    | split | (dsimp only; split)

theorem execCodePageReload_keeps {k₀ : Nat} {s₀ s : State} (page : BitVec 28) (data : List Byte) (good : Bool)
    (hm : Covers k₀ 0x200618a0000000000000000000000000000000000000000000000000000000000001a00a8180000000000000000041209a) (hs : Keeps k₀ s₀ s) :
    Outcome.Keeps k₀ s₀ (execCodePageReload page data good s) := by
  unfold execCodePageReload
  repeat' first
    | exact hm.trans (by decide)
    | with_reducible first
      | assumption | intro _ | refine Keeps.of_eq (by with_reducible assumption) ?_ | apply State.forEach_keeps
      | apply State.modTask_keeps | apply State.setChange_keeps | apply State.writeRun_keeps | apply Keeps.ite
      | apply Outcome.keeps_next
    | split | (dsimp only; split)

/-! ### Machine/Trap.lean -/

theorem State.doubleTrap_keeps {k₀ : Nat} {s₀ s : State} (c : Fin 12)
    (hm : Covers k₀ 0x200618a000000000000000c000000400160000000000000000000000000000000001a00a81a3a1421428200900084f27ba) (hs : Keeps k₀ s₀ s) :
    Keeps k₀ s₀ (State.doubleTrap s c) := by
  unfold State.doubleTrap
  repeat' first
    | exact hm.trans (by decide)
    | with_reducible first
      | assumption | intro _ | refine Keeps.of_eq (by with_reducible assumption) ?_ | apply State.coreFault_keeps
      | apply State.modCore_keeps | apply State.settle_keeps | apply Keeps.ite
    | split | (dsimp only; split)

theorem State.takeTrap_keeps {k₀ : Nat} {s₀ s : State} (c : Fin 12) (code : Nat) (tval : DWord) (tpc : DWord)
    (off : Nat) (hm : Covers k₀ 0x200618a000000000000000c000000400160000000000000000000000000000000001a00a81a3a1421428200900084f27ba) (hs : Keeps k₀ s₀ s) :
    Keeps k₀ s₀ (State.takeTrap s c code tval tpc off) := by
  unfold State.takeTrap
  repeat' first
    | exact hm.trans (by decide)
    | with_reducible first
      | assumption | intro _ | refine Keeps.of_eq (by with_reducible assumption) ?_ | apply State.doubleTrap_keeps
      | apply State.modCore_keeps | apply Keeps.ite | apply HRes.Keeps.ite | apply HRes.keeps_done
      | apply HRes.keeps_trap | apply HRes.keeps_jump | apply HRes.keeps_enter | apply HRes.keeps_service
    | split | (dsimp only; split)

theorem State.takeInterrupt_keeps {k₀ : Nat} {s₀ s : State} (c : Fin 12) (line : Nat) (hm : Covers k₀ 0x20)
    (hs : Keeps k₀ s₀ s) :
    Keeps k₀ s₀ (State.takeInterrupt s c line) := by
  unfold State.takeInterrupt
  repeat' first
    | exact hm.trans (by decide)
    | with_reducible first
      | assumption | intro _ | refine Keeps.of_eq (by with_reducible assumption) ?_ | apply State.modCore_keeps
      | apply Keeps.ite | apply HRes.Keeps.ite | apply HRes.keeps_done | apply HRes.keeps_trap | apply HRes.keeps_jump
      | apply HRes.keeps_enter | apply HRes.keeps_service
    | split | (dsimp only; split)

theorem State.leaveCycle_keeps {k₀ : Nat} {s₀ s : State} (c : Fin 12) (hm : Covers k₀ 0x800000000000082)
    (hs : Keeps k₀ s₀ s) :
    Keeps k₀ s₀ (State.leaveCycle s c) := by
  unfold State.leaveCycle
  repeat' first
    | exact hm.trans (by decide)
    | with_reducible first
      | assumption | intro _ | refine Keeps.of_eq (by with_reducible assumption) ?_ | apply State.setOpenOn_keeps
      | apply Keeps.ite
    | split | (dsimp only; split)

theorem State.reportFault_keeps {k₀ : Nat} {s₀ s : State} (c : Fin 12) (cause : DWord) (tval : DWord) (call : Option
    (Nat × Nat)) (hm : Covers k₀ 0x8000000000004a2) (hs : Keeps k₀ s₀ s) :
    Keeps k₀ s₀ (State.reportFault s c cause tval call) := by
  unfold State.reportFault
  repeat' first
    | exact hm.trans (by decide)
    | with_reducible first
      | assumption | intro _ | refine Keeps.of_eq (by with_reducible assumption) ?_ | apply State.leaveCycle_keeps
      | apply State.modCore_keeps | apply State.sendRecord_keeps | apply Keeps.ite
    | split | (dsimp only; split)

theorem State.syncTrap_keeps {k₀ : Nat} {s₀ s : State} (c : Fin 12) (code : Nat) (tval : DWord) (tpc : DWord)
    (hm : Covers k₀ 0x200618a000000000000000c000000400160000000000000000000000000000000001a00a81a3a1421428200900084f27ba) (hs : Keeps k₀ s₀ s) :
    Keeps k₀ s₀ (State.syncTrap s c code tval tpc) := by
  unfold State.syncTrap
  repeat' first
    | exact hm.trans (by decide)
    | with_reducible first
      | assumption | intro _ | refine Keeps.of_eq (by with_reducible assumption) ?_ | apply State.reportFault_keeps
      | apply State.takeTrap_keeps | apply Keeps.ite
    | split | (dsimp only; split)

theorem State.fetch_keeps {k₀ : Nat} {s₀ s : State} (x : Site)
    (hm : Covers k₀ 0x200618a0000000000000000000000000000000000000000000000000000000000001e00ff190000000000000001041003a) (hs : Keeps k₀ s₀ s) :
    Keeps k₀ s₀ (State.fetch s x).1 := by
  unfold State.fetch
  repeat' first
    | exact hm.trans (by decide)
    | with_reducible first
      | assumption | intro _ | refine Keeps.of_eq (by with_reducible assumption) ?_ | apply State.memCheck_keeps
      | apply State.translate_keeps | apply Keeps.ite | apply HRes.Keeps.ite | apply HRes.keeps_done
      | apply HRes.keeps_trap | apply HRes.keeps_jump | apply HRes.keeps_enter | apply HRes.keeps_service
    | split | (dsimp only; split)

theorem State.retire_keeps {k₀ : Nat} {s₀ s : State} (c : Fin 12) (next : DWord) (hm : Covers k₀ 0x10000020)
    (hs : Keeps k₀ s₀ s) :
    Keeps k₀ s₀ (State.retire s c next) := by
  unfold State.retire
  repeat' first
    | exact hm.trans (by decide)
    | with_reducible first
      | assumption | intro _ | refine Keeps.of_eq (by with_reducible assumption) ?_ | apply State.modCore_keeps
      | apply State.tickFree_keeps | apply Keeps.ite
    | split | (dsimp only; split)

theorem State.fetchedBody_keeps {k₀ : Nat} {s₀ s : State} (x : Site) (body : State → HRes) (hs : Keeps k₀ s₀ s)
    (hbody : ∀ x0, Keeps k₀ s₀ x0 → HRes.Keeps k₀ s₀ (body x0)) :
    HRes.Keeps k₀ s₀ (State.fetchedBody s x body) := by
  unfold State.fetchedBody
  repeat' first
    | with_reducible first
      | assumption | intro _ | apply hbody | refine Keeps.of_eq (by with_reducible assumption) ?_ | apply Keeps.ite
      | apply HRes.Keeps.ite | apply HRes.keeps_done | apply HRes.keeps_trap | apply HRes.keeps_jump
      | apply HRes.keeps_enter | apply HRes.keeps_service
    | split | (dsimp only; split)

theorem State.helin_keeps {k₀ : Nat} {s₀ s : State} (x : Site) (body : State → HRes) (hm : Covers k₀ 0x200618a000000000000000c000000400160000000000000000000000000000000001e00ff1b3a1421428200900184f27ba)
    (hs : Keeps k₀ s₀ s) (hbody : ∀ x0, Keeps k₀ s₀ x0 → HRes.Keeps k₀ s₀ (body x0)) : Keeps k₀ s₀ (State.helin s x body) := by
  have hf := State.fetch_keeps x (hm.trans (by decide)) hs
  unfold State.helin
  split
  · exact hs
  · dsimp only
    split
    · exact State.syncTrap_keeps _ _ _ _ (hm.trans (by decide)) (Keeps.of_eq (by assumption) hf)
    · rename_i e
      have h := State.fetchedBody_keeps x _ (Keeps.of_eq e hf) hbody
      split <;> rename_i e' <;> rw [e'] at h
      · exact State.retire_keeps _ _ (hm.trans (by decide)) h
      · exact State.retire_keeps _ _ (hm.trans (by decide)) h
      · exact State.syncTrap_keeps _ _ _ _ (hm.trans (by decide)) h
      · exact State.takeTrap_keeps _ _ _ _ _ (hm.trans (by decide)) (State.retire_keeps _ _ (hm.trans (by decide)) h)
      · refine Keeps.ite ?_ (State.modCore_keeps _ _ (hm.trans (by decide)) ?_)
        all_goals
          exact State.takeTrap_keeps _ _ _ _ _ (hm.trans (by decide)) (State.retire_keeps _ _ (hm.trans (by decide)) h)

theorem State.onCore_keeps {k₀ : Nat} {s₀ s : State} (x : Site) (g : Core → Core) (hm : Covers k₀ 0x20)
    (hs : Keeps k₀ s₀ s) :
    HRes.Keeps k₀ s₀ (State.onCore s x g) := by
  unfold State.onCore
  repeat' first
    | exact hm.trans (by decide)
    | with_reducible first
      | assumption | intro _ | refine Keeps.of_eq (by with_reducible assumption) ?_ | apply State.modCore_keeps
      | apply Keeps.ite | apply HRes.Keeps.ite | apply HRes.keeps_done | apply HRes.keeps_trap | apply HRes.keeps_jump
      | apply HRes.keeps_enter | apply HRes.keeps_service
    | split | (dsimp only; split)

/-! ### Machine/Memory.lean -/

theorem State.loadMem_keeps {k₀ : Nat} {s₀ s : State} (x : Site) (pa : Nat) (size : Nat)
    (hm : Covers k₀ 0x200618a0000000000000000000000000000000000000000000000000000000000001e00ff190000000000000001041001a) (hs : Keeps k₀ s₀ s) :
    Keeps k₀ s₀ (State.loadMem s x pa size).1 := by
  unfold State.loadMem
  repeat' first
    | exact hm.trans (by decide)
    | with_reducible first
      | assumption | intro _ | refine Keeps.of_eq (by with_reducible assumption) ?_ | apply State.memCheck_keeps
      | apply Keeps.ite
    | split | (dsimp only; split)

theorem State.noteLine_keeps {k₀ : Nat} {s₀ s : State} (c : Fin 12) (pa : Nat) (hm : Covers k₀ 0x20000)
    (hs : Keeps k₀ s₀ s) :
    Keeps k₀ s₀ (State.noteLine s c pa) := by
  unfold State.noteLine
  repeat' first
    | exact hm.trans (by decide)
    | with_reducible first
      | assumption | intro _ | refine Keeps.of_eq (by with_reducible assumption) ?_ | apply State.copyItem_keeps
      | apply Keeps.ite
    | split | (dsimp only; split)

theorem State.storeMem_keeps {k₀ : Nat} {s₀ s : State} (x : Site) (pa : Nat) (size : Nat) (va : DWord) (v : Nat)
    (hm : Covers k₀ 0x200618a0000000000000000000000000000000000000000000000000000000000001e00ff190000000000000001043003a) (hs : Keeps k₀ s₀ s) :
    Keeps k₀ s₀ (State.storeMem s x pa size va v).1 := by
  unfold State.storeMem
  repeat' first
    | exact hm.trans (by decide)
    | with_reducible first
      | assumption | intro _ | refine Keeps.of_eq (by with_reducible assumption) ?_ | apply State.memCheck_keeps
      | apply State.modCore_keeps | apply State.noteLine_keeps | apply State.writePart_keeps | apply Keeps.ite
    | split | (dsimp only; split)

theorem State.loadInto_keeps {k₀ : Nat} {s₀ s : State} (x : Site) (va : DWord) (size : Nat) (keep : Nat → Core → Core)
    (hm : Covers k₀ 0x200618a0000000000000000000000000000000000000000000000000000000000001e00ff190000000000000001041003a) (hs : Keeps k₀ s₀ s) :
    HRes.Keeps k₀ s₀ (State.loadInto s x va size keep) := by
  unfold State.loadInto
  repeat' first
    | exact hm.trans (by decide)
    | with_reducible first
      | assumption | intro _ | refine Keeps.of_eq (by with_reducible assumption) ?_ | apply State.dataAddr_keeps
      | apply State.loadMem_keeps | apply State.modCore_keeps | apply Keeps.ite | apply HRes.Keeps.ite
      | apply HRes.keeps_done | apply HRes.keeps_trap | apply HRes.keeps_jump | apply HRes.keeps_enter
      | apply HRes.keeps_service
    | split | (dsimp only; split)

theorem State.storeFrom_keeps {k₀ : Nat} {s₀ s : State} (x : Site) (va : DWord) (size : Nat) (v : Nat)
    (hm : Covers k₀ 0x200618a0000000000000000000000000000000000000000000000000000000000001e00ff190000000000000001043003a) (hs : Keeps k₀ s₀ s) :
    HRes.Keeps k₀ s₀ (State.storeFrom s x va size v) := by
  unfold State.storeFrom
  repeat' first
    | exact hm.trans (by decide)
    | with_reducible first
      | assumption | intro _ | refine Keeps.of_eq (by with_reducible assumption) ?_ | apply State.dataAddr_keeps
      | apply State.storeMem_keeps | apply Keeps.ite | apply HRes.Keeps.ite | apply HRes.keeps_done
      | apply HRes.keeps_trap | apply HRes.keeps_jump | apply HRes.keeps_enter | apply HRes.keeps_service
    | split | (dsimp only; split)

theorem execFload_keeps {k₀ : Nat} {s₀ s : State} (x : Site) (dbl : Bool) (rd : BitVec 5) (ra : BitVec 5)
    (off : BitVec 17) (hm : Covers k₀ 0x200618a000000000000000c000000400160000000000000000000000000000000001e00ff1b3a1421428200900184f27ba) (hs : Keeps k₀ s₀ s) :
    Outcome.Keeps k₀ s₀ (execFload x dbl rd ra off s) := by
  unfold execFload
  repeat' first
    | exact hm.trans (by decide)
    | with_reducible first
      | assumption | intro _ | refine Keeps.of_eq (by with_reducible assumption) ?_ | apply State.helin_keeps
      | apply State.loadInto_keeps | apply Keeps.ite | apply HRes.Keeps.ite | apply HRes.keeps_done
      | apply HRes.keeps_trap | apply HRes.keeps_jump | apply HRes.keeps_enter | apply HRes.keeps_service
      | apply Outcome.keeps_next
    | split | (dsimp only; split)

theorem execFstore_keeps {k₀ : Nat} {s₀ s : State} (x : Site) (dbl : Bool) (rs : BitVec 5) (ra : BitVec 5)
    (off : BitVec 17) (hm : Covers k₀ 0x200618a000000000000000c000000400160000000000000000000000000000000001e00ff1b3a1421428200900184f27ba) (hs : Keeps k₀ s₀ s) :
    Outcome.Keeps k₀ s₀ (execFstore x dbl rs ra off s) := by
  unfold execFstore
  repeat' first
    | exact hm.trans (by decide)
    | with_reducible first
      | assumption | intro _ | refine Keeps.of_eq (by with_reducible assumption) ?_ | apply State.helin_keeps
      | apply State.storeFrom_keeps | apply Keeps.ite | apply HRes.Keeps.ite | apply HRes.keeps_done
      | apply HRes.keeps_trap | apply HRes.keeps_jump | apply HRes.keeps_enter | apply HRes.keeps_service
      | apply Outcome.keeps_next
    | split | (dsimp only; split)

theorem execAtom_keeps {k₀ : Nat} {s₀ s : State} (x : Site) (func : BitVec 12) (rd : BitVec 5) (ra : BitVec 5)
    (rb : BitVec 5) (hm : Covers k₀ 0x200618a000000000000000c000000400160000000000000000000000000000000001ec8ff1b3a1421428200900184fa7ba) (hs : Keeps k₀ s₀ s) :
    Outcome.Keeps k₀ s₀ (execAtom x func rd ra rb s) := by
  unfold execAtom
  repeat' first
    | exact hm.trans (by decide)
    | with_reducible first
      | assumption | intro _ | refine Keeps.of_eq (by with_reducible assumption) ?_ | apply State.dataAddr_keeps
      | apply State.helin_keeps | apply State.loadMem_keeps | apply State.markUe_keeps | apply State.modCore_keeps
      | apply State.noteLine_keeps | apply State.reportUe_keeps | apply State.writeFault_keeps
      | apply State.writePart_keeps | apply Keeps.ite | apply HRes.Keeps.ite | apply HRes.keeps_done
      | apply HRes.keeps_trap | apply HRes.keeps_jump | apply HRes.keeps_enter | apply HRes.keeps_service
      | apply Outcome.keeps_next
    | split | (dsimp only; split)

/-! ### Machine/Bus.lean -/

theorem State.storeReg_keeps {k₀ : Nat} {s₀ s : State} (a : Nat) (r : RegRow) (v : Word)
    (hm : Covers k₀ 0xffffffffffffffffffffffffffffffffffffffffffffffffffffffffffffffffffffffffffffffffffffffffffffff00000002) (hs : Keeps k₀ s₀ s) :
    Keeps k₀ s₀ (State.storeReg s a r v) := by
  unfold State.storeReg
  repeat' first
    | exact hm.trans (by decide)
    | with_reducible first
      | exact inRows_all | assumption | intro _ | refine Keeps.of_eq (by with_reducible assumption) ?_
      | apply State.setReg_keeps | apply Keeps.ite
    | split | (dsimp only; split)

theorem State.go_keeps {k₀ : Nat} {s₀ s : State} (v : Word) (f : Field) (act : State → State) (hs : Keeps k₀ s₀ s)
    (hact : ∀ x0, Keeps k₀ s₀ x0 → Keeps k₀ s₀ (act x0)) :
    Keeps k₀ s₀ (State.go s v f act) := by
  unfold State.go
  repeat' first
    | with_reducible first
      | assumption | intro _ | apply hact | refine Keeps.of_eq (by with_reducible assumption) ?_
      | apply State.when_keeps | apply Keeps.ite
    | split | (dsimp only; split)

theorem State.writeSmap_keeps {k₀ : Nat} {s₀ s : State} (key : Nat) (r : RegRow) (v : Word) (hm : Covers k₀ 0x200618a0000000000000000000000000000000000000000000000000000000000000000000000000000000000002410006)
    (hs : Keeps k₀ s₀ s) : Keeps k₀ s₀ (State.writeSmap s key r v) := by
  unfold State.writeSmap
  refine Keeps.ite (State.evRefused_keeps _ _ _ (hm.trans (by decide)) hs) (State.dropCache_keeps _ _ (hm.trans (by decide)) ?_)
  exact Keeps.mk_smap (hm.trans (by decide)) (State.dropCache_keeps _ _ (hm.trans (by decide)) hs)

theorem State.writeFrm_keeps {k₀ : Nat} {s₀ s : State} (a : Nat) (r : RegRow) (v : Word)
    (hm : Covers k₀ 0xffffffffffffffffffffffffffffffffffffffffffffffffffffffffffffffffffffffffffffffffffffffffffffff004108a2) (hs : Keeps k₀ s₀ s) :
    Keeps k₀ s₀ (State.writeFrm s a r v) := by
  unfold State.writeFrm
  repeat' first
    | exact hm.trans (by decide)
    | with_reducible first
      | exact FRM_CTRL_in | exact FRM_PERIOD_in | exact FRM_PHASE_in | exact FRM_TCFG_in | exact FRM_TSTAT_in
      | assumption | intro _ | refine Keeps.of_eq (by with_reducible assumption) ?_ | apply State.frmStart_keeps
      | apply State.frmStop_keeps | apply State.go_keeps | apply State.refreshPpend_keeps | apply State.showMove_keeps
      | apply State.storeReg_keeps | apply State.taskRestartGo_keeps | apply Keeps.ite
    | split | (dsimp only; split)

theorem State.writeEprst_keeps {k₀ : Nat} {s₀ s : State} (v : Word) (hm : Covers k₀ 0x400400000000000000802)
    (hs : Keeps k₀ s₀ s) :
    Keeps k₀ s₀ (State.writeEprst s v) := by
  unfold State.writeEprst
  repeat' first
    | exact hm.trans (by decide)
    | with_reducible first
      | exact ANX_EPRST_in | exact ANY_EPRST_in | assumption | intro _
      | refine Keeps.of_eq (by with_reducible assumption) ?_ | apply State.eprstGo_keeps | apply State.go_keeps
      | apply State.putFld_keeps | apply Keeps.ite
    | split | (dsimp only; split)

theorem State.writeLane_keeps {k₀ : Nat} {s₀ s : State} (a : Nat) (r : RegRow) (v : Word)
    (hm : Covers k₀ 0xffffffffffffffffffffffffffffffffffffffffffffffffffffffffffffffffffffffffffffffffffffffffffffff084f27ba) (hs : Keeps k₀ s₀ s) :
    Keeps k₀ s₀ (State.writeLane s a r v) := by
  unfold State.writeLane
  repeat' first
    | exact hm.trans (by decide)
    | with_reducible first
      | exact LANE_MODE_in | exact LANE_QUENCH_in | assumption | intro _
      | refine Keeps.of_eq (by with_reducible assumption) ?_ | apply State.commandQuench_keeps | apply State.go_keeps
      | apply State.modeGo_keeps | apply State.settle_keeps | apply State.storeReg_keeps | apply Keeps.ite
    | split | (dsimp only; split)

theorem State.writeMem_keeps {k₀ : Nat} {s₀ s : State} (a : Nat) (r : RegRow) (v : Word)
    (hm : Covers k₀ 0xffffffffffffffffffffffffffffffffffffffffffffffffffffffffffffffffffffffffffffffffffffffffffffff1041803a) (hs : Keeps k₀ s₀ s) :
    Keeps k₀ s₀ (State.writeMem s a r v) := by
  unfold State.writeMem
  repeat' first
    | exact hm.trans (by decide)
    | with_reducible first
      | exact DMA_CH_CMD_in | exact MMU_IOINV_in | assumption | intro _
      | refine Keeps.of_eq (by with_reducible assumption) ?_ | apply State.dmaStart_keeps | apply State.dmaStop_keeps
      | apply State.go_keeps | apply State.iommuInvalidate_keeps | apply State.storeReg_keeps | apply Keeps.ite
    | split | (dsimp only; split)

theorem State.writeSop_keeps {k₀ : Nat} {s₀ s : State} (a : Nat) (r : RegRow) (v : Word)
    (hm : Covers k₀ 0xffffffffffffffffffffffffffffffffffffffffffffffffffffffffffffffffffffffffffffffffffffffffffffff04800002) (hs : Keeps k₀ s₀ s) :
    Keeps k₀ s₀ (State.writeSop s a r v) := by
  unfold State.writeSop
  repeat' first
    | exact hm.trans (by decide)
    | with_reducible first
      | exact SOP_CTRL_in | assumption | intro _ | refine Keeps.of_eq (by with_reducible assumption) ?_
      | apply State.ringDisable_keeps | apply State.ringEnable_keeps | apply State.storeReg_keeps
      | apply State.when_keeps | apply Keeps.ite
    | split | (dsimp only; split)

theorem State.keepCalib_keeps {k₀ : Nat} {s₀ s : State} (g : Calibration → Calibration) (hm : Covers k₀ 0x100000)
    (hs : Keeps k₀ s₀ s) :
    Keeps k₀ s₀ (State.keepCalib s g) := by
  unfold State.keepCalib
  repeat' first
    | exact hm.trans (by decide)
    | with_reducible first
      | assumption | intro _ | refine Keeps.of_eq (by with_reducible assumption) ?_ | apply Keeps.ite
    | split | (dsimp only; split) | with_reducible apply Keeps.mk_calib

theorem State.writeTime_keeps {k₀ : Nat} {s₀ s : State} (a : Nat) (r : RegRow) (v : Word)
    (hm : Covers k₀ 0xffffffffffffffffffffffffffffffffffffffffffffffffffffffffffffffffffffffffffffffffffffffffffffff10104022) (hs : Keeps k₀ s₀ s) :
    Keeps k₀ s₀ (State.writeTime s a r v) := by
  unfold State.writeTime
  repeat' first
    | exact hm.trans (by decide)
    | with_reducible first
      | exact TIME_CAPT_in | exact TIME_CTRL_in | exact TIME_PTPCFG_in | exact TIME_STEPCMD_in | exact TIME_ULAT_in
      | assumption | intro _ | refine Keeps.of_eq (by with_reducible assumption) ?_ | apply State.clockCapture_keeps
      | apply State.decideRoles_keeps | apply State.forEach_keeps | apply State.go_keeps | apply State.keepCalib_keeps
      | apply State.restartPort_keeps | apply State.sourceOff_keeps | apply State.stepCommand_keeps
      | apply State.storeReg_keeps | apply Keeps.ite
    | split | (dsimp only; split)

theorem State.writeBkb_keeps {k₀ : Nat} {s₀ s : State} (a : Nat) (r : RegRow) (v : Word)
    (hm : Covers k₀ 0xffffffffffffffffffffffffffffffffffffffffffffffffffffffffffffffffffffffffffffffffffffffffffffff06431022) (hs : Keeps k₀ s₀ s) :
    Keeps k₀ s₀ (State.writeBkb s a r v) := by
  unfold State.writeBkb
  repeat' first
    | exact hm.trans (by decide)
    | with_reducible first
      | exact BKB_CTRL_in | assumption | intro _ | refine Keeps.of_eq (by with_reducible assumption) ?_
      | apply State.portOff_keeps | apply State.storeReg_keeps | apply State.when_keeps | apply Keeps.ite
    | split | (dsimp only; split)

theorem State.writeBrg_keeps {k₀ : Nat} {s₀ s : State} (a : Nat) (r : RegRow) (v : Word)
    (hm : Covers k₀ 0xffffffffffffffffffffffffffffffffffffffffffffffffffffffffffffffffffffffffffffffffffffffffffffff06431026) (hs : Keeps k₀ s₀ s) :
    Keeps k₀ s₀ (State.writeBrg s a r v) := by
  unfold State.writeBrg
  repeat' first
    | exact hm.trans (by decide)
    | with_reducible first
      | exact BRG_CTRL_in | assumption | intro _ | refine Keeps.of_eq (by with_reducible assumption) ?_
      | apply State.bridgeOff_keeps | apply State.storeReg_keeps | apply State.when_keeps | apply State.writeSmap_keeps
      | apply Keeps.ite
    | split | (dsimp only; split)

theorem State.writeMbx_keeps {k₀ : Nat} {s₀ s : State} (who : Initiator) (a : Nat) (r : RegRow) (v : Word)
    (hm : Covers k₀ 0xffffffffffffffffffffffffffffffffffffffffffffffffffffffffffffffffffffffffffffffffffffffffffffff00430022) (hs : Keeps k₀ s₀ s) :
    Keeps k₀ s₀ (State.writeMbx s who a r v) := by
  unfold State.writeMbx
  repeat' first
    | exact hm.trans (by decide)
    | with_reducible first
      | exact MBX_BIND_in | exact MBX_EPRST_in | exact inRows_all | assumption | intro _
      | refine Keeps.of_eq (by with_reducible assumption) ?_ | apply State.mbxBind_keeps | apply State.mbxCmd_keeps
      | apply State.mbxEprst_keeps | apply State.mbxHdr_keeps | apply State.mbxStat_keeps | apply State.mbxStore_keeps
      | apply State.storeReg_keeps | apply Keeps.ite
    | split | (dsimp only; split)

theorem State.writeCpl_keeps {k₀ : Nat} {s₀ s : State} (a : Nat) (r : RegRow) (v : Word)
    (hm : Covers k₀ 0xffffffffffffffffffffffffffffffffffffffffffffffffffffffffffffffffffffffffffffffffffffffffffffff08530002) (hs : Keeps k₀ s₀ s) :
    Keeps k₀ s₀ (State.writeCpl s a r v) := by
  unfold State.writeCpl
  repeat' first
    | exact hm.trans (by decide)
    | with_reducible first
      | exact CPL_CFG_in | exact CPL_COMMAND_in | assumption | intro _
      | refine Keeps.of_eq (by with_reducible assumption) ?_ | apply State.go_keeps | apply State.keepCalib_keeps
      | apply State.plannedSwitch_keeps | apply State.storeReg_keeps | apply Keeps.ite
    | split | (dsimp only; split)

theorem State.writeLio_keeps {k₀ : Nat} {s₀ s : State} (a : Nat) (r : RegRow) (v : Word)
    (hm : Covers k₀ 0xffffffffffffffffffffffffffffffffffffffffffffffffffffffffffffffffffffffffffffffffffffffffffffff001c0002) (hs : Keeps k₀ s₀ s) :
    Keeps k₀ s₀ (State.writeLio s a r v) := by
  unfold State.writeLio
  repeat' first
    | exact hm.trans (by decide)
    | with_reducible first
      | exact DIO_DIUCAL_in | exact DIO_DOCLR_in | exact LOOP_CLR_in | exact LOOP_UCAL_in | exact SAF_TPCTRL_in
      | assumption | intro _ | refine Keeps.of_eq (by with_reducible assumption) ?_ | apply State.doClear_keeps
      | apply State.go_keeps | apply State.issueTest_keeps | apply State.keepCalib_keeps | apply State.loopClear_keeps
      | apply State.storeReg_keeps | apply Keeps.ite
    | split | (dsimp only; split)

theorem State.writeBlw_keeps {k₀ : Nat} {s₀ s : State} (a : Nat) (r : RegRow) (v : Word)
    (hm : Covers k₀ 0xffffffffffffffffffffffffffffffffffffffffffffffffffffffffffffffffffffffffffffffffffffffffffffff1ffffffe) (hs : Keeps k₀ s₀ s) :
    Keeps k₀ s₀ (State.writeBlw s a r v) := by
  unfold State.writeBlw
  repeat' first
    | exact hm.trans (by decide)
    | with_reducible first
      | exact BLW_CMD_in | exact BLW_OPCAP_in | exact BLW_WDOG_in | exact BLW_WDTIME_in | assumption | intro _
      | refine Keeps.of_eq (by with_reducible assumption) ?_ | apply State.flag_keeps | apply State.go_keeps
      | apply State.refreshCap_keeps | apply State.resetCommand_keeps | apply State.storeReg_keeps
      | apply State.watchdogEnable_keeps | apply State.watchdogKey_keeps | apply Keeps.ite
    | split | (dsimp only; split)

theorem State.writeEvr_keeps {k₀ : Nat} {s₀ s : State} (a : Nat) (r : RegRow) (v : Word)
    (hm : Covers k₀ 0xffffffffffffffffffffffffffffffffffffffffffffffffffffffffffffffffffffffffffffffffffffffffffffff10410002) (hs : Keeps k₀ s₀ s) :
    Keeps k₀ s₀ (State.writeEvr s a r v) := by
  unfold State.writeEvr
  repeat' first
    | exact hm.trans (by decide)
    | with_reducible first
      | exact EVR_CMD_in | assumption | intro _ | refine Keeps.of_eq (by with_reducible assumption) ?_
      | apply State.evrClear_keeps | apply State.evrFlush_keeps | apply State.evrRead_keeps | apply State.go_keeps
      | apply State.storeReg_keeps | apply Keeps.ite
    | split | (dsimp only; split)

theorem State.writeUpd_keeps {k₀ : Nat} {s₀ s : State} (a : Nat) (r : RegRow) (v : Word)
    (hm : Covers k₀ 0xffffffffffffffffffffffffffffffffffffffffffffffffffffffffffffffffffffffffffffffffffffffffffffff1ffffffe) (hs : Keeps k₀ s₀ s) :
    Keeps k₀ s₀ (State.writeUpd s a r v) := by
  unfold State.writeUpd
  repeat' first
    | exact hm.trans (by decide)
    | with_reducible first
      | exact SEC_CMD_in | exact UPD_CMD_in | assumption | intro _
      | refine Keeps.of_eq (by with_reducible assumption) ?_ | apply State.apply_keeps | apply State.attest_keeps
      | apply State.enroll_keeps | apply State.go_keeps | apply State.revoke_keeps | apply State.sidingWrite_keeps
      | apply State.storeReg_keeps | apply State.tickFree_keeps | apply State.updConfirm_keeps
      | apply State.updDiscard_keeps | apply State.updRecover_keeps | apply Keeps.ite
    | split | (dsimp only; split)

theorem State.writeBlock_keeps {k₀ : Nat} {s₀ s : State} (who : Initiator) (a : Nat) (r : RegRow) (v : Word)
    (hm : Covers k₀ 0xffffffffffffffffffffffffffffffffffffffffffffffffffffffffffffffffffffffffffffffffffffffffffffff1ffffffe) (hs : Keeps k₀ s₀ s) :
    Keeps k₀ s₀ (State.writeBlock s who a r v) := by
  unfold State.writeBlock
  repeat' first
    | exact hm.trans (by decide)
    | with_reducible first
      | exact ANX_EPRST_in | exact ANY_EPRST_in | exact SYS_MODECFG_in | exact WAY_CMD_in | assumption | intro _
      | refine Keeps.of_eq (by with_reducible assumption) ?_ | apply State.go_keeps | apply State.modecfgWrite_keeps
      | apply State.purgeGo_keeps | apply State.storeReg_keeps | apply State.writeBkb_keeps | apply State.writeBlw_keeps
      | apply State.writeBrg_keeps | apply State.writeCpl_keeps | apply State.writeEprst_keeps
      | apply State.writeEvr_keeps | apply State.writeFrm_keeps | apply State.writeLane_keeps
      | apply State.writeLio_keeps | apply State.writeMbx_keeps | apply State.writeMem_keeps
      | apply State.writeSop_keeps | apply State.writeTime_keeps | apply State.writeUpd_keeps | apply Keeps.ite
    | split | (dsimp only; split)

theorem State.noteWrite_keeps {k₀ : Nat} {s₀ s : State} (who : Initiator) (a : Nat) (hm : Covers k₀ 0x20000)
    (hs : Keeps k₀ s₀ s) :
    Keeps k₀ s₀ (State.noteWrite s who a) := by
  unfold State.noteWrite
  repeat' first
    | exact hm.trans (by decide)
    | with_reducible first
      | assumption | intro _ | refine Keeps.of_eq (by with_reducible assumption) ?_ | apply State.copyItem_keeps
      | apply State.when_keeps | apply Keeps.ite
    | split | (dsimp only; split)

theorem State.busWrite_keeps' {k₀ : Nat} {s₀ s : State} (who : Initiator) (a : Nat) (v : Word) (lost : Bool) {t₁ : State}
    (e₁ : State.busWrite s who a v lost = some t₁) (hm : Covers k₀ 0xffffffffffffffffffffffffffffffffffffffffffffffffffffffffffffffffffffffffffffffffffffffffffffff1ffffffe) (hs : Keeps k₀ s₀ s) : Keeps k₀ s₀ t₁ := by
  unfold State.busWrite at e₁
  obtain ⟨x, -, rfl⟩ := Option.map_eq_some_iff.1 e₁
  split
  · exact State.when_keeps _ _
      (State.writeBlock_keeps _ _ _ _ (hm.trans (by decide)) (State.noteWrite_keeps _ _ (hm.trans (by decide)) hs))
      fun _ h => State.setReg_keeps _ _ inRows_all (hm.trans (by decide)) h
  · exact hs

theorem State.writeFault_keeps {k₀ : Nat} {s₀ s : State} (who : Initiator) (a : Nat)
    (hm : Covers k₀ 0x200618a000000000000000c000000400160000000000000000000000000000000001ac8a81a3a1421428200900184fa7ba) (hs : Keeps k₀ s₀ s) :
    Keeps k₀ s₀ (State.writeFault s who a) := by
  unfold State.writeFault
  repeat' first
    | exact hm.trans (by decide)
    | with_reducible first
      | assumption | intro _ | refine Keeps.of_eq (by with_reducible assumption) ?_ | apply State.dmaHalt_keeps
      | apply State.evAccess_keeps | apply State.syncTrap_keeps | apply Keeps.ite
    | split | (dsimp only; split)

theorem execRegisterWrite_keeps {k₀ : Nat} {s₀ s : State} (writer : Writer) (address : BitVec 24) (value : Word)
    (hm : Covers k₀ 0xffffffffffffffffffffffffffffffffffffffffffffffffffffffffffffffffffffffffffffffffffffffffffffff1ffffffe) (hs : Keeps k₀ s₀ s) : Outcome.Keeps k₀ s₀ (execRegisterWrite writer address value s) := by
  have h (b : Initiator) (c : Nat) := State.writeFault_keeps b c (hm.trans (by decide)) hs
  refine Outcome.keeps_next (Keeps.ite (h _ _) ?_)
  cases e : s.busWrite writer.who address.toNat value writer.lost with
  | none => exact h _ _
  | some t => exact State.busWrite_keeps' _ _ _ _ e hm hs

theorem State.emptyWindow_keeps {k₀ : Nat} {s₀ s : State} (c : Fin 12) (pa : Nat)
    (hm : Covers k₀ 0x200618a0000000000000000000000000000000000000000000000000000000000000000000000000000000000000410002) (hs : Keeps k₀ s₀ s) :
    Keeps k₀ s₀ (State.emptyWindow s c pa) := by
  unfold State.emptyWindow
  repeat' first
    | exact hm.trans (by decide)
    | with_reducible first
      | assumption | intro _ | refine Keeps.of_eq (by with_reducible assumption) ?_ | apply State.evAccess_keeps
      | apply Keeps.ite
    | split | (dsimp only; split)

theorem execLoad_keeps {k₀ : Nat} {s₀ s : State} (x : Site) (size : Size) (rd : BitVec 5) (ra : BitVec 5)
    (off : BitVec 17) (hm : Covers k₀ 0x200618a000000000000000c000000400160000000000000000000000000000000001e00ff1b3a1421428200900184f27ba) (hs : Keeps k₀ s₀ s) :
    Outcome.Keeps k₀ s₀ (execLoad x size rd ra off s) := by
  unfold execLoad
  repeat' first
    | exact hm.trans (by decide)
    | with_reducible first
      | assumption | intro _ | refine Keeps.of_eq (by with_reducible assumption) ?_ | apply State.dataAddr_keeps
      | apply State.emptyWindow_keeps | apply State.helin_keeps | apply State.loadMem_keeps | apply State.modCore_keeps
      | apply Keeps.ite | apply HRes.Keeps.ite | apply HRes.keeps_done | apply HRes.keeps_trap | apply HRes.keeps_jump
      | apply HRes.keeps_enter | apply HRes.keeps_service | apply Outcome.keeps_next
    | split | (dsimp only; split)

theorem execStore_keeps {k₀ : Nat} {s₀ s : State} (x : Site) (size : Size) (rs : BitVec 5) (ra : BitVec 5)
    (off : BitVec 17) (hm : Covers k₀ 0xffffffffffffffffffffffffffffffffffffffffffffffffffffffffffffffffffffffffffffffffffffffffffffff1ffffffe) (hs : Keeps k₀ s₀ s) :
    Outcome.Keeps k₀ s₀ (execStore x size rs ra off s) := by
  unfold execStore
  repeat' first
    | exact hm.trans (by decide)
    | with_reducible first
      | assumption | intro _ | refine Keeps.of_eq (by with_reducible assumption) ?_ | apply State.dataAddr_keeps
      | apply State.emptyWindow_keeps | apply State.helin_keeps | apply State.modCore_keeps | apply State.storeMem_keeps
      | refine State.busWrite_keeps' _ _ _ _ (by with_reducible assumption) (hm.trans (by decide)) ?_ | apply Keeps.ite
      | apply HRes.Keeps.ite | apply HRes.keeps_done | apply HRes.keeps_trap | apply HRes.keeps_jump
      | apply HRes.keeps_enter | apply HRes.keeps_service | apply Outcome.keeps_next
    | split | (dsimp only; split)

theorem State.dmaSide_keeps {k₀ : Nat} {s₀ s : State} (n : Nat) (va : Nat) (z : Nat) (kind : AccessKind) (trans : Nat)
    (access : Nat) (hm : Covers k₀ 0x200618a0000000000000000000000000000000000000000000000000000000000001a00a81800000000000000010418002) (hs : Keeps k₀ s₀ s) :
    Keeps k₀ s₀ (State.dmaSide s n va z kind trans access).1 := by
  unfold State.dmaSide
  repeat' first
    | exact hm.trans (by decide)
    | with_reducible first
      | assumption | intro _ | refine Keeps.of_eq (by with_reducible assumption) ?_ | apply State.ctxTranslate_keeps
      | apply State.evAccess_keeps | apply Keeps.ite
    | split | (dsimp only; split)

theorem State.dmaCheck_keeps {k₀ : Nat} {s₀ s : State} (pa : Nat) (z : Nat) (ecc : Ecc)
    (hm : Covers k₀ 0x200618a0000000000000000000000000000000000000000000000000000000000001e00ff180000000000000001041001a) (hs : Keeps k₀ s₀ s) :
    Keeps k₀ s₀ (State.dmaCheck s pa z ecc).1 := by
  unfold State.dmaCheck
  repeat' first
    | exact hm.trans (by decide)
    | with_reducible first
      | assumption | intro _ | refine Keeps.of_eq (by with_reducible assumption) ?_ | apply State.eccCheck_keeps
      | apply State.reportUe_keeps | apply Keeps.ite
    | split | (dsimp only; split)

theorem State.dmaRead_keeps {k₀ : Nat} {s₀ s : State} (pa : Nat) (z : Nat) (ecc : Ecc)
    (hm : Covers k₀ 0x200618a0000000000000000000000000000000000000000000000000000000000001e00ff180000000000000001041001a) (hs : Keeps k₀ s₀ s) :
    Keeps k₀ s₀ (State.dmaRead s pa z ecc).1 := by
  unfold State.dmaRead
  repeat' first
    | exact hm.trans (by decide)
    | with_reducible first
      | assumption | intro _ | refine Keeps.of_eq (by with_reducible assumption) ?_ | apply State.dmaCheck_keeps
      | apply Keeps.ite
    | split | (dsimp only; split)

theorem State.dmaWrite_keeps {k₀ : Nat} {s₀ s : State} (n : Nat) (pa : Nat) (data : List Byte) (lost : Bool) (hm : Covers k₀ 0xffffffffffffffffffffffffffffffffffffffffffffffffffffffffffffffffffffffffffffffffffffffffffffff1ffffffe)
    (hs : Keeps k₀ s₀ s) : Keeps k₀ s₀ (State.dmaWrite s n pa data lost).1 := by
  unfold State.dmaWrite
  split
  · cases e : s.busWrite (.dma (Fin.ofNat 16 n)) (pa - 0x40000000) (BitVec.ofNat 32 (ofLe data)) lost with
    | none => exact hs
    | some t => exact State.busWrite_keeps' _ _ _ _ e hm hs
  · split
    · exact State.reportUe_keeps _ (hm.trans (by decide)) hs
    · exact State.writeRun_keeps _ _ (hm.trans (by decide)) hs

theorem State.dmaMove_keeps {k₀ : Nat} {s₀ s : State} (n : Nat) (d : Desc) (z : Nat) (found : ElementFinding)
    (hm : Covers k₀ 0xffffffffffffffffffffffffffffffffffffffffffffffffffffffffffffffffffffffffffffffffffffffffffffff1ffffffe) (hs : Keeps k₀ s₀ s) :
    Keeps k₀ s₀ (State.dmaMove s n d z found) := by
  unfold State.dmaMove
  repeat' first
    | exact hm.trans (by decide)
    | with_reducible first
      | assumption | intro _ | refine Keeps.of_eq (by with_reducible assumption) ?_ | apply State.dmaHalt_keeps
      | apply State.dmaRead_keeps | apply State.dmaSide_keeps | apply State.dmaWrite_keeps | apply State.setDesc_keeps
      | apply Keeps.ite
    | split | (dsimp only; split)

theorem execDmaElement_keeps {k₀ : Nat} {s₀ s : State} (n : Fin 16) (found : ElementFinding) (hm : Covers k₀ 0xffffffffffffffffffffffffffffffffffffffffffffffffffffffffffffffffffffffffffffffffffffffffffffff1ffffffe) (hs : Keeps k₀ s₀ s) :
    Outcome.Keeps k₀ s₀ (execDmaElement n found s) := by
  refine Outcome.keeps_next ?_
  split
  · exact hs
  · rename_i d _
    refine Keeps.ite hs ?_
    cases d.size with
    | none => exact hs
    | some z => exact State.dmaMove_keeps _ _ _ _ hm hs

/-! ### Machine/Checkpoint.lean -/

theorem State.meetOutput_keeps {k₀ : Nat} {s₀ s : State} (c : Fin 12)
    (hm : Covers k₀ 0x200618a0000000000000000000000000000000000000000000000000000000000001a00a81800000000000000000410002) (hs : Keeps k₀ s₀ s) :
    Keeps k₀ s₀ (State.meetOutput s c) := by
  unfold State.meetOutput
  repeat' first
    | exact hm.trans (by decide)
    | with_reducible first
      | assumption | intro _ | refine Keeps.of_eq (by with_reducible assumption) ?_ | apply State.forEach_keeps
      | apply State.reportRange_keeps | apply Keeps.ite
    | split | (dsimp only; split)

theorem execCkpt_keeps {k₀ : Nat} {s₀ s : State} (x : Site) (ra : BitVec 5) (sr : BitVec 10)
    (hm : Covers k₀ 0x200618a000000000000000c000000400160000000000000000000000000000000001e00ff1b3a1421428200900184f27ba) (hs : Keeps k₀ s₀ s) :
    Outcome.Keeps k₀ s₀ (execCkpt x ra sr s) := by
  unfold execCkpt
  repeat' first
    | exact hm.trans (by decide)
    | with_reducible first
      | assumption | intro _ | refine Keeps.of_eq (by with_reducible assumption) ?_ | apply State.helin_keeps
      | apply State.leaveCycle_keeps | apply State.meetOutput_keeps | apply State.modCore_keeps
      | apply State.sendRecord_keeps | apply Keeps.ite | apply HRes.Keeps.ite | apply HRes.keeps_done
      | apply HRes.keeps_trap | apply HRes.keeps_jump | apply HRes.keeps_enter | apply HRes.keeps_service
      | apply Outcome.keeps_next
    | split | (dsimp only; split)

theorem State.queueEvent_keeps {k₀ : Nat} {s₀ s : State} (c : Fin 12) (hm : Covers k₀ 0xa0) (hs : Keeps k₀ s₀ s) :
    Keeps k₀ s₀ (State.queueEvent s c) := by
  unfold State.queueEvent
  repeat' first
    | exact hm.trans (by decide)
    | with_reducible first
      | assumption | intro _ | refine Keeps.of_eq (by with_reducible assumption) ?_ | apply State.modCore_keeps
      | apply State.modTask_keeps | apply Keeps.ite
    | split | (dsimp only; split)

theorem State.tcall_keeps {k₀ : Nat} {s₀ s : State} (x : Site) (r : BitVec 5) (number : BitVec 10)
    (hm : Covers k₀ 0x200618a000000000000000c000000400160000000000000000000000000000000001e00ff1b3a1421428200900184f27ba) (hs : Keeps k₀ s₀ s) :
    Keeps k₀ s₀ (State.tcall s x r number) := by
  unfold State.tcall
  repeat' first
    | exact hm.trans (by decide)
    | with_reducible first
      | assumption | intro _ | refine Keeps.of_eq (by with_reducible assumption) ?_ | apply State.helin_keeps
      | apply State.queueEvent_keeps | apply State.reportFault_keeps | apply Keeps.ite | apply HRes.Keeps.ite
      | apply HRes.keeps_done | apply HRes.keeps_trap | apply HRes.keeps_jump | apply HRes.keeps_enter
      | apply HRes.keeps_service
    | split | (dsimp only; split)

theorem execTcallTfault_keeps {k₀ : Nat} {s₀ s : State} (x : Site) (r : BitVec 5) (number : BitVec 10)
    (hm : Covers k₀ 0x200618a000000000000000c000000400160000000000000000000000000000000001e00ff1b3a1421428200900184f27ba) (hs : Keeps k₀ s₀ s) :
    Outcome.Keeps k₀ s₀ (execTcallTfault x r number s) := by
  unfold execTcallTfault
  repeat' first
    | exact hm.trans (by decide)
    | with_reducible first
      | assumption | intro _ | refine Keeps.of_eq (by with_reducible assumption) ?_ | apply State.tcall_keeps
      | apply Keeps.ite | apply Outcome.keeps_next
    | split | (dsimp only; split)

theorem execTcallTevent_keeps {k₀ : Nat} {s₀ s : State} (x : Site) (r : BitVec 5)
    (hm : Covers k₀ 0x200618a000000000000000c000000400160000000000000000000000000000000001e00ff1b3a1421428200900184f27ba) (hs : Keeps k₀ s₀ s) :
    Outcome.Keeps k₀ s₀ (execTcallTevent x r s) := by
  unfold execTcallTevent
  repeat' first
    | exact hm.trans (by decide)
    | with_reducible first
      | assumption | intro _ | refine Keeps.of_eq (by with_reducible assumption) ?_ | apply State.tcall_keeps
      | apply Keeps.ite | apply Outcome.keeps_next
    | split | (dsimp only; split)

/-! ### Machine/Commands.lean -/

theorem State.badArguments_keeps {k₀ : Nat} {s₀ s : State} (hs : Keeps k₀ s₀ s) :
    Keeps k₀ s₀ (State.badArguments s).1 := by
  unfold State.badArguments
  repeat' first
    | with_reducible first
      | assumption | intro _ | refine Keeps.of_eq (by with_reducible assumption) ?_ | apply Keeps.ite
    | split | (dsimp only; split)

theorem State.command_keeps {k₀ : Nat} {s₀ s : State} (r : LapRequest) (code : Nat)
    (f : State → Nat → List Byte → Decided) (hm : Covers k₀ 0x7008c0000000000000000000000000000000000000000000a000002) (hs : Keeps k₀ s₀ s) (hf : ∀ x0 x1 x2, Keeps k₀ s₀ x0 → Keeps k₀ s₀ (f x0 x1 x2).1) :
    Keeps k₀ s₀ (State.command s r code f) := by
  unfold State.command
  repeat' first
    | exact hm.trans (by decide)
    | with_reducible first
      | assumption | intro _ | apply hf | refine Keeps.of_eq (by with_reducible assumption) ?_
      | apply State.lapAnswer_keeps | apply State.lapStatus_keeps | apply State.modLap_keeps | apply State.serve_keeps
      | apply Keeps.ite
    | split | (dsimp only; split)

theorem bareCommand_keeps {k₀ : Nat} {s₀ y0 : State} (f : State → Nat → Decided) (y1 : Nat) (y2 : List Byte)
    (hs : Keeps k₀ s₀ y0) (hf : ∀ x0 x1, Keeps k₀ s₀ x0 → Keeps k₀ s₀ (f x0 x1).1) :
    Keeps k₀ s₀ (bareCommand f y0 y1 y2).1 := by
  unfold bareCommand
  repeat' first
    | with_reducible first
      | assumption | intro _ | apply hf | refine Keeps.of_eq (by with_reducible assumption) ?_
      | apply State.badArguments_keeps | apply Keeps.ite
    | split | (dsimp only; split)

theorem execCommandMode_keeps {k₀ : Nat} {s₀ s : State} (r : LapRequest)
    (hm : Covers k₀ 0x200618a0000000000000000000000000000000000007008c0000000000000000000000000000000000000000400a410002) (hs : Keeps k₀ s₀ s) :
    Outcome.Keeps k₀ s₀ (execCommandMode r s) := by
  unfold execCommandMode
  repeat' first
    | exact hm.trans (by decide)
    | with_reducible first
      | assumption | intro _ | refine Keeps.of_eq (by with_reducible assumption) ?_ | apply State.badArguments_keeps
      | apply State.command_keeps | apply State.modeCommand_keeps | apply Keeps.ite | apply Outcome.keeps_next
    | split | (dsimp only; split)

theorem execCommandWarmrst_keeps {k₀ : Nat} {s₀ s : State} (r : LapRequest)
    (hm : Covers k₀ 0x200618a0000000000000000000000000000000000007008c0000000000000000000000000000000000000000000a411002) (hs : Keeps k₀ s₀ s) :
    Outcome.Keeps k₀ s₀ (execCommandWarmrst r s) := by
  unfold execCommandWarmrst
  repeat' first
    | exact hm.trans (by decide)
    | with_reducible first
      | assumption | intro _ | refine Keeps.of_eq (by with_reducible assumption) ?_ | apply State.command_keeps
      | apply State.restartCommand_keeps | apply bareCommand_keeps | apply Keeps.ite | apply Outcome.keeps_next
    | split | (dsimp only; split)

theorem execCommandColdrst_keeps {k₀ : Nat} {s₀ s : State} (r : LapRequest)
    (hm : Covers k₀ 0x200618a0000000000000000000000000000000000007008c0000000000000000000000000000000000000000000a411002) (hs : Keeps k₀ s₀ s) :
    Outcome.Keeps k₀ s₀ (execCommandColdrst r s) := by
  unfold execCommandColdrst
  repeat' first
    | exact hm.trans (by decide)
    | with_reducible first
      | assumption | intro _ | refine Keeps.of_eq (by with_reducible assumption) ?_ | apply State.command_keeps
      | apply State.restartCommand_keeps | apply bareCommand_keeps | apply Keeps.ite | apply Outcome.keeps_next
    | split | (dsimp only; split)

theorem execCommandPurge_keeps {k₀ : Nat} {s₀ s : State} (r : LapRequest)
    (hm : Covers k₀ 0x200618a0000000000000000000000000000000000007008c0000000000000000000000000000000000000001000a411002) (hs : Keeps k₀ s₀ s) :
    Outcome.Keeps k₀ s₀ (execCommandPurge r s) := by
  unfold execCommandPurge
  repeat' first
    | exact hm.trans (by decide)
    | with_reducible first
      | assumption | intro _ | refine Keeps.of_eq (by with_reducible assumption) ?_ | apply State.command_keeps
      | apply State.purgeCommand_keeps | apply bareCommand_keeps | apply Keeps.ite | apply Outcome.keeps_next
    | split | (dsimp only; split)

theorem execCommandForceset_keeps {k₀ : Nat} {s₀ s : State} (r : LapRequest)
    (hm : Covers k₀ 0x200618a0000000000000000000000000000000000007008c0000000000000000000000000000000000000001100a431002) (hs : Keeps k₀ s₀ s) :
    Outcome.Keeps k₀ s₀ (execCommandForceset r s) := by
  unfold execCommandForceset
  repeat' first
    | exact hm.trans (by decide)
    | with_reducible first
      | assumption | intro _ | refine Keeps.of_eq (by with_reducible assumption) ?_ | apply State.badArguments_keeps
      | apply State.command_keeps | apply State.forceSet_keeps | apply Keeps.ite | apply Outcome.keeps_next
    | split | (dsimp only; split)

theorem execCommandForcerel_keeps {k₀ : Nat} {s₀ s : State} (r : LapRequest)
    (hm : Covers k₀ 0x200618a0000000000000000000000000000000000007008c0000000000000000000000000000000000000001100a431002) (hs : Keeps k₀ s₀ s) :
    Outcome.Keeps k₀ s₀ (execCommandForcerel r s) := by
  unfold execCommandForcerel
  repeat' first
    | exact hm.trans (by decide)
    | with_reducible first
      | assumption | intro _ | refine Keeps.of_eq (by with_reducible assumption) ?_ | apply State.badArguments_keeps
      | apply State.command_keeps | apply State.forceRel_keeps | apply Keeps.ite | apply Outcome.keeps_next
    | split | (dsimp only; split)

theorem execCommandForcestart_keeps {k₀ : Nat} {s₀ s : State} (r : LapRequest)
    (hm : Covers k₀ 0x200618a0000000000000000000000000000000000007008c0000000000000000000000000000000000000000400a410002) (hs : Keeps k₀ s₀ s) :
    Outcome.Keeps k₀ s₀ (execCommandForcestart r s) := by
  unfold execCommandForcestart
  repeat' first
    | exact hm.trans (by decide)
    | with_reducible first
      | assumption | intro _ | refine Keeps.of_eq (by with_reducible assumption) ?_ | apply State.command_keeps
      | apply State.forceStart_keeps | apply bareCommand_keeps | apply Keeps.ite | apply Outcome.keeps_next
    | split | (dsimp only; split)

theorem execCommandChgload_keeps {k₀ : Nat} {s₀ s : State} (r : LapRequest) (package : Package) (check : Nat)
    (hm : Covers k₀ 0x1200618a0000000000000000000000000000000000007008c0000000000000000000000000000000000000001000a43200a) (hs : Keeps k₀ s₀ s) :
    Outcome.Keeps k₀ s₀ (execCommandChgload r package check s) := by
  unfold execCommandChgload
  repeat' first
    | exact hm.trans (by decide)
    | with_reducible first
      | assumption | intro _ | refine Keeps.of_eq (by with_reducible assumption) ?_ | apply State.badArguments_keeps
      | apply State.chgLoad_keeps | apply State.command_keeps | apply Keeps.ite | apply Outcome.keeps_next
    | split | (dsimp only; split)

theorem execCommandChgswitch_keeps {k₀ : Nat} {s₀ s : State} (r : LapRequest)
    (hm : Covers k₀ 0x200618a0000000000000000000000000000000000007008c0000000000000000000000000000000000000001000a411002) (hs : Keeps k₀ s₀ s) :
    Outcome.Keeps k₀ s₀ (execCommandChgswitch r s) := by
  unfold execCommandChgswitch
  repeat' first
    | exact hm.trans (by decide)
    | with_reducible first
      | assumption | intro _ | refine Keeps.of_eq (by with_reducible assumption) ?_ | apply State.chgSwitch_keeps
      | apply State.command_keeps | apply bareCommand_keeps | apply Keeps.ite | apply Outcome.keeps_next
    | split | (dsimp only; split)

theorem execCommandChgdiscard_keeps {k₀ : Nat} {s₀ s : State} (r : LapRequest)
    (hm : Covers k₀ 0x1200618a0000000000000000000000000000000000007008c0000000000000000000000000000000000000001000a41200a) (hs : Keeps k₀ s₀ s) :
    Outcome.Keeps k₀ s₀ (execCommandChgdiscard r s) := by
  unfold execCommandChgdiscard
  repeat' first
    | exact hm.trans (by decide)
    | with_reducible first
      | assumption | intro _ | refine Keeps.of_eq (by with_reducible assumption) ?_ | apply State.chgDiscard_keeps
      | apply State.command_keeps | apply bareCommand_keeps | apply Keeps.ite | apply Outcome.keeps_next
    | split | (dsimp only; split)

theorem execCommandChgcommit_keeps {k₀ : Nat} {s₀ s : State} (r : LapRequest)
    (hm : Covers k₀ 0x3200618a0000000000000000000000000000000000007008c0000000000000000000000000000000000000001000a41200a) (hs : Keeps k₀ s₀ s) :
    Outcome.Keeps k₀ s₀ (execCommandChgcommit r s) := by
  unfold execCommandChgcommit
  repeat' first
    | exact hm.trans (by decide)
    | with_reducible first
      | assumption | intro _ | refine Keeps.of_eq (by with_reducible assumption) ?_ | apply State.chgCommit_keeps
      | apply State.command_keeps | apply bareCommand_keeps | apply Keeps.ite | apply Outcome.keeps_next
    | split | (dsimp only; split)

theorem execCommandChgrollback_keeps {k₀ : Nat} {s₀ s : State} (r : LapRequest)
    (hm : Covers k₀ 0x200618a0000000000000000000000000000000000007008c0000000000000000000000000000000000000001000a411002) (hs : Keeps k₀ s₀ s) :
    Outcome.Keeps k₀ s₀ (execCommandChgrollback r s) := by
  unfold execCommandChgrollback
  repeat' first
    | exact hm.trans (by decide)
    | with_reducible first
      | assumption | intro _ | refine Keeps.of_eq (by with_reducible assumption) ?_ | apply State.chgRollback_keeps
      | apply State.command_keeps | apply bareCommand_keeps | apply Keeps.ite | apply Outcome.keeps_next
    | split | (dsimp only; split)

theorem execCommandTaskrestart_keeps {k₀ : Nat} {s₀ s : State} (r : LapRequest)
    (hm : Covers k₀ 0x200618a0000000000000000000000000000000000007008c0000000000000000000000000000000000080000000a410002) (hs : Keeps k₀ s₀ s) :
    Outcome.Keeps k₀ s₀ (execCommandTaskrestart r s) := by
  unfold execCommandTaskrestart
  repeat' first
    | exact hm.trans (by decide)
    | with_reducible first
      | assumption | intro _ | refine Keeps.of_eq (by with_reducible assumption) ?_ | apply State.badArguments_keeps
      | apply State.command_keeps | apply State.taskRestartCommand_keeps | apply Keeps.ite | apply Outcome.keeps_next
    | split | (dsimp only; split)

theorem execCommandConfirm_keeps {k₀ : Nat} {s₀ s : State} (r : LapRequest)
    (hm : Covers k₀ 0x200618a0000000000000000000000000000000000007008c0000000000000000000000000000000000000001000a411002) (hs : Keeps k₀ s₀ s) :
    Outcome.Keeps k₀ s₀ (execCommandConfirm r s) := by
  unfold execCommandConfirm
  repeat' first
    | exact hm.trans (by decide)
    | with_reducible first
      | assumption | intro _ | refine Keeps.of_eq (by with_reducible assumption) ?_ | apply State.badArguments_keeps
      | apply State.command_keeps | apply State.confirmCommand_keeps | apply Keeps.ite | apply Outcome.keeps_next
    | split | (dsimp only; split)

theorem execCommandState_keeps {k₀ : Nat} {s₀ s : State} (r : LapRequest)
    (hm : Covers k₀ 0x7008c0000000000000000000000000000000000000000000a000002) (hs : Keeps k₀ s₀ s) :
    Outcome.Keeps k₀ s₀ (execCommandState r s) := by
  unfold execCommandState
  repeat' first
    | exact hm.trans (by decide)
    | with_reducible first
      | assumption | intro _ | refine Keeps.of_eq (by with_reducible assumption) ?_ | apply State.accept_keeps
      | apply State.command_keeps | apply bareCommand_keeps | apply Keeps.ite | apply Outcome.keeps_next
    | split | (dsimp only; split)

theorem State.stage_keeps {k₀ : Nat} {s₀ s : State} (at' : Nat) (bs : List Byte) (hm : Covers k₀ 0x2000)
    (hs : Keeps k₀ s₀ s) :
    Keeps k₀ s₀ (State.stage s at' bs) := by
  unfold State.stage
  repeat' first
    | exact hm.trans (by decide)
    | with_reducible first
      | assumption | intro _ | refine Keeps.of_eq (by with_reducible assumption) ?_ | apply State.setChange_keeps
      | apply Keeps.ite
    | split | (dsimp only; split)

theorem execPkgdata_keeps {k₀ : Nat} {s₀ s : State} (r : LapRequest)
    (hm : Covers k₀ 0x7008c0000000000000000000000000000000000000000000a002002) (hs : Keeps k₀ s₀ s) :
    Outcome.Keeps k₀ s₀ (execPkgdata r s) := by
  unfold execPkgdata
  repeat' first
    | exact hm.trans (by decide)
    | with_reducible first
      | assumption | intro _ | refine Keeps.of_eq (by with_reducible assumption) ?_ | apply State.lapAnswer_keeps
      | apply State.lapStatus_keeps | apply State.serve_keeps | apply State.stage_keeps | apply Keeps.ite
      | apply Outcome.keeps_next
    | split | (dsimp only; split)

/-! ### Machine/ImageUnit.lean -/

theorem State.cellCheck_keeps {k₀ : Nat} {s₀ s : State} (x : Site) (pa : Nat) (n : Nat)
    (hm : Covers k₀ 0x200618a0000000000000000000000000000000000000000000000000000000000001e00ff180000000000000001041001a) (hs : Keeps k₀ s₀ s) :
    Keeps k₀ s₀ (State.cellCheck s x pa n).1 := by
  unfold State.cellCheck
  repeat' first
    | exact hm.trans (by decide)
    | with_reducible first
      | assumption | intro _ | refine Keeps.of_eq (by with_reducible assumption) ?_ | apply State.eccCheck_keeps
      | apply State.reportUe_keeps | apply Keeps.ite
    | split | (dsimp only; split)

theorem cellMachineCheck_keeps {k₀ : Nat} {s₀ s : State} (hm : Covers k₀ 0x10000000) (hs : Keeps k₀ s₀ s) :
    HRes.Keeps k₀ s₀ (cellMachineCheck s) := by
  unfold cellMachineCheck
  repeat' first
    | exact hm.trans (by decide)
    | with_reducible first
      | assumption | intro _ | refine Keeps.of_eq (by with_reducible assumption) ?_ | apply State.tickFree_keeps
      | apply Keeps.ite | apply HRes.Keeps.ite | apply HRes.keeps_done | apply HRes.keeps_trap | apply HRes.keeps_jump
      | apply HRes.keeps_enter | apply HRes.keeps_service
    | split | (dsimp only; split)

theorem State.withCells_keeps {k₀ : Nat} {s₀ s : State} (x : Site) (analog : Bool) (pa : Nat) (n : Nat)
    (body : State → List Point → HRes) (hm : Covers k₀ 0x200618a0000000000000000000000000000000000000000000000000000000000001e00ff180000000000000001041001a) (hs : Keeps k₀ s₀ s) (hbody : ∀ x0 x1, Keeps k₀ s₀ x0 → HRes.Keeps k₀ s₀ (body x0 x1)) :
    HRes.Keeps k₀ s₀ (State.withCells s x analog pa n body) := by
  unfold State.withCells
  repeat' first
    | exact hm.trans (by decide)
    | with_reducible first
      | assumption | intro _ | apply hbody | refine Keeps.of_eq (by with_reducible assumption) ?_
      | apply State.cellCheck_keeps | apply cellMachineCheck_keeps | apply Keeps.ite | apply HRes.Keeps.ite
      | apply HRes.keeps_done | apply HRes.keeps_trap | apply HRes.keeps_jump | apply HRes.keeps_enter
      | apply HRes.keeps_service
    | split | (dsimp only; split)

theorem State.storeCells_keeps {k₀ : Nat} {s₀ s : State} (x : Site) (analog : Bool) (pa : Nat) (start : Nat)
    (ps : List Point) (hm : Covers k₀ 0x200618a0000000000000000000000000000000000000000000000000000000000001e00ff180000000000000001041003a) (hs : Keeps k₀ s₀ s) :
    HRes.Keeps k₀ s₀ (State.storeCells s x analog pa start ps) := by
  unfold State.storeCells
  repeat' first
    | exact hm.trans (by decide)
    | with_reducible first
      | assumption | intro _ | refine Keeps.of_eq (by with_reducible assumption) ?_ | apply State.cellCheck_keeps
      | apply State.forEach_keeps | apply State.modCore_keeps | apply State.putCell_keeps | apply cellMachineCheck_keeps
      | apply Keeps.ite | apply HRes.Keeps.ite | apply HRes.keeps_done | apply HRes.keeps_trap | apply HRes.keeps_jump
      | apply HRes.keeps_enter | apply HRes.keeps_service
    | split | (dsimp only; split)

theorem State.pointLoad_keeps {k₀ : Nat} {s₀ s : State} (x : Site) (analog : Bool) (i : Nat)
    (keep : Point → Core → Core) (hm : Covers k₀ 0x200618a0000000000000000000000000000000000000000000000000000000000001e00ff180000000000000001041003a) (hs : Keeps k₀ s₀ s) :
    HRes.Keeps k₀ s₀ (State.pointLoad s x analog i keep) := by
  unfold State.pointLoad
  repeat' first
    | exact hm.trans (by decide)
    | with_reducible first
      | assumption | intro _ | refine Keeps.of_eq (by with_reducible assumption) ?_ | apply State.modCore_keeps
      | apply State.withCells_keeps | apply Keeps.ite | apply HRes.Keeps.ite | apply HRes.keeps_done
      | apply HRes.keeps_trap | apply HRes.keeps_jump | apply HRes.keeps_enter | apply HRes.keeps_service
    | split | (dsimp only; split)

theorem State.pointStore_keeps {k₀ : Nat} {s₀ s : State} (x : Site) (analog : Bool) (i : Nat) (p : Point)
    (hm : Covers k₀ 0x200618a0000000000000000000000000000000000000000000000000000000000001e00ff180000000000000001041003a) (hs : Keeps k₀ s₀ s) :
    HRes.Keeps k₀ s₀ (State.pointStore s x analog i p) := by
  unfold State.pointStore
  repeat' first
    | exact hm.trans (by decide)
    | with_reducible first
      | assumption | intro _ | refine Keeps.of_eq (by with_reducible assumption) ?_ | apply State.storeCells_keeps
      | apply Keeps.ite | apply HRes.Keeps.ite | apply HRes.keeps_done | apply HRes.keeps_trap | apply HRes.keeps_jump
      | apply HRes.keeps_enter | apply HRes.keeps_service
    | split | (dsimp only; split)

theorem execPld_keeps {k₀ : Nat} {s₀ s : State} (x : Site) (rd : BitVec 5) (rq : BitVec 5) (idx : BitVec 17)
    (hm : Covers k₀ 0x200618a000000000000000c000000400160000000000000000000000000000000001e00ff1b3a1421428200900184f27ba) (hs : Keeps k₀ s₀ s) :
    Outcome.Keeps k₀ s₀ (execPld x rd rq idx s) := by
  unfold execPld
  repeat' first
    | exact hm.trans (by decide)
    | with_reducible first
      | assumption | intro _ | refine Keeps.of_eq (by with_reducible assumption) ?_ | apply State.helin_keeps
      | apply State.pointLoad_keeps | apply Keeps.ite | apply HRes.Keeps.ite | apply HRes.keeps_done
      | apply HRes.keeps_trap | apply HRes.keeps_jump | apply HRes.keeps_enter | apply HRes.keeps_service
      | apply Outcome.keeps_next
    | split | (dsimp only; split)

theorem execPst_keeps {k₀ : Nat} {s₀ s : State} (x : Site) (rd : BitVec 5) (rq : BitVec 5) (idx : BitVec 17)
    (hm : Covers k₀ 0x200618a000000000000000c000000400160000000000000000000000000000000001e00ff1b3a1421428200900184f27ba) (hs : Keeps k₀ s₀ s) :
    Outcome.Keeps k₀ s₀ (execPst x rd rq idx s) := by
  unfold execPst
  repeat' first
    | exact hm.trans (by decide)
    | with_reducible first
      | assumption | intro _ | refine Keeps.of_eq (by with_reducible assumption) ?_ | apply State.helin_keeps
      | apply State.pointStore_keeps | apply Keeps.ite | apply HRes.Keeps.ite | apply HRes.keeps_done
      | apply HRes.keeps_trap | apply HRes.keeps_jump | apply HRes.keeps_enter | apply HRes.keeps_service
      | apply Outcome.keeps_next
    | split | (dsimp only; split)

theorem State.analogLoad_keeps {k₀ : Nat} {s₀ s : State} (x : Site) (op : Nat) (rd : BitVec 5) (rq : BitVec 5)
    (idx : BitVec 14) (ext : Word → DWord) (hm : Covers k₀ 0x200618a000000000000000c000000400160000000000000000000000000000000001e00ff1b3a1421428200900184f27ba) (hs : Keeps k₀ s₀ s) :
    Keeps k₀ s₀ (State.analogLoad s x op rd rq idx ext) := by
  unfold State.analogLoad
  repeat' first
    | exact hm.trans (by decide)
    | with_reducible first
      | assumption | intro _ | refine Keeps.of_eq (by with_reducible assumption) ?_ | apply State.helin_keeps
      | apply State.pointLoad_keeps | apply Keeps.ite | apply HRes.Keeps.ite | apply HRes.keeps_done
      | apply HRes.keeps_trap | apply HRes.keeps_jump | apply HRes.keeps_enter | apply HRes.keeps_service
    | split | (dsimp only; split)

theorem execAld_keeps {k₀ : Nat} {s₀ s : State} (x : Site) (rd : BitVec 5) (rq : BitVec 5) (idx : BitVec 14)
    (hm : Covers k₀ 0x200618a000000000000000c000000400160000000000000000000000000000000001e00ff1b3a1421428200900184f27ba) (hs : Keeps k₀ s₀ s) :
    Outcome.Keeps k₀ s₀ (execAld x rd rq idx s) := by
  unfold execAld
  repeat' first
    | exact hm.trans (by decide)
    | with_reducible first
      | assumption | intro _ | refine Keeps.of_eq (by with_reducible assumption) ?_ | apply State.analogLoad_keeps
      | apply Keeps.ite | apply Outcome.keeps_next
    | split | (dsimp only; split)

theorem execAldu_keeps {k₀ : Nat} {s₀ s : State} (x : Site) (rd : BitVec 5) (rq : BitVec 5) (idx : BitVec 14)
    (hm : Covers k₀ 0x200618a000000000000000c000000400160000000000000000000000000000000001e00ff1b3a1421428200900184f27ba) (hs : Keeps k₀ s₀ s) :
    Outcome.Keeps k₀ s₀ (execAldu x rd rq idx s) := by
  unfold execAldu
  repeat' first
    | exact hm.trans (by decide)
    | with_reducible first
      | assumption | intro _ | refine Keeps.of_eq (by with_reducible assumption) ?_ | apply State.analogLoad_keeps
      | apply Keeps.ite | apply Outcome.keeps_next
    | split | (dsimp only; split)

theorem execAst_keeps {k₀ : Nat} {s₀ s : State} (x : Site) (rd : BitVec 5) (rq : BitVec 5) (idx : BitVec 14)
    (hm : Covers k₀ 0x200618a000000000000000c000000400160000000000000000000000000000000001e00ff1b3a1421428200900184f27ba) (hs : Keeps k₀ s₀ s) :
    Outcome.Keeps k₀ s₀ (execAst x rd rq idx s) := by
  unfold execAst
  repeat' first
    | exact hm.trans (by decide)
    | with_reducible first
      | assumption | intro _ | refine Keeps.of_eq (by with_reducible assumption) ?_ | apply State.helin_keeps
      | apply State.pointStore_keeps | apply Keeps.ite | apply HRes.Keeps.ite | apply HRes.keeps_done
      | apply HRes.keeps_trap | apply HRes.keeps_jump | apply HRes.keeps_enter | apply HRes.keeps_service
      | apply Outcome.keeps_next
    | split | (dsimp only; split)

theorem execAldf_keeps {k₀ : Nat} {s₀ s : State} (x : Site) (rd : BitVec 5) (rq : BitVec 5) (idx : BitVec 14)
    (hm : Covers k₀ 0x200618a000000000000000c000000400160000000000000000000000000000000001e00ff1b3a1421428200900184f27ba) (hs : Keeps k₀ s₀ s) :
    Outcome.Keeps k₀ s₀ (execAldf x rd rq idx s) := by
  unfold execAldf
  repeat' first
    | exact hm.trans (by decide)
    | with_reducible first
      | assumption | intro _ | refine Keeps.of_eq (by with_reducible assumption) ?_ | apply State.helin_keeps
      | apply State.pointLoad_keeps | apply Keeps.ite | apply HRes.Keeps.ite | apply HRes.keeps_done
      | apply HRes.keeps_trap | apply HRes.keeps_jump | apply HRes.keeps_enter | apply HRes.keeps_service
      | apply Outcome.keeps_next
    | split | (dsimp only; split)

theorem execAstf_keeps {k₀ : Nat} {s₀ s : State} (x : Site) (rd : BitVec 5) (rq : BitVec 5) (idx : BitVec 14)
    (hm : Covers k₀ 0x200618a000000000000000c000000400160000000000000000000000000000000001e00ff1b3a1421428200900184f27ba) (hs : Keeps k₀ s₀ s) :
    Outcome.Keeps k₀ s₀ (execAstf x rd rq idx s) := by
  unfold execAstf
  repeat' first
    | exact hm.trans (by decide)
    | with_reducible first
      | assumption | intro _ | refine Keeps.of_eq (by with_reducible assumption) ?_ | apply State.helin_keeps
      | apply State.pointStore_keeps | apply Keeps.ite | apply HRes.Keeps.ite | apply HRes.keeps_done
      | apply HRes.keeps_trap | apply HRes.keeps_jump | apply HRes.keeps_enter | apply HRes.keeps_service
      | apply Outcome.keeps_next
    | split | (dsimp only; split)

theorem State.ctl_keeps {k₀ : Nat} {s₀ s : State} (x : Site) (func : Nat) (rd : BitVec 5) (ra : BitVec 5)
    (rb : BitVec 5) (zero : BitVec 5) (body : State → HRes) (hm : Covers k₀ 0x200618a000000000000000c000000400160000000000000000000000000000000001e00ff1b3a1421428200900184f27ba) (hs : Keeps k₀ s₀ s) (hbody : ∀ x0, Keeps k₀ s₀ x0 → HRes.Keeps k₀ s₀ (body x0)) :
    Keeps k₀ s₀ (State.ctl s x func rd ra rb zero body) := by
  unfold State.ctl
  repeat' first
    | exact hm.trans (by decide)
    | with_reducible first
      | assumption | intro _ | apply hbody | refine Keeps.of_eq (by with_reducible assumption) ?_
      | apply State.helin_keeps | apply Keeps.ite | apply HRes.Keeps.ite | apply HRes.keeps_done | apply HRes.keeps_trap
      | apply HRes.keeps_jump | apply HRes.keeps_enter | apply HRes.keeps_service
    | split | (dsimp only; split)

theorem State.withIndex_keeps {k₀ : Nat} {s₀ s : State} (x : Site) (analog : Bool) (ra : BitVec 5) (body : Nat → HRes)
    (hs : Keeps k₀ s₀ s) (hbody : ∀ x0, HRes.Keeps k₀ s₀ (body x0)) :
    HRes.Keeps k₀ s₀ (State.withIndex s x analog ra body) := by
  unfold State.withIndex
  repeat' first
    | with_reducible first
      | assumption | intro _ | apply hbody | refine Keeps.of_eq (by with_reducible assumption) ?_ | apply Keeps.ite
      | apply HRes.Keeps.ite | apply HRes.keeps_done | apply HRes.keeps_trap | apply HRes.keeps_jump
      | apply HRes.keeps_enter | apply HRes.keeps_service
    | split | (dsimp only; split)

theorem State.indexedLoad_keeps {k₀ : Nat} {s₀ s : State} (x : Site) (func : Nat) (analog : Bool) (rd : BitVec 5)
    (ra : BitVec 5) (rb : BitVec 5) (hm : Covers k₀ 0x200618a000000000000000c000000400160000000000000000000000000000000001e00ff1b3a1421428200900184f27ba) (hs : Keeps k₀ s₀ s) :
    Keeps k₀ s₀ (State.indexedLoad s x func analog rd ra rb) := by
  unfold State.indexedLoad
  repeat' first
    | exact hm.trans (by decide)
    | with_reducible first
      | assumption | intro _ | refine Keeps.of_eq (by with_reducible assumption) ?_ | apply State.ctl_keeps
      | apply State.pointLoad_keeps | apply State.withIndex_keeps | apply Keeps.ite
    | split | (dsimp only; split)

theorem State.indexedStore_keeps {k₀ : Nat} {s₀ s : State} (x : Site) (func : Nat) (analog : Bool) (rd : BitVec 5)
    (ra : BitVec 5) (rb : BitVec 5) (hm : Covers k₀ 0x200618a000000000000000c000000400160000000000000000000000000000000001e00ff1b3a1421428200900184f27ba) (hs : Keeps k₀ s₀ s) :
    Keeps k₀ s₀ (State.indexedStore s x func analog rd ra rb) := by
  unfold State.indexedStore
  repeat' first
    | exact hm.trans (by decide)
    | with_reducible first
      | assumption | intro _ | refine Keeps.of_eq (by with_reducible assumption) ?_ | apply State.ctl_keeps
      | apply State.pointStore_keeps | apply State.withIndex_keeps | apply Keeps.ite
    | split | (dsimp only; split)

theorem execPldx_keeps {k₀ : Nat} {s₀ s : State} (x : Site) (rd : BitVec 5) (ra : BitVec 5) (rb : BitVec 5)
    (hm : Covers k₀ 0x200618a000000000000000c000000400160000000000000000000000000000000001e00ff1b3a1421428200900184f27ba) (hs : Keeps k₀ s₀ s) :
    Outcome.Keeps k₀ s₀ (execPldx x rd ra rb s) := by
  unfold execPldx
  repeat' first
    | exact hm.trans (by decide)
    | with_reducible first
      | assumption | intro _ | refine Keeps.of_eq (by with_reducible assumption) ?_ | apply State.indexedLoad_keeps
      | apply Keeps.ite | apply Outcome.keeps_next
    | split | (dsimp only; split)

theorem execPstx_keeps {k₀ : Nat} {s₀ s : State} (x : Site) (rd : BitVec 5) (ra : BitVec 5) (rb : BitVec 5)
    (hm : Covers k₀ 0x200618a000000000000000c000000400160000000000000000000000000000000001e00ff1b3a1421428200900184f27ba) (hs : Keeps k₀ s₀ s) :
    Outcome.Keeps k₀ s₀ (execPstx x rd ra rb s) := by
  unfold execPstx
  repeat' first
    | exact hm.trans (by decide)
    | with_reducible first
      | assumption | intro _ | refine Keeps.of_eq (by with_reducible assumption) ?_ | apply State.indexedStore_keeps
      | apply Keeps.ite | apply Outcome.keeps_next
    | split | (dsimp only; split)

theorem execAldx_keeps {k₀ : Nat} {s₀ s : State} (x : Site) (rd : BitVec 5) (ra : BitVec 5) (rb : BitVec 5)
    (hm : Covers k₀ 0x200618a000000000000000c000000400160000000000000000000000000000000001e00ff1b3a1421428200900184f27ba) (hs : Keeps k₀ s₀ s) :
    Outcome.Keeps k₀ s₀ (execAldx x rd ra rb s) := by
  unfold execAldx
  repeat' first
    | exact hm.trans (by decide)
    | with_reducible first
      | assumption | intro _ | refine Keeps.of_eq (by with_reducible assumption) ?_ | apply State.indexedLoad_keeps
      | apply Keeps.ite | apply Outcome.keeps_next
    | split | (dsimp only; split)

theorem execAstx_keeps {k₀ : Nat} {s₀ s : State} (x : Site) (rd : BitVec 5) (ra : BitVec 5) (rb : BitVec 5)
    (hm : Covers k₀ 0x200618a000000000000000c000000400160000000000000000000000000000000001e00ff1b3a1421428200900184f27ba) (hs : Keeps k₀ s₀ s) :
    Outcome.Keeps k₀ s₀ (execAstx x rd ra rb s) := by
  unfold execAstx
  repeat' first
    | exact hm.trans (by decide)
    | with_reducible first
      | assumption | intro _ | refine Keeps.of_eq (by with_reducible assumption) ?_ | apply State.indexedStore_keeps
      | apply Keeps.ite | apply Outcome.keeps_next
    | split | (dsimp only; split)

theorem State.rangeLoad_keeps {k₀ : Nat} {s₀ s : State} (x : Site) (func : Nat) (rd : BitVec 5) (ra : BitVec 5)
    (rb : BitVec 5) (sum : List Point → Nat) (hm : Covers k₀ 0x200618a000000000000000c000000400160000000000000000000000000000000001e00ff1b3a1421428200900184f27ba) (hs : Keeps k₀ s₀ s) :
    Keeps k₀ s₀ (State.rangeLoad s x func rd ra rb sum) := by
  unfold State.rangeLoad
  repeat' first
    | exact hm.trans (by decide)
    | with_reducible first
      | assumption | intro _ | refine Keeps.of_eq (by with_reducible assumption) ?_ | apply State.ctl_keeps
      | apply State.onCore_keeps | apply State.withCells_keeps | apply Keeps.ite | apply HRes.Keeps.ite
      | apply HRes.keeps_done | apply HRes.keeps_trap | apply HRes.keeps_jump | apply HRes.keeps_enter
      | apply HRes.keeps_service
    | split | (dsimp only; split)

theorem execPldb_keeps {k₀ : Nat} {s₀ s : State} (x : Site) (rd : BitVec 5) (ra : BitVec 5) (rb : BitVec 5)
    (hm : Covers k₀ 0x200618a000000000000000c000000400160000000000000000000000000000000001e00ff1b3a1421428200900184f27ba) (hs : Keeps k₀ s₀ s) :
    Outcome.Keeps k₀ s₀ (execPldb x rd ra rb s) := by
  unfold execPldb
  repeat' first
    | exact hm.trans (by decide)
    | with_reducible first
      | assumption | intro _ | refine Keeps.of_eq (by with_reducible assumption) ?_ | apply State.rangeLoad_keeps
      | apply Keeps.ite | apply Outcome.keeps_next
    | split | (dsimp only; split)

theorem execPtgb_keeps {k₀ : Nat} {s₀ s : State} (x : Site) (rd : BitVec 5) (ra : BitVec 5) (rb : BitVec 5)
    (hm : Covers k₀ 0x200618a000000000000000c000000400160000000000000000000000000000000001e00ff1b3a1421428200900184f27ba) (hs : Keeps k₀ s₀ s) :
    Outcome.Keeps k₀ s₀ (execPtgb x rd ra rb s) := by
  unfold execPtgb
  repeat' first
    | exact hm.trans (by decide)
    | with_reducible first
      | assumption | intro _ | refine Keeps.of_eq (by with_reducible assumption) ?_ | apply State.rangeLoad_keeps
      | apply Keeps.ite | apply Outcome.keeps_next
    | split | (dsimp only; split)

theorem execPtor_keeps {k₀ : Nat} {s₀ s : State} (x : Site) (rd : BitVec 5) (ra : BitVec 5) (rb : BitVec 5)
    (hm : Covers k₀ 0x200618a000000000000000c000000400160000000000000000000000000000000001e00ff1b3a1421428200900184f27ba) (hs : Keeps k₀ s₀ s) :
    Outcome.Keeps k₀ s₀ (execPtor x rd ra rb s) := by
  unfold execPtor
  repeat' first
    | exact hm.trans (by decide)
    | with_reducible first
      | assumption | intro _ | refine Keeps.of_eq (by with_reducible assumption) ?_ | apply State.rangeLoad_keeps
      | apply Keeps.ite | apply Outcome.keeps_next
    | split | (dsimp only; split)

theorem execPstb_keeps {k₀ : Nat} {s₀ s : State} (x : Site) (rd : BitVec 5) (ra : BitVec 5) (rb : BitVec 5)
    (hm : Covers k₀ 0x200618a000000000000000c000000400160000000000000000000000000000000001e00ff1b3a1421428200900184f27ba) (hs : Keeps k₀ s₀ s) :
    Outcome.Keeps k₀ s₀ (execPstb x rd ra rb s) := by
  unfold execPstb
  repeat' first
    | exact hm.trans (by decide)
    | with_reducible first
      | assumption | intro _ | refine Keeps.of_eq (by with_reducible assumption) ?_ | apply State.ctl_keeps
      | apply State.storeCells_keeps | apply Keeps.ite | apply HRes.Keeps.ite | apply HRes.keeps_done
      | apply HRes.keeps_trap | apply HRes.keeps_jump | apply HRes.keeps_enter | apply HRes.keeps_service
      | apply Outcome.keeps_next
    | split | (dsimp only; split)

theorem State.copyRange_keeps {k₀ : Nat} {s₀ s : State} (x : Site) (func : Nat) (analog : Bool) (rd : BitVec 5)
    (ra : BitVec 5) (rb : BitVec 5) (hm : Covers k₀ 0x200618a000000000000000c000000400160000000000000000000000000000000001e00ff1b3a1421428200900184f27ba) (hs : Keeps k₀ s₀ s) :
    Keeps k₀ s₀ (State.copyRange s x func analog rd ra rb) := by
  unfold State.copyRange
  repeat' first
    | exact hm.trans (by decide)
    | with_reducible first
      | assumption | intro _ | refine Keeps.of_eq (by with_reducible assumption) ?_ | apply State.ctl_keeps
      | apply State.storeCells_keeps | apply State.withCells_keeps | apply Keeps.ite | apply HRes.Keeps.ite
      | apply HRes.keeps_done | apply HRes.keeps_trap | apply HRes.keeps_jump | apply HRes.keeps_enter
      | apply HRes.keeps_service
    | split | (dsimp only; split)

theorem execPcpy_keeps {k₀ : Nat} {s₀ s : State} (x : Site) (rd : BitVec 5) (ra : BitVec 5) (rb : BitVec 5)
    (hm : Covers k₀ 0x200618a000000000000000c000000400160000000000000000000000000000000001e00ff1b3a1421428200900184f27ba) (hs : Keeps k₀ s₀ s) :
    Outcome.Keeps k₀ s₀ (execPcpy x rd ra rb s) := by
  unfold execPcpy
  repeat' first
    | exact hm.trans (by decide)
    | with_reducible first
      | assumption | intro _ | refine Keeps.of_eq (by with_reducible assumption) ?_ | apply State.copyRange_keeps
      | apply Keeps.ite | apply Outcome.keeps_next
    | split | (dsimp only; split)

theorem execAcpy_keeps {k₀ : Nat} {s₀ s : State} (x : Site) (rd : BitVec 5) (ra : BitVec 5) (rb : BitVec 5)
    (hm : Covers k₀ 0x200618a000000000000000c000000400160000000000000000000000000000000001e00ff1b3a1421428200900184f27ba) (hs : Keeps k₀ s₀ s) :
    Outcome.Keeps k₀ s₀ (execAcpy x rd ra rb s) := by
  unfold execAcpy
  repeat' first
    | exact hm.trans (by decide)
    | with_reducible first
      | assumption | intro _ | refine Keeps.of_eq (by with_reducible assumption) ?_ | apply State.copyRange_keeps
      | apply Keeps.ite | apply Outcome.keeps_next
    | split | (dsimp only; split)

theorem State.recordAddr_keeps {k₀ : Nat} {s₀ s : State} (c : Fin 12) (va : DWord) (size : Nat)
    (hm : Covers k₀ 0x200618a0000000000000000000000000000000000000000000000000000000000001a00a81800000000000000010410022) (hs : Keeps k₀ s₀ s) :
    Keeps k₀ s₀ (State.recordAddr s c va size).1 := by
  unfold State.recordAddr
  repeat' first
    | exact hm.trans (by decide)
    | with_reducible first
      | assumption | intro _ | refine Keeps.of_eq (by with_reducible assumption) ?_ | apply State.regsAccess_keeps
      | apply State.translate_keeps | apply Keeps.ite | apply HRes.Keeps.ite | apply HRes.keeps_done
      | apply HRes.keeps_trap | apply HRes.keeps_jump | apply HRes.keeps_enter | apply HRes.keeps_service
    | split | (dsimp only; split)

theorem State.record_keeps {k₀ : Nat} {s₀ s : State} (x : Site) (ra : BitVec 5) (rd : BitVec 5) (size : Nat)
    (width : Nat) (body : State → Nat → Option Nat × DWord) (hm : Covers k₀ 0x200618a0000000000000000000000000000000000000000000000000000000000001e00ff190000000000000001041003a) (hs : Keeps k₀ s₀ s) :
    HRes.Keeps k₀ s₀ (State.record s x ra rd size width body) := by
  unfold State.record
  repeat' first
    | exact hm.trans (by decide)
    | with_reducible first
      | assumption | intro _ | refine Keeps.of_eq (by with_reducible assumption) ?_ | apply State.memCheck_keeps
      | apply State.modCore_keeps | apply State.onCore_keeps | apply State.recordAddr_keeps | apply State.reportUe_keeps
      | apply State.writePart_keeps | apply Keeps.ite | apply HRes.Keeps.ite | apply HRes.keeps_done
      | apply HRes.keeps_trap | apply HRes.keeps_jump | apply HRes.keeps_enter | apply HRes.keeps_service
    | split | (dsimp only; split)

theorem State.timer_keeps {k₀ : Nat} {s₀ s : State} (x : Site) (rd : BitVec 5) (ra : BitVec 5) (rb : BitVec 5)
    (step : Timer → Bool → Nat → Timer × Bool) (hm : Covers k₀ 0x200618a000000000000000c000000400160000000000000000000000000000000001e00ff1b3a1421428200900184f27ba) (hs : Keeps k₀ s₀ s) :
    Keeps k₀ s₀ (State.timer s x rd ra rb step) := by
  unfold State.timer
  repeat' first
    | exact hm.trans (by decide)
    | with_reducible first
      | assumption | intro _ | refine Keeps.of_eq (by with_reducible assumption) ?_ | apply State.helin_keeps
      | apply State.record_keeps | apply Keeps.ite | apply HRes.Keeps.ite | apply HRes.keeps_done
      | apply HRes.keeps_trap | apply HRes.keeps_jump | apply HRes.keeps_enter | apply HRes.keeps_service
    | split | (dsimp only; split)

theorem execTon_keeps {k₀ : Nat} {s₀ s : State} (x : Site) (rd : BitVec 5) (ra : BitVec 5) (rb : BitVec 5)
    (hm : Covers k₀ 0x200618a000000000000000c000000400160000000000000000000000000000000001e00ff1b3a1421428200900184f27ba) (hs : Keeps k₀ s₀ s) :
    Outcome.Keeps k₀ s₀ (execTon x rd ra rb s) := by
  unfold execTon
  repeat' first
    | exact hm.trans (by decide)
    | with_reducible first
      | assumption | intro _ | refine Keeps.of_eq (by with_reducible assumption) ?_ | apply State.timer_keeps
      | apply Keeps.ite | apply Outcome.keeps_next
    | split | (dsimp only; split)

theorem execTof_keeps {k₀ : Nat} {s₀ s : State} (x : Site) (rd : BitVec 5) (ra : BitVec 5) (rb : BitVec 5)
    (hm : Covers k₀ 0x200618a000000000000000c000000400160000000000000000000000000000000001e00ff1b3a1421428200900184f27ba) (hs : Keeps k₀ s₀ s) :
    Outcome.Keeps k₀ s₀ (execTof x rd ra rb s) := by
  unfold execTof
  repeat' first
    | exact hm.trans (by decide)
    | with_reducible first
      | assumption | intro _ | refine Keeps.of_eq (by with_reducible assumption) ?_ | apply State.timer_keeps
      | apply Keeps.ite | apply Outcome.keeps_next
    | split | (dsimp only; split)

theorem execTp_keeps {k₀ : Nat} {s₀ s : State} (x : Site) (rd : BitVec 5) (ra : BitVec 5) (rb : BitVec 5)
    (hm : Covers k₀ 0x200618a000000000000000c000000400160000000000000000000000000000000001e00ff1b3a1421428200900184f27ba) (hs : Keeps k₀ s₀ s) :
    Outcome.Keeps k₀ s₀ (execTp x rd ra rb s) := by
  unfold execTp
  repeat' first
    | exact hm.trans (by decide)
    | with_reducible first
      | assumption | intro _ | refine Keeps.of_eq (by with_reducible assumption) ?_ | apply State.timer_keeps
      | apply Keeps.ite | apply Outcome.keeps_next
    | split | (dsimp only; split)

theorem State.edge_keeps {k₀ : Nat} {s₀ s : State} (x : Site) (rd : BitVec 5) (ra : BitVec 5) (rb : BitVec 5)
    (edge : Bool → Bool → Bool) (hm : Covers k₀ 0x200618a000000000000000c000000400160000000000000000000000000000000001e00ff1b3a1421428200900184f27ba) (hs : Keeps k₀ s₀ s) :
    Keeps k₀ s₀ (State.edge s x rd ra rb edge) := by
  unfold State.edge
  repeat' first
    | exact hm.trans (by decide)
    | with_reducible first
      | assumption | intro _ | refine Keeps.of_eq (by with_reducible assumption) ?_ | apply State.helin_keeps
      | apply State.record_keeps | apply Keeps.ite | apply HRes.Keeps.ite | apply HRes.keeps_done
      | apply HRes.keeps_trap | apply HRes.keeps_jump | apply HRes.keeps_enter | apply HRes.keeps_service
    | split | (dsimp only; split)

theorem execEdgr_keeps {k₀ : Nat} {s₀ s : State} (x : Site) (rd : BitVec 5) (ra : BitVec 5) (rb : BitVec 5)
    (hm : Covers k₀ 0x200618a000000000000000c000000400160000000000000000000000000000000001e00ff1b3a1421428200900184f27ba) (hs : Keeps k₀ s₀ s) :
    Outcome.Keeps k₀ s₀ (execEdgr x rd ra rb s) := by
  unfold execEdgr
  repeat' first
    | exact hm.trans (by decide)
    | with_reducible first
      | assumption | intro _ | refine Keeps.of_eq (by with_reducible assumption) ?_ | apply State.edge_keeps
      | apply Keeps.ite | apply Outcome.keeps_next
    | split | (dsimp only; split)

theorem execEdgf_keeps {k₀ : Nat} {s₀ s : State} (x : Site) (rd : BitVec 5) (ra : BitVec 5) (rb : BitVec 5)
    (hm : Covers k₀ 0x200618a000000000000000c000000400160000000000000000000000000000000001e00ff1b3a1421428200900184f27ba) (hs : Keeps k₀ s₀ s) :
    Outcome.Keeps k₀ s₀ (execEdgf x rd ra rb s) := by
  unfold execEdgf
  repeat' first
    | exact hm.trans (by decide)
    | with_reducible first
      | assumption | intro _ | refine Keeps.of_eq (by with_reducible assumption) ?_ | apply State.edge_keeps
      | apply Keeps.ite | apply Outcome.keeps_next
    | split | (dsimp only; split)

theorem execEdgb_keeps {k₀ : Nat} {s₀ s : State} (x : Site) (rd : BitVec 5) (ra : BitVec 5) (rb : BitVec 5)
    (hm : Covers k₀ 0x200618a000000000000000c000000400160000000000000000000000000000000001e00ff1b3a1421428200900184f27ba) (hs : Keeps k₀ s₀ s) :
    Outcome.Keeps k₀ s₀ (execEdgb x rd ra rb s) := by
  unfold execEdgb
  repeat' first
    | exact hm.trans (by decide)
    | with_reducible first
      | assumption | intro _ | refine Keeps.of_eq (by with_reducible assumption) ?_ | apply State.edge_keeps
      | apply Keeps.ite | apply Outcome.keeps_next
    | split | (dsimp only; split)

/-! ### Machine/Integer.lean -/

theorem State.illegal_keeps {k₀ : Nat} {s₀ s : State} (w : Word) (hs : Keeps k₀ s₀ s) :
    HRes.Keeps k₀ s₀ (State.illegal s w) := by
  unfold State.illegal
  repeat' first
    | with_reducible first
      | assumption | intro _ | refine Keeps.of_eq (by with_reducible assumption) ?_ | apply Keeps.ite
      | apply HRes.Keeps.ite | apply HRes.keeps_done | apply HRes.keeps_trap | apply HRes.keeps_jump
      | apply HRes.keeps_enter | apply HRes.keeps_service
    | split | (dsimp only; split)

theorem execAddi_keeps {k₀ : Nat} {s₀ s : State} (x : Site) (rd : BitVec 5) (ra : BitVec 5) (imm : BitVec 17)
    (hm : Covers k₀ 0x200618a000000000000000c000000400160000000000000000000000000000000001e00ff1b3a1421428200900184f27ba) (hs : Keeps k₀ s₀ s) :
    Outcome.Keeps k₀ s₀ (execAddi x rd ra imm s) := by
  unfold execAddi
  repeat' first
    | exact hm.trans (by decide)
    | with_reducible first
      | assumption | intro _ | refine Keeps.of_eq (by with_reducible assumption) ?_ | apply State.helin_keeps
      | apply State.onCore_keeps | apply Keeps.ite | apply HRes.Keeps.ite | apply HRes.keeps_done
      | apply HRes.keeps_trap | apply HRes.keeps_jump | apply HRes.keeps_enter | apply HRes.keeps_service
      | apply Outcome.keeps_next
    | split | (dsimp only; split)

theorem execAndi_keeps {k₀ : Nat} {s₀ s : State} (x : Site) (rd : BitVec 5) (ra : BitVec 5) (imm : BitVec 17)
    (hm : Covers k₀ 0x200618a000000000000000c000000400160000000000000000000000000000000001e00ff1b3a1421428200900184f27ba) (hs : Keeps k₀ s₀ s) :
    Outcome.Keeps k₀ s₀ (execAndi x rd ra imm s) := by
  unfold execAndi
  repeat' first
    | exact hm.trans (by decide)
    | with_reducible first
      | assumption | intro _ | refine Keeps.of_eq (by with_reducible assumption) ?_ | apply State.helin_keeps
      | apply State.onCore_keeps | apply Keeps.ite | apply HRes.Keeps.ite | apply HRes.keeps_done
      | apply HRes.keeps_trap | apply HRes.keeps_jump | apply HRes.keeps_enter | apply HRes.keeps_service
      | apply Outcome.keeps_next
    | split | (dsimp only; split)

theorem execOri_keeps {k₀ : Nat} {s₀ s : State} (x : Site) (rd : BitVec 5) (ra : BitVec 5) (imm : BitVec 17)
    (hm : Covers k₀ 0x200618a000000000000000c000000400160000000000000000000000000000000001e00ff1b3a1421428200900184f27ba) (hs : Keeps k₀ s₀ s) :
    Outcome.Keeps k₀ s₀ (execOri x rd ra imm s) := by
  unfold execOri
  repeat' first
    | exact hm.trans (by decide)
    | with_reducible first
      | assumption | intro _ | refine Keeps.of_eq (by with_reducible assumption) ?_ | apply State.helin_keeps
      | apply State.onCore_keeps | apply Keeps.ite | apply HRes.Keeps.ite | apply HRes.keeps_done
      | apply HRes.keeps_trap | apply HRes.keeps_jump | apply HRes.keeps_enter | apply HRes.keeps_service
      | apply Outcome.keeps_next
    | split | (dsimp only; split)

theorem execLui_keeps {k₀ : Nat} {s₀ s : State} (x : Site) (rd : BitVec 5) (ra : BitVec 5) (imm : BitVec 17)
    (hm : Covers k₀ 0x200618a000000000000000c000000400160000000000000000000000000000000001e00ff1b3a1421428200900184f27ba) (hs : Keeps k₀ s₀ s) :
    Outcome.Keeps k₀ s₀ (execLui x rd ra imm s) := by
  unfold execLui
  repeat' first
    | exact hm.trans (by decide)
    | with_reducible first
      | assumption | intro _ | refine Keeps.of_eq (by with_reducible assumption) ?_ | apply State.helin_keeps
      | apply State.illegal_keeps | apply State.onCore_keeps | apply Keeps.ite | apply HRes.Keeps.ite
      | apply HRes.keeps_done | apply HRes.keeps_trap | apply HRes.keeps_jump | apply HRes.keeps_enter
      | apply HRes.keeps_service | apply Outcome.keeps_next
    | split | (dsimp only; split)

theorem execOp_keeps {k₀ : Nat} {s₀ s : State} (x : Site) (func : BitVec 12) (rd : BitVec 5) (ra : BitVec 5)
    (rb : BitVec 5) (hm : Covers k₀ 0x200618a000000000000000c000000400160000000000000000000000000000000001e00ff1b3a1421428200900184f27ba) (hs : Keeps k₀ s₀ s) :
    Outcome.Keeps k₀ s₀ (execOp x func rd ra rb s) := by
  unfold execOp
  repeat' first
    | exact hm.trans (by decide)
    | with_reducible first
      | assumption | intro _ | refine Keeps.of_eq (by with_reducible assumption) ?_ | apply State.helin_keeps
      | apply State.illegal_keeps | apply State.onCore_keeps | apply Keeps.ite | apply HRes.Keeps.ite
      | apply HRes.keeps_done | apply HRes.keeps_trap | apply HRes.keeps_jump | apply HRes.keeps_enter
      | apply HRes.keeps_service | apply Outcome.keeps_next
    | split | (dsimp only; split)

theorem execBranch_keeps {k₀ : Nat} {s₀ s : State} (x : Site) (cond : Cond) (ra : BitVec 5) (rb : BitVec 5)
    (off : BitVec 17) (hm : Covers k₀ 0x200618a000000000000000c000000400160000000000000000000000000000000001e00ff1b3a1421428200900184f27ba) (hs : Keeps k₀ s₀ s) :
    Outcome.Keeps k₀ s₀ (execBranch x cond ra rb off s) := by
  unfold execBranch
  repeat' first
    | exact hm.trans (by decide)
    | with_reducible first
      | assumption | intro _ | refine Keeps.of_eq (by with_reducible assumption) ?_ | apply State.helin_keeps
      | apply Keeps.ite | apply HRes.Keeps.ite | apply HRes.keeps_done | apply HRes.keeps_trap | apply HRes.keeps_jump
      | apply HRes.keeps_enter | apply HRes.keeps_service | apply Outcome.keeps_next
    | split | (dsimp only; split)

theorem execJal_keeps {k₀ : Nat} {s₀ s : State} (x : Site) (off : BitVec 27)
    (hm : Covers k₀ 0x200618a000000000000000c000000400160000000000000000000000000000000001e00ff1b3a1421428200900184f27ba) (hs : Keeps k₀ s₀ s) :
    Outcome.Keeps k₀ s₀ (execJal x off s) := by
  unfold execJal
  repeat' first
    | exact hm.trans (by decide)
    | with_reducible first
      | assumption | intro _ | refine Keeps.of_eq (by with_reducible assumption) ?_ | apply State.helin_keeps
      | apply State.modCore_keeps | apply Keeps.ite | apply HRes.Keeps.ite | apply HRes.keeps_done
      | apply HRes.keeps_trap | apply HRes.keeps_jump | apply HRes.keeps_enter | apply HRes.keeps_service
      | apply Outcome.keeps_next
    | split | (dsimp only; split)

theorem execJalr_keeps {k₀ : Nat} {s₀ s : State} (x : Site) (rd : BitVec 5) (ra : BitVec 5) (imm : BitVec 17)
    (hm : Covers k₀ 0x200618a000000000000000c000000400160000000000000000000000000000000001e00ff1b3a1421428200900184f27ba) (hs : Keeps k₀ s₀ s) :
    Outcome.Keeps k₀ s₀ (execJalr x rd ra imm s) := by
  unfold execJalr
  repeat' first
    | exact hm.trans (by decide)
    | with_reducible first
      | assumption | intro _ | refine Keeps.of_eq (by with_reducible assumption) ?_ | apply State.helin_keeps
      | apply State.modCore_keeps | apply Keeps.ite | apply HRes.Keeps.ite | apply HRes.keeps_done
      | apply HRes.keeps_trap | apply HRes.keeps_jump | apply HRes.keeps_enter | apply HRes.keeps_service
      | apply Outcome.keeps_next
    | split | (dsimp only; split)

/-! ### Machine/System.lean -/

theorem execFp_keeps {k₀ : Nat} {s₀ s : State} (x : Site) (func : BitVec 12) (rd : BitVec 5) (ra : BitVec 5)
    (rb : BitVec 5) (hm : Covers k₀ 0x200618a000000000000000c000000400160000000000000000000000000000000001e00ff1b3a1421428200900184f27ba) (hs : Keeps k₀ s₀ s) :
    Outcome.Keeps k₀ s₀ (execFp x func rd ra rb s) := by
  unfold execFp
  repeat' first
    | exact hm.trans (by decide)
    | with_reducible first
      | assumption | intro _ | refine Keeps.of_eq (by with_reducible assumption) ?_ | apply State.helin_keeps
      | apply State.illegal_keeps | apply State.modCore_keeps | apply State.onCore_keeps | apply Keeps.ite
      | apply HRes.Keeps.ite | apply HRes.keeps_done | apply HRes.keeps_trap | apply HRes.keeps_jump
      | apply HRes.keeps_enter | apply HRes.keeps_service | apply Outcome.keeps_next
    | split | (dsimp only; split)

theorem State.sysFunc_keeps {k₀ : Nat} {s₀ s : State} (x : Site) (func : Nat) (r : BitVec 5) (sr : BitVec 10)
    (kOnly : Bool) (body : State → HRes) (hm : Covers k₀ 0x200618a000000000000000c000000400160000000000000000000000000000000001e00ff1b3a1421428200900184f27ba) (hs : Keeps k₀ s₀ s) (hbody : ∀ x0, Keeps k₀ s₀ x0 → HRes.Keeps k₀ s₀ (body x0)) :
    Keeps k₀ s₀ (State.sysFunc s x func r sr kOnly body) := by
  unfold State.sysFunc
  repeat' first
    | exact hm.trans (by decide)
    | with_reducible first
      | assumption | intro _ | apply hbody | refine Keeps.of_eq (by with_reducible assumption) ?_
      | apply State.helin_keeps | apply Keeps.ite | apply HRes.Keeps.ite | apply HRes.keeps_done | apply HRes.keeps_trap
      | apply HRes.keeps_jump | apply HRes.keeps_enter | apply HRes.keeps_service
    | split | (dsimp only; split)

theorem execTret_keeps {k₀ : Nat} {s₀ s : State} (x : Site) (r : BitVec 5) (sr : BitVec 10)
    (hm : Covers k₀ 0x200618a000000000000000c000000400160000000000000000000000000000000001e00ff1b3a1421428200900184f27ba) (hs : Keeps k₀ s₀ s) :
    Outcome.Keeps k₀ s₀ (execTret x r sr s) := by
  unfold execTret
  repeat' first
    | exact hm.trans (by decide)
    | with_reducible first
      | assumption | intro _ | refine Keeps.of_eq (by with_reducible assumption) ?_ | apply State.modCore_keeps
      | apply State.sysFunc_keeps | apply Keeps.ite | apply HRes.Keeps.ite | apply HRes.keeps_done
      | apply HRes.keeps_trap | apply HRes.keeps_jump | apply HRes.keeps_enter | apply HRes.keeps_service
      | apply Outcome.keeps_next
    | split | (dsimp only; split)

theorem execWait_keeps {k₀ : Nat} {s₀ s : State} (x : Site) (r : BitVec 5) (sr : BitVec 10)
    (hm : Covers k₀ 0x200618a000000000000000c000000400160000000000000000000000000000000001e00ff1b3a1421428200900184f27ba) (hs : Keeps k₀ s₀ s) :
    Outcome.Keeps k₀ s₀ (execWait x r sr s) := by
  unfold execWait
  repeat' first
    | exact hm.trans (by decide)
    | with_reducible first
      | assumption | intro _ | refine Keeps.of_eq (by with_reducible assumption) ?_ | apply State.onCore_keeps
      | apply State.sysFunc_keeps | apply Keeps.ite | apply HRes.Keeps.ite | apply HRes.keeps_done
      | apply HRes.keeps_trap | apply HRes.keeps_jump | apply HRes.keeps_enter | apply HRes.keeps_service
      | apply Outcome.keeps_next
    | split | (dsimp only; split)

theorem execBrk_keeps {k₀ : Nat} {s₀ s : State} (x : Site) (r : BitVec 5) (sr : BitVec 10)
    (hm : Covers k₀ 0x200618a000000000000000c000000400160000000000000000000000000000000001e00ff1b3a1421428200900184f27ba) (hs : Keeps k₀ s₀ s) :
    Outcome.Keeps k₀ s₀ (execBrk x r sr s) := by
  unfold execBrk
  repeat' first
    | exact hm.trans (by decide)
    | with_reducible first
      | assumption | intro _ | refine Keeps.of_eq (by with_reducible assumption) ?_ | apply State.sysFunc_keeps
      | apply Keeps.ite | apply HRes.Keeps.ite | apply HRes.keeps_done | apply HRes.keeps_trap | apply HRes.keeps_jump
      | apply HRes.keeps_enter | apply HRes.keeps_service | apply Outcome.keeps_next
    | split | (dsimp only; split)

theorem execFence_keeps {k₀ : Nat} {s₀ s : State} (x : Site) (r : BitVec 5) (sr : BitVec 10)
    (hm : Covers k₀ 0x200618a000000000000000c000000400160000000000000000000000000000000001e00ff1b3a1421428200900184f27ba) (hs : Keeps k₀ s₀ s) :
    Outcome.Keeps k₀ s₀ (execFence x r sr s) := by
  unfold execFence
  repeat' first
    | exact hm.trans (by decide)
    | with_reducible first
      | assumption | intro _ | refine Keeps.of_eq (by with_reducible assumption) ?_ | apply State.sysFunc_keeps
      | apply Keeps.ite | apply HRes.Keeps.ite | apply HRes.keeps_done | apply HRes.keeps_trap | apply HRes.keeps_jump
      | apply HRes.keeps_enter | apply HRes.keeps_service | apply Outcome.keeps_next
    | split | (dsimp only; split)

theorem execIfence_keeps {k₀ : Nat} {s₀ s : State} (x : Site) (r : BitVec 5) (sr : BitVec 10)
    (hm : Covers k₀ 0x200618a000000000000000c000000400160000000000000000000000000000000001e00ff1b3a1421428200900184f27ba) (hs : Keeps k₀ s₀ s) :
    Outcome.Keeps k₀ s₀ (execIfence x r sr s) := by
  unfold execIfence
  repeat' first
    | exact hm.trans (by decide)
    | with_reducible first
      | assumption | intro _ | refine Keeps.of_eq (by with_reducible assumption) ?_ | apply State.sysFunc_keeps
      | apply Keeps.ite | apply HRes.Keeps.ite | apply HRes.keeps_done | apply HRes.keeps_trap | apply HRes.keeps_jump
      | apply HRes.keeps_enter | apply HRes.keeps_service | apply Outcome.keeps_next
    | split | (dsimp only; split)

theorem execMfsr_keeps {k₀ : Nat} {s₀ s : State} (x : Site) (rd : BitVec 5) (sr : BitVec 10)
    (hm : Covers k₀ 0x200618a000000000000000c000000400160000000000000000000000000000000001e00ff1b3a1421428200900184f27ba) (hs : Keeps k₀ s₀ s) :
    Outcome.Keeps k₀ s₀ (execMfsr x rd sr s) := by
  unfold execMfsr
  repeat' first
    | exact hm.trans (by decide)
    | with_reducible first
      | assumption | intro _ | refine Keeps.of_eq (by with_reducible assumption) ?_ | apply State.helin_keeps
      | apply State.onCore_keeps | apply Keeps.ite | apply HRes.Keeps.ite | apply HRes.keeps_done
      | apply HRes.keeps_trap | apply HRes.keeps_jump | apply HRes.keeps_enter | apply HRes.keeps_service
      | apply Outcome.keeps_next
    | split | (dsimp only; split)

theorem State.writeIslice_keeps {k₀ : Nat} {s₀ s : State} (x : Site) (v : DWord)
    (hm : Covers k₀ 0x200618a0000000000000000000000000000000000000000000000000000000000001a00a81800000000000000000410022) (hs : Keeps k₀ s₀ s) :
    HRes.Keeps k₀ s₀ (State.writeIslice s x v) := by
  unfold State.writeIslice
  repeat' first
    | exact hm.trans (by decide)
    | with_reducible first
      | assumption | intro _ | refine Keeps.of_eq (by with_reducible assumption) ?_ | apply State.modCore_keeps
      | apply State.onCore_keeps | apply State.reportUe_keeps | apply Keeps.ite | apply HRes.Keeps.ite
      | apply HRes.keeps_done | apply HRes.keeps_trap | apply HRes.keeps_jump | apply HRes.keeps_enter
      | apply HRes.keeps_service
    | split | (dsimp only; split)

theorem execMtsr_keeps {k₀ : Nat} {s₀ s : State} (x : Site) (ra : BitVec 5) (sr : BitVec 10)
    (hm : Covers k₀ 0x200618a000000000000000c000000400160000000000000000000000000000000001e00ff1b3a1421428200900184f27ba) (hs : Keeps k₀ s₀ s) :
    Outcome.Keeps k₀ s₀ (execMtsr x ra sr s) := by
  unfold execMtsr
  repeat' first
    | exact hm.trans (by decide)
    | with_reducible first
      | assumption | intro _ | refine Keeps.of_eq (by with_reducible assumption) ?_ | apply State.helin_keeps
      | apply State.onCore_keeps | apply State.writeIslice_keeps | apply Keeps.ite | apply HRes.Keeps.ite
      | apply HRes.keeps_done | apply HRes.keeps_trap | apply HRes.keeps_jump | apply HRes.keeps_enter
      | apply HRes.keeps_service | apply Outcome.keeps_next
    | split | (dsimp only; split)

theorem execInterrupt_keeps {k₀ : Nat} {s₀ s : State} (c : Fin 12) (line : Fin 12) (hm : Covers k₀ 0x20)
    (hs : Keeps k₀ s₀ s) :
    Outcome.Keeps k₀ s₀ (execInterrupt c line s) := by
  unfold execInterrupt
  repeat' first
    | exact hm.trans (by decide)
    | with_reducible first
      | assumption | intro _ | refine Keeps.of_eq (by with_reducible assumption) ?_ | apply State.takeInterrupt_keeps
      | apply Keeps.ite | apply Outcome.keeps_next
    | split | (dsimp only; split)

end Sys2Proof.Machine
end

