-- ==== Sys2Proof/Laws/KeepsTick.lean ====
section
/-!
SUPPORT. What `Keeps` says of the operations of
the tick:
each keeps the canonical form and every part of the state outside its set.
A lemma stands for each operation, in the order of the Machine files.
-/

namespace Sys2Proof.Machine

set_option Elab.async false
set_option linter.all false

/-! ### Machine/Tick.lean -/

theorem State.fireTick_keeps {k₀ : Nat} {s₀ s : State} (hm : Covers k₀ 0x20000000000000000e080000004802)
    (hs : Keeps k₀ s₀ s) :
    Keeps k₀ s₀ (State.fireTick s) := by
  unfold State.fireTick
  repeat' first
    | exact hm.trans (by decide)
    | with_reducible first
      | exact FRM_FCOUNTH_in | exact FRM_FCOUNTL_in | exact FRM_STATUS_in | exact FRM_TICKSKIP_in | exact IMG_STATUS_in
      | assumption | intro _ | refine Keeps.of_eq (by with_reducible assumption) ?_ | apply State.bumpBy_keeps
      | apply State.flag_keeps | apply State.putFld_keeps | apply State.setReg_keeps | apply State.when_keeps
      | apply Keeps.ite
    | split | (dsimp only; split) | with_reducible first | apply Keeps.mk_time | apply Keeps.mk_frame

theorem State.closeFrame_keeps {k₀ : Nat} {s₀ s : State}
    (hm : Covers k₀ 0xffffffffffffffffffffffffffffffffffffffffffffffffffffffffffffffffffffffffffffffffffffffffffffff1ae3fffe) (hs : Keeps k₀ s₀ s) :
    Keeps k₀ s₀ (State.closeFrame s) := by
  unfold State.closeFrame
  repeat' first
    | exact hm.trans (by decide)
    | with_reducible first
      | assumption | intro _ | refine Keeps.of_eq (by with_reducible assumption) ?_ | apply State.anvilTick_keeps
      | apply State.copyCorrection_keeps | apply State.eprstTick_keeps | apply State.forEach_keeps
      | apply State.laneTick_keeps | apply State.pairTick_keeps | apply State.ringClose_keeps
      | apply State.safeLate_keeps | apply State.slewTick_keeps | apply Keeps.ite
    | split | (dsimp only; split)

theorem State.modeTick_keeps {k₀ : Nat} {s₀ s : State}
    (hm : Covers k₀ 0x200618a0000000000000000000000000000000000000000000000000000000000001a00a818000000008000140004330ba) (hs : Keeps k₀ s₀ s) :
    Keeps k₀ s₀ (State.modeTick s) := by
  unfold State.modeTick
  repeat' first
    | exact hm.trans (by decide)
    | with_reducible first
      | exact SYS_MODE_in | assumption | intro _ | refine Keeps.of_eq (by with_reducible assumption) ?_
      | apply State.cancelPending_keeps | apply State.modModes_keeps | apply State.putFld_keeps
      | apply State.stopOutputs_keeps | apply State.when_keeps | apply Keeps.ite
    | split | (dsimp only; split)

theorem State.restartTick_keeps {k₀ : Nat} {s₀ s : State}
    (hm : Covers k₀ 0x200618a0000000000000000000000400160000000000000000000000000000000001a00a818000000008000140004330ba) (hs : Keeps k₀ s₀ s) :
    Keeps k₀ s₀ (State.restartTick s) := by
  unfold State.restartTick
  repeat' first
    | exact hm.trans (by decide)
    | with_reducible first
      | exact SYS_MODE_in | assumption | intro _ | refine Keeps.of_eq (by with_reducible assumption) ?_
      | apply State.modModes_keeps | apply State.putFld_keeps | apply State.restartBegin_keeps | apply State.when_keeps
      | apply Keeps.ite
    | split | (dsimp only; split)

theorem State.forceTick_keeps {k₀ : Nat} {s₀ s : State}
    (hm : Covers k₀ 0x200618a0000000000000000000000000000000000000000000000000000000000001a00a8180000000000000040043101a) (hs : Keeps k₀ s₀ s) :
    Keeps k₀ s₀ (State.forceTick s) := by
  unfold State.forceTick
  repeat' first
    | exact hm.trans (by decide)
    | with_reducible first
      | exact SYS_STATUS_in | assumption | intro _ | refine Keeps.of_eq (by with_reducible assumption) ?_
      | apply State.forEach_keeps | apply State.modModes_keeps | apply State.putFld_keeps
      | apply State.refreshForced_keeps | apply Keeps.ite
    | split | (dsimp only; split)

theorem State.changeTick_keeps {k₀ : Nat} {s₀ s : State}
    (hm : Covers k₀ 0x200618a0000000000000000000000000000000000000000000000000000000000001a00a818008808808000100004320fa) (hs : Keeps k₀ s₀ s) :
    Keeps k₀ s₀ (State.changeTick s) := by
  unfold State.changeTick
  repeat' first
    | exact hm.trans (by decide)
    | with_reducible first
      | exact SYS_CHG_in | assumption | intro _ | refine Keeps.of_eq (by with_reducible assumption) ?_
      | apply State.putFld_keeps | apply State.switchNow_keeps | apply State.when_keeps | apply Keeps.ite
    | split | (dsimp only; split)

theorem State.deliveryTick_keeps {k₀ : Nat} {s₀ s : State}
    (hm : Covers k₀ 0x200618a00000000000000000000015fff6d30f0703d0000000000000000000000001a00a8180000000000000001243803a) (hs : Keeps k₀ s₀ s) :
    Keeps k₀ s₀ (State.deliveryTick s) := by
  unfold State.deliveryTick
  repeat' first
    | exact hm.trans (by decide)
    | with_reducible first
      | exact WAY_CMD_in | assumption | intro _ | refine Keeps.of_eq (by with_reducible assumption) ?_
      | apply State.carryCells_keeps | apply State.deliverMessages_keeps | apply State.deliverSafe_keeps
      | apply State.deliverWrites_keeps | apply State.forEach_keeps | apply State.purgeJournal_keeps
      | apply State.readCons_keeps | apply State.when_keeps | apply Keeps.ite
    | split | (dsimp only; split)

theorem State.energyTick_keeps {k₀ : Nat} {s₀ s : State} (ended : Nat)
    (hm : Covers k₀ 0x3e000000000000000000000000000000000000000000000000000000000000000000000000000000010000002) (hs : Keeps k₀ s₀ s) :
    Keeps k₀ s₀ (State.energyTick s ended) := by
  unfold State.energyTick
  repeat' first
    | exact hm.trans (by decide)
    | with_reducible first
      | exact BLW_EACT_in | exact BLW_EFAB_in | exact BLW_EFCOUNT_in | exact BLW_EFRAME_in | exact BLW_ELANE_in
      | assumption | intro _ | refine Keeps.of_eq (by with_reducible assumption) ?_ | apply State.firmware_keeps
      | apply State.forEach_keeps | apply State.setReg_keeps | apply Keeps.ite
    | split | (dsimp only; split) | with_reducible apply Keeps.mk_free

theorem State.trialTick_keeps {k₀ : Nat} {s₀ s : State}
    (hm : Covers k₀ 0x20000000000000000000000000000000000000000000000000000000000000000000000000000000000000000000400002) (hs : Keeps k₀ s₀ s) :
    Keeps k₀ s₀ (State.trialTick s) := by
  unfold State.trialTick
  repeat' first
    | exact hm.trans (by decide)
    | with_reducible first
      | exact UPD_TRIAL_in | assumption | intro _ | refine Keeps.of_eq (by with_reducible assumption) ?_
      | apply State.putFld_keeps | apply Keeps.ite
    | split | (dsimp only; split) | with_reducible apply Keeps.mk_update

theorem State.selectPoint_keeps {k₀ : Nat} {s₀ s : State} (t : Nat) (hm : Covers k₀ 0x200) (hs : Keeps k₀ s₀ s) :
    Keeps k₀ s₀ (State.selectPoint s t) := by
  unfold State.selectPoint
  repeat' first
    | exact hm.trans (by decide)
    | with_reducible first
      | assumption | intro _ | refine Keeps.of_eq (by with_reducible assumption) ?_ | apply State.modTriad_keeps
      | apply Keeps.ite
    | split | (dsimp only; split)

theorem State.enableTask_keeps {k₀ : Nat} {s₀ s : State} (n : Nat)
    (hm : Covers k₀ 0x200618a0000000000000000000000000000000000000000000000000000000000001a00a818008808808000000004300ba) (hs : Keeps k₀ s₀ s) :
    Keeps k₀ s₀ (State.enableTask s n) := by
  unfold State.enableTask
  repeat' first
    | exact hm.trans (by decide)
    | with_reducible first
      | assumption | intro _ | refine Keeps.of_eq (by with_reducible assumption) ?_ | apply State.beginTask_keeps
      | apply State.modTask_keeps | apply State.when_keeps | apply Keeps.ite
    | split | (dsimp only; split)

theorem State.digestTick_keeps {k₀ : Nat} {s₀ s : State} (n : Nat)
    (hm : Covers k₀ 0x200618a0000000000000000000000000000000000000000000000000000000000001a00a818000000008200800104302ba) (hs : Keeps k₀ s₀ s) :
    Keeps k₀ s₀ (State.digestTick s n) := by
  unfold State.digestTick
  repeat' first
    | exact hm.trans (by decide)
    | with_reducible first
      | assumption | intro _ | refine Keeps.of_eq (by with_reducible assumption) ?_ | apply State.closeCycle_keeps
      | apply State.countTaskFault_keeps | apply State.faultOutputs_keeps | apply State.modTask_keeps | apply Keeps.ite
    | split | (dsimp only; split) | with_reducible apply Keeps.mk_free

theorem State.moveTask_keeps {k₀ : Nat} {s₀ s : State} (n : Nat) (hm : Covers k₀ 0x8008008000000000000a2)
    (hs : Keeps k₀ s₀ s) :
    Keeps k₀ s₀ (State.moveTask s n) := by
  unfold State.moveTask
  repeat' first
    | exact hm.trans (by decide)
    | with_reducible first
      | exact FRM_TSTAT_in | assumption | intro _ | refine Keeps.of_eq (by with_reducible assumption) ?_
      | apply State.advanceEpoch_keeps | apply State.flag_keeps | apply State.flushTasks_keeps
      | apply State.modTask_keeps | apply State.putFld_keeps | apply Keeps.ite
    | split | (dsimp only; split)

theorem State.prepareTask_keeps {k₀ : Nat} {s₀ s : State} (n : Nat)
    (hm : Covers k₀ 0x200618a0000000000000000000000000000000000000000000000000000000000001a00a818008808808200800104302ba) (hs : Keeps k₀ s₀ s) :
    Keeps k₀ s₀ (State.prepareTask s n) := by
  unfold State.prepareTask
  repeat' first
    | exact hm.trans (by decide)
    | with_reducible first
      | exact FRM_TSTAT_in | assumption | intro _ | refine Keeps.of_eq (by with_reducible assumption) ?_
      | apply State.digestTick_keeps | apply State.enableTask_keeps | apply State.moveTask_keeps
      | apply State.substitute_keeps | apply State.when_keeps | apply Keeps.ite
    | split | (dsimp only; split)

theorem State.release_keeps {k₀ : Nat} {s₀ s : State} (n : Nat) (head : Bool)
    (hm : Covers k₀ 0x200618a0000000000000000000000000000000000000000000000000000000000001a00a8180000000080000000041049a) (hs : Keeps k₀ s₀ s) :
    Keeps k₀ s₀ (State.release s n head) := by
  unfold State.release
  repeat' first
    | exact hm.trans (by decide)
    | with_reducible first
      | exact FRM_TSTAT_in | assumption | intro _ | refine Keeps.of_eq (by with_reducible assumption) ?_
      | apply State.flag_keeps | apply State.modTask_keeps | apply State.putFld_keeps | apply State.reloadSlices_keeps
      | apply State.verifyDeadline_keeps | apply Keeps.ite
    | split | (dsimp only; split)

theorem State.tryRelease_keeps {k₀ : Nat} {s₀ s : State} (n : Nat) (head : Bool)
    (hm : Covers k₀ 0x200618a0000000000000000000000000000000000000000000000000000000000001a00a818008808808000000004304ba) (hs : Keeps k₀ s₀ s) :
    Keeps k₀ s₀ (State.tryRelease s n head) := by
  unfold State.tryRelease
  repeat' first
    | exact hm.trans (by decide)
    | with_reducible first
      | exact FRM_TSTAT_in | assumption | intro _ | refine Keeps.of_eq (by with_reducible assumption) ?_
      | apply State.release_keeps | apply State.startTask_keeps | apply State.when_keeps | apply Keeps.ite
    | split | (dsimp only; split)

theorem State.safeSide_keeps {k₀ : Nat} {s₀ s : State} (n : Nat)
    (hm : Covers k₀ 0x200618a0000000000000000000000000000000000000000000000000000000000001a00a8180000000000000000043009a) (hs : Keeps k₀ s₀ s) :
    Keeps k₀ s₀ (State.safeSide s n) := by
  unfold State.safeSide
  repeat' first
    | exact hm.trans (by decide)
    | with_reducible first
      | assumption | intro _ | refine Keeps.of_eq (by with_reducible assumption) ?_ | apply State.substitute_keeps
      | apply Keeps.ite
    | split | (dsimp only; split)

theorem State.useTask_keeps {k₀ : Nat} {s₀ s : State} (n : Nat)
    (hm : Covers k₀ 0x200618a0000000000000000000000000000000000000000000000000000000000001a00a818008808808000000004304ba) (hs : Keeps k₀ s₀ s) :
    Keeps k₀ s₀ (State.useTask s n) := by
  unfold State.useTask
  repeat' first
    | exact hm.trans (by decide)
    | with_reducible first
      | assumption | intro _ | refine Keeps.of_eq (by with_reducible assumption) ?_ | apply State.faultOutputs_keeps
      | apply State.overrunOutputs_keeps | apply State.tryRelease_keeps | apply Keeps.ite
    | split | (dsimp only; split)

theorem State.useGroup_keeps {k₀ : Nat} {s₀ s : State} (n : Nat)
    (hm : Covers k₀ 0x200618a0000000000000000000000000000000000000000000000000000000000001a00a818008808808000800004304ba) (hs : Keeps k₀ s₀ s) :
    Keeps k₀ s₀ (State.useGroup s n) := by
  unfold State.useGroup
  repeat' first
    | exact hm.trans (by decide)
    | with_reducible first
      | exact FRM_STATUS_in | exact FRM_TSTAT_in | assumption | intro _
      | refine Keeps.of_eq (by with_reducible assumption) ?_ | apply State.evGroup_keeps | apply State.flag_keeps
      | apply State.putFld_keeps | apply State.safeSide_keeps | apply State.useTask_keeps | apply State.when_keeps
      | apply Keeps.ite
    | split | (dsimp only; split)

theorem State.taskTick_keeps {k₀ : Nat} {s₀ s : State}
    (hm : Covers k₀ 0x200618a0000000000000000000000000000000000000000000000000000000000001a00a818008808808200800104306ba) (hs : Keeps k₀ s₀ s) :
    Keeps k₀ s₀ (State.taskTick s) := by
  unfold State.taskTick
  repeat' first
    | exact hm.trans (by decide)
    | with_reducible first
      | assumption | intro _ | refine Keeps.of_eq (by with_reducible assumption) ?_ | apply State.forEach_keeps
      | apply State.modTask_keeps | apply State.prepareTask_keeps | apply State.useGroup_keeps | apply State.when_keeps
      | apply Keeps.ite
    | split | (dsimp only; split)

theorem State.rebuildReady_keeps {k₀ : Nat} {s₀ s : State}
    (hm : Covers k₀ 0x200618a0000000000000000000000000000000000000000000000000000000000001a00a818000000008000000004104a2) (hs : Keeps k₀ s₀ s) :
    Keeps k₀ s₀ (State.rebuildReady s) := by
  unfold State.rebuildReady
  repeat' first
    | exact hm.trans (by decide)
    | with_reducible first
      | assumption | intro _ | refine Keeps.of_eq (by with_reducible assumption) ?_ | apply State.dispatchAll_keeps
      | apply State.forEach_keeps | apply State.preempt_keeps | apply Keeps.ite
    | split | (dsimp only; split)

theorem State.readyTick_keeps {k₀ : Nat} {s₀ s : State}
    (hm : Covers k₀ 0x200618a0000000000000000000000000000000000000000000000000000000000001a00a818000000008000000004104a2) (hs : Keeps k₀ s₀ s) :
    Keeps k₀ s₀ (State.readyTick s) := by
  unfold State.readyTick
  repeat' first
    | exact hm.trans (by decide)
    | with_reducible first
      | assumption | intro _ | refine Keeps.of_eq (by with_reducible assumption) ?_ | apply State.irq_keeps
      | apply State.rebuildReady_keeps | apply Keeps.ite
    | split | (dsimp only; split)

theorem State.tick_keeps {k₀ : Nat} {s₀ s : State}
    (hm : Covers k₀ 0xffffffffffffffffffffffffffffffffffffffffffffffffffffffffffffffffffffffffffffffffffffffffffffff1aeffffe) (hs : Keeps k₀ s₀ s) :
    Keeps k₀ s₀ (State.tick s) := by
  unfold State.tick
  repeat' first
    | exact hm.trans (by decide)
    | with_reducible first
      | exact FRM_CTRL_in | assumption | intro _ | refine Keeps.of_eq (by with_reducible assumption) ?_
      | apply State.changeTick_keeps | apply State.closeFrame_keeps | apply State.deliveryTick_keeps
      | apply State.dioPoints_keeps | apply State.doTick_keeps | apply State.dueTick_keeps
      | apply State.energyTick_keeps | apply State.fireTick_keeps | apply State.forEach_keeps
      | apply State.forceTick_keeps | apply State.loopTick_keeps | apply State.modeTick_keeps
      | apply State.openRings_keeps | apply State.readyTick_keeps | apply State.restartTick_keeps
      | apply State.selectPoint_keeps | apply State.stepAct_keeps | apply State.taskTick_keeps
      | apply State.trialTick_keeps | apply Keeps.ite
    | split | (dsimp only; split)

theorem State.expireDeadlines_keeps {k₀ : Nat} {s₀ s : State}
    (hm : Covers k₀ 0x200618a0000000000000000000000000000000000000000000000000000000000001a00a818000000008100800004302ba) (hs : Keeps k₀ s₀ s) :
    Keeps k₀ s₀ (State.expireDeadlines s) := by
  unfold State.expireDeadlines
  repeat' first
    | exact hm.trans (by decide)
    | with_reducible first
      | assumption | intro _ | refine Keeps.of_eq (by with_reducible assumption) ?_ | apply State.deadline_keeps
      | apply State.forEach_keeps | apply Keeps.ite
    | split | (dsimp only; split)

theorem State.catchUp_keeps {k₀ : Nat} {s₀ s : State}
    (hm : Covers k₀ 0xffffffffffffffffffffffffffffffffffffffffffffffffffffffffffffffffffffffffffffffffffffffffffffff1aeffffe) (hs : Keeps k₀ s₀ s) :
    Keeps k₀ s₀ (State.catchUp s) := by
  unfold State.catchUp
  repeat' first
    | exact hm.trans (by decide)
    | with_reducible first
      | exact FRM_CTRL_in | assumption | intro _ | refine Keeps.of_eq (by with_reducible assumption) ?_
      | apply State.dispatchAll_keeps | apply State.expireDeadlines_keeps | apply State.tick_keeps | apply Keeps.ite
    | split | (dsimp only; split)

theorem execStepAct_keeps {k₀ : Nat} {s₀ s : State}
    (hm : Covers k₀ 0xffffffffffffffffffffffffffffffffffffffffffffffffffffffffffffffffffffffffffffffffffffffffffffff1aeffffe) (hs : Keeps k₀ s₀ s) :
    Outcome.Keeps k₀ s₀ (execStepAct s) := by
  unfold execStepAct
  repeat' first
    | exact hm.trans (by decide)
    | with_reducible first
      | assumption | intro _ | refine Keeps.of_eq (by with_reducible assumption) ?_ | apply State.catchUp_keeps
      | apply State.stepAct_keeps | apply State.when_keeps | apply Keeps.ite | apply Outcome.keeps_next
    | split | (dsimp only; split)

theorem execPtpSync_keeps {k₀ : Nat} {s₀ s : State} (port : Fin 4) (domain : Nat) (sender : Nat) (senderPort : Nat)
    (origin : Int) (raw : Int) (hm : Covers k₀ 0xffffffffffffffffffffffffffffffffffffffffffffffffffffffffffffffffffffffffffffffffffffffffffffff1aeffffe) (hs : Keeps k₀ s₀ s) :
    Outcome.Keeps k₀ s₀ (execPtpSync port domain sender senderPort origin raw s) := by
  unfold execPtpSync
  repeat' first
    | exact hm.trans (by decide)
    | with_reducible first
      | assumption | intro _ | refine Keeps.of_eq (by with_reducible assumption) ?_ | apply State.catchUp_keeps
      | apply State.ptpSync_keeps | apply State.when_keeps | apply Keeps.ite | apply Outcome.keeps_next
    | split | (dsimp only; split)

theorem execTick_keeps {k₀ : Nat} {s₀ s : State}
    (hm : Covers k₀ 0xffffffffffffffffffffffffffffffffffffffffffffffffffffffffffffffffffffffffffffffffffffffffffffff1aeffffe) (hs : Keeps k₀ s₀ s) :
    Outcome.Keeps k₀ s₀ (execTick s) := by
  unfold execTick
  repeat' first
    | exact hm.trans (by decide)
    | with_reducible first
      | assumption | intro _ | refine Keeps.of_eq (by with_reducible assumption) ?_ | apply State.tick_keeps
      | apply Keeps.ite | apply Outcome.keeps_next
    | split | (dsimp only; split)

theorem State.closePhase_keeps {k₀ : Nat} {s₀ s : State} (upset : Bool) (okX : Bool) (okY : Bool)
    (hm : Covers k₀ 0x200618a000000000000000c000000400160001000000000000000000000000000001a00a8183a34234282009001a4fafba) (hs : Keeps k₀ s₀ s) :
    Keeps k₀ s₀ (State.closePhase s upset okX okY) := by
  unfold State.closePhase
  repeat' first
    | exact hm.trans (by decide)
    | with_reducible first
      | assumption | intro _ | refine Keeps.of_eq (by with_reducible assumption) ?_ | apply State.anvilClose_keeps
      | apply State.closeRecord_keeps | apply State.dispatchAll_keeps | apply State.inPair_keeps
      | apply State.jobWindows_keeps | apply State.sendHealth_keeps | apply State.wayClose_keeps | apply Keeps.ite
    | split | (dsimp only; split)

theorem execClosePhase_keeps {k₀ : Nat} {s₀ s : State} (upset : Bool) (okX : Bool) (okY : Bool)
    (hm : Covers k₀ 0x200618a000000000000000c000000400160001000000000000000000000000000001a00a8183a34234282009001a4fafba) (hs : Keeps k₀ s₀ s) :
    Outcome.Keeps k₀ s₀ (execClosePhase upset okX okY s) := by
  unfold execClosePhase
  repeat' first
    | exact hm.trans (by decide)
    | with_reducible first
      | assumption | intro _ | refine Keeps.of_eq (by with_reducible assumption) ?_ | apply State.closePhase_keeps
      | apply Keeps.ite | apply Outcome.keeps_next
    | split | (dsimp only; split)

theorem State.releaseErrorTask_keeps {k₀ : Nat} {s₀ s : State} (n : Nat) (blocks : List IoBlock)
    (hm : Covers k₀ 0x200618a0000000000000000000000000000000000000000000000000000000000001a00a818008808808000000004304ba) (hs : Keeps k₀ s₀ s) :
    Keeps k₀ s₀ (State.releaseErrorTask s n blocks) := by
  unfold State.releaseErrorTask
  repeat' first
    | exact hm.trans (by decide)
    | with_reducible first
      | assumption | intro _ | refine Keeps.of_eq (by with_reducible assumption) ?_ | apply State.evState_keeps
      | apply State.forEach_keeps | apply State.modTask_keeps | apply State.rebuildReady_keeps
      | apply State.tryRelease_keeps | apply Keeps.ite
    | split | (dsimp only; split)

theorem State.stationDrop_keeps {k₀ : Nat} {s₀ s : State} (n : Nat) (id : Nat)
    (hm : Covers k₀ 0x200618a0000000000000000000000000000000000000000800000000010004000001a00a8180088088080000000ac304ba) (hs : Keeps k₀ s₀ s) :
    Keeps k₀ s₀ (State.stationDrop s n id) := by
  unfold State.stationDrop
  repeat' first
    | exact hm.trans (by decide)
    | with_reducible first
      | exact SOP_DROPCNT_in | assumption | intro _ | refine Keeps.of_eq (by with_reducible assumption) ?_
      | apply State.bump_keeps | apply State.event_keeps | apply State.fillDropped_keeps | apply State.forEach_keeps
      | apply State.modRing_keeps | apply State.modStation_keeps | apply State.notify_keeps
      | apply State.releaseErrorTask_keeps | apply State.setSta_keeps | apply Keeps.ite
    | split | (dsimp only; split)

theorem execStationDrop_keeps {k₀ : Nat} {s₀ s : State} (ring : Fin 6) (station : BitVec 8)
    (hm : Covers k₀ 0x200618a0000000000000000000000000000000000000000800000000010004000001a00a8180088088080000000ac304ba) (hs : Keeps k₀ s₀ s) :
    Outcome.Keeps k₀ s₀ (execStationDrop ring station s) := by
  unfold execStationDrop
  repeat' first
    | exact hm.trans (by decide)
    | with_reducible first
      | assumption | intro _ | refine Keeps.of_eq (by with_reducible assumption) ?_ | apply State.stationDrop_keeps
      | apply Keeps.ite | apply Outcome.keeps_next
    | split | (dsimp only; split)

end Sys2Proof.Machine
end

