-- ==== Sys2Proof/Laws/State.lean ====
section
/-!
SUPPORT. The fields of a state after each update: one lemma for each field and each shared update, so that no proof unfolds
a record update.
-/

namespace Sys2Proof.Machine

set_option Elab.async false

/-! `setReg` -/

section
variable (s : State) (a : Nat) (v : Word)

@[simp] theorem State.setReg_pending : (s.setReg a v).pending = s.pending := rfl
@[simp] theorem State.setReg_smap : (s.setReg a v).smap = s.smap := rfl
@[simp] theorem State.setReg_mem : (s.setReg a v).mem = s.mem := rfl
@[simp] theorem State.setReg_ue : (s.setReg a v).ue = s.ue := rfl
@[simp] theorem State.setReg_cores : (s.setReg a v).cores = s.cores := rfl
@[simp] theorem State.setReg_program : (s.setReg a v).program = s.program := rfl
@[simp] theorem State.setReg_tasks : (s.setReg a v).tasks = s.tasks := rfl
@[simp] theorem State.setReg_lanes : (s.setReg a v).lanes = s.lanes := rfl
@[simp] theorem State.setReg_triads : (s.setReg a v).triads = s.triads := rfl
@[simp] theorem State.setReg_anvils : (s.setReg a v).anvils = s.anvils := rfl
@[simp] theorem State.setReg_frame : (s.setReg a v).frame = s.frame := rfl
@[simp] theorem State.setReg_modes : (s.setReg a v).modes = s.modes := rfl
@[simp] theorem State.setReg_change : (s.setReg a v).change = s.change := rfl
@[simp] theorem State.setReg_time : (s.setReg a v).time = s.time := rfl
@[simp] theorem State.setReg_dma : (s.setReg a v).dma = s.dma := rfl
@[simp] theorem State.setReg_recorder : (s.setReg a v).recorder = s.recorder := rfl
@[simp] theorem State.setReg_cpl : (s.setReg a v).cpl = s.cpl := rfl
@[simp] theorem State.setReg_dio : (s.setReg a v).dio = s.dio := rfl
@[simp] theorem State.setReg_loop : (s.setReg a v).loop = s.loop := rfl
@[simp] theorem State.setReg_calib : (s.setReg a v).calib = s.calib := rfl
@[simp] theorem State.setReg_bellows : (s.setReg a v).bellows = s.bellows := rfl
@[simp] theorem State.setReg_update : (s.setReg a v).update = s.update := rfl
@[simp] theorem State.setReg_rings : (s.setReg a v).rings = s.rings := rfl
@[simp] theorem State.setReg_held : (s.setReg a v).held = s.held := rfl
@[simp] theorem State.setReg_bridge : (s.setReg a v).bridge = s.bridge := rfl
@[simp] theorem State.setReg_queues : (s.setReg a v).queues = s.queues := rfl
@[simp] theorem State.setReg_outbox : (s.setReg a v).outbox = s.outbox := rfl
@[simp] theorem State.setReg_free : (s.setReg a v).free = s.free := rfl

end

/-! `putFld` -/

section
variable (s : State) (a : Nat) (f : Field) (v : Nat)

@[simp] theorem State.putFld_pending : (s.putFld a f v).pending = s.pending := rfl
@[simp] theorem State.putFld_smap : (s.putFld a f v).smap = s.smap := rfl
@[simp] theorem State.putFld_mem : (s.putFld a f v).mem = s.mem := rfl
@[simp] theorem State.putFld_ue : (s.putFld a f v).ue = s.ue := rfl
@[simp] theorem State.putFld_cores : (s.putFld a f v).cores = s.cores := rfl
@[simp] theorem State.putFld_program : (s.putFld a f v).program = s.program := rfl
@[simp] theorem State.putFld_tasks : (s.putFld a f v).tasks = s.tasks := rfl
@[simp] theorem State.putFld_lanes : (s.putFld a f v).lanes = s.lanes := rfl
@[simp] theorem State.putFld_triads : (s.putFld a f v).triads = s.triads := rfl
@[simp] theorem State.putFld_anvils : (s.putFld a f v).anvils = s.anvils := rfl
@[simp] theorem State.putFld_frame : (s.putFld a f v).frame = s.frame := rfl
@[simp] theorem State.putFld_modes : (s.putFld a f v).modes = s.modes := rfl
@[simp] theorem State.putFld_change : (s.putFld a f v).change = s.change := rfl
@[simp] theorem State.putFld_time : (s.putFld a f v).time = s.time := rfl
@[simp] theorem State.putFld_dma : (s.putFld a f v).dma = s.dma := rfl
@[simp] theorem State.putFld_recorder : (s.putFld a f v).recorder = s.recorder := rfl
@[simp] theorem State.putFld_cpl : (s.putFld a f v).cpl = s.cpl := rfl
@[simp] theorem State.putFld_dio : (s.putFld a f v).dio = s.dio := rfl
@[simp] theorem State.putFld_loop : (s.putFld a f v).loop = s.loop := rfl
@[simp] theorem State.putFld_calib : (s.putFld a f v).calib = s.calib := rfl
@[simp] theorem State.putFld_bellows : (s.putFld a f v).bellows = s.bellows := rfl
@[simp] theorem State.putFld_update : (s.putFld a f v).update = s.update := rfl
@[simp] theorem State.putFld_rings : (s.putFld a f v).rings = s.rings := rfl
@[simp] theorem State.putFld_held : (s.putFld a f v).held = s.held := rfl
@[simp] theorem State.putFld_bridge : (s.putFld a f v).bridge = s.bridge := rfl
@[simp] theorem State.putFld_queues : (s.putFld a f v).queues = s.queues := rfl
@[simp] theorem State.putFld_outbox : (s.putFld a f v).outbox = s.outbox := rfl
@[simp] theorem State.putFld_free : (s.putFld a f v).free = s.free := rfl

end

/-! `flag` -/

section
variable (s : State) (a : Nat) (f : Field)

@[simp] theorem State.flag_pending : (s.flag a f).pending = s.pending := rfl
@[simp] theorem State.flag_smap : (s.flag a f).smap = s.smap := rfl
@[simp] theorem State.flag_mem : (s.flag a f).mem = s.mem := rfl
@[simp] theorem State.flag_ue : (s.flag a f).ue = s.ue := rfl
@[simp] theorem State.flag_cores : (s.flag a f).cores = s.cores := rfl
@[simp] theorem State.flag_program : (s.flag a f).program = s.program := rfl
@[simp] theorem State.flag_tasks : (s.flag a f).tasks = s.tasks := rfl
@[simp] theorem State.flag_lanes : (s.flag a f).lanes = s.lanes := rfl
@[simp] theorem State.flag_triads : (s.flag a f).triads = s.triads := rfl
@[simp] theorem State.flag_anvils : (s.flag a f).anvils = s.anvils := rfl
@[simp] theorem State.flag_frame : (s.flag a f).frame = s.frame := rfl
@[simp] theorem State.flag_modes : (s.flag a f).modes = s.modes := rfl
@[simp] theorem State.flag_change : (s.flag a f).change = s.change := rfl
@[simp] theorem State.flag_time : (s.flag a f).time = s.time := rfl
@[simp] theorem State.flag_dma : (s.flag a f).dma = s.dma := rfl
@[simp] theorem State.flag_recorder : (s.flag a f).recorder = s.recorder := rfl
@[simp] theorem State.flag_cpl : (s.flag a f).cpl = s.cpl := rfl
@[simp] theorem State.flag_dio : (s.flag a f).dio = s.dio := rfl
@[simp] theorem State.flag_loop : (s.flag a f).loop = s.loop := rfl
@[simp] theorem State.flag_calib : (s.flag a f).calib = s.calib := rfl
@[simp] theorem State.flag_bellows : (s.flag a f).bellows = s.bellows := rfl
@[simp] theorem State.flag_update : (s.flag a f).update = s.update := rfl
@[simp] theorem State.flag_rings : (s.flag a f).rings = s.rings := rfl
@[simp] theorem State.flag_held : (s.flag a f).held = s.held := rfl
@[simp] theorem State.flag_bridge : (s.flag a f).bridge = s.bridge := rfl
@[simp] theorem State.flag_queues : (s.flag a f).queues = s.queues := rfl
@[simp] theorem State.flag_outbox : (s.flag a f).outbox = s.outbox := rfl
@[simp] theorem State.flag_free : (s.flag a f).free = s.free := rfl

end

/-! `setBit` -/

section
variable (s : State) (a : Nat) (i : Nat)

@[simp] theorem State.setBit_pending : (s.setBit a i).pending = s.pending := rfl
@[simp] theorem State.setBit_smap : (s.setBit a i).smap = s.smap := rfl
@[simp] theorem State.setBit_mem : (s.setBit a i).mem = s.mem := rfl
@[simp] theorem State.setBit_ue : (s.setBit a i).ue = s.ue := rfl
@[simp] theorem State.setBit_cores : (s.setBit a i).cores = s.cores := rfl
@[simp] theorem State.setBit_program : (s.setBit a i).program = s.program := rfl
@[simp] theorem State.setBit_tasks : (s.setBit a i).tasks = s.tasks := rfl
@[simp] theorem State.setBit_lanes : (s.setBit a i).lanes = s.lanes := rfl
@[simp] theorem State.setBit_triads : (s.setBit a i).triads = s.triads := rfl
@[simp] theorem State.setBit_anvils : (s.setBit a i).anvils = s.anvils := rfl
@[simp] theorem State.setBit_frame : (s.setBit a i).frame = s.frame := rfl
@[simp] theorem State.setBit_modes : (s.setBit a i).modes = s.modes := rfl
@[simp] theorem State.setBit_change : (s.setBit a i).change = s.change := rfl
@[simp] theorem State.setBit_time : (s.setBit a i).time = s.time := rfl
@[simp] theorem State.setBit_dma : (s.setBit a i).dma = s.dma := rfl
@[simp] theorem State.setBit_recorder : (s.setBit a i).recorder = s.recorder := rfl
@[simp] theorem State.setBit_cpl : (s.setBit a i).cpl = s.cpl := rfl
@[simp] theorem State.setBit_dio : (s.setBit a i).dio = s.dio := rfl
@[simp] theorem State.setBit_loop : (s.setBit a i).loop = s.loop := rfl
@[simp] theorem State.setBit_calib : (s.setBit a i).calib = s.calib := rfl
@[simp] theorem State.setBit_bellows : (s.setBit a i).bellows = s.bellows := rfl
@[simp] theorem State.setBit_update : (s.setBit a i).update = s.update := rfl
@[simp] theorem State.setBit_rings : (s.setBit a i).rings = s.rings := rfl
@[simp] theorem State.setBit_held : (s.setBit a i).held = s.held := rfl
@[simp] theorem State.setBit_bridge : (s.setBit a i).bridge = s.bridge := rfl
@[simp] theorem State.setBit_queues : (s.setBit a i).queues = s.queues := rfl
@[simp] theorem State.setBit_outbox : (s.setBit a i).outbox = s.outbox := rfl
@[simp] theorem State.setBit_free : (s.setBit a i).free = s.free := rfl

end

/-! `clrBit` -/

section
variable (s : State) (a : Nat) (i : Nat)

@[simp] theorem State.clrBit_pending : (s.clrBit a i).pending = s.pending := rfl
@[simp] theorem State.clrBit_smap : (s.clrBit a i).smap = s.smap := rfl
@[simp] theorem State.clrBit_mem : (s.clrBit a i).mem = s.mem := rfl
@[simp] theorem State.clrBit_ue : (s.clrBit a i).ue = s.ue := rfl
@[simp] theorem State.clrBit_cores : (s.clrBit a i).cores = s.cores := rfl
@[simp] theorem State.clrBit_program : (s.clrBit a i).program = s.program := rfl
@[simp] theorem State.clrBit_tasks : (s.clrBit a i).tasks = s.tasks := rfl
@[simp] theorem State.clrBit_lanes : (s.clrBit a i).lanes = s.lanes := rfl
@[simp] theorem State.clrBit_triads : (s.clrBit a i).triads = s.triads := rfl
@[simp] theorem State.clrBit_anvils : (s.clrBit a i).anvils = s.anvils := rfl
@[simp] theorem State.clrBit_frame : (s.clrBit a i).frame = s.frame := rfl
@[simp] theorem State.clrBit_modes : (s.clrBit a i).modes = s.modes := rfl
@[simp] theorem State.clrBit_change : (s.clrBit a i).change = s.change := rfl
@[simp] theorem State.clrBit_time : (s.clrBit a i).time = s.time := rfl
@[simp] theorem State.clrBit_dma : (s.clrBit a i).dma = s.dma := rfl
@[simp] theorem State.clrBit_recorder : (s.clrBit a i).recorder = s.recorder := rfl
@[simp] theorem State.clrBit_cpl : (s.clrBit a i).cpl = s.cpl := rfl
@[simp] theorem State.clrBit_dio : (s.clrBit a i).dio = s.dio := rfl
@[simp] theorem State.clrBit_loop : (s.clrBit a i).loop = s.loop := rfl
@[simp] theorem State.clrBit_calib : (s.clrBit a i).calib = s.calib := rfl
@[simp] theorem State.clrBit_bellows : (s.clrBit a i).bellows = s.bellows := rfl
@[simp] theorem State.clrBit_update : (s.clrBit a i).update = s.update := rfl
@[simp] theorem State.clrBit_rings : (s.clrBit a i).rings = s.rings := rfl
@[simp] theorem State.clrBit_held : (s.clrBit a i).held = s.held := rfl
@[simp] theorem State.clrBit_bridge : (s.clrBit a i).bridge = s.bridge := rfl
@[simp] theorem State.clrBit_queues : (s.clrBit a i).queues = s.queues := rfl
@[simp] theorem State.clrBit_outbox : (s.clrBit a i).outbox = s.outbox := rfl
@[simp] theorem State.clrBit_free : (s.clrBit a i).free = s.free := rfl

end

/-! `bumpBy` -/

section
variable (s : State) (a : Nat) (k : Nat)

@[simp] theorem State.bumpBy_pending : (s.bumpBy a k).pending = s.pending := rfl
@[simp] theorem State.bumpBy_smap : (s.bumpBy a k).smap = s.smap := rfl
@[simp] theorem State.bumpBy_mem : (s.bumpBy a k).mem = s.mem := rfl
@[simp] theorem State.bumpBy_ue : (s.bumpBy a k).ue = s.ue := rfl
@[simp] theorem State.bumpBy_cores : (s.bumpBy a k).cores = s.cores := rfl
@[simp] theorem State.bumpBy_program : (s.bumpBy a k).program = s.program := rfl
@[simp] theorem State.bumpBy_tasks : (s.bumpBy a k).tasks = s.tasks := rfl
@[simp] theorem State.bumpBy_lanes : (s.bumpBy a k).lanes = s.lanes := rfl
@[simp] theorem State.bumpBy_triads : (s.bumpBy a k).triads = s.triads := rfl
@[simp] theorem State.bumpBy_anvils : (s.bumpBy a k).anvils = s.anvils := rfl
@[simp] theorem State.bumpBy_frame : (s.bumpBy a k).frame = s.frame := rfl
@[simp] theorem State.bumpBy_modes : (s.bumpBy a k).modes = s.modes := rfl
@[simp] theorem State.bumpBy_change : (s.bumpBy a k).change = s.change := rfl
@[simp] theorem State.bumpBy_time : (s.bumpBy a k).time = s.time := rfl
@[simp] theorem State.bumpBy_dma : (s.bumpBy a k).dma = s.dma := rfl
@[simp] theorem State.bumpBy_recorder : (s.bumpBy a k).recorder = s.recorder := rfl
@[simp] theorem State.bumpBy_cpl : (s.bumpBy a k).cpl = s.cpl := rfl
@[simp] theorem State.bumpBy_dio : (s.bumpBy a k).dio = s.dio := rfl
@[simp] theorem State.bumpBy_loop : (s.bumpBy a k).loop = s.loop := rfl
@[simp] theorem State.bumpBy_calib : (s.bumpBy a k).calib = s.calib := rfl
@[simp] theorem State.bumpBy_bellows : (s.bumpBy a k).bellows = s.bellows := rfl
@[simp] theorem State.bumpBy_update : (s.bumpBy a k).update = s.update := rfl
@[simp] theorem State.bumpBy_rings : (s.bumpBy a k).rings = s.rings := rfl
@[simp] theorem State.bumpBy_held : (s.bumpBy a k).held = s.held := rfl
@[simp] theorem State.bumpBy_bridge : (s.bumpBy a k).bridge = s.bridge := rfl
@[simp] theorem State.bumpBy_queues : (s.bumpBy a k).queues = s.queues := rfl
@[simp] theorem State.bumpBy_outbox : (s.bumpBy a k).outbox = s.outbox := rfl
@[simp] theorem State.bumpBy_free : (s.bumpBy a k).free = s.free := rfl

end

/-! `bump` -/

section
variable (s : State) (a : Nat)

@[simp] theorem State.bump_pending : (s.bump a).pending = s.pending := rfl
@[simp] theorem State.bump_smap : (s.bump a).smap = s.smap := rfl
@[simp] theorem State.bump_mem : (s.bump a).mem = s.mem := rfl
@[simp] theorem State.bump_ue : (s.bump a).ue = s.ue := rfl
@[simp] theorem State.bump_cores : (s.bump a).cores = s.cores := rfl
@[simp] theorem State.bump_program : (s.bump a).program = s.program := rfl
@[simp] theorem State.bump_tasks : (s.bump a).tasks = s.tasks := rfl
@[simp] theorem State.bump_lanes : (s.bump a).lanes = s.lanes := rfl
@[simp] theorem State.bump_triads : (s.bump a).triads = s.triads := rfl
@[simp] theorem State.bump_anvils : (s.bump a).anvils = s.anvils := rfl
@[simp] theorem State.bump_frame : (s.bump a).frame = s.frame := rfl
@[simp] theorem State.bump_modes : (s.bump a).modes = s.modes := rfl
@[simp] theorem State.bump_change : (s.bump a).change = s.change := rfl
@[simp] theorem State.bump_time : (s.bump a).time = s.time := rfl
@[simp] theorem State.bump_dma : (s.bump a).dma = s.dma := rfl
@[simp] theorem State.bump_recorder : (s.bump a).recorder = s.recorder := rfl
@[simp] theorem State.bump_cpl : (s.bump a).cpl = s.cpl := rfl
@[simp] theorem State.bump_dio : (s.bump a).dio = s.dio := rfl
@[simp] theorem State.bump_loop : (s.bump a).loop = s.loop := rfl
@[simp] theorem State.bump_calib : (s.bump a).calib = s.calib := rfl
@[simp] theorem State.bump_bellows : (s.bump a).bellows = s.bellows := rfl
@[simp] theorem State.bump_update : (s.bump a).update = s.update := rfl
@[simp] theorem State.bump_rings : (s.bump a).rings = s.rings := rfl
@[simp] theorem State.bump_held : (s.bump a).held = s.held := rfl
@[simp] theorem State.bump_bridge : (s.bump a).bridge = s.bridge := rfl
@[simp] theorem State.bump_queues : (s.bump a).queues = s.queues := rfl
@[simp] theorem State.bump_outbox : (s.bump a).outbox = s.outbox := rfl
@[simp] theorem State.bump_free : (s.bump a).free = s.free := rfl

end

/-! `tickFree` -/

section
variable (s : State)

@[simp] theorem State.tickFree_pending : (s.tickFree).pending = s.pending := rfl
@[simp] theorem State.tickFree_regs : (s.tickFree).regs = s.regs := rfl
@[simp] theorem State.tickFree_smap : (s.tickFree).smap = s.smap := rfl
@[simp] theorem State.tickFree_mem : (s.tickFree).mem = s.mem := rfl
@[simp] theorem State.tickFree_ue : (s.tickFree).ue = s.ue := rfl
@[simp] theorem State.tickFree_cores : (s.tickFree).cores = s.cores := rfl
@[simp] theorem State.tickFree_program : (s.tickFree).program = s.program := rfl
@[simp] theorem State.tickFree_tasks : (s.tickFree).tasks = s.tasks := rfl
@[simp] theorem State.tickFree_lanes : (s.tickFree).lanes = s.lanes := rfl
@[simp] theorem State.tickFree_triads : (s.tickFree).triads = s.triads := rfl
@[simp] theorem State.tickFree_anvils : (s.tickFree).anvils = s.anvils := rfl
@[simp] theorem State.tickFree_frame : (s.tickFree).frame = s.frame := rfl
@[simp] theorem State.tickFree_modes : (s.tickFree).modes = s.modes := rfl
@[simp] theorem State.tickFree_change : (s.tickFree).change = s.change := rfl
@[simp] theorem State.tickFree_time : (s.tickFree).time = s.time := rfl
@[simp] theorem State.tickFree_dma : (s.tickFree).dma = s.dma := rfl
@[simp] theorem State.tickFree_recorder : (s.tickFree).recorder = s.recorder := rfl
@[simp] theorem State.tickFree_cpl : (s.tickFree).cpl = s.cpl := rfl
@[simp] theorem State.tickFree_dio : (s.tickFree).dio = s.dio := rfl
@[simp] theorem State.tickFree_loop : (s.tickFree).loop = s.loop := rfl
@[simp] theorem State.tickFree_calib : (s.tickFree).calib = s.calib := rfl
@[simp] theorem State.tickFree_bellows : (s.tickFree).bellows = s.bellows := rfl
@[simp] theorem State.tickFree_update : (s.tickFree).update = s.update := rfl
@[simp] theorem State.tickFree_rings : (s.tickFree).rings = s.rings := rfl
@[simp] theorem State.tickFree_held : (s.tickFree).held = s.held := rfl
@[simp] theorem State.tickFree_bridge : (s.tickFree).bridge = s.bridge := rfl
@[simp] theorem State.tickFree_queues : (s.tickFree).queues = s.queues := rfl
@[simp] theorem State.tickFree_outbox : (s.tickFree).outbox = s.outbox := rfl

end

/-! `send` -/

section
variable (s : State) (m : Out)

@[simp] theorem State.send_pending : (s.send m).pending = s.pending := rfl
@[simp] theorem State.send_regs : (s.send m).regs = s.regs := rfl
@[simp] theorem State.send_smap : (s.send m).smap = s.smap := rfl
@[simp] theorem State.send_mem : (s.send m).mem = s.mem := rfl
@[simp] theorem State.send_ue : (s.send m).ue = s.ue := rfl
@[simp] theorem State.send_cores : (s.send m).cores = s.cores := rfl
@[simp] theorem State.send_program : (s.send m).program = s.program := rfl
@[simp] theorem State.send_tasks : (s.send m).tasks = s.tasks := rfl
@[simp] theorem State.send_lanes : (s.send m).lanes = s.lanes := rfl
@[simp] theorem State.send_triads : (s.send m).triads = s.triads := rfl
@[simp] theorem State.send_anvils : (s.send m).anvils = s.anvils := rfl
@[simp] theorem State.send_frame : (s.send m).frame = s.frame := rfl
@[simp] theorem State.send_modes : (s.send m).modes = s.modes := rfl
@[simp] theorem State.send_change : (s.send m).change = s.change := rfl
@[simp] theorem State.send_time : (s.send m).time = s.time := rfl
@[simp] theorem State.send_dma : (s.send m).dma = s.dma := rfl
@[simp] theorem State.send_recorder : (s.send m).recorder = s.recorder := rfl
@[simp] theorem State.send_cpl : (s.send m).cpl = s.cpl := rfl
@[simp] theorem State.send_dio : (s.send m).dio = s.dio := rfl
@[simp] theorem State.send_loop : (s.send m).loop = s.loop := rfl
@[simp] theorem State.send_calib : (s.send m).calib = s.calib := rfl
@[simp] theorem State.send_bellows : (s.send m).bellows = s.bellows := rfl
@[simp] theorem State.send_update : (s.send m).update = s.update := rfl
@[simp] theorem State.send_rings : (s.send m).rings = s.rings := rfl
@[simp] theorem State.send_held : (s.send m).held = s.held := rfl
@[simp] theorem State.send_bridge : (s.send m).bridge = s.bridge := rfl
@[simp] theorem State.send_queues : (s.send m).queues = s.queues := rfl
@[simp] theorem State.send_free : (s.send m).free = s.free := rfl

end

/-! `setChange` -/

section
variable (s : State) (c : ChangeState)

@[simp] theorem State.setChange_pending : (s.setChange c).pending = s.pending := rfl
@[simp] theorem State.setChange_regs : (s.setChange c).regs = s.regs := rfl
@[simp] theorem State.setChange_smap : (s.setChange c).smap = s.smap := rfl
@[simp] theorem State.setChange_mem : (s.setChange c).mem = s.mem := rfl
@[simp] theorem State.setChange_ue : (s.setChange c).ue = s.ue := rfl
@[simp] theorem State.setChange_cores : (s.setChange c).cores = s.cores := rfl
@[simp] theorem State.setChange_program : (s.setChange c).program = s.program := rfl
@[simp] theorem State.setChange_tasks : (s.setChange c).tasks = s.tasks := rfl
@[simp] theorem State.setChange_lanes : (s.setChange c).lanes = s.lanes := rfl
@[simp] theorem State.setChange_triads : (s.setChange c).triads = s.triads := rfl
@[simp] theorem State.setChange_anvils : (s.setChange c).anvils = s.anvils := rfl
@[simp] theorem State.setChange_frame : (s.setChange c).frame = s.frame := rfl
@[simp] theorem State.setChange_modes : (s.setChange c).modes = s.modes := rfl
@[simp] theorem State.setChange_time : (s.setChange c).time = s.time := rfl
@[simp] theorem State.setChange_dma : (s.setChange c).dma = s.dma := rfl
@[simp] theorem State.setChange_recorder : (s.setChange c).recorder = s.recorder := rfl
@[simp] theorem State.setChange_cpl : (s.setChange c).cpl = s.cpl := rfl
@[simp] theorem State.setChange_dio : (s.setChange c).dio = s.dio := rfl
@[simp] theorem State.setChange_loop : (s.setChange c).loop = s.loop := rfl
@[simp] theorem State.setChange_calib : (s.setChange c).calib = s.calib := rfl
@[simp] theorem State.setChange_bellows : (s.setChange c).bellows = s.bellows := rfl
@[simp] theorem State.setChange_update : (s.setChange c).update = s.update := rfl
@[simp] theorem State.setChange_rings : (s.setChange c).rings = s.rings := rfl
@[simp] theorem State.setChange_held : (s.setChange c).held = s.held := rfl
@[simp] theorem State.setChange_bridge : (s.setChange c).bridge = s.bridge := rfl
@[simp] theorem State.setChange_queues : (s.setChange c).queues = s.queues := rfl
@[simp] theorem State.setChange_outbox : (s.setChange c).outbox = s.outbox := rfl
@[simp] theorem State.setChange_free : (s.setChange c).free = s.free := rfl

end

/-! `setStored` -/

section
variable (s : State) (sa : Nat) (b : Byte)

@[simp] theorem State.setStored_pending : (s.setStored sa b).pending = s.pending := rfl
@[simp] theorem State.setStored_regs : (s.setStored sa b).regs = s.regs := rfl
@[simp] theorem State.setStored_smap : (s.setStored sa b).smap = s.smap := rfl
@[simp] theorem State.setStored_ue : (s.setStored sa b).ue = s.ue := rfl
@[simp] theorem State.setStored_cores : (s.setStored sa b).cores = s.cores := rfl
@[simp] theorem State.setStored_program : (s.setStored sa b).program = s.program := rfl
@[simp] theorem State.setStored_tasks : (s.setStored sa b).tasks = s.tasks := rfl
@[simp] theorem State.setStored_lanes : (s.setStored sa b).lanes = s.lanes := rfl
@[simp] theorem State.setStored_triads : (s.setStored sa b).triads = s.triads := rfl
@[simp] theorem State.setStored_anvils : (s.setStored sa b).anvils = s.anvils := rfl
@[simp] theorem State.setStored_frame : (s.setStored sa b).frame = s.frame := rfl
@[simp] theorem State.setStored_modes : (s.setStored sa b).modes = s.modes := rfl
@[simp] theorem State.setStored_change : (s.setStored sa b).change = s.change := rfl
@[simp] theorem State.setStored_time : (s.setStored sa b).time = s.time := rfl
@[simp] theorem State.setStored_dma : (s.setStored sa b).dma = s.dma := rfl
@[simp] theorem State.setStored_recorder : (s.setStored sa b).recorder = s.recorder := rfl
@[simp] theorem State.setStored_cpl : (s.setStored sa b).cpl = s.cpl := rfl
@[simp] theorem State.setStored_dio : (s.setStored sa b).dio = s.dio := rfl
@[simp] theorem State.setStored_loop : (s.setStored sa b).loop = s.loop := rfl
@[simp] theorem State.setStored_calib : (s.setStored sa b).calib = s.calib := rfl
@[simp] theorem State.setStored_bellows : (s.setStored sa b).bellows = s.bellows := rfl
@[simp] theorem State.setStored_update : (s.setStored sa b).update = s.update := rfl
@[simp] theorem State.setStored_rings : (s.setStored sa b).rings = s.rings := rfl
@[simp] theorem State.setStored_held : (s.setStored sa b).held = s.held := rfl
@[simp] theorem State.setStored_bridge : (s.setStored sa b).bridge = s.bridge := rfl
@[simp] theorem State.setStored_queues : (s.setStored sa b).queues = s.queues := rfl
@[simp] theorem State.setStored_outbox : (s.setStored sa b).outbox = s.outbox := rfl
@[simp] theorem State.setStored_free : (s.setStored sa b).free = s.free := rfl

end

/-! `setCore` -/

section
variable (s : State) (c : Fin 12) (k : Core)

@[simp] theorem State.setCore_pending : (s.setCore c k).pending = s.pending := rfl
@[simp] theorem State.setCore_regs : (s.setCore c k).regs = s.regs := rfl
@[simp] theorem State.setCore_smap : (s.setCore c k).smap = s.smap := rfl
@[simp] theorem State.setCore_mem : (s.setCore c k).mem = s.mem := rfl
@[simp] theorem State.setCore_ue : (s.setCore c k).ue = s.ue := rfl
@[simp] theorem State.setCore_program : (s.setCore c k).program = s.program := rfl
@[simp] theorem State.setCore_tasks : (s.setCore c k).tasks = s.tasks := rfl
@[simp] theorem State.setCore_lanes : (s.setCore c k).lanes = s.lanes := rfl
@[simp] theorem State.setCore_triads : (s.setCore c k).triads = s.triads := rfl
@[simp] theorem State.setCore_anvils : (s.setCore c k).anvils = s.anvils := rfl
@[simp] theorem State.setCore_frame : (s.setCore c k).frame = s.frame := rfl
@[simp] theorem State.setCore_modes : (s.setCore c k).modes = s.modes := rfl
@[simp] theorem State.setCore_change : (s.setCore c k).change = s.change := rfl
@[simp] theorem State.setCore_time : (s.setCore c k).time = s.time := rfl
@[simp] theorem State.setCore_dma : (s.setCore c k).dma = s.dma := rfl
@[simp] theorem State.setCore_recorder : (s.setCore c k).recorder = s.recorder := rfl
@[simp] theorem State.setCore_cpl : (s.setCore c k).cpl = s.cpl := rfl
@[simp] theorem State.setCore_dio : (s.setCore c k).dio = s.dio := rfl
@[simp] theorem State.setCore_loop : (s.setCore c k).loop = s.loop := rfl
@[simp] theorem State.setCore_calib : (s.setCore c k).calib = s.calib := rfl
@[simp] theorem State.setCore_bellows : (s.setCore c k).bellows = s.bellows := rfl
@[simp] theorem State.setCore_update : (s.setCore c k).update = s.update := rfl
@[simp] theorem State.setCore_rings : (s.setCore c k).rings = s.rings := rfl
@[simp] theorem State.setCore_held : (s.setCore c k).held = s.held := rfl
@[simp] theorem State.setCore_bridge : (s.setCore c k).bridge = s.bridge := rfl
@[simp] theorem State.setCore_queues : (s.setCore c k).queues = s.queues := rfl
@[simp] theorem State.setCore_outbox : (s.setCore c k).outbox = s.outbox := rfl
@[simp] theorem State.setCore_free : (s.setCore c k).free = s.free := rfl

end

/-! `modCore` -/

section
variable (s : State) (c : Fin 12) (g : Core → Core)

@[simp] theorem State.modCore_pending : (s.modCore c g).pending = s.pending := rfl
@[simp] theorem State.modCore_regs : (s.modCore c g).regs = s.regs := rfl
@[simp] theorem State.modCore_smap : (s.modCore c g).smap = s.smap := rfl
@[simp] theorem State.modCore_mem : (s.modCore c g).mem = s.mem := rfl
@[simp] theorem State.modCore_ue : (s.modCore c g).ue = s.ue := rfl
@[simp] theorem State.modCore_program : (s.modCore c g).program = s.program := rfl
@[simp] theorem State.modCore_tasks : (s.modCore c g).tasks = s.tasks := rfl
@[simp] theorem State.modCore_lanes : (s.modCore c g).lanes = s.lanes := rfl
@[simp] theorem State.modCore_triads : (s.modCore c g).triads = s.triads := rfl
@[simp] theorem State.modCore_anvils : (s.modCore c g).anvils = s.anvils := rfl
@[simp] theorem State.modCore_frame : (s.modCore c g).frame = s.frame := rfl
@[simp] theorem State.modCore_modes : (s.modCore c g).modes = s.modes := rfl
@[simp] theorem State.modCore_change : (s.modCore c g).change = s.change := rfl
@[simp] theorem State.modCore_time : (s.modCore c g).time = s.time := rfl
@[simp] theorem State.modCore_dma : (s.modCore c g).dma = s.dma := rfl
@[simp] theorem State.modCore_recorder : (s.modCore c g).recorder = s.recorder := rfl
@[simp] theorem State.modCore_cpl : (s.modCore c g).cpl = s.cpl := rfl
@[simp] theorem State.modCore_dio : (s.modCore c g).dio = s.dio := rfl
@[simp] theorem State.modCore_loop : (s.modCore c g).loop = s.loop := rfl
@[simp] theorem State.modCore_calib : (s.modCore c g).calib = s.calib := rfl
@[simp] theorem State.modCore_bellows : (s.modCore c g).bellows = s.bellows := rfl
@[simp] theorem State.modCore_update : (s.modCore c g).update = s.update := rfl
@[simp] theorem State.modCore_rings : (s.modCore c g).rings = s.rings := rfl
@[simp] theorem State.modCore_held : (s.modCore c g).held = s.held := rfl
@[simp] theorem State.modCore_bridge : (s.modCore c g).bridge = s.bridge := rfl
@[simp] theorem State.modCore_queues : (s.modCore c g).queues = s.queues := rfl
@[simp] theorem State.modCore_outbox : (s.modCore c g).outbox = s.outbox := rfl
@[simp] theorem State.modCore_free : (s.modCore c g).free = s.free := rfl

end

/-! `raiseLine` -/

section
variable (s : State) (line : Nat) (c : Fin 12)

@[simp] theorem State.raiseLine_pending : (s.raiseLine line c).pending = s.pending := rfl
@[simp] theorem State.raiseLine_regs : (s.raiseLine line c).regs = s.regs := rfl
@[simp] theorem State.raiseLine_smap : (s.raiseLine line c).smap = s.smap := rfl
@[simp] theorem State.raiseLine_mem : (s.raiseLine line c).mem = s.mem := rfl
@[simp] theorem State.raiseLine_ue : (s.raiseLine line c).ue = s.ue := rfl
@[simp] theorem State.raiseLine_program : (s.raiseLine line c).program = s.program := rfl
@[simp] theorem State.raiseLine_tasks : (s.raiseLine line c).tasks = s.tasks := rfl
@[simp] theorem State.raiseLine_lanes : (s.raiseLine line c).lanes = s.lanes := rfl
@[simp] theorem State.raiseLine_triads : (s.raiseLine line c).triads = s.triads := rfl
@[simp] theorem State.raiseLine_anvils : (s.raiseLine line c).anvils = s.anvils := rfl
@[simp] theorem State.raiseLine_frame : (s.raiseLine line c).frame = s.frame := rfl
@[simp] theorem State.raiseLine_modes : (s.raiseLine line c).modes = s.modes := rfl
@[simp] theorem State.raiseLine_change : (s.raiseLine line c).change = s.change := rfl
@[simp] theorem State.raiseLine_time : (s.raiseLine line c).time = s.time := rfl
@[simp] theorem State.raiseLine_dma : (s.raiseLine line c).dma = s.dma := rfl
@[simp] theorem State.raiseLine_recorder : (s.raiseLine line c).recorder = s.recorder := rfl
@[simp] theorem State.raiseLine_cpl : (s.raiseLine line c).cpl = s.cpl := rfl
@[simp] theorem State.raiseLine_dio : (s.raiseLine line c).dio = s.dio := rfl
@[simp] theorem State.raiseLine_loop : (s.raiseLine line c).loop = s.loop := rfl
@[simp] theorem State.raiseLine_calib : (s.raiseLine line c).calib = s.calib := rfl
@[simp] theorem State.raiseLine_bellows : (s.raiseLine line c).bellows = s.bellows := rfl
@[simp] theorem State.raiseLine_update : (s.raiseLine line c).update = s.update := rfl
@[simp] theorem State.raiseLine_rings : (s.raiseLine line c).rings = s.rings := rfl
@[simp] theorem State.raiseLine_held : (s.raiseLine line c).held = s.held := rfl
@[simp] theorem State.raiseLine_bridge : (s.raiseLine line c).bridge = s.bridge := rfl
@[simp] theorem State.raiseLine_queues : (s.raiseLine line c).queues = s.queues := rfl
@[simp] theorem State.raiseLine_outbox : (s.raiseLine line c).outbox = s.outbox := rfl
@[simp] theorem State.raiseLine_free : (s.raiseLine line c).free = s.free := rfl

end

/-! `modModes` -/

section
variable (s : State) (g : Modes → Modes)

@[simp] theorem State.modModes_pending : (s.modModes g).pending = s.pending := rfl
@[simp] theorem State.modModes_regs : (s.modModes g).regs = s.regs := rfl
@[simp] theorem State.modModes_smap : (s.modModes g).smap = s.smap := rfl
@[simp] theorem State.modModes_mem : (s.modModes g).mem = s.mem := rfl
@[simp] theorem State.modModes_ue : (s.modModes g).ue = s.ue := rfl
@[simp] theorem State.modModes_cores : (s.modModes g).cores = s.cores := rfl
@[simp] theorem State.modModes_program : (s.modModes g).program = s.program := rfl
@[simp] theorem State.modModes_tasks : (s.modModes g).tasks = s.tasks := rfl
@[simp] theorem State.modModes_lanes : (s.modModes g).lanes = s.lanes := rfl
@[simp] theorem State.modModes_triads : (s.modModes g).triads = s.triads := rfl
@[simp] theorem State.modModes_anvils : (s.modModes g).anvils = s.anvils := rfl
@[simp] theorem State.modModes_frame : (s.modModes g).frame = s.frame := rfl
@[simp] theorem State.modModes_change : (s.modModes g).change = s.change := rfl
@[simp] theorem State.modModes_time : (s.modModes g).time = s.time := rfl
@[simp] theorem State.modModes_dma : (s.modModes g).dma = s.dma := rfl
@[simp] theorem State.modModes_recorder : (s.modModes g).recorder = s.recorder := rfl
@[simp] theorem State.modModes_cpl : (s.modModes g).cpl = s.cpl := rfl
@[simp] theorem State.modModes_dio : (s.modModes g).dio = s.dio := rfl
@[simp] theorem State.modModes_loop : (s.modModes g).loop = s.loop := rfl
@[simp] theorem State.modModes_calib : (s.modModes g).calib = s.calib := rfl
@[simp] theorem State.modModes_bellows : (s.modModes g).bellows = s.bellows := rfl
@[simp] theorem State.modModes_update : (s.modModes g).update = s.update := rfl
@[simp] theorem State.modModes_rings : (s.modModes g).rings = s.rings := rfl
@[simp] theorem State.modModes_held : (s.modModes g).held = s.held := rfl
@[simp] theorem State.modModes_bridge : (s.modModes g).bridge = s.bridge := rfl
@[simp] theorem State.modModes_queues : (s.modModes g).queues = s.queues := rfl
@[simp] theorem State.modModes_outbox : (s.modModes g).outbox = s.outbox := rfl
@[simp] theorem State.modModes_free : (s.modModes g).free = s.free := rfl

end

/-! `modTime` -/

section
variable (s : State) (g : TimeState → TimeState)

@[simp] theorem State.modTime_pending : (s.modTime g).pending = s.pending := rfl
@[simp] theorem State.modTime_regs : (s.modTime g).regs = s.regs := rfl
@[simp] theorem State.modTime_smap : (s.modTime g).smap = s.smap := rfl
@[simp] theorem State.modTime_mem : (s.modTime g).mem = s.mem := rfl
@[simp] theorem State.modTime_ue : (s.modTime g).ue = s.ue := rfl
@[simp] theorem State.modTime_cores : (s.modTime g).cores = s.cores := rfl
@[simp] theorem State.modTime_program : (s.modTime g).program = s.program := rfl
@[simp] theorem State.modTime_tasks : (s.modTime g).tasks = s.tasks := rfl
@[simp] theorem State.modTime_lanes : (s.modTime g).lanes = s.lanes := rfl
@[simp] theorem State.modTime_triads : (s.modTime g).triads = s.triads := rfl
@[simp] theorem State.modTime_anvils : (s.modTime g).anvils = s.anvils := rfl
@[simp] theorem State.modTime_frame : (s.modTime g).frame = s.frame := rfl
@[simp] theorem State.modTime_modes : (s.modTime g).modes = s.modes := rfl
@[simp] theorem State.modTime_change : (s.modTime g).change = s.change := rfl
@[simp] theorem State.modTime_dma : (s.modTime g).dma = s.dma := rfl
@[simp] theorem State.modTime_recorder : (s.modTime g).recorder = s.recorder := rfl
@[simp] theorem State.modTime_cpl : (s.modTime g).cpl = s.cpl := rfl
@[simp] theorem State.modTime_dio : (s.modTime g).dio = s.dio := rfl
@[simp] theorem State.modTime_loop : (s.modTime g).loop = s.loop := rfl
@[simp] theorem State.modTime_calib : (s.modTime g).calib = s.calib := rfl
@[simp] theorem State.modTime_bellows : (s.modTime g).bellows = s.bellows := rfl
@[simp] theorem State.modTime_update : (s.modTime g).update = s.update := rfl
@[simp] theorem State.modTime_rings : (s.modTime g).rings = s.rings := rfl
@[simp] theorem State.modTime_held : (s.modTime g).held = s.held := rfl
@[simp] theorem State.modTime_bridge : (s.modTime g).bridge = s.bridge := rfl
@[simp] theorem State.modTime_queues : (s.modTime g).queues = s.queues := rfl
@[simp] theorem State.modTime_outbox : (s.modTime g).outbox = s.outbox := rfl
@[simp] theorem State.modTime_free : (s.modTime g).free = s.free := rfl

end

/-! `modCpl` -/

section
variable (s : State) (g : Cpl → Cpl)

@[simp] theorem State.modCpl_pending : (s.modCpl g).pending = s.pending := rfl
@[simp] theorem State.modCpl_regs : (s.modCpl g).regs = s.regs := rfl
@[simp] theorem State.modCpl_smap : (s.modCpl g).smap = s.smap := rfl
@[simp] theorem State.modCpl_mem : (s.modCpl g).mem = s.mem := rfl
@[simp] theorem State.modCpl_ue : (s.modCpl g).ue = s.ue := rfl
@[simp] theorem State.modCpl_cores : (s.modCpl g).cores = s.cores := rfl
@[simp] theorem State.modCpl_program : (s.modCpl g).program = s.program := rfl
@[simp] theorem State.modCpl_tasks : (s.modCpl g).tasks = s.tasks := rfl
@[simp] theorem State.modCpl_lanes : (s.modCpl g).lanes = s.lanes := rfl
@[simp] theorem State.modCpl_triads : (s.modCpl g).triads = s.triads := rfl
@[simp] theorem State.modCpl_anvils : (s.modCpl g).anvils = s.anvils := rfl
@[simp] theorem State.modCpl_frame : (s.modCpl g).frame = s.frame := rfl
@[simp] theorem State.modCpl_modes : (s.modCpl g).modes = s.modes := rfl
@[simp] theorem State.modCpl_change : (s.modCpl g).change = s.change := rfl
@[simp] theorem State.modCpl_time : (s.modCpl g).time = s.time := rfl
@[simp] theorem State.modCpl_dma : (s.modCpl g).dma = s.dma := rfl
@[simp] theorem State.modCpl_recorder : (s.modCpl g).recorder = s.recorder := rfl
@[simp] theorem State.modCpl_dio : (s.modCpl g).dio = s.dio := rfl
@[simp] theorem State.modCpl_loop : (s.modCpl g).loop = s.loop := rfl
@[simp] theorem State.modCpl_calib : (s.modCpl g).calib = s.calib := rfl
@[simp] theorem State.modCpl_bellows : (s.modCpl g).bellows = s.bellows := rfl
@[simp] theorem State.modCpl_update : (s.modCpl g).update = s.update := rfl
@[simp] theorem State.modCpl_rings : (s.modCpl g).rings = s.rings := rfl
@[simp] theorem State.modCpl_held : (s.modCpl g).held = s.held := rfl
@[simp] theorem State.modCpl_bridge : (s.modCpl g).bridge = s.bridge := rfl
@[simp] theorem State.modCpl_queues : (s.modCpl g).queues = s.queues := rfl
@[simp] theorem State.modCpl_outbox : (s.modCpl g).outbox = s.outbox := rfl
@[simp] theorem State.modCpl_free : (s.modCpl g).free = s.free := rfl

end

/-! `modBridge` -/

section
variable (s : State) (g : Bridge → Bridge)

@[simp] theorem State.modBridge_pending : (s.modBridge g).pending = s.pending := rfl
@[simp] theorem State.modBridge_regs : (s.modBridge g).regs = s.regs := rfl
@[simp] theorem State.modBridge_smap : (s.modBridge g).smap = s.smap := rfl
@[simp] theorem State.modBridge_mem : (s.modBridge g).mem = s.mem := rfl
@[simp] theorem State.modBridge_ue : (s.modBridge g).ue = s.ue := rfl
@[simp] theorem State.modBridge_cores : (s.modBridge g).cores = s.cores := rfl
@[simp] theorem State.modBridge_program : (s.modBridge g).program = s.program := rfl
@[simp] theorem State.modBridge_tasks : (s.modBridge g).tasks = s.tasks := rfl
@[simp] theorem State.modBridge_lanes : (s.modBridge g).lanes = s.lanes := rfl
@[simp] theorem State.modBridge_triads : (s.modBridge g).triads = s.triads := rfl
@[simp] theorem State.modBridge_anvils : (s.modBridge g).anvils = s.anvils := rfl
@[simp] theorem State.modBridge_frame : (s.modBridge g).frame = s.frame := rfl
@[simp] theorem State.modBridge_modes : (s.modBridge g).modes = s.modes := rfl
@[simp] theorem State.modBridge_change : (s.modBridge g).change = s.change := rfl
@[simp] theorem State.modBridge_time : (s.modBridge g).time = s.time := rfl
@[simp] theorem State.modBridge_dma : (s.modBridge g).dma = s.dma := rfl
@[simp] theorem State.modBridge_recorder : (s.modBridge g).recorder = s.recorder := rfl
@[simp] theorem State.modBridge_cpl : (s.modBridge g).cpl = s.cpl := rfl
@[simp] theorem State.modBridge_dio : (s.modBridge g).dio = s.dio := rfl
@[simp] theorem State.modBridge_loop : (s.modBridge g).loop = s.loop := rfl
@[simp] theorem State.modBridge_calib : (s.modBridge g).calib = s.calib := rfl
@[simp] theorem State.modBridge_bellows : (s.modBridge g).bellows = s.bellows := rfl
@[simp] theorem State.modBridge_update : (s.modBridge g).update = s.update := rfl
@[simp] theorem State.modBridge_rings : (s.modBridge g).rings = s.rings := rfl
@[simp] theorem State.modBridge_held : (s.modBridge g).held = s.held := rfl
@[simp] theorem State.modBridge_queues : (s.modBridge g).queues = s.queues := rfl
@[simp] theorem State.modBridge_outbox : (s.modBridge g).outbox = s.outbox := rfl
@[simp] theorem State.modBridge_free : (s.modBridge g).free = s.free := rfl

end

/-! `modQueue` -/

section
variable (s : State) (q : QueueId) (g : Queue → Queue)

@[simp] theorem State.modQueue_pending : (s.modQueue q g).pending = s.pending := rfl
@[simp] theorem State.modQueue_regs : (s.modQueue q g).regs = s.regs := rfl
@[simp] theorem State.modQueue_smap : (s.modQueue q g).smap = s.smap := rfl
@[simp] theorem State.modQueue_mem : (s.modQueue q g).mem = s.mem := rfl
@[simp] theorem State.modQueue_ue : (s.modQueue q g).ue = s.ue := rfl
@[simp] theorem State.modQueue_cores : (s.modQueue q g).cores = s.cores := rfl
@[simp] theorem State.modQueue_program : (s.modQueue q g).program = s.program := rfl
@[simp] theorem State.modQueue_tasks : (s.modQueue q g).tasks = s.tasks := rfl
@[simp] theorem State.modQueue_lanes : (s.modQueue q g).lanes = s.lanes := rfl
@[simp] theorem State.modQueue_triads : (s.modQueue q g).triads = s.triads := rfl
@[simp] theorem State.modQueue_anvils : (s.modQueue q g).anvils = s.anvils := rfl
@[simp] theorem State.modQueue_frame : (s.modQueue q g).frame = s.frame := rfl
@[simp] theorem State.modQueue_modes : (s.modQueue q g).modes = s.modes := rfl
@[simp] theorem State.modQueue_change : (s.modQueue q g).change = s.change := rfl
@[simp] theorem State.modQueue_time : (s.modQueue q g).time = s.time := rfl
@[simp] theorem State.modQueue_dma : (s.modQueue q g).dma = s.dma := rfl
@[simp] theorem State.modQueue_recorder : (s.modQueue q g).recorder = s.recorder := rfl
@[simp] theorem State.modQueue_cpl : (s.modQueue q g).cpl = s.cpl := rfl
@[simp] theorem State.modQueue_dio : (s.modQueue q g).dio = s.dio := rfl
@[simp] theorem State.modQueue_loop : (s.modQueue q g).loop = s.loop := rfl
@[simp] theorem State.modQueue_calib : (s.modQueue q g).calib = s.calib := rfl
@[simp] theorem State.modQueue_bellows : (s.modQueue q g).bellows = s.bellows := rfl
@[simp] theorem State.modQueue_update : (s.modQueue q g).update = s.update := rfl
@[simp] theorem State.modQueue_rings : (s.modQueue q g).rings = s.rings := rfl
@[simp] theorem State.modQueue_held : (s.modQueue q g).held = s.held := rfl
@[simp] theorem State.modQueue_bridge : (s.modQueue q g).bridge = s.bridge := rfl
@[simp] theorem State.modQueue_outbox : (s.modQueue q g).outbox = s.outbox := rfl
@[simp] theorem State.modQueue_free : (s.modQueue q g).free = s.free := rfl

end

/-! `setHeld` -/

section
variable (s : State) (analog : Bool) (i : Nat) (v : Nat)

@[simp] theorem State.setHeld_pending : (s.setHeld analog i v).pending = s.pending := rfl
@[simp] theorem State.setHeld_regs : (s.setHeld analog i v).regs = s.regs := rfl
@[simp] theorem State.setHeld_smap : (s.setHeld analog i v).smap = s.smap := rfl
@[simp] theorem State.setHeld_mem : (s.setHeld analog i v).mem = s.mem := rfl
@[simp] theorem State.setHeld_ue : (s.setHeld analog i v).ue = s.ue := rfl
@[simp] theorem State.setHeld_cores : (s.setHeld analog i v).cores = s.cores := rfl
@[simp] theorem State.setHeld_program : (s.setHeld analog i v).program = s.program := rfl
@[simp] theorem State.setHeld_tasks : (s.setHeld analog i v).tasks = s.tasks := rfl
@[simp] theorem State.setHeld_lanes : (s.setHeld analog i v).lanes = s.lanes := rfl
@[simp] theorem State.setHeld_triads : (s.setHeld analog i v).triads = s.triads := rfl
@[simp] theorem State.setHeld_anvils : (s.setHeld analog i v).anvils = s.anvils := rfl
@[simp] theorem State.setHeld_frame : (s.setHeld analog i v).frame = s.frame := rfl
@[simp] theorem State.setHeld_modes : (s.setHeld analog i v).modes = s.modes := rfl
@[simp] theorem State.setHeld_change : (s.setHeld analog i v).change = s.change := rfl
@[simp] theorem State.setHeld_time : (s.setHeld analog i v).time = s.time := rfl
@[simp] theorem State.setHeld_dma : (s.setHeld analog i v).dma = s.dma := rfl
@[simp] theorem State.setHeld_recorder : (s.setHeld analog i v).recorder = s.recorder := rfl
@[simp] theorem State.setHeld_cpl : (s.setHeld analog i v).cpl = s.cpl := rfl
@[simp] theorem State.setHeld_dio : (s.setHeld analog i v).dio = s.dio := rfl
@[simp] theorem State.setHeld_loop : (s.setHeld analog i v).loop = s.loop := rfl
@[simp] theorem State.setHeld_calib : (s.setHeld analog i v).calib = s.calib := rfl
@[simp] theorem State.setHeld_bellows : (s.setHeld analog i v).bellows = s.bellows := rfl
@[simp] theorem State.setHeld_update : (s.setHeld analog i v).update = s.update := rfl
@[simp] theorem State.setHeld_rings : (s.setHeld analog i v).rings = s.rings := rfl
@[simp] theorem State.setHeld_bridge : (s.setHeld analog i v).bridge = s.bridge := rfl
@[simp] theorem State.setHeld_queues : (s.setHeld analog i v).queues = s.queues := rfl
@[simp] theorem State.setHeld_outbox : (s.setHeld analog i v).outbox = s.outbox := rfl
@[simp] theorem State.setHeld_free : (s.setHeld analog i v).free = s.free := rfl

end

/-! `modTask` -/

section
variable (s : State) (n : Nat) (g : Task → Task)

@[simp] theorem State.modTask_pending : (s.modTask n g).pending = s.pending := by
  unfold State.modTask; split <;> rfl
@[simp] theorem State.modTask_regs : (s.modTask n g).regs = s.regs := by
  unfold State.modTask; split <;> rfl
@[simp] theorem State.modTask_smap : (s.modTask n g).smap = s.smap := by
  unfold State.modTask; split <;> rfl
@[simp] theorem State.modTask_mem : (s.modTask n g).mem = s.mem := by
  unfold State.modTask; split <;> rfl
@[simp] theorem State.modTask_ue : (s.modTask n g).ue = s.ue := by
  unfold State.modTask; split <;> rfl
@[simp] theorem State.modTask_cores : (s.modTask n g).cores = s.cores := by
  unfold State.modTask; split <;> rfl
@[simp] theorem State.modTask_program : (s.modTask n g).program = s.program := by
  unfold State.modTask; split <;> rfl
@[simp] theorem State.modTask_lanes : (s.modTask n g).lanes = s.lanes := by
  unfold State.modTask; split <;> rfl
@[simp] theorem State.modTask_triads : (s.modTask n g).triads = s.triads := by
  unfold State.modTask; split <;> rfl
@[simp] theorem State.modTask_anvils : (s.modTask n g).anvils = s.anvils := by
  unfold State.modTask; split <;> rfl
@[simp] theorem State.modTask_frame : (s.modTask n g).frame = s.frame := by
  unfold State.modTask; split <;> rfl
@[simp] theorem State.modTask_modes : (s.modTask n g).modes = s.modes := by
  unfold State.modTask; split <;> rfl
@[simp] theorem State.modTask_change : (s.modTask n g).change = s.change := by
  unfold State.modTask; split <;> rfl
@[simp] theorem State.modTask_time : (s.modTask n g).time = s.time := by
  unfold State.modTask; split <;> rfl
@[simp] theorem State.modTask_dma : (s.modTask n g).dma = s.dma := by
  unfold State.modTask; split <;> rfl
@[simp] theorem State.modTask_recorder : (s.modTask n g).recorder = s.recorder := by
  unfold State.modTask; split <;> rfl
@[simp] theorem State.modTask_cpl : (s.modTask n g).cpl = s.cpl := by
  unfold State.modTask; split <;> rfl
@[simp] theorem State.modTask_dio : (s.modTask n g).dio = s.dio := by
  unfold State.modTask; split <;> rfl
@[simp] theorem State.modTask_loop : (s.modTask n g).loop = s.loop := by
  unfold State.modTask; split <;> rfl
@[simp] theorem State.modTask_calib : (s.modTask n g).calib = s.calib := by
  unfold State.modTask; split <;> rfl
@[simp] theorem State.modTask_bellows : (s.modTask n g).bellows = s.bellows := by
  unfold State.modTask; split <;> rfl
@[simp] theorem State.modTask_update : (s.modTask n g).update = s.update := by
  unfold State.modTask; split <;> rfl
@[simp] theorem State.modTask_rings : (s.modTask n g).rings = s.rings := by
  unfold State.modTask; split <;> rfl
@[simp] theorem State.modTask_held : (s.modTask n g).held = s.held := by
  unfold State.modTask; split <;> rfl
@[simp] theorem State.modTask_bridge : (s.modTask n g).bridge = s.bridge := by
  unfold State.modTask; split <;> rfl
@[simp] theorem State.modTask_queues : (s.modTask n g).queues = s.queues := by
  unfold State.modTask; split <;> rfl
@[simp] theorem State.modTask_outbox : (s.modTask n g).outbox = s.outbox := by
  unfold State.modTask; split <;> rfl
@[simp] theorem State.modTask_free : (s.modTask n g).free = s.free := by
  unfold State.modTask; split <;> rfl

end

/-! `modLane` -/

section
variable (s : State) (l : Nat) (g : Lane → Lane)

@[simp] theorem State.modLane_pending : (s.modLane l g).pending = s.pending := by
  unfold State.modLane; split <;> rfl
@[simp] theorem State.modLane_regs : (s.modLane l g).regs = s.regs := by
  unfold State.modLane; split <;> rfl
@[simp] theorem State.modLane_smap : (s.modLane l g).smap = s.smap := by
  unfold State.modLane; split <;> rfl
@[simp] theorem State.modLane_mem : (s.modLane l g).mem = s.mem := by
  unfold State.modLane; split <;> rfl
@[simp] theorem State.modLane_ue : (s.modLane l g).ue = s.ue := by
  unfold State.modLane; split <;> rfl
@[simp] theorem State.modLane_cores : (s.modLane l g).cores = s.cores := by
  unfold State.modLane; split <;> rfl
@[simp] theorem State.modLane_program : (s.modLane l g).program = s.program := by
  unfold State.modLane; split <;> rfl
@[simp] theorem State.modLane_tasks : (s.modLane l g).tasks = s.tasks := by
  unfold State.modLane; split <;> rfl
@[simp] theorem State.modLane_triads : (s.modLane l g).triads = s.triads := by
  unfold State.modLane; split <;> rfl
@[simp] theorem State.modLane_anvils : (s.modLane l g).anvils = s.anvils := by
  unfold State.modLane; split <;> rfl
@[simp] theorem State.modLane_frame : (s.modLane l g).frame = s.frame := by
  unfold State.modLane; split <;> rfl
@[simp] theorem State.modLane_modes : (s.modLane l g).modes = s.modes := by
  unfold State.modLane; split <;> rfl
@[simp] theorem State.modLane_change : (s.modLane l g).change = s.change := by
  unfold State.modLane; split <;> rfl
@[simp] theorem State.modLane_time : (s.modLane l g).time = s.time := by
  unfold State.modLane; split <;> rfl
@[simp] theorem State.modLane_dma : (s.modLane l g).dma = s.dma := by
  unfold State.modLane; split <;> rfl
@[simp] theorem State.modLane_recorder : (s.modLane l g).recorder = s.recorder := by
  unfold State.modLane; split <;> rfl
@[simp] theorem State.modLane_cpl : (s.modLane l g).cpl = s.cpl := by
  unfold State.modLane; split <;> rfl
@[simp] theorem State.modLane_dio : (s.modLane l g).dio = s.dio := by
  unfold State.modLane; split <;> rfl
@[simp] theorem State.modLane_loop : (s.modLane l g).loop = s.loop := by
  unfold State.modLane; split <;> rfl
@[simp] theorem State.modLane_calib : (s.modLane l g).calib = s.calib := by
  unfold State.modLane; split <;> rfl
@[simp] theorem State.modLane_bellows : (s.modLane l g).bellows = s.bellows := by
  unfold State.modLane; split <;> rfl
@[simp] theorem State.modLane_update : (s.modLane l g).update = s.update := by
  unfold State.modLane; split <;> rfl
@[simp] theorem State.modLane_rings : (s.modLane l g).rings = s.rings := by
  unfold State.modLane; split <;> rfl
@[simp] theorem State.modLane_held : (s.modLane l g).held = s.held := by
  unfold State.modLane; split <;> rfl
@[simp] theorem State.modLane_bridge : (s.modLane l g).bridge = s.bridge := by
  unfold State.modLane; split <;> rfl
@[simp] theorem State.modLane_queues : (s.modLane l g).queues = s.queues := by
  unfold State.modLane; split <;> rfl
@[simp] theorem State.modLane_outbox : (s.modLane l g).outbox = s.outbox := by
  unfold State.modLane; split <;> rfl
@[simp] theorem State.modLane_free : (s.modLane l g).free = s.free := by
  unfold State.modLane; split <;> rfl

end

/-! `modTriad` -/

section
variable (s : State) (t : Nat) (g : Triad → Triad)

@[simp] theorem State.modTriad_pending : (s.modTriad t g).pending = s.pending := by
  unfold State.modTriad; split <;> rfl
@[simp] theorem State.modTriad_regs : (s.modTriad t g).regs = s.regs := by
  unfold State.modTriad; split <;> rfl
@[simp] theorem State.modTriad_smap : (s.modTriad t g).smap = s.smap := by
  unfold State.modTriad; split <;> rfl
@[simp] theorem State.modTriad_mem : (s.modTriad t g).mem = s.mem := by
  unfold State.modTriad; split <;> rfl
@[simp] theorem State.modTriad_ue : (s.modTriad t g).ue = s.ue := by
  unfold State.modTriad; split <;> rfl
@[simp] theorem State.modTriad_cores : (s.modTriad t g).cores = s.cores := by
  unfold State.modTriad; split <;> rfl
@[simp] theorem State.modTriad_program : (s.modTriad t g).program = s.program := by
  unfold State.modTriad; split <;> rfl
@[simp] theorem State.modTriad_tasks : (s.modTriad t g).tasks = s.tasks := by
  unfold State.modTriad; split <;> rfl
@[simp] theorem State.modTriad_lanes : (s.modTriad t g).lanes = s.lanes := by
  unfold State.modTriad; split <;> rfl
@[simp] theorem State.modTriad_anvils : (s.modTriad t g).anvils = s.anvils := by
  unfold State.modTriad; split <;> rfl
@[simp] theorem State.modTriad_frame : (s.modTriad t g).frame = s.frame := by
  unfold State.modTriad; split <;> rfl
@[simp] theorem State.modTriad_modes : (s.modTriad t g).modes = s.modes := by
  unfold State.modTriad; split <;> rfl
@[simp] theorem State.modTriad_change : (s.modTriad t g).change = s.change := by
  unfold State.modTriad; split <;> rfl
@[simp] theorem State.modTriad_time : (s.modTriad t g).time = s.time := by
  unfold State.modTriad; split <;> rfl
@[simp] theorem State.modTriad_dma : (s.modTriad t g).dma = s.dma := by
  unfold State.modTriad; split <;> rfl
@[simp] theorem State.modTriad_recorder : (s.modTriad t g).recorder = s.recorder := by
  unfold State.modTriad; split <;> rfl
@[simp] theorem State.modTriad_cpl : (s.modTriad t g).cpl = s.cpl := by
  unfold State.modTriad; split <;> rfl
@[simp] theorem State.modTriad_dio : (s.modTriad t g).dio = s.dio := by
  unfold State.modTriad; split <;> rfl
@[simp] theorem State.modTriad_loop : (s.modTriad t g).loop = s.loop := by
  unfold State.modTriad; split <;> rfl
@[simp] theorem State.modTriad_calib : (s.modTriad t g).calib = s.calib := by
  unfold State.modTriad; split <;> rfl
@[simp] theorem State.modTriad_bellows : (s.modTriad t g).bellows = s.bellows := by
  unfold State.modTriad; split <;> rfl
@[simp] theorem State.modTriad_update : (s.modTriad t g).update = s.update := by
  unfold State.modTriad; split <;> rfl
@[simp] theorem State.modTriad_rings : (s.modTriad t g).rings = s.rings := by
  unfold State.modTriad; split <;> rfl
@[simp] theorem State.modTriad_held : (s.modTriad t g).held = s.held := by
  unfold State.modTriad; split <;> rfl
@[simp] theorem State.modTriad_bridge : (s.modTriad t g).bridge = s.bridge := by
  unfold State.modTriad; split <;> rfl
@[simp] theorem State.modTriad_queues : (s.modTriad t g).queues = s.queues := by
  unfold State.modTriad; split <;> rfl
@[simp] theorem State.modTriad_outbox : (s.modTriad t g).outbox = s.outbox := by
  unfold State.modTriad; split <;> rfl
@[simp] theorem State.modTriad_free : (s.modTriad t g).free = s.free := by
  unfold State.modTriad; split <;> rfl

end

/-! `modRing` -/

section
variable (s : State) (n : Nat) (g : Ring → Ring)

@[simp] theorem State.modRing_pending : (s.modRing n g).pending = s.pending := by
  unfold State.modRing; split <;> rfl
@[simp] theorem State.modRing_regs : (s.modRing n g).regs = s.regs := by
  unfold State.modRing; split <;> rfl
@[simp] theorem State.modRing_smap : (s.modRing n g).smap = s.smap := by
  unfold State.modRing; split <;> rfl
@[simp] theorem State.modRing_mem : (s.modRing n g).mem = s.mem := by
  unfold State.modRing; split <;> rfl
@[simp] theorem State.modRing_ue : (s.modRing n g).ue = s.ue := by
  unfold State.modRing; split <;> rfl
@[simp] theorem State.modRing_cores : (s.modRing n g).cores = s.cores := by
  unfold State.modRing; split <;> rfl
@[simp] theorem State.modRing_program : (s.modRing n g).program = s.program := by
  unfold State.modRing; split <;> rfl
@[simp] theorem State.modRing_tasks : (s.modRing n g).tasks = s.tasks := by
  unfold State.modRing; split <;> rfl
@[simp] theorem State.modRing_lanes : (s.modRing n g).lanes = s.lanes := by
  unfold State.modRing; split <;> rfl
@[simp] theorem State.modRing_triads : (s.modRing n g).triads = s.triads := by
  unfold State.modRing; split <;> rfl
@[simp] theorem State.modRing_anvils : (s.modRing n g).anvils = s.anvils := by
  unfold State.modRing; split <;> rfl
@[simp] theorem State.modRing_frame : (s.modRing n g).frame = s.frame := by
  unfold State.modRing; split <;> rfl
@[simp] theorem State.modRing_modes : (s.modRing n g).modes = s.modes := by
  unfold State.modRing; split <;> rfl
@[simp] theorem State.modRing_change : (s.modRing n g).change = s.change := by
  unfold State.modRing; split <;> rfl
@[simp] theorem State.modRing_time : (s.modRing n g).time = s.time := by
  unfold State.modRing; split <;> rfl
@[simp] theorem State.modRing_dma : (s.modRing n g).dma = s.dma := by
  unfold State.modRing; split <;> rfl
@[simp] theorem State.modRing_recorder : (s.modRing n g).recorder = s.recorder := by
  unfold State.modRing; split <;> rfl
@[simp] theorem State.modRing_cpl : (s.modRing n g).cpl = s.cpl := by
  unfold State.modRing; split <;> rfl
@[simp] theorem State.modRing_dio : (s.modRing n g).dio = s.dio := by
  unfold State.modRing; split <;> rfl
@[simp] theorem State.modRing_loop : (s.modRing n g).loop = s.loop := by
  unfold State.modRing; split <;> rfl
@[simp] theorem State.modRing_calib : (s.modRing n g).calib = s.calib := by
  unfold State.modRing; split <;> rfl
@[simp] theorem State.modRing_bellows : (s.modRing n g).bellows = s.bellows := by
  unfold State.modRing; split <;> rfl
@[simp] theorem State.modRing_update : (s.modRing n g).update = s.update := by
  unfold State.modRing; split <;> rfl
@[simp] theorem State.modRing_held : (s.modRing n g).held = s.held := by
  unfold State.modRing; split <;> rfl
@[simp] theorem State.modRing_bridge : (s.modRing n g).bridge = s.bridge := by
  unfold State.modRing; split <;> rfl
@[simp] theorem State.modRing_queues : (s.modRing n g).queues = s.queues := by
  unfold State.modRing; split <;> rfl
@[simp] theorem State.modRing_outbox : (s.modRing n g).outbox = s.outbox := by
  unfold State.modRing; split <;> rfl
@[simp] theorem State.modRing_free : (s.modRing n g).free = s.free := by
  unfold State.modRing; split <;> rfl

end

/-! `modDi` -/

section
variable (s : State) (i : Nat) (g : DiState → DiState)

@[simp] theorem State.modDi_pending : (s.modDi i g).pending = s.pending := by
  unfold State.modDi; split <;> rfl
@[simp] theorem State.modDi_regs : (s.modDi i g).regs = s.regs := by
  unfold State.modDi; split <;> rfl
@[simp] theorem State.modDi_smap : (s.modDi i g).smap = s.smap := by
  unfold State.modDi; split <;> rfl
@[simp] theorem State.modDi_mem : (s.modDi i g).mem = s.mem := by
  unfold State.modDi; split <;> rfl
@[simp] theorem State.modDi_ue : (s.modDi i g).ue = s.ue := by
  unfold State.modDi; split <;> rfl
@[simp] theorem State.modDi_cores : (s.modDi i g).cores = s.cores := by
  unfold State.modDi; split <;> rfl
@[simp] theorem State.modDi_program : (s.modDi i g).program = s.program := by
  unfold State.modDi; split <;> rfl
@[simp] theorem State.modDi_tasks : (s.modDi i g).tasks = s.tasks := by
  unfold State.modDi; split <;> rfl
@[simp] theorem State.modDi_lanes : (s.modDi i g).lanes = s.lanes := by
  unfold State.modDi; split <;> rfl
@[simp] theorem State.modDi_triads : (s.modDi i g).triads = s.triads := by
  unfold State.modDi; split <;> rfl
@[simp] theorem State.modDi_anvils : (s.modDi i g).anvils = s.anvils := by
  unfold State.modDi; split <;> rfl
@[simp] theorem State.modDi_frame : (s.modDi i g).frame = s.frame := by
  unfold State.modDi; split <;> rfl
@[simp] theorem State.modDi_modes : (s.modDi i g).modes = s.modes := by
  unfold State.modDi; split <;> rfl
@[simp] theorem State.modDi_change : (s.modDi i g).change = s.change := by
  unfold State.modDi; split <;> rfl
@[simp] theorem State.modDi_time : (s.modDi i g).time = s.time := by
  unfold State.modDi; split <;> rfl
@[simp] theorem State.modDi_dma : (s.modDi i g).dma = s.dma := by
  unfold State.modDi; split <;> rfl
@[simp] theorem State.modDi_recorder : (s.modDi i g).recorder = s.recorder := by
  unfold State.modDi; split <;> rfl
@[simp] theorem State.modDi_cpl : (s.modDi i g).cpl = s.cpl := by
  unfold State.modDi; split <;> rfl
@[simp] theorem State.modDi_loop : (s.modDi i g).loop = s.loop := by
  unfold State.modDi; split <;> rfl
@[simp] theorem State.modDi_calib : (s.modDi i g).calib = s.calib := by
  unfold State.modDi; split <;> rfl
@[simp] theorem State.modDi_bellows : (s.modDi i g).bellows = s.bellows := by
  unfold State.modDi; split <;> rfl
@[simp] theorem State.modDi_update : (s.modDi i g).update = s.update := by
  unfold State.modDi; split <;> rfl
@[simp] theorem State.modDi_rings : (s.modDi i g).rings = s.rings := by
  unfold State.modDi; split <;> rfl
@[simp] theorem State.modDi_held : (s.modDi i g).held = s.held := by
  unfold State.modDi; split <;> rfl
@[simp] theorem State.modDi_bridge : (s.modDi i g).bridge = s.bridge := by
  unfold State.modDi; split <;> rfl
@[simp] theorem State.modDi_queues : (s.modDi i g).queues = s.queues := by
  unfold State.modDi; split <;> rfl
@[simp] theorem State.modDi_outbox : (s.modDi i g).outbox = s.outbox := by
  unfold State.modDi; split <;> rfl
@[simp] theorem State.modDi_free : (s.modDi i g).free = s.free := by
  unfold State.modDi; split <;> rfl

end

/-! `modDout` -/

section
variable (s : State) (c : Nat) (g : DoState → DoState)

@[simp] theorem State.modDout_pending : (s.modDout c g).pending = s.pending := by
  unfold State.modDout; split <;> rfl
@[simp] theorem State.modDout_regs : (s.modDout c g).regs = s.regs := by
  unfold State.modDout; split <;> rfl
@[simp] theorem State.modDout_smap : (s.modDout c g).smap = s.smap := by
  unfold State.modDout; split <;> rfl
@[simp] theorem State.modDout_mem : (s.modDout c g).mem = s.mem := by
  unfold State.modDout; split <;> rfl
@[simp] theorem State.modDout_ue : (s.modDout c g).ue = s.ue := by
  unfold State.modDout; split <;> rfl
@[simp] theorem State.modDout_cores : (s.modDout c g).cores = s.cores := by
  unfold State.modDout; split <;> rfl
@[simp] theorem State.modDout_program : (s.modDout c g).program = s.program := by
  unfold State.modDout; split <;> rfl
@[simp] theorem State.modDout_tasks : (s.modDout c g).tasks = s.tasks := by
  unfold State.modDout; split <;> rfl
@[simp] theorem State.modDout_lanes : (s.modDout c g).lanes = s.lanes := by
  unfold State.modDout; split <;> rfl
@[simp] theorem State.modDout_triads : (s.modDout c g).triads = s.triads := by
  unfold State.modDout; split <;> rfl
@[simp] theorem State.modDout_anvils : (s.modDout c g).anvils = s.anvils := by
  unfold State.modDout; split <;> rfl
@[simp] theorem State.modDout_frame : (s.modDout c g).frame = s.frame := by
  unfold State.modDout; split <;> rfl
@[simp] theorem State.modDout_modes : (s.modDout c g).modes = s.modes := by
  unfold State.modDout; split <;> rfl
@[simp] theorem State.modDout_change : (s.modDout c g).change = s.change := by
  unfold State.modDout; split <;> rfl
@[simp] theorem State.modDout_time : (s.modDout c g).time = s.time := by
  unfold State.modDout; split <;> rfl
@[simp] theorem State.modDout_dma : (s.modDout c g).dma = s.dma := by
  unfold State.modDout; split <;> rfl
@[simp] theorem State.modDout_recorder : (s.modDout c g).recorder = s.recorder := by
  unfold State.modDout; split <;> rfl
@[simp] theorem State.modDout_cpl : (s.modDout c g).cpl = s.cpl := by
  unfold State.modDout; split <;> rfl
@[simp] theorem State.modDout_loop : (s.modDout c g).loop = s.loop := by
  unfold State.modDout; split <;> rfl
@[simp] theorem State.modDout_calib : (s.modDout c g).calib = s.calib := by
  unfold State.modDout; split <;> rfl
@[simp] theorem State.modDout_bellows : (s.modDout c g).bellows = s.bellows := by
  unfold State.modDout; split <;> rfl
@[simp] theorem State.modDout_update : (s.modDout c g).update = s.update := by
  unfold State.modDout; split <;> rfl
@[simp] theorem State.modDout_rings : (s.modDout c g).rings = s.rings := by
  unfold State.modDout; split <;> rfl
@[simp] theorem State.modDout_held : (s.modDout c g).held = s.held := by
  unfold State.modDout; split <;> rfl
@[simp] theorem State.modDout_bridge : (s.modDout c g).bridge = s.bridge := by
  unfold State.modDout; split <;> rfl
@[simp] theorem State.modDout_queues : (s.modDout c g).queues = s.queues := by
  unfold State.modDout; split <;> rfl
@[simp] theorem State.modDout_outbox : (s.modDout c g).outbox = s.outbox := by
  unfold State.modDout; split <;> rfl
@[simp] theorem State.modDout_free : (s.modDout c g).free = s.free := by
  unfold State.modDout; split <;> rfl

end

/-! `modGuard` -/

section
variable (s : State) (g : Nat) (f : Guard → Guard)

@[simp] theorem State.modGuard_pending : (s.modGuard g f).pending = s.pending := by
  unfold State.modGuard; split <;> rfl
@[simp] theorem State.modGuard_regs : (s.modGuard g f).regs = s.regs := by
  unfold State.modGuard; split <;> rfl
@[simp] theorem State.modGuard_smap : (s.modGuard g f).smap = s.smap := by
  unfold State.modGuard; split <;> rfl
@[simp] theorem State.modGuard_mem : (s.modGuard g f).mem = s.mem := by
  unfold State.modGuard; split <;> rfl
@[simp] theorem State.modGuard_ue : (s.modGuard g f).ue = s.ue := by
  unfold State.modGuard; split <;> rfl
@[simp] theorem State.modGuard_cores : (s.modGuard g f).cores = s.cores := by
  unfold State.modGuard; split <;> rfl
@[simp] theorem State.modGuard_program : (s.modGuard g f).program = s.program := by
  unfold State.modGuard; split <;> rfl
@[simp] theorem State.modGuard_tasks : (s.modGuard g f).tasks = s.tasks := by
  unfold State.modGuard; split <;> rfl
@[simp] theorem State.modGuard_lanes : (s.modGuard g f).lanes = s.lanes := by
  unfold State.modGuard; split <;> rfl
@[simp] theorem State.modGuard_triads : (s.modGuard g f).triads = s.triads := by
  unfold State.modGuard; split <;> rfl
@[simp] theorem State.modGuard_anvils : (s.modGuard g f).anvils = s.anvils := by
  unfold State.modGuard; split <;> rfl
@[simp] theorem State.modGuard_frame : (s.modGuard g f).frame = s.frame := by
  unfold State.modGuard; split <;> rfl
@[simp] theorem State.modGuard_modes : (s.modGuard g f).modes = s.modes := by
  unfold State.modGuard; split <;> rfl
@[simp] theorem State.modGuard_change : (s.modGuard g f).change = s.change := by
  unfold State.modGuard; split <;> rfl
@[simp] theorem State.modGuard_time : (s.modGuard g f).time = s.time := by
  unfold State.modGuard; split <;> rfl
@[simp] theorem State.modGuard_dma : (s.modGuard g f).dma = s.dma := by
  unfold State.modGuard; split <;> rfl
@[simp] theorem State.modGuard_recorder : (s.modGuard g f).recorder = s.recorder := by
  unfold State.modGuard; split <;> rfl
@[simp] theorem State.modGuard_cpl : (s.modGuard g f).cpl = s.cpl := by
  unfold State.modGuard; split <;> rfl
@[simp] theorem State.modGuard_loop : (s.modGuard g f).loop = s.loop := by
  unfold State.modGuard; split <;> rfl
@[simp] theorem State.modGuard_calib : (s.modGuard g f).calib = s.calib := by
  unfold State.modGuard; split <;> rfl
@[simp] theorem State.modGuard_bellows : (s.modGuard g f).bellows = s.bellows := by
  unfold State.modGuard; split <;> rfl
@[simp] theorem State.modGuard_update : (s.modGuard g f).update = s.update := by
  unfold State.modGuard; split <;> rfl
@[simp] theorem State.modGuard_rings : (s.modGuard g f).rings = s.rings := by
  unfold State.modGuard; split <;> rfl
@[simp] theorem State.modGuard_held : (s.modGuard g f).held = s.held := by
  unfold State.modGuard; split <;> rfl
@[simp] theorem State.modGuard_bridge : (s.modGuard g f).bridge = s.bridge := by
  unfold State.modGuard; split <;> rfl
@[simp] theorem State.modGuard_queues : (s.modGuard g f).queues = s.queues := by
  unfold State.modGuard; split <;> rfl
@[simp] theorem State.modGuard_outbox : (s.modGuard g f).outbox = s.outbox := by
  unfold State.modGuard; split <;> rfl
@[simp] theorem State.modGuard_free : (s.modGuard g f).free = s.free := by
  unfold State.modGuard; split <;> rfl

end

/-! `modLoop` -/

section
variable (s : State) (c : Nat) (g : LoopChannel → LoopChannel)

@[simp] theorem State.modLoop_pending : (s.modLoop c g).pending = s.pending := by
  unfold State.modLoop; split <;> rfl
@[simp] theorem State.modLoop_regs : (s.modLoop c g).regs = s.regs := by
  unfold State.modLoop; split <;> rfl
@[simp] theorem State.modLoop_smap : (s.modLoop c g).smap = s.smap := by
  unfold State.modLoop; split <;> rfl
@[simp] theorem State.modLoop_mem : (s.modLoop c g).mem = s.mem := by
  unfold State.modLoop; split <;> rfl
@[simp] theorem State.modLoop_ue : (s.modLoop c g).ue = s.ue := by
  unfold State.modLoop; split <;> rfl
@[simp] theorem State.modLoop_cores : (s.modLoop c g).cores = s.cores := by
  unfold State.modLoop; split <;> rfl
@[simp] theorem State.modLoop_program : (s.modLoop c g).program = s.program := by
  unfold State.modLoop; split <;> rfl
@[simp] theorem State.modLoop_tasks : (s.modLoop c g).tasks = s.tasks := by
  unfold State.modLoop; split <;> rfl
@[simp] theorem State.modLoop_lanes : (s.modLoop c g).lanes = s.lanes := by
  unfold State.modLoop; split <;> rfl
@[simp] theorem State.modLoop_triads : (s.modLoop c g).triads = s.triads := by
  unfold State.modLoop; split <;> rfl
@[simp] theorem State.modLoop_anvils : (s.modLoop c g).anvils = s.anvils := by
  unfold State.modLoop; split <;> rfl
@[simp] theorem State.modLoop_frame : (s.modLoop c g).frame = s.frame := by
  unfold State.modLoop; split <;> rfl
@[simp] theorem State.modLoop_modes : (s.modLoop c g).modes = s.modes := by
  unfold State.modLoop; split <;> rfl
@[simp] theorem State.modLoop_change : (s.modLoop c g).change = s.change := by
  unfold State.modLoop; split <;> rfl
@[simp] theorem State.modLoop_time : (s.modLoop c g).time = s.time := by
  unfold State.modLoop; split <;> rfl
@[simp] theorem State.modLoop_dma : (s.modLoop c g).dma = s.dma := by
  unfold State.modLoop; split <;> rfl
@[simp] theorem State.modLoop_recorder : (s.modLoop c g).recorder = s.recorder := by
  unfold State.modLoop; split <;> rfl
@[simp] theorem State.modLoop_cpl : (s.modLoop c g).cpl = s.cpl := by
  unfold State.modLoop; split <;> rfl
@[simp] theorem State.modLoop_dio : (s.modLoop c g).dio = s.dio := by
  unfold State.modLoop; split <;> rfl
@[simp] theorem State.modLoop_calib : (s.modLoop c g).calib = s.calib := by
  unfold State.modLoop; split <;> rfl
@[simp] theorem State.modLoop_bellows : (s.modLoop c g).bellows = s.bellows := by
  unfold State.modLoop; split <;> rfl
@[simp] theorem State.modLoop_update : (s.modLoop c g).update = s.update := by
  unfold State.modLoop; split <;> rfl
@[simp] theorem State.modLoop_rings : (s.modLoop c g).rings = s.rings := by
  unfold State.modLoop; split <;> rfl
@[simp] theorem State.modLoop_held : (s.modLoop c g).held = s.held := by
  unfold State.modLoop; split <;> rfl
@[simp] theorem State.modLoop_bridge : (s.modLoop c g).bridge = s.bridge := by
  unfold State.modLoop; split <;> rfl
@[simp] theorem State.modLoop_queues : (s.modLoop c g).queues = s.queues := by
  unfold State.modLoop; split <;> rfl
@[simp] theorem State.modLoop_outbox : (s.modLoop c g).outbox = s.outbox := by
  unfold State.modLoop; split <;> rfl
@[simp] theorem State.modLoop_free : (s.modLoop c g).free = s.free := by
  unfold State.modLoop; split <;> rfl

end

/-! `modLap` -/

section
variable (s : State) (n : Nat) (g : LapChannel → LapChannel)

@[simp] theorem State.modLap_pending : (s.modLap n g).pending = s.pending := by
  unfold State.modLap; split <;> rfl
@[simp] theorem State.modLap_regs : (s.modLap n g).regs = s.regs := by
  unfold State.modLap; split <;> rfl
@[simp] theorem State.modLap_smap : (s.modLap n g).smap = s.smap := by
  unfold State.modLap; split <;> rfl
@[simp] theorem State.modLap_mem : (s.modLap n g).mem = s.mem := by
  unfold State.modLap; split <;> rfl
@[simp] theorem State.modLap_ue : (s.modLap n g).ue = s.ue := by
  unfold State.modLap; split <;> rfl
@[simp] theorem State.modLap_cores : (s.modLap n g).cores = s.cores := by
  unfold State.modLap; split <;> rfl
@[simp] theorem State.modLap_program : (s.modLap n g).program = s.program := by
  unfold State.modLap; split <;> rfl
@[simp] theorem State.modLap_tasks : (s.modLap n g).tasks = s.tasks := by
  unfold State.modLap; split <;> rfl
@[simp] theorem State.modLap_lanes : (s.modLap n g).lanes = s.lanes := by
  unfold State.modLap; split <;> rfl
@[simp] theorem State.modLap_triads : (s.modLap n g).triads = s.triads := by
  unfold State.modLap; split <;> rfl
@[simp] theorem State.modLap_anvils : (s.modLap n g).anvils = s.anvils := by
  unfold State.modLap; split <;> rfl
@[simp] theorem State.modLap_frame : (s.modLap n g).frame = s.frame := by
  unfold State.modLap; split <;> rfl
@[simp] theorem State.modLap_modes : (s.modLap n g).modes = s.modes := by
  unfold State.modLap; split <;> rfl
@[simp] theorem State.modLap_change : (s.modLap n g).change = s.change := by
  unfold State.modLap; split <;> rfl
@[simp] theorem State.modLap_time : (s.modLap n g).time = s.time := by
  unfold State.modLap; split <;> rfl
@[simp] theorem State.modLap_dma : (s.modLap n g).dma = s.dma := by
  unfold State.modLap; split <;> rfl
@[simp] theorem State.modLap_recorder : (s.modLap n g).recorder = s.recorder := by
  unfold State.modLap; split <;> rfl
@[simp] theorem State.modLap_cpl : (s.modLap n g).cpl = s.cpl := by
  unfold State.modLap; split <;> rfl
@[simp] theorem State.modLap_dio : (s.modLap n g).dio = s.dio := by
  unfold State.modLap; split <;> rfl
@[simp] theorem State.modLap_loop : (s.modLap n g).loop = s.loop := by
  unfold State.modLap; split <;> rfl
@[simp] theorem State.modLap_calib : (s.modLap n g).calib = s.calib := by
  unfold State.modLap; split <;> rfl
@[simp] theorem State.modLap_bellows : (s.modLap n g).bellows = s.bellows := by
  unfold State.modLap; split <;> rfl
@[simp] theorem State.modLap_update : (s.modLap n g).update = s.update := by
  unfold State.modLap; split <;> rfl
@[simp] theorem State.modLap_rings : (s.modLap n g).rings = s.rings := by
  unfold State.modLap; split <;> rfl
@[simp] theorem State.modLap_held : (s.modLap n g).held = s.held := by
  unfold State.modLap; split <;> rfl
@[simp] theorem State.modLap_queues : (s.modLap n g).queues = s.queues := by
  unfold State.modLap; split <;> rfl
@[simp] theorem State.modLap_outbox : (s.modLap n g).outbox = s.outbox := by
  unfold State.modLap; split <;> rfl
@[simp] theorem State.modLap_free : (s.modLap n g).free = s.free := by
  unfold State.modLap; split <;> rfl

end

/-! `modPort` -/

section
variable (s : State) (p : Nat) (g : PtpPort → PtpPort)

@[simp] theorem State.modPort_pending : (s.modPort p g).pending = s.pending := by
  unfold State.modPort; split <;> rfl
@[simp] theorem State.modPort_regs : (s.modPort p g).regs = s.regs := by
  unfold State.modPort; split <;> rfl
@[simp] theorem State.modPort_smap : (s.modPort p g).smap = s.smap := by
  unfold State.modPort; split <;> rfl
@[simp] theorem State.modPort_mem : (s.modPort p g).mem = s.mem := by
  unfold State.modPort; split <;> rfl
@[simp] theorem State.modPort_ue : (s.modPort p g).ue = s.ue := by
  unfold State.modPort; split <;> rfl
@[simp] theorem State.modPort_cores : (s.modPort p g).cores = s.cores := by
  unfold State.modPort; split <;> rfl
@[simp] theorem State.modPort_program : (s.modPort p g).program = s.program := by
  unfold State.modPort; split <;> rfl
@[simp] theorem State.modPort_tasks : (s.modPort p g).tasks = s.tasks := by
  unfold State.modPort; split <;> rfl
@[simp] theorem State.modPort_lanes : (s.modPort p g).lanes = s.lanes := by
  unfold State.modPort; split <;> rfl
@[simp] theorem State.modPort_triads : (s.modPort p g).triads = s.triads := by
  unfold State.modPort; split <;> rfl
@[simp] theorem State.modPort_anvils : (s.modPort p g).anvils = s.anvils := by
  unfold State.modPort; split <;> rfl
@[simp] theorem State.modPort_frame : (s.modPort p g).frame = s.frame := by
  unfold State.modPort; split <;> rfl
@[simp] theorem State.modPort_modes : (s.modPort p g).modes = s.modes := by
  unfold State.modPort; split <;> rfl
@[simp] theorem State.modPort_change : (s.modPort p g).change = s.change := by
  unfold State.modPort; split <;> rfl
@[simp] theorem State.modPort_dma : (s.modPort p g).dma = s.dma := by
  unfold State.modPort; split <;> rfl
@[simp] theorem State.modPort_recorder : (s.modPort p g).recorder = s.recorder := by
  unfold State.modPort; split <;> rfl
@[simp] theorem State.modPort_cpl : (s.modPort p g).cpl = s.cpl := by
  unfold State.modPort; split <;> rfl
@[simp] theorem State.modPort_dio : (s.modPort p g).dio = s.dio := by
  unfold State.modPort; split <;> rfl
@[simp] theorem State.modPort_loop : (s.modPort p g).loop = s.loop := by
  unfold State.modPort; split <;> rfl
@[simp] theorem State.modPort_calib : (s.modPort p g).calib = s.calib := by
  unfold State.modPort; split <;> rfl
@[simp] theorem State.modPort_bellows : (s.modPort p g).bellows = s.bellows := by
  unfold State.modPort; split <;> rfl
@[simp] theorem State.modPort_update : (s.modPort p g).update = s.update := by
  unfold State.modPort; split <;> rfl
@[simp] theorem State.modPort_rings : (s.modPort p g).rings = s.rings := by
  unfold State.modPort; split <;> rfl
@[simp] theorem State.modPort_held : (s.modPort p g).held = s.held := by
  unfold State.modPort; split <;> rfl
@[simp] theorem State.modPort_bridge : (s.modPort p g).bridge = s.bridge := by
  unfold State.modPort; split <;> rfl
@[simp] theorem State.modPort_queues : (s.modPort p g).queues = s.queues := by
  unfold State.modPort; split <;> rfl
@[simp] theorem State.modPort_outbox : (s.modPort p g).outbox = s.outbox := by
  unfold State.modPort; split <;> rfl
@[simp] theorem State.modPort_free : (s.modPort p g).free = s.free := by
  unfold State.modPort; split <;> rfl

end

/-! `irq` -/

section
variable (s : State) (line : Nat)

@[simp] theorem State.irq_pending : (s.irq line).pending = s.pending :=
  (State.irq_keeps _ rfl (Keeps.refl 0x20 s)).parts .pending rfl
@[simp] theorem State.irq_regs : (s.irq line).regs = s.regs :=
  (State.irq_keeps _ rfl (Keeps.refl 0x20 s)).parts .regs rfl
@[simp] theorem State.irq_smap : (s.irq line).smap = s.smap :=
  (State.irq_keeps _ rfl (Keeps.refl 0x20 s)).parts .smap rfl
@[simp] theorem State.irq_mem : (s.irq line).mem = s.mem :=
  (State.irq_keeps _ rfl (Keeps.refl 0x20 s)).parts .mem rfl
@[simp] theorem State.irq_ue : (s.irq line).ue = s.ue :=
  (State.irq_keeps _ rfl (Keeps.refl 0x20 s)).parts .ue rfl
@[simp] theorem State.irq_program : (s.irq line).program = s.program :=
  (State.irq_keeps _ rfl (Keeps.refl 0x20 s)).parts .program rfl
@[simp] theorem State.irq_tasks : (s.irq line).tasks = s.tasks :=
  (State.irq_keeps _ rfl (Keeps.refl 0x20 s)).parts .tasks rfl
@[simp] theorem State.irq_lanes : (s.irq line).lanes = s.lanes :=
  (State.irq_keeps _ rfl (Keeps.refl 0x20 s)).parts .lanes rfl
@[simp] theorem State.irq_triads : (s.irq line).triads = s.triads :=
  (State.irq_keeps _ rfl (Keeps.refl 0x20 s)).parts .triads rfl
@[simp] theorem State.irq_anvils : (s.irq line).anvils = s.anvils :=
  (State.irq_keeps _ rfl (Keeps.refl 0x20 s)).parts .anvils rfl
@[simp] theorem State.irq_frame : (s.irq line).frame = s.frame :=
  (State.irq_keeps _ rfl (Keeps.refl 0x20 s)).parts .frame rfl
@[simp] theorem State.irq_modes : (s.irq line).modes = s.modes :=
  (State.irq_keeps _ rfl (Keeps.refl 0x20 s)).parts .modes rfl
@[simp] theorem State.irq_change : (s.irq line).change = s.change :=
  (State.irq_keeps _ rfl (Keeps.refl 0x20 s)).parts .change rfl
@[simp] theorem State.irq_time : (s.irq line).time = s.time :=
  (State.irq_keeps _ rfl (Keeps.refl 0x20 s)).parts .time rfl
@[simp] theorem State.irq_dma : (s.irq line).dma = s.dma :=
  (State.irq_keeps _ rfl (Keeps.refl 0x20 s)).parts .dma rfl
@[simp] theorem State.irq_recorder : (s.irq line).recorder = s.recorder :=
  (State.irq_keeps _ rfl (Keeps.refl 0x20 s)).parts .recorder rfl
@[simp] theorem State.irq_cpl : (s.irq line).cpl = s.cpl :=
  (State.irq_keeps _ rfl (Keeps.refl 0x20 s)).parts .cpl rfl
@[simp] theorem State.irq_dio : (s.irq line).dio = s.dio :=
  (State.irq_keeps _ rfl (Keeps.refl 0x20 s)).parts .dio rfl
@[simp] theorem State.irq_loop : (s.irq line).loop = s.loop :=
  (State.irq_keeps _ rfl (Keeps.refl 0x20 s)).parts .loop rfl
@[simp] theorem State.irq_calib : (s.irq line).calib = s.calib :=
  (State.irq_keeps _ rfl (Keeps.refl 0x20 s)).parts .calib rfl
@[simp] theorem State.irq_bellows : (s.irq line).bellows = s.bellows :=
  (State.irq_keeps _ rfl (Keeps.refl 0x20 s)).parts .bellows rfl
@[simp] theorem State.irq_update : (s.irq line).update = s.update :=
  (State.irq_keeps _ rfl (Keeps.refl 0x20 s)).parts .update rfl
@[simp] theorem State.irq_rings : (s.irq line).rings = s.rings :=
  (State.irq_keeps _ rfl (Keeps.refl 0x20 s)).parts .rings rfl
@[simp] theorem State.irq_held : (s.irq line).held = s.held :=
  (State.irq_keeps _ rfl (Keeps.refl 0x20 s)).parts .held rfl
@[simp] theorem State.irq_bridge : (s.irq line).bridge = s.bridge :=
  (State.irq_keeps _ rfl (Keeps.refl 0x20 s)).parts .bridge rfl
@[simp] theorem State.irq_queues : (s.irq line).queues = s.queues :=
  (State.irq_keeps _ rfl (Keeps.refl 0x20 s)).parts .queues rfl
@[simp] theorem State.irq_outbox : (s.irq line).outbox = s.outbox :=
  (State.irq_keeps _ rfl (Keeps.refl 0x20 s)).parts .outbox rfl
@[simp] theorem State.irq_free : (s.irq line).free = s.free :=
  (State.irq_keeps _ rfl (Keeps.refl 0x20 s)).parts .free rfl

end

/-! `copyItem` -/

section
variable (s : State) (kind : Nat) (key : Nat)

@[simp] theorem State.copyItem_pending : (s.copyItem kind key).pending = s.pending :=
  (State.copyItem_keeps _ _ rfl (Keeps.refl 0x20000 s)).parts .pending rfl
@[simp] theorem State.copyItem_regs : (s.copyItem kind key).regs = s.regs :=
  (State.copyItem_keeps _ _ rfl (Keeps.refl 0x20000 s)).parts .regs rfl
@[simp] theorem State.copyItem_smap : (s.copyItem kind key).smap = s.smap :=
  (State.copyItem_keeps _ _ rfl (Keeps.refl 0x20000 s)).parts .smap rfl
@[simp] theorem State.copyItem_mem : (s.copyItem kind key).mem = s.mem :=
  (State.copyItem_keeps _ _ rfl (Keeps.refl 0x20000 s)).parts .mem rfl
@[simp] theorem State.copyItem_ue : (s.copyItem kind key).ue = s.ue :=
  (State.copyItem_keeps _ _ rfl (Keeps.refl 0x20000 s)).parts .ue rfl
@[simp] theorem State.copyItem_cores : (s.copyItem kind key).cores = s.cores :=
  (State.copyItem_keeps _ _ rfl (Keeps.refl 0x20000 s)).parts .cores rfl
@[simp] theorem State.copyItem_program : (s.copyItem kind key).program = s.program :=
  (State.copyItem_keeps _ _ rfl (Keeps.refl 0x20000 s)).parts .program rfl
@[simp] theorem State.copyItem_tasks : (s.copyItem kind key).tasks = s.tasks :=
  (State.copyItem_keeps _ _ rfl (Keeps.refl 0x20000 s)).parts .tasks rfl
@[simp] theorem State.copyItem_lanes : (s.copyItem kind key).lanes = s.lanes :=
  (State.copyItem_keeps _ _ rfl (Keeps.refl 0x20000 s)).parts .lanes rfl
@[simp] theorem State.copyItem_triads : (s.copyItem kind key).triads = s.triads :=
  (State.copyItem_keeps _ _ rfl (Keeps.refl 0x20000 s)).parts .triads rfl
@[simp] theorem State.copyItem_anvils : (s.copyItem kind key).anvils = s.anvils :=
  (State.copyItem_keeps _ _ rfl (Keeps.refl 0x20000 s)).parts .anvils rfl
@[simp] theorem State.copyItem_frame : (s.copyItem kind key).frame = s.frame :=
  (State.copyItem_keeps _ _ rfl (Keeps.refl 0x20000 s)).parts .frame rfl
@[simp] theorem State.copyItem_modes : (s.copyItem kind key).modes = s.modes :=
  (State.copyItem_keeps _ _ rfl (Keeps.refl 0x20000 s)).parts .modes rfl
@[simp] theorem State.copyItem_change : (s.copyItem kind key).change = s.change :=
  (State.copyItem_keeps _ _ rfl (Keeps.refl 0x20000 s)).parts .change rfl
@[simp] theorem State.copyItem_time : (s.copyItem kind key).time = s.time :=
  (State.copyItem_keeps _ _ rfl (Keeps.refl 0x20000 s)).parts .time rfl
@[simp] theorem State.copyItem_dma : (s.copyItem kind key).dma = s.dma :=
  (State.copyItem_keeps _ _ rfl (Keeps.refl 0x20000 s)).parts .dma rfl
@[simp] theorem State.copyItem_recorder : (s.copyItem kind key).recorder = s.recorder :=
  (State.copyItem_keeps _ _ rfl (Keeps.refl 0x20000 s)).parts .recorder rfl
@[simp] theorem State.copyItem_dio : (s.copyItem kind key).dio = s.dio :=
  (State.copyItem_keeps _ _ rfl (Keeps.refl 0x20000 s)).parts .dio rfl
@[simp] theorem State.copyItem_loop : (s.copyItem kind key).loop = s.loop :=
  (State.copyItem_keeps _ _ rfl (Keeps.refl 0x20000 s)).parts .loop rfl
@[simp] theorem State.copyItem_calib : (s.copyItem kind key).calib = s.calib :=
  (State.copyItem_keeps _ _ rfl (Keeps.refl 0x20000 s)).parts .calib rfl
@[simp] theorem State.copyItem_bellows : (s.copyItem kind key).bellows = s.bellows :=
  (State.copyItem_keeps _ _ rfl (Keeps.refl 0x20000 s)).parts .bellows rfl
@[simp] theorem State.copyItem_update : (s.copyItem kind key).update = s.update :=
  (State.copyItem_keeps _ _ rfl (Keeps.refl 0x20000 s)).parts .update rfl
@[simp] theorem State.copyItem_rings : (s.copyItem kind key).rings = s.rings :=
  (State.copyItem_keeps _ _ rfl (Keeps.refl 0x20000 s)).parts .rings rfl
@[simp] theorem State.copyItem_held : (s.copyItem kind key).held = s.held :=
  (State.copyItem_keeps _ _ rfl (Keeps.refl 0x20000 s)).parts .held rfl
@[simp] theorem State.copyItem_bridge : (s.copyItem kind key).bridge = s.bridge :=
  (State.copyItem_keeps _ _ rfl (Keeps.refl 0x20000 s)).parts .bridge rfl
@[simp] theorem State.copyItem_queues : (s.copyItem kind key).queues = s.queues :=
  (State.copyItem_keeps _ _ rfl (Keeps.refl 0x20000 s)).parts .queues rfl
@[simp] theorem State.copyItem_outbox : (s.copyItem kind key).outbox = s.outbox :=
  (State.copyItem_keeps _ _ rfl (Keeps.refl 0x20000 s)).parts .outbox rfl
@[simp] theorem State.copyItem_free : (s.copyItem kind key).free = s.free :=
  (State.copyItem_keeps _ _ rfl (Keeps.refl 0x20000 s)).parts .free rfl

end

/-! `event` -/

section
variable (s : State) (source : Nat) (code : Nat) (severity : Nat) (params : List Nat) (safety : Bool)

@[simp] theorem State.event_pending : (s.event source code severity params safety).pending = s.pending :=
  (State.event_keeps _ _ _ _ _ rfl (Keeps.refl 0x200618a0000000000000000000000000000000000000000000000000000000000000000000000000000000000000410002 s)).parts .pending rfl
@[simp] theorem State.event_smap : (s.event source code severity params safety).smap = s.smap :=
  (State.event_keeps _ _ _ _ _ rfl (Keeps.refl 0x200618a0000000000000000000000000000000000000000000000000000000000000000000000000000000000000410002 s)).parts .smap rfl
@[simp] theorem State.event_mem : (s.event source code severity params safety).mem = s.mem :=
  (State.event_keeps _ _ _ _ _ rfl (Keeps.refl 0x200618a0000000000000000000000000000000000000000000000000000000000000000000000000000000000000410002 s)).parts .mem rfl
@[simp] theorem State.event_ue : (s.event source code severity params safety).ue = s.ue :=
  (State.event_keeps _ _ _ _ _ rfl (Keeps.refl 0x200618a0000000000000000000000000000000000000000000000000000000000000000000000000000000000000410002 s)).parts .ue rfl
@[simp] theorem State.event_cores : (s.event source code severity params safety).cores = s.cores :=
  (State.event_keeps _ _ _ _ _ rfl (Keeps.refl 0x200618a0000000000000000000000000000000000000000000000000000000000000000000000000000000000000410002 s)).parts .cores rfl
@[simp] theorem State.event_program : (s.event source code severity params safety).program = s.program :=
  (State.event_keeps _ _ _ _ _ rfl (Keeps.refl 0x200618a0000000000000000000000000000000000000000000000000000000000000000000000000000000000000410002 s)).parts .program rfl
@[simp] theorem State.event_tasks : (s.event source code severity params safety).tasks = s.tasks :=
  (State.event_keeps _ _ _ _ _ rfl (Keeps.refl 0x200618a0000000000000000000000000000000000000000000000000000000000000000000000000000000000000410002 s)).parts .tasks rfl
@[simp] theorem State.event_lanes : (s.event source code severity params safety).lanes = s.lanes :=
  (State.event_keeps _ _ _ _ _ rfl (Keeps.refl 0x200618a0000000000000000000000000000000000000000000000000000000000000000000000000000000000000410002 s)).parts .lanes rfl
@[simp] theorem State.event_triads : (s.event source code severity params safety).triads = s.triads :=
  (State.event_keeps _ _ _ _ _ rfl (Keeps.refl 0x200618a0000000000000000000000000000000000000000000000000000000000000000000000000000000000000410002 s)).parts .triads rfl
@[simp] theorem State.event_anvils : (s.event source code severity params safety).anvils = s.anvils :=
  (State.event_keeps _ _ _ _ _ rfl (Keeps.refl 0x200618a0000000000000000000000000000000000000000000000000000000000000000000000000000000000000410002 s)).parts .anvils rfl
@[simp] theorem State.event_frame : (s.event source code severity params safety).frame = s.frame :=
  (State.event_keeps _ _ _ _ _ rfl (Keeps.refl 0x200618a0000000000000000000000000000000000000000000000000000000000000000000000000000000000000410002 s)).parts .frame rfl
@[simp] theorem State.event_modes : (s.event source code severity params safety).modes = s.modes :=
  (State.event_keeps _ _ _ _ _ rfl (Keeps.refl 0x200618a0000000000000000000000000000000000000000000000000000000000000000000000000000000000000410002 s)).parts .modes rfl
@[simp] theorem State.event_change : (s.event source code severity params safety).change = s.change :=
  (State.event_keeps _ _ _ _ _ rfl (Keeps.refl 0x200618a0000000000000000000000000000000000000000000000000000000000000000000000000000000000000410002 s)).parts .change rfl
@[simp] theorem State.event_time : (s.event source code severity params safety).time = s.time :=
  (State.event_keeps _ _ _ _ _ rfl (Keeps.refl 0x200618a0000000000000000000000000000000000000000000000000000000000000000000000000000000000000410002 s)).parts .time rfl
@[simp] theorem State.event_dma : (s.event source code severity params safety).dma = s.dma :=
  (State.event_keeps _ _ _ _ _ rfl (Keeps.refl 0x200618a0000000000000000000000000000000000000000000000000000000000000000000000000000000000000410002 s)).parts .dma rfl
@[simp] theorem State.event_cpl : (s.event source code severity params safety).cpl = s.cpl :=
  (State.event_keeps _ _ _ _ _ rfl (Keeps.refl 0x200618a0000000000000000000000000000000000000000000000000000000000000000000000000000000000000410002 s)).parts .cpl rfl
@[simp] theorem State.event_dio : (s.event source code severity params safety).dio = s.dio :=
  (State.event_keeps _ _ _ _ _ rfl (Keeps.refl 0x200618a0000000000000000000000000000000000000000000000000000000000000000000000000000000000000410002 s)).parts .dio rfl
@[simp] theorem State.event_loop : (s.event source code severity params safety).loop = s.loop :=
  (State.event_keeps _ _ _ _ _ rfl (Keeps.refl 0x200618a0000000000000000000000000000000000000000000000000000000000000000000000000000000000000410002 s)).parts .loop rfl
@[simp] theorem State.event_calib : (s.event source code severity params safety).calib = s.calib :=
  (State.event_keeps _ _ _ _ _ rfl (Keeps.refl 0x200618a0000000000000000000000000000000000000000000000000000000000000000000000000000000000000410002 s)).parts .calib rfl
@[simp] theorem State.event_bellows : (s.event source code severity params safety).bellows = s.bellows :=
  (State.event_keeps _ _ _ _ _ rfl (Keeps.refl 0x200618a0000000000000000000000000000000000000000000000000000000000000000000000000000000000000410002 s)).parts .bellows rfl
@[simp] theorem State.event_rings : (s.event source code severity params safety).rings = s.rings :=
  (State.event_keeps _ _ _ _ _ rfl (Keeps.refl 0x200618a0000000000000000000000000000000000000000000000000000000000000000000000000000000000000410002 s)).parts .rings rfl
@[simp] theorem State.event_held : (s.event source code severity params safety).held = s.held :=
  (State.event_keeps _ _ _ _ _ rfl (Keeps.refl 0x200618a0000000000000000000000000000000000000000000000000000000000000000000000000000000000000410002 s)).parts .held rfl
@[simp] theorem State.event_bridge : (s.event source code severity params safety).bridge = s.bridge :=
  (State.event_keeps _ _ _ _ _ rfl (Keeps.refl 0x200618a0000000000000000000000000000000000000000000000000000000000000000000000000000000000000410002 s)).parts .bridge rfl
@[simp] theorem State.event_queues : (s.event source code severity params safety).queues = s.queues :=
  (State.event_keeps _ _ _ _ _ rfl (Keeps.refl 0x200618a0000000000000000000000000000000000000000000000000000000000000000000000000000000000000410002 s)).parts .queues rfl
@[simp] theorem State.event_outbox : (s.event source code severity params safety).outbox = s.outbox :=
  (State.event_keeps _ _ _ _ _ rfl (Keeps.refl 0x200618a0000000000000000000000000000000000000000000000000000000000000000000000000000000000000410002 s)).parts .outbox rfl
@[simp] theorem State.event_free : (s.event source code severity params safety).free = s.free :=
  (State.event_keeps _ _ _ _ _ rfl (Keeps.refl 0x200618a0000000000000000000000000000000000000000000000000000000000000000000000000000000000000410002 s)).parts .free rfl

end

/-! `evGroup` -/

section
variable (s : State) (source : Nat) (group : Nat)

@[simp] theorem State.evGroup_pending : (s.evGroup source group).pending = s.pending :=
  (State.evGroup_keeps _ _ rfl (Keeps.refl 0x200618a0000000000000000000000000000000000000000000000000000000000000000000000000000000000000410002 s)).parts .pending rfl
@[simp] theorem State.evGroup_smap : (s.evGroup source group).smap = s.smap :=
  (State.evGroup_keeps _ _ rfl (Keeps.refl 0x200618a0000000000000000000000000000000000000000000000000000000000000000000000000000000000000410002 s)).parts .smap rfl
@[simp] theorem State.evGroup_mem : (s.evGroup source group).mem = s.mem :=
  (State.evGroup_keeps _ _ rfl (Keeps.refl 0x200618a0000000000000000000000000000000000000000000000000000000000000000000000000000000000000410002 s)).parts .mem rfl
@[simp] theorem State.evGroup_ue : (s.evGroup source group).ue = s.ue :=
  (State.evGroup_keeps _ _ rfl (Keeps.refl 0x200618a0000000000000000000000000000000000000000000000000000000000000000000000000000000000000410002 s)).parts .ue rfl
@[simp] theorem State.evGroup_cores : (s.evGroup source group).cores = s.cores :=
  (State.evGroup_keeps _ _ rfl (Keeps.refl 0x200618a0000000000000000000000000000000000000000000000000000000000000000000000000000000000000410002 s)).parts .cores rfl
@[simp] theorem State.evGroup_program : (s.evGroup source group).program = s.program :=
  (State.evGroup_keeps _ _ rfl (Keeps.refl 0x200618a0000000000000000000000000000000000000000000000000000000000000000000000000000000000000410002 s)).parts .program rfl
@[simp] theorem State.evGroup_tasks : (s.evGroup source group).tasks = s.tasks :=
  (State.evGroup_keeps _ _ rfl (Keeps.refl 0x200618a0000000000000000000000000000000000000000000000000000000000000000000000000000000000000410002 s)).parts .tasks rfl
@[simp] theorem State.evGroup_lanes : (s.evGroup source group).lanes = s.lanes :=
  (State.evGroup_keeps _ _ rfl (Keeps.refl 0x200618a0000000000000000000000000000000000000000000000000000000000000000000000000000000000000410002 s)).parts .lanes rfl
@[simp] theorem State.evGroup_triads : (s.evGroup source group).triads = s.triads :=
  (State.evGroup_keeps _ _ rfl (Keeps.refl 0x200618a0000000000000000000000000000000000000000000000000000000000000000000000000000000000000410002 s)).parts .triads rfl
@[simp] theorem State.evGroup_anvils : (s.evGroup source group).anvils = s.anvils :=
  (State.evGroup_keeps _ _ rfl (Keeps.refl 0x200618a0000000000000000000000000000000000000000000000000000000000000000000000000000000000000410002 s)).parts .anvils rfl
@[simp] theorem State.evGroup_frame : (s.evGroup source group).frame = s.frame :=
  (State.evGroup_keeps _ _ rfl (Keeps.refl 0x200618a0000000000000000000000000000000000000000000000000000000000000000000000000000000000000410002 s)).parts .frame rfl
@[simp] theorem State.evGroup_modes : (s.evGroup source group).modes = s.modes :=
  (State.evGroup_keeps _ _ rfl (Keeps.refl 0x200618a0000000000000000000000000000000000000000000000000000000000000000000000000000000000000410002 s)).parts .modes rfl
@[simp] theorem State.evGroup_change : (s.evGroup source group).change = s.change :=
  (State.evGroup_keeps _ _ rfl (Keeps.refl 0x200618a0000000000000000000000000000000000000000000000000000000000000000000000000000000000000410002 s)).parts .change rfl
@[simp] theorem State.evGroup_time : (s.evGroup source group).time = s.time :=
  (State.evGroup_keeps _ _ rfl (Keeps.refl 0x200618a0000000000000000000000000000000000000000000000000000000000000000000000000000000000000410002 s)).parts .time rfl
@[simp] theorem State.evGroup_dma : (s.evGroup source group).dma = s.dma :=
  (State.evGroup_keeps _ _ rfl (Keeps.refl 0x200618a0000000000000000000000000000000000000000000000000000000000000000000000000000000000000410002 s)).parts .dma rfl
@[simp] theorem State.evGroup_cpl : (s.evGroup source group).cpl = s.cpl :=
  (State.evGroup_keeps _ _ rfl (Keeps.refl 0x200618a0000000000000000000000000000000000000000000000000000000000000000000000000000000000000410002 s)).parts .cpl rfl
@[simp] theorem State.evGroup_dio : (s.evGroup source group).dio = s.dio :=
  (State.evGroup_keeps _ _ rfl (Keeps.refl 0x200618a0000000000000000000000000000000000000000000000000000000000000000000000000000000000000410002 s)).parts .dio rfl
@[simp] theorem State.evGroup_loop : (s.evGroup source group).loop = s.loop :=
  (State.evGroup_keeps _ _ rfl (Keeps.refl 0x200618a0000000000000000000000000000000000000000000000000000000000000000000000000000000000000410002 s)).parts .loop rfl
@[simp] theorem State.evGroup_calib : (s.evGroup source group).calib = s.calib :=
  (State.evGroup_keeps _ _ rfl (Keeps.refl 0x200618a0000000000000000000000000000000000000000000000000000000000000000000000000000000000000410002 s)).parts .calib rfl
@[simp] theorem State.evGroup_bellows : (s.evGroup source group).bellows = s.bellows :=
  (State.evGroup_keeps _ _ rfl (Keeps.refl 0x200618a0000000000000000000000000000000000000000000000000000000000000000000000000000000000000410002 s)).parts .bellows rfl
@[simp] theorem State.evGroup_rings : (s.evGroup source group).rings = s.rings :=
  (State.evGroup_keeps _ _ rfl (Keeps.refl 0x200618a0000000000000000000000000000000000000000000000000000000000000000000000000000000000000410002 s)).parts .rings rfl
@[simp] theorem State.evGroup_held : (s.evGroup source group).held = s.held :=
  (State.evGroup_keeps _ _ rfl (Keeps.refl 0x200618a0000000000000000000000000000000000000000000000000000000000000000000000000000000000000410002 s)).parts .held rfl
@[simp] theorem State.evGroup_bridge : (s.evGroup source group).bridge = s.bridge :=
  (State.evGroup_keeps _ _ rfl (Keeps.refl 0x200618a0000000000000000000000000000000000000000000000000000000000000000000000000000000000000410002 s)).parts .bridge rfl
@[simp] theorem State.evGroup_queues : (s.evGroup source group).queues = s.queues :=
  (State.evGroup_keeps _ _ rfl (Keeps.refl 0x200618a0000000000000000000000000000000000000000000000000000000000000000000000000000000000000410002 s)).parts .queues rfl
@[simp] theorem State.evGroup_outbox : (s.evGroup source group).outbox = s.outbox :=
  (State.evGroup_keeps _ _ rfl (Keeps.refl 0x200618a0000000000000000000000000000000000000000000000000000000000000000000000000000000000000410002 s)).parts .outbox rfl
@[simp] theorem State.evGroup_free : (s.evGroup source group).free = s.free :=
  (State.evGroup_keeps _ _ rfl (Keeps.refl 0x200618a0000000000000000000000000000000000000000000000000000000000000000000000000000000000000410002 s)).parts .free rfl

end

/-! `evAccess` -/

section
variable (s : State) (source : Nat) (addr : Nat) (initiator : Nat)

@[simp] theorem State.evAccess_pending : (s.evAccess source addr initiator).pending = s.pending :=
  (State.evAccess_keeps _ _ _ rfl (Keeps.refl 0x200618a0000000000000000000000000000000000000000000000000000000000000000000000000000000000000410002 s)).parts .pending rfl
@[simp] theorem State.evAccess_smap : (s.evAccess source addr initiator).smap = s.smap :=
  (State.evAccess_keeps _ _ _ rfl (Keeps.refl 0x200618a0000000000000000000000000000000000000000000000000000000000000000000000000000000000000410002 s)).parts .smap rfl
@[simp] theorem State.evAccess_mem : (s.evAccess source addr initiator).mem = s.mem :=
  (State.evAccess_keeps _ _ _ rfl (Keeps.refl 0x200618a0000000000000000000000000000000000000000000000000000000000000000000000000000000000000410002 s)).parts .mem rfl
@[simp] theorem State.evAccess_ue : (s.evAccess source addr initiator).ue = s.ue :=
  (State.evAccess_keeps _ _ _ rfl (Keeps.refl 0x200618a0000000000000000000000000000000000000000000000000000000000000000000000000000000000000410002 s)).parts .ue rfl
@[simp] theorem State.evAccess_cores : (s.evAccess source addr initiator).cores = s.cores :=
  (State.evAccess_keeps _ _ _ rfl (Keeps.refl 0x200618a0000000000000000000000000000000000000000000000000000000000000000000000000000000000000410002 s)).parts .cores rfl
@[simp] theorem State.evAccess_program : (s.evAccess source addr initiator).program = s.program :=
  (State.evAccess_keeps _ _ _ rfl (Keeps.refl 0x200618a0000000000000000000000000000000000000000000000000000000000000000000000000000000000000410002 s)).parts .program rfl
@[simp] theorem State.evAccess_tasks : (s.evAccess source addr initiator).tasks = s.tasks :=
  (State.evAccess_keeps _ _ _ rfl (Keeps.refl 0x200618a0000000000000000000000000000000000000000000000000000000000000000000000000000000000000410002 s)).parts .tasks rfl
@[simp] theorem State.evAccess_lanes : (s.evAccess source addr initiator).lanes = s.lanes :=
  (State.evAccess_keeps _ _ _ rfl (Keeps.refl 0x200618a0000000000000000000000000000000000000000000000000000000000000000000000000000000000000410002 s)).parts .lanes rfl
@[simp] theorem State.evAccess_triads : (s.evAccess source addr initiator).triads = s.triads :=
  (State.evAccess_keeps _ _ _ rfl (Keeps.refl 0x200618a0000000000000000000000000000000000000000000000000000000000000000000000000000000000000410002 s)).parts .triads rfl
@[simp] theorem State.evAccess_anvils : (s.evAccess source addr initiator).anvils = s.anvils :=
  (State.evAccess_keeps _ _ _ rfl (Keeps.refl 0x200618a0000000000000000000000000000000000000000000000000000000000000000000000000000000000000410002 s)).parts .anvils rfl
@[simp] theorem State.evAccess_frame : (s.evAccess source addr initiator).frame = s.frame :=
  (State.evAccess_keeps _ _ _ rfl (Keeps.refl 0x200618a0000000000000000000000000000000000000000000000000000000000000000000000000000000000000410002 s)).parts .frame rfl
@[simp] theorem State.evAccess_modes : (s.evAccess source addr initiator).modes = s.modes :=
  (State.evAccess_keeps _ _ _ rfl (Keeps.refl 0x200618a0000000000000000000000000000000000000000000000000000000000000000000000000000000000000410002 s)).parts .modes rfl
@[simp] theorem State.evAccess_change : (s.evAccess source addr initiator).change = s.change :=
  (State.evAccess_keeps _ _ _ rfl (Keeps.refl 0x200618a0000000000000000000000000000000000000000000000000000000000000000000000000000000000000410002 s)).parts .change rfl
@[simp] theorem State.evAccess_time : (s.evAccess source addr initiator).time = s.time :=
  (State.evAccess_keeps _ _ _ rfl (Keeps.refl 0x200618a0000000000000000000000000000000000000000000000000000000000000000000000000000000000000410002 s)).parts .time rfl
@[simp] theorem State.evAccess_dma : (s.evAccess source addr initiator).dma = s.dma :=
  (State.evAccess_keeps _ _ _ rfl (Keeps.refl 0x200618a0000000000000000000000000000000000000000000000000000000000000000000000000000000000000410002 s)).parts .dma rfl
@[simp] theorem State.evAccess_cpl : (s.evAccess source addr initiator).cpl = s.cpl :=
  (State.evAccess_keeps _ _ _ rfl (Keeps.refl 0x200618a0000000000000000000000000000000000000000000000000000000000000000000000000000000000000410002 s)).parts .cpl rfl
@[simp] theorem State.evAccess_dio : (s.evAccess source addr initiator).dio = s.dio :=
  (State.evAccess_keeps _ _ _ rfl (Keeps.refl 0x200618a0000000000000000000000000000000000000000000000000000000000000000000000000000000000000410002 s)).parts .dio rfl
@[simp] theorem State.evAccess_loop : (s.evAccess source addr initiator).loop = s.loop :=
  (State.evAccess_keeps _ _ _ rfl (Keeps.refl 0x200618a0000000000000000000000000000000000000000000000000000000000000000000000000000000000000410002 s)).parts .loop rfl
@[simp] theorem State.evAccess_calib : (s.evAccess source addr initiator).calib = s.calib :=
  (State.evAccess_keeps _ _ _ rfl (Keeps.refl 0x200618a0000000000000000000000000000000000000000000000000000000000000000000000000000000000000410002 s)).parts .calib rfl
@[simp] theorem State.evAccess_bellows : (s.evAccess source addr initiator).bellows = s.bellows :=
  (State.evAccess_keeps _ _ _ rfl (Keeps.refl 0x200618a0000000000000000000000000000000000000000000000000000000000000000000000000000000000000410002 s)).parts .bellows rfl
@[simp] theorem State.evAccess_rings : (s.evAccess source addr initiator).rings = s.rings :=
  (State.evAccess_keeps _ _ _ rfl (Keeps.refl 0x200618a0000000000000000000000000000000000000000000000000000000000000000000000000000000000000410002 s)).parts .rings rfl
@[simp] theorem State.evAccess_held : (s.evAccess source addr initiator).held = s.held :=
  (State.evAccess_keeps _ _ _ rfl (Keeps.refl 0x200618a0000000000000000000000000000000000000000000000000000000000000000000000000000000000000410002 s)).parts .held rfl
@[simp] theorem State.evAccess_bridge : (s.evAccess source addr initiator).bridge = s.bridge :=
  (State.evAccess_keeps _ _ _ rfl (Keeps.refl 0x200618a0000000000000000000000000000000000000000000000000000000000000000000000000000000000000410002 s)).parts .bridge rfl
@[simp] theorem State.evAccess_queues : (s.evAccess source addr initiator).queues = s.queues :=
  (State.evAccess_keeps _ _ _ rfl (Keeps.refl 0x200618a0000000000000000000000000000000000000000000000000000000000000000000000000000000000000410002 s)).parts .queues rfl
@[simp] theorem State.evAccess_outbox : (s.evAccess source addr initiator).outbox = s.outbox :=
  (State.evAccess_keeps _ _ _ rfl (Keeps.refl 0x200618a0000000000000000000000000000000000000000000000000000000000000000000000000000000000000410002 s)).parts .outbox rfl
@[simp] theorem State.evAccess_free : (s.evAccess source addr initiator).free = s.free :=
  (State.evAccess_keeps _ _ _ rfl (Keeps.refl 0x200618a0000000000000000000000000000000000000000000000000000000000000000000000000000000000000410002 s)).parts .free rfl

end

/-! `evUncorrectable` -/

section
variable (s : State) (source : Nat) (storage : Nat)

@[simp] theorem State.evUncorrectable_pending : (s.evUncorrectable source storage).pending = s.pending :=
  (State.evUncorrectable_keeps _ _ rfl (Keeps.refl 0x200618a0000000000000000000000000000000000000000000000000000000000000000000000000000000000000410002 s)).parts .pending rfl
@[simp] theorem State.evUncorrectable_smap : (s.evUncorrectable source storage).smap = s.smap :=
  (State.evUncorrectable_keeps _ _ rfl (Keeps.refl 0x200618a0000000000000000000000000000000000000000000000000000000000000000000000000000000000000410002 s)).parts .smap rfl
@[simp] theorem State.evUncorrectable_mem : (s.evUncorrectable source storage).mem = s.mem :=
  (State.evUncorrectable_keeps _ _ rfl (Keeps.refl 0x200618a0000000000000000000000000000000000000000000000000000000000000000000000000000000000000410002 s)).parts .mem rfl
@[simp] theorem State.evUncorrectable_ue : (s.evUncorrectable source storage).ue = s.ue :=
  (State.evUncorrectable_keeps _ _ rfl (Keeps.refl 0x200618a0000000000000000000000000000000000000000000000000000000000000000000000000000000000000410002 s)).parts .ue rfl
@[simp] theorem State.evUncorrectable_cores : (s.evUncorrectable source storage).cores = s.cores :=
  (State.evUncorrectable_keeps _ _ rfl (Keeps.refl 0x200618a0000000000000000000000000000000000000000000000000000000000000000000000000000000000000410002 s)).parts .cores rfl
@[simp] theorem State.evUncorrectable_program : (s.evUncorrectable source storage).program = s.program :=
  (State.evUncorrectable_keeps _ _ rfl (Keeps.refl 0x200618a0000000000000000000000000000000000000000000000000000000000000000000000000000000000000410002 s)).parts .program rfl
@[simp] theorem State.evUncorrectable_tasks : (s.evUncorrectable source storage).tasks = s.tasks :=
  (State.evUncorrectable_keeps _ _ rfl (Keeps.refl 0x200618a0000000000000000000000000000000000000000000000000000000000000000000000000000000000000410002 s)).parts .tasks rfl
@[simp] theorem State.evUncorrectable_lanes : (s.evUncorrectable source storage).lanes = s.lanes :=
  (State.evUncorrectable_keeps _ _ rfl (Keeps.refl 0x200618a0000000000000000000000000000000000000000000000000000000000000000000000000000000000000410002 s)).parts .lanes rfl
@[simp] theorem State.evUncorrectable_triads : (s.evUncorrectable source storage).triads = s.triads :=
  (State.evUncorrectable_keeps _ _ rfl (Keeps.refl 0x200618a0000000000000000000000000000000000000000000000000000000000000000000000000000000000000410002 s)).parts .triads rfl
@[simp] theorem State.evUncorrectable_anvils : (s.evUncorrectable source storage).anvils = s.anvils :=
  (State.evUncorrectable_keeps _ _ rfl (Keeps.refl 0x200618a0000000000000000000000000000000000000000000000000000000000000000000000000000000000000410002 s)).parts .anvils rfl
@[simp] theorem State.evUncorrectable_frame : (s.evUncorrectable source storage).frame = s.frame :=
  (State.evUncorrectable_keeps _ _ rfl (Keeps.refl 0x200618a0000000000000000000000000000000000000000000000000000000000000000000000000000000000000410002 s)).parts .frame rfl
@[simp] theorem State.evUncorrectable_modes : (s.evUncorrectable source storage).modes = s.modes :=
  (State.evUncorrectable_keeps _ _ rfl (Keeps.refl 0x200618a0000000000000000000000000000000000000000000000000000000000000000000000000000000000000410002 s)).parts .modes rfl
@[simp] theorem State.evUncorrectable_change : (s.evUncorrectable source storage).change = s.change :=
  (State.evUncorrectable_keeps _ _ rfl (Keeps.refl 0x200618a0000000000000000000000000000000000000000000000000000000000000000000000000000000000000410002 s)).parts .change rfl
@[simp] theorem State.evUncorrectable_time : (s.evUncorrectable source storage).time = s.time :=
  (State.evUncorrectable_keeps _ _ rfl (Keeps.refl 0x200618a0000000000000000000000000000000000000000000000000000000000000000000000000000000000000410002 s)).parts .time rfl
@[simp] theorem State.evUncorrectable_dma : (s.evUncorrectable source storage).dma = s.dma :=
  (State.evUncorrectable_keeps _ _ rfl (Keeps.refl 0x200618a0000000000000000000000000000000000000000000000000000000000000000000000000000000000000410002 s)).parts .dma rfl
@[simp] theorem State.evUncorrectable_cpl : (s.evUncorrectable source storage).cpl = s.cpl :=
  (State.evUncorrectable_keeps _ _ rfl (Keeps.refl 0x200618a0000000000000000000000000000000000000000000000000000000000000000000000000000000000000410002 s)).parts .cpl rfl
@[simp] theorem State.evUncorrectable_dio : (s.evUncorrectable source storage).dio = s.dio :=
  (State.evUncorrectable_keeps _ _ rfl (Keeps.refl 0x200618a0000000000000000000000000000000000000000000000000000000000000000000000000000000000000410002 s)).parts .dio rfl
@[simp] theorem State.evUncorrectable_loop : (s.evUncorrectable source storage).loop = s.loop :=
  (State.evUncorrectable_keeps _ _ rfl (Keeps.refl 0x200618a0000000000000000000000000000000000000000000000000000000000000000000000000000000000000410002 s)).parts .loop rfl
@[simp] theorem State.evUncorrectable_calib : (s.evUncorrectable source storage).calib = s.calib :=
  (State.evUncorrectable_keeps _ _ rfl (Keeps.refl 0x200618a0000000000000000000000000000000000000000000000000000000000000000000000000000000000000410002 s)).parts .calib rfl
@[simp] theorem State.evUncorrectable_bellows : (s.evUncorrectable source storage).bellows = s.bellows :=
  (State.evUncorrectable_keeps _ _ rfl (Keeps.refl 0x200618a0000000000000000000000000000000000000000000000000000000000000000000000000000000000000410002 s)).parts .bellows rfl
@[simp] theorem State.evUncorrectable_rings : (s.evUncorrectable source storage).rings = s.rings :=
  (State.evUncorrectable_keeps _ _ rfl (Keeps.refl 0x200618a0000000000000000000000000000000000000000000000000000000000000000000000000000000000000410002 s)).parts .rings rfl
@[simp] theorem State.evUncorrectable_held : (s.evUncorrectable source storage).held = s.held :=
  (State.evUncorrectable_keeps _ _ rfl (Keeps.refl 0x200618a0000000000000000000000000000000000000000000000000000000000000000000000000000000000000410002 s)).parts .held rfl
@[simp] theorem State.evUncorrectable_bridge : (s.evUncorrectable source storage).bridge = s.bridge :=
  (State.evUncorrectable_keeps _ _ rfl (Keeps.refl 0x200618a0000000000000000000000000000000000000000000000000000000000000000000000000000000000000410002 s)).parts .bridge rfl
@[simp] theorem State.evUncorrectable_queues : (s.evUncorrectable source storage).queues = s.queues :=
  (State.evUncorrectable_keeps _ _ rfl (Keeps.refl 0x200618a0000000000000000000000000000000000000000000000000000000000000000000000000000000000000410002 s)).parts .queues rfl
@[simp] theorem State.evUncorrectable_outbox : (s.evUncorrectable source storage).outbox = s.outbox :=
  (State.evUncorrectable_keeps _ _ rfl (Keeps.refl 0x200618a0000000000000000000000000000000000000000000000000000000000000000000000000000000000000410002 s)).parts .outbox rfl
@[simp] theorem State.evUncorrectable_free : (s.evUncorrectable source storage).free = s.free :=
  (State.evUncorrectable_keeps _ _ rfl (Keeps.refl 0x200618a0000000000000000000000000000000000000000000000000000000000000000000000000000000000000410002 s)).parts .free rfl

end

/-! `evRefused` -/

section
variable (s : State) (source : Nat) (offset : Nat) (reason : Nat)

@[simp] theorem State.evRefused_pending : (s.evRefused source offset reason).pending = s.pending :=
  (State.evRefused_keeps _ _ _ rfl (Keeps.refl 0x200618a0000000000000000000000000000000000000000000000000000000000000000000000000000000000000410002 s)).parts .pending rfl
@[simp] theorem State.evRefused_smap : (s.evRefused source offset reason).smap = s.smap :=
  (State.evRefused_keeps _ _ _ rfl (Keeps.refl 0x200618a0000000000000000000000000000000000000000000000000000000000000000000000000000000000000410002 s)).parts .smap rfl
@[simp] theorem State.evRefused_mem : (s.evRefused source offset reason).mem = s.mem :=
  (State.evRefused_keeps _ _ _ rfl (Keeps.refl 0x200618a0000000000000000000000000000000000000000000000000000000000000000000000000000000000000410002 s)).parts .mem rfl
@[simp] theorem State.evRefused_ue : (s.evRefused source offset reason).ue = s.ue :=
  (State.evRefused_keeps _ _ _ rfl (Keeps.refl 0x200618a0000000000000000000000000000000000000000000000000000000000000000000000000000000000000410002 s)).parts .ue rfl
@[simp] theorem State.evRefused_cores : (s.evRefused source offset reason).cores = s.cores :=
  (State.evRefused_keeps _ _ _ rfl (Keeps.refl 0x200618a0000000000000000000000000000000000000000000000000000000000000000000000000000000000000410002 s)).parts .cores rfl
@[simp] theorem State.evRefused_program : (s.evRefused source offset reason).program = s.program :=
  (State.evRefused_keeps _ _ _ rfl (Keeps.refl 0x200618a0000000000000000000000000000000000000000000000000000000000000000000000000000000000000410002 s)).parts .program rfl
@[simp] theorem State.evRefused_tasks : (s.evRefused source offset reason).tasks = s.tasks :=
  (State.evRefused_keeps _ _ _ rfl (Keeps.refl 0x200618a0000000000000000000000000000000000000000000000000000000000000000000000000000000000000410002 s)).parts .tasks rfl
@[simp] theorem State.evRefused_lanes : (s.evRefused source offset reason).lanes = s.lanes :=
  (State.evRefused_keeps _ _ _ rfl (Keeps.refl 0x200618a0000000000000000000000000000000000000000000000000000000000000000000000000000000000000410002 s)).parts .lanes rfl
@[simp] theorem State.evRefused_triads : (s.evRefused source offset reason).triads = s.triads :=
  (State.evRefused_keeps _ _ _ rfl (Keeps.refl 0x200618a0000000000000000000000000000000000000000000000000000000000000000000000000000000000000410002 s)).parts .triads rfl
@[simp] theorem State.evRefused_anvils : (s.evRefused source offset reason).anvils = s.anvils :=
  (State.evRefused_keeps _ _ _ rfl (Keeps.refl 0x200618a0000000000000000000000000000000000000000000000000000000000000000000000000000000000000410002 s)).parts .anvils rfl
@[simp] theorem State.evRefused_frame : (s.evRefused source offset reason).frame = s.frame :=
  (State.evRefused_keeps _ _ _ rfl (Keeps.refl 0x200618a0000000000000000000000000000000000000000000000000000000000000000000000000000000000000410002 s)).parts .frame rfl
@[simp] theorem State.evRefused_modes : (s.evRefused source offset reason).modes = s.modes :=
  (State.evRefused_keeps _ _ _ rfl (Keeps.refl 0x200618a0000000000000000000000000000000000000000000000000000000000000000000000000000000000000410002 s)).parts .modes rfl
@[simp] theorem State.evRefused_change : (s.evRefused source offset reason).change = s.change :=
  (State.evRefused_keeps _ _ _ rfl (Keeps.refl 0x200618a0000000000000000000000000000000000000000000000000000000000000000000000000000000000000410002 s)).parts .change rfl
@[simp] theorem State.evRefused_time : (s.evRefused source offset reason).time = s.time :=
  (State.evRefused_keeps _ _ _ rfl (Keeps.refl 0x200618a0000000000000000000000000000000000000000000000000000000000000000000000000000000000000410002 s)).parts .time rfl
@[simp] theorem State.evRefused_dma : (s.evRefused source offset reason).dma = s.dma :=
  (State.evRefused_keeps _ _ _ rfl (Keeps.refl 0x200618a0000000000000000000000000000000000000000000000000000000000000000000000000000000000000410002 s)).parts .dma rfl
@[simp] theorem State.evRefused_cpl : (s.evRefused source offset reason).cpl = s.cpl :=
  (State.evRefused_keeps _ _ _ rfl (Keeps.refl 0x200618a0000000000000000000000000000000000000000000000000000000000000000000000000000000000000410002 s)).parts .cpl rfl
@[simp] theorem State.evRefused_dio : (s.evRefused source offset reason).dio = s.dio :=
  (State.evRefused_keeps _ _ _ rfl (Keeps.refl 0x200618a0000000000000000000000000000000000000000000000000000000000000000000000000000000000000410002 s)).parts .dio rfl
@[simp] theorem State.evRefused_loop : (s.evRefused source offset reason).loop = s.loop :=
  (State.evRefused_keeps _ _ _ rfl (Keeps.refl 0x200618a0000000000000000000000000000000000000000000000000000000000000000000000000000000000000410002 s)).parts .loop rfl
@[simp] theorem State.evRefused_calib : (s.evRefused source offset reason).calib = s.calib :=
  (State.evRefused_keeps _ _ _ rfl (Keeps.refl 0x200618a0000000000000000000000000000000000000000000000000000000000000000000000000000000000000410002 s)).parts .calib rfl
@[simp] theorem State.evRefused_bellows : (s.evRefused source offset reason).bellows = s.bellows :=
  (State.evRefused_keeps _ _ _ rfl (Keeps.refl 0x200618a0000000000000000000000000000000000000000000000000000000000000000000000000000000000000410002 s)).parts .bellows rfl
@[simp] theorem State.evRefused_rings : (s.evRefused source offset reason).rings = s.rings :=
  (State.evRefused_keeps _ _ _ rfl (Keeps.refl 0x200618a0000000000000000000000000000000000000000000000000000000000000000000000000000000000000410002 s)).parts .rings rfl
@[simp] theorem State.evRefused_held : (s.evRefused source offset reason).held = s.held :=
  (State.evRefused_keeps _ _ _ rfl (Keeps.refl 0x200618a0000000000000000000000000000000000000000000000000000000000000000000000000000000000000410002 s)).parts .held rfl
@[simp] theorem State.evRefused_bridge : (s.evRefused source offset reason).bridge = s.bridge :=
  (State.evRefused_keeps _ _ _ rfl (Keeps.refl 0x200618a0000000000000000000000000000000000000000000000000000000000000000000000000000000000000410002 s)).parts .bridge rfl
@[simp] theorem State.evRefused_queues : (s.evRefused source offset reason).queues = s.queues :=
  (State.evRefused_keeps _ _ _ rfl (Keeps.refl 0x200618a0000000000000000000000000000000000000000000000000000000000000000000000000000000000000410002 s)).parts .queues rfl
@[simp] theorem State.evRefused_outbox : (s.evRefused source offset reason).outbox = s.outbox :=
  (State.evRefused_keeps _ _ _ rfl (Keeps.refl 0x200618a0000000000000000000000000000000000000000000000000000000000000000000000000000000000000410002 s)).parts .outbox rfl
@[simp] theorem State.evRefused_free : (s.evRefused source offset reason).free = s.free :=
  (State.evRefused_keeps _ _ _ rfl (Keeps.refl 0x200618a0000000000000000000000000000000000000000000000000000000000000000000000000000000000000410002 s)).parts .free rfl

end

/-! `evState` -/

section
variable (s : State) (source : Nat) (item : Nat) (old : Nat) (new : Nat)

@[simp] theorem State.evState_pending : (s.evState source item old new).pending = s.pending :=
  (State.evState_keeps _ _ _ _ rfl (Keeps.refl 0x200618a0000000000000000000000000000000000000000000000000000000000000000000000000000000000000410002 s)).parts .pending rfl
@[simp] theorem State.evState_smap : (s.evState source item old new).smap = s.smap :=
  (State.evState_keeps _ _ _ _ rfl (Keeps.refl 0x200618a0000000000000000000000000000000000000000000000000000000000000000000000000000000000000410002 s)).parts .smap rfl
@[simp] theorem State.evState_mem : (s.evState source item old new).mem = s.mem :=
  (State.evState_keeps _ _ _ _ rfl (Keeps.refl 0x200618a0000000000000000000000000000000000000000000000000000000000000000000000000000000000000410002 s)).parts .mem rfl
@[simp] theorem State.evState_ue : (s.evState source item old new).ue = s.ue :=
  (State.evState_keeps _ _ _ _ rfl (Keeps.refl 0x200618a0000000000000000000000000000000000000000000000000000000000000000000000000000000000000410002 s)).parts .ue rfl
@[simp] theorem State.evState_cores : (s.evState source item old new).cores = s.cores :=
  (State.evState_keeps _ _ _ _ rfl (Keeps.refl 0x200618a0000000000000000000000000000000000000000000000000000000000000000000000000000000000000410002 s)).parts .cores rfl
@[simp] theorem State.evState_program : (s.evState source item old new).program = s.program :=
  (State.evState_keeps _ _ _ _ rfl (Keeps.refl 0x200618a0000000000000000000000000000000000000000000000000000000000000000000000000000000000000410002 s)).parts .program rfl
@[simp] theorem State.evState_tasks : (s.evState source item old new).tasks = s.tasks :=
  (State.evState_keeps _ _ _ _ rfl (Keeps.refl 0x200618a0000000000000000000000000000000000000000000000000000000000000000000000000000000000000410002 s)).parts .tasks rfl
@[simp] theorem State.evState_lanes : (s.evState source item old new).lanes = s.lanes :=
  (State.evState_keeps _ _ _ _ rfl (Keeps.refl 0x200618a0000000000000000000000000000000000000000000000000000000000000000000000000000000000000410002 s)).parts .lanes rfl
@[simp] theorem State.evState_triads : (s.evState source item old new).triads = s.triads :=
  (State.evState_keeps _ _ _ _ rfl (Keeps.refl 0x200618a0000000000000000000000000000000000000000000000000000000000000000000000000000000000000410002 s)).parts .triads rfl
@[simp] theorem State.evState_anvils : (s.evState source item old new).anvils = s.anvils :=
  (State.evState_keeps _ _ _ _ rfl (Keeps.refl 0x200618a0000000000000000000000000000000000000000000000000000000000000000000000000000000000000410002 s)).parts .anvils rfl
@[simp] theorem State.evState_frame : (s.evState source item old new).frame = s.frame :=
  (State.evState_keeps _ _ _ _ rfl (Keeps.refl 0x200618a0000000000000000000000000000000000000000000000000000000000000000000000000000000000000410002 s)).parts .frame rfl
@[simp] theorem State.evState_modes : (s.evState source item old new).modes = s.modes :=
  (State.evState_keeps _ _ _ _ rfl (Keeps.refl 0x200618a0000000000000000000000000000000000000000000000000000000000000000000000000000000000000410002 s)).parts .modes rfl
@[simp] theorem State.evState_change : (s.evState source item old new).change = s.change :=
  (State.evState_keeps _ _ _ _ rfl (Keeps.refl 0x200618a0000000000000000000000000000000000000000000000000000000000000000000000000000000000000410002 s)).parts .change rfl
@[simp] theorem State.evState_time : (s.evState source item old new).time = s.time :=
  (State.evState_keeps _ _ _ _ rfl (Keeps.refl 0x200618a0000000000000000000000000000000000000000000000000000000000000000000000000000000000000410002 s)).parts .time rfl
@[simp] theorem State.evState_dma : (s.evState source item old new).dma = s.dma :=
  (State.evState_keeps _ _ _ _ rfl (Keeps.refl 0x200618a0000000000000000000000000000000000000000000000000000000000000000000000000000000000000410002 s)).parts .dma rfl
@[simp] theorem State.evState_cpl : (s.evState source item old new).cpl = s.cpl :=
  (State.evState_keeps _ _ _ _ rfl (Keeps.refl 0x200618a0000000000000000000000000000000000000000000000000000000000000000000000000000000000000410002 s)).parts .cpl rfl
@[simp] theorem State.evState_dio : (s.evState source item old new).dio = s.dio :=
  (State.evState_keeps _ _ _ _ rfl (Keeps.refl 0x200618a0000000000000000000000000000000000000000000000000000000000000000000000000000000000000410002 s)).parts .dio rfl
@[simp] theorem State.evState_loop : (s.evState source item old new).loop = s.loop :=
  (State.evState_keeps _ _ _ _ rfl (Keeps.refl 0x200618a0000000000000000000000000000000000000000000000000000000000000000000000000000000000000410002 s)).parts .loop rfl
@[simp] theorem State.evState_calib : (s.evState source item old new).calib = s.calib :=
  (State.evState_keeps _ _ _ _ rfl (Keeps.refl 0x200618a0000000000000000000000000000000000000000000000000000000000000000000000000000000000000410002 s)).parts .calib rfl
@[simp] theorem State.evState_bellows : (s.evState source item old new).bellows = s.bellows :=
  (State.evState_keeps _ _ _ _ rfl (Keeps.refl 0x200618a0000000000000000000000000000000000000000000000000000000000000000000000000000000000000410002 s)).parts .bellows rfl
@[simp] theorem State.evState_rings : (s.evState source item old new).rings = s.rings :=
  (State.evState_keeps _ _ _ _ rfl (Keeps.refl 0x200618a0000000000000000000000000000000000000000000000000000000000000000000000000000000000000410002 s)).parts .rings rfl
@[simp] theorem State.evState_held : (s.evState source item old new).held = s.held :=
  (State.evState_keeps _ _ _ _ rfl (Keeps.refl 0x200618a0000000000000000000000000000000000000000000000000000000000000000000000000000000000000410002 s)).parts .held rfl
@[simp] theorem State.evState_bridge : (s.evState source item old new).bridge = s.bridge :=
  (State.evState_keeps _ _ _ _ rfl (Keeps.refl 0x200618a0000000000000000000000000000000000000000000000000000000000000000000000000000000000000410002 s)).parts .bridge rfl
@[simp] theorem State.evState_queues : (s.evState source item old new).queues = s.queues :=
  (State.evState_keeps _ _ _ _ rfl (Keeps.refl 0x200618a0000000000000000000000000000000000000000000000000000000000000000000000000000000000000410002 s)).parts .queues rfl
@[simp] theorem State.evState_outbox : (s.evState source item old new).outbox = s.outbox :=
  (State.evState_keeps _ _ _ _ rfl (Keeps.refl 0x200618a0000000000000000000000000000000000000000000000000000000000000000000000000000000000000410002 s)).parts .outbox rfl
@[simp] theorem State.evState_free : (s.evState source item old new).free = s.free :=
  (State.evState_keeps _ _ _ _ rfl (Keeps.refl 0x200618a0000000000000000000000000000000000000000000000000000000000000000000000000000000000000410002 s)).parts .free rfl

end

/-! `evLimit` -/

section
variable (s : State) (source : Nat) (item : Nat) (measured : Nat) (limit : Nat)

@[simp] theorem State.evLimit_pending : (s.evLimit source item measured limit).pending = s.pending :=
  (State.evLimit_keeps _ _ _ _ rfl (Keeps.refl 0x200618a0000000000000000000000000000000000000000000000000000000000000000000000000000000000000410002 s)).parts .pending rfl
@[simp] theorem State.evLimit_smap : (s.evLimit source item measured limit).smap = s.smap :=
  (State.evLimit_keeps _ _ _ _ rfl (Keeps.refl 0x200618a0000000000000000000000000000000000000000000000000000000000000000000000000000000000000410002 s)).parts .smap rfl
@[simp] theorem State.evLimit_mem : (s.evLimit source item measured limit).mem = s.mem :=
  (State.evLimit_keeps _ _ _ _ rfl (Keeps.refl 0x200618a0000000000000000000000000000000000000000000000000000000000000000000000000000000000000410002 s)).parts .mem rfl
@[simp] theorem State.evLimit_ue : (s.evLimit source item measured limit).ue = s.ue :=
  (State.evLimit_keeps _ _ _ _ rfl (Keeps.refl 0x200618a0000000000000000000000000000000000000000000000000000000000000000000000000000000000000410002 s)).parts .ue rfl
@[simp] theorem State.evLimit_cores : (s.evLimit source item measured limit).cores = s.cores :=
  (State.evLimit_keeps _ _ _ _ rfl (Keeps.refl 0x200618a0000000000000000000000000000000000000000000000000000000000000000000000000000000000000410002 s)).parts .cores rfl
@[simp] theorem State.evLimit_program : (s.evLimit source item measured limit).program = s.program :=
  (State.evLimit_keeps _ _ _ _ rfl (Keeps.refl 0x200618a0000000000000000000000000000000000000000000000000000000000000000000000000000000000000410002 s)).parts .program rfl
@[simp] theorem State.evLimit_tasks : (s.evLimit source item measured limit).tasks = s.tasks :=
  (State.evLimit_keeps _ _ _ _ rfl (Keeps.refl 0x200618a0000000000000000000000000000000000000000000000000000000000000000000000000000000000000410002 s)).parts .tasks rfl
@[simp] theorem State.evLimit_lanes : (s.evLimit source item measured limit).lanes = s.lanes :=
  (State.evLimit_keeps _ _ _ _ rfl (Keeps.refl 0x200618a0000000000000000000000000000000000000000000000000000000000000000000000000000000000000410002 s)).parts .lanes rfl
@[simp] theorem State.evLimit_triads : (s.evLimit source item measured limit).triads = s.triads :=
  (State.evLimit_keeps _ _ _ _ rfl (Keeps.refl 0x200618a0000000000000000000000000000000000000000000000000000000000000000000000000000000000000410002 s)).parts .triads rfl
@[simp] theorem State.evLimit_anvils : (s.evLimit source item measured limit).anvils = s.anvils :=
  (State.evLimit_keeps _ _ _ _ rfl (Keeps.refl 0x200618a0000000000000000000000000000000000000000000000000000000000000000000000000000000000000410002 s)).parts .anvils rfl
@[simp] theorem State.evLimit_frame : (s.evLimit source item measured limit).frame = s.frame :=
  (State.evLimit_keeps _ _ _ _ rfl (Keeps.refl 0x200618a0000000000000000000000000000000000000000000000000000000000000000000000000000000000000410002 s)).parts .frame rfl
@[simp] theorem State.evLimit_modes : (s.evLimit source item measured limit).modes = s.modes :=
  (State.evLimit_keeps _ _ _ _ rfl (Keeps.refl 0x200618a0000000000000000000000000000000000000000000000000000000000000000000000000000000000000410002 s)).parts .modes rfl
@[simp] theorem State.evLimit_change : (s.evLimit source item measured limit).change = s.change :=
  (State.evLimit_keeps _ _ _ _ rfl (Keeps.refl 0x200618a0000000000000000000000000000000000000000000000000000000000000000000000000000000000000410002 s)).parts .change rfl
@[simp] theorem State.evLimit_time : (s.evLimit source item measured limit).time = s.time :=
  (State.evLimit_keeps _ _ _ _ rfl (Keeps.refl 0x200618a0000000000000000000000000000000000000000000000000000000000000000000000000000000000000410002 s)).parts .time rfl
@[simp] theorem State.evLimit_dma : (s.evLimit source item measured limit).dma = s.dma :=
  (State.evLimit_keeps _ _ _ _ rfl (Keeps.refl 0x200618a0000000000000000000000000000000000000000000000000000000000000000000000000000000000000410002 s)).parts .dma rfl
@[simp] theorem State.evLimit_cpl : (s.evLimit source item measured limit).cpl = s.cpl :=
  (State.evLimit_keeps _ _ _ _ rfl (Keeps.refl 0x200618a0000000000000000000000000000000000000000000000000000000000000000000000000000000000000410002 s)).parts .cpl rfl
@[simp] theorem State.evLimit_dio : (s.evLimit source item measured limit).dio = s.dio :=
  (State.evLimit_keeps _ _ _ _ rfl (Keeps.refl 0x200618a0000000000000000000000000000000000000000000000000000000000000000000000000000000000000410002 s)).parts .dio rfl
@[simp] theorem State.evLimit_loop : (s.evLimit source item measured limit).loop = s.loop :=
  (State.evLimit_keeps _ _ _ _ rfl (Keeps.refl 0x200618a0000000000000000000000000000000000000000000000000000000000000000000000000000000000000410002 s)).parts .loop rfl
@[simp] theorem State.evLimit_calib : (s.evLimit source item measured limit).calib = s.calib :=
  (State.evLimit_keeps _ _ _ _ rfl (Keeps.refl 0x200618a0000000000000000000000000000000000000000000000000000000000000000000000000000000000000410002 s)).parts .calib rfl
@[simp] theorem State.evLimit_bellows : (s.evLimit source item measured limit).bellows = s.bellows :=
  (State.evLimit_keeps _ _ _ _ rfl (Keeps.refl 0x200618a0000000000000000000000000000000000000000000000000000000000000000000000000000000000000410002 s)).parts .bellows rfl
@[simp] theorem State.evLimit_rings : (s.evLimit source item measured limit).rings = s.rings :=
  (State.evLimit_keeps _ _ _ _ rfl (Keeps.refl 0x200618a0000000000000000000000000000000000000000000000000000000000000000000000000000000000000410002 s)).parts .rings rfl
@[simp] theorem State.evLimit_held : (s.evLimit source item measured limit).held = s.held :=
  (State.evLimit_keeps _ _ _ _ rfl (Keeps.refl 0x200618a0000000000000000000000000000000000000000000000000000000000000000000000000000000000000410002 s)).parts .held rfl
@[simp] theorem State.evLimit_bridge : (s.evLimit source item measured limit).bridge = s.bridge :=
  (State.evLimit_keeps _ _ _ _ rfl (Keeps.refl 0x200618a0000000000000000000000000000000000000000000000000000000000000000000000000000000000000410002 s)).parts .bridge rfl
@[simp] theorem State.evLimit_queues : (s.evLimit source item measured limit).queues = s.queues :=
  (State.evLimit_keeps _ _ _ _ rfl (Keeps.refl 0x200618a0000000000000000000000000000000000000000000000000000000000000000000000000000000000000410002 s)).parts .queues rfl
@[simp] theorem State.evLimit_outbox : (s.evLimit source item measured limit).outbox = s.outbox :=
  (State.evLimit_keeps _ _ _ _ rfl (Keeps.refl 0x200618a0000000000000000000000000000000000000000000000000000000000000000000000000000000000000410002 s)).parts .outbox rfl
@[simp] theorem State.evLimit_free : (s.evLimit source item measured limit).free = s.free :=
  (State.evLimit_keeps _ _ _ _ rfl (Keeps.refl 0x200618a0000000000000000000000000000000000000000000000000000000000000000000000000000000000000410002 s)).parts .free rfl

end

/-! `sendOn` -/

section
variable (s : State) (via : Nat) (m : Out)

@[simp] theorem State.sendOn_pending : (s.sendOn via m).pending = s.pending :=
  (State.sendOn_keeps _ _ rfl (Keeps.refl 0x800000000000000000000000000000000000000000008000002 s)).parts .pending rfl
@[simp] theorem State.sendOn_smap : (s.sendOn via m).smap = s.smap :=
  (State.sendOn_keeps _ _ rfl (Keeps.refl 0x800000000000000000000000000000000000000000008000002 s)).parts .smap rfl
@[simp] theorem State.sendOn_mem : (s.sendOn via m).mem = s.mem :=
  (State.sendOn_keeps _ _ rfl (Keeps.refl 0x800000000000000000000000000000000000000000008000002 s)).parts .mem rfl
@[simp] theorem State.sendOn_ue : (s.sendOn via m).ue = s.ue :=
  (State.sendOn_keeps _ _ rfl (Keeps.refl 0x800000000000000000000000000000000000000000008000002 s)).parts .ue rfl
@[simp] theorem State.sendOn_cores : (s.sendOn via m).cores = s.cores :=
  (State.sendOn_keeps _ _ rfl (Keeps.refl 0x800000000000000000000000000000000000000000008000002 s)).parts .cores rfl
@[simp] theorem State.sendOn_program : (s.sendOn via m).program = s.program :=
  (State.sendOn_keeps _ _ rfl (Keeps.refl 0x800000000000000000000000000000000000000000008000002 s)).parts .program rfl
@[simp] theorem State.sendOn_tasks : (s.sendOn via m).tasks = s.tasks :=
  (State.sendOn_keeps _ _ rfl (Keeps.refl 0x800000000000000000000000000000000000000000008000002 s)).parts .tasks rfl
@[simp] theorem State.sendOn_lanes : (s.sendOn via m).lanes = s.lanes :=
  (State.sendOn_keeps _ _ rfl (Keeps.refl 0x800000000000000000000000000000000000000000008000002 s)).parts .lanes rfl
@[simp] theorem State.sendOn_triads : (s.sendOn via m).triads = s.triads :=
  (State.sendOn_keeps _ _ rfl (Keeps.refl 0x800000000000000000000000000000000000000000008000002 s)).parts .triads rfl
@[simp] theorem State.sendOn_anvils : (s.sendOn via m).anvils = s.anvils :=
  (State.sendOn_keeps _ _ rfl (Keeps.refl 0x800000000000000000000000000000000000000000008000002 s)).parts .anvils rfl
@[simp] theorem State.sendOn_frame : (s.sendOn via m).frame = s.frame :=
  (State.sendOn_keeps _ _ rfl (Keeps.refl 0x800000000000000000000000000000000000000000008000002 s)).parts .frame rfl
@[simp] theorem State.sendOn_modes : (s.sendOn via m).modes = s.modes :=
  (State.sendOn_keeps _ _ rfl (Keeps.refl 0x800000000000000000000000000000000000000000008000002 s)).parts .modes rfl
@[simp] theorem State.sendOn_change : (s.sendOn via m).change = s.change :=
  (State.sendOn_keeps _ _ rfl (Keeps.refl 0x800000000000000000000000000000000000000000008000002 s)).parts .change rfl
@[simp] theorem State.sendOn_time : (s.sendOn via m).time = s.time :=
  (State.sendOn_keeps _ _ rfl (Keeps.refl 0x800000000000000000000000000000000000000000008000002 s)).parts .time rfl
@[simp] theorem State.sendOn_dma : (s.sendOn via m).dma = s.dma :=
  (State.sendOn_keeps _ _ rfl (Keeps.refl 0x800000000000000000000000000000000000000000008000002 s)).parts .dma rfl
@[simp] theorem State.sendOn_recorder : (s.sendOn via m).recorder = s.recorder :=
  (State.sendOn_keeps _ _ rfl (Keeps.refl 0x800000000000000000000000000000000000000000008000002 s)).parts .recorder rfl
@[simp] theorem State.sendOn_cpl : (s.sendOn via m).cpl = s.cpl :=
  (State.sendOn_keeps _ _ rfl (Keeps.refl 0x800000000000000000000000000000000000000000008000002 s)).parts .cpl rfl
@[simp] theorem State.sendOn_dio : (s.sendOn via m).dio = s.dio :=
  (State.sendOn_keeps _ _ rfl (Keeps.refl 0x800000000000000000000000000000000000000000008000002 s)).parts .dio rfl
@[simp] theorem State.sendOn_loop : (s.sendOn via m).loop = s.loop :=
  (State.sendOn_keeps _ _ rfl (Keeps.refl 0x800000000000000000000000000000000000000000008000002 s)).parts .loop rfl
@[simp] theorem State.sendOn_calib : (s.sendOn via m).calib = s.calib :=
  (State.sendOn_keeps _ _ rfl (Keeps.refl 0x800000000000000000000000000000000000000000008000002 s)).parts .calib rfl
@[simp] theorem State.sendOn_bellows : (s.sendOn via m).bellows = s.bellows :=
  (State.sendOn_keeps _ _ rfl (Keeps.refl 0x800000000000000000000000000000000000000000008000002 s)).parts .bellows rfl
@[simp] theorem State.sendOn_update : (s.sendOn via m).update = s.update :=
  (State.sendOn_keeps _ _ rfl (Keeps.refl 0x800000000000000000000000000000000000000000008000002 s)).parts .update rfl
@[simp] theorem State.sendOn_rings : (s.sendOn via m).rings = s.rings :=
  (State.sendOn_keeps _ _ rfl (Keeps.refl 0x800000000000000000000000000000000000000000008000002 s)).parts .rings rfl
@[simp] theorem State.sendOn_held : (s.sendOn via m).held = s.held :=
  (State.sendOn_keeps _ _ rfl (Keeps.refl 0x800000000000000000000000000000000000000000008000002 s)).parts .held rfl
@[simp] theorem State.sendOn_bridge : (s.sendOn via m).bridge = s.bridge :=
  (State.sendOn_keeps _ _ rfl (Keeps.refl 0x800000000000000000000000000000000000000000008000002 s)).parts .bridge rfl
@[simp] theorem State.sendOn_queues : (s.sendOn via m).queues = s.queues :=
  (State.sendOn_keeps _ _ rfl (Keeps.refl 0x800000000000000000000000000000000000000000008000002 s)).parts .queues rfl
@[simp] theorem State.sendOn_free : (s.sendOn via m).free = s.free :=
  (State.sendOn_keeps _ _ rfl (Keeps.refl 0x800000000000000000000000000000000000000000008000002 s)).parts .free rfl

end

/-! What the updates change -/

@[simp] theorem State.setCore_cores (s : State) (c : Fin 12) (k : Core) : (s.setCore c k).cores = s.cores.set c.val k c.isLt := rfl
@[simp] theorem State.modCore_cores (s : State) (c : Fin 12) (g : Core → Core) :
    (s.modCore c g).cores = s.cores.set c.val (g s.cores[c]) c.isLt := rfl
@[simp] theorem State.modModes_modes (s : State) (g : Modes → Modes) : (s.modModes g).modes = g s.modes := rfl
@[simp] theorem State.modTime_time (s : State) (g : TimeState → TimeState) : (s.modTime g).time = g s.time := rfl
@[simp] theorem State.modCpl_cpl (s : State) (g : Cpl → Cpl) : (s.modCpl g).cpl = g s.cpl := rfl
@[simp] theorem State.modBridge_bridge (s : State) (g : Bridge → Bridge) : (s.modBridge g).bridge = g s.bridge := rfl
@[simp] theorem State.setChange_change (s : State) (c : ChangeState) : (s.setChange c).change = c := rfl
@[simp] theorem State.send_outbox (s : State) (m : Out) : (s.send m).outbox = m :: s.outbox := rfl
@[simp] theorem State.tickFree_free (s : State) : s.tickFree.free = s.free + 1 := rfl
@[simp] theorem State.withPending_pending (s : State) (q : List Instr) : (s.withPending q).pending = q := rfl
@[simp] theorem State.withPending_regs (s : State) (q : List Instr) : (s.withPending q).regs = s.regs := rfl
@[simp] theorem State.withPending_smap (s : State) (q : List Instr) : (s.withPending q).smap = s.smap := rfl
@[simp] theorem State.withPending_mem (s : State) (q : List Instr) : (s.withPending q).mem = s.mem := rfl
@[simp] theorem State.withPending_ue (s : State) (q : List Instr) : (s.withPending q).ue = s.ue := rfl
@[simp] theorem State.withPending_cores (s : State) (q : List Instr) : (s.withPending q).cores = s.cores := rfl
@[simp] theorem State.withPending_program (s : State) (q : List Instr) : (s.withPending q).program = s.program := rfl
@[simp] theorem State.withPending_tasks (s : State) (q : List Instr) : (s.withPending q).tasks = s.tasks := rfl
@[simp] theorem State.withPending_lanes (s : State) (q : List Instr) : (s.withPending q).lanes = s.lanes := rfl
@[simp] theorem State.withPending_triads (s : State) (q : List Instr) : (s.withPending q).triads = s.triads := rfl
@[simp] theorem State.withPending_anvils (s : State) (q : List Instr) : (s.withPending q).anvils = s.anvils := rfl
@[simp] theorem State.withPending_frame (s : State) (q : List Instr) : (s.withPending q).frame = s.frame := rfl
@[simp] theorem State.withPending_modes (s : State) (q : List Instr) : (s.withPending q).modes = s.modes := rfl
@[simp] theorem State.withPending_change (s : State) (q : List Instr) : (s.withPending q).change = s.change := rfl
@[simp] theorem State.withPending_time (s : State) (q : List Instr) : (s.withPending q).time = s.time := rfl
@[simp] theorem State.withPending_dma (s : State) (q : List Instr) : (s.withPending q).dma = s.dma := rfl
@[simp] theorem State.withPending_recorder (s : State) (q : List Instr) : (s.withPending q).recorder = s.recorder := rfl
@[simp] theorem State.withPending_cpl (s : State) (q : List Instr) : (s.withPending q).cpl = s.cpl := rfl
@[simp] theorem State.withPending_dio (s : State) (q : List Instr) : (s.withPending q).dio = s.dio := rfl
@[simp] theorem State.withPending_loop (s : State) (q : List Instr) : (s.withPending q).loop = s.loop := rfl
@[simp] theorem State.withPending_calib (s : State) (q : List Instr) : (s.withPending q).calib = s.calib := rfl
@[simp] theorem State.withPending_bellows (s : State) (q : List Instr) : (s.withPending q).bellows = s.bellows := rfl
@[simp] theorem State.withPending_update (s : State) (q : List Instr) : (s.withPending q).update = s.update := rfl
@[simp] theorem State.withPending_rings (s : State) (q : List Instr) : (s.withPending q).rings = s.rings := rfl
@[simp] theorem State.withPending_held (s : State) (q : List Instr) : (s.withPending q).held = s.held := rfl
@[simp] theorem State.withPending_bridge (s : State) (q : List Instr) : (s.withPending q).bridge = s.bridge := rfl
@[simp] theorem State.withPending_queues (s : State) (q : List Instr) : (s.withPending q).queues = s.queues := rfl
@[simp] theorem State.withPending_outbox (s : State) (q : List Instr) : (s.withPending q).outbox = s.outbox := rfl
@[simp] theorem State.withPending_free (s : State) (q : List Instr) : (s.withPending q).free = s.free := rfl

end Sys2Proof.Machine
end

