-- ==== Sys2Proof/Laws/Memory.lean ====
section
/-!
SUPPORT. Laws of memory: the storage transform of the lanes gives each word a place of its own (R116), reading what was
written, and reading beside it.
-/

namespace Sys2Proof.Machine

set_option Elab.async false

/-! ### The transform of R116 -/

theorem rotlNat_testBit {w x k i : Nat} (hk : k < w) (hx : x < 2 ^ w) :
    (rotlNat w x k).testBit i = (decide (i < w) && (if k ≤ i then x.testBit (i - k) else x.testBit (w - k + i))) := by
  unfold rotlNat
  dsimp only
  rw [Nat.mod_eq_of_lt hx, Nat.mod_eq_of_lt hk, Nat.testBit_mod_two_pow, Nat.testBit_or, Nat.testBit_shiftLeft,
    Nat.testBit_shiftRight]
  by_cases h : k ≤ i
  · have : x.testBit (w - k + i) = false := Nat.testBit_lt_two_pow (Nat.lt_of_lt_of_le hx (Nat.pow_le_pow_right (by decide) (by omega)))
    simp [h, this]
  · simp [h]

theorem rotlNat_lt (w x k : Nat) : rotlNat w x k < 2 ^ w := Nat.mod_lt _ (Nat.two_pow_pos _)

theorem rotlNat_inj {w x y k : Nat} (hk : k < w) (hx : x < 2 ^ w) (hy : y < 2 ^ w) (h : rotlNat w x k = rotlNat w y k) : x = y := by
  apply Nat.eq_of_testBit_eq
  intro j
  by_cases hj : j < w
  · have key : ∀ z < 2 ^ w, z.testBit j = (rotlNat w z k).testBit (if j + k < w then j + k else j + k - w) := by
      intro z hz
      rw [rotlNat_testBit hk hz]
      split
      · simp [*]
      · have h1 : j + k - w < w := by omega
        have h2 : ¬ k ≤ j + k - w := by omega
        have h3 : w - k + (j + k - w) = j := by omega
        simp [h1, h2, h3]
    rw [key x hx, key y hy, h]
  · have big : ∀ z < 2 ^ w, z.testBit j = false :=
      fun z hz => Nat.testBit_lt_two_pow (Nat.lt_of_lt_of_le hz (Nat.pow_le_pow_right (by decide) (by omega)))
    rw [big x hx, big y hy]

theorem laneRho_lt {w : Nat} (hw : 13 ≤ w) (lane : Nat) : laneRho lane < w := by
  unfold laneRho
  split
  · omega
  · split <;> omega

theorem laneKappa_lt (w lane : Nat) : laneKappa w lane < 2 ^ w := by
  have := Nat.two_pow_pos w
  unfold laneKappa
  split
  · omega
  · split
    · exact Nat.mod_lt _ this
    · omega

/-- Where a lane region lies, and the lanes in it. -/
theorem laneRegion_some {pa lane base w : Nat} (h : laneRegion pa = some (lane, base, w)) :
    13 ≤ w ∧ base % 64 = 0 ∧ base ≤ pa ∧ pa < base + 2 ^ w * 64 ∧
      ∀ qa, base ≤ qa → qa < base + 2 ^ w * 64 → laneRegion qa = some (lane, base, w) := by
  unfold laneRegion at h
  split at h
  · cases h
    refine ⟨by omega, by omega, by omega, by omega, fun qa h1 h2 => ?_⟩
    have : (qa - 0x10180000) / 0x80000 = (pa - 0x10180000) / 0x80000 := by omega
    unfold laneRegion
    rw [if_pos (by omega), this]
  · split at h
    · cases h
      refine ⟨by omega, by omega, by omega, by omega, fun qa h1 h2 => ?_⟩
      have : (qa - 0x20000000) / 0x100000 = (pa - 0x20000000) / 0x100000 := by omega
      unfold laneRegion
      rw [if_neg (by omega), if_pos (by omega), this]
    · split at h
      · cases h
        refine ⟨by omega, by omega, by omega, by omega, fun qa h1 h2 => ?_⟩
        have : (qa - 0x1040000000) / 0x80000000 = (pa - 0x1040000000) / 0x80000000 := by omega
        unfold laneRegion
        rw [if_neg (by omega), if_neg (by omega), if_pos (by omega), this]
      · cases h

/-- The line of a storage address within its lane region. -/
def laneLine (w lane x : Nat) : Nat := rotlNat w x (laneRho lane) ^^^ laneKappa w lane

theorem laneLine_lt (w lane x : Nat) : laneLine w lane x < 2 ^ w :=
  Nat.xor_lt_two_pow (rotlNat_lt _ _ _) (laneKappa_lt w lane)

theorem laneLine_inj {w lane x y : Nat} (hw : 13 ≤ w) (hx : x < 2 ^ w) (hy : y < 2 ^ w) (h : laneLine w lane x = laneLine w lane y) :
    x = y := by
  refine rotlNat_inj (laneRho_lt hw lane) hx hy ?_
  have := congrArg (· ^^^ laneKappa w lane) h
  simpa [laneLine, Nat.xor_assoc] using this

theorem storageAddr_some {pa lane base w : Nat} (h : laneRegion pa = some (lane, base, w)) :
    storageAddr pa = base + laneLine w lane ((pa - base) / 64) * 64 + (pa - base) % 64 := by
  unfold storageAddr
  rw [h]
  rfl

theorem storageAddr_none {pa : Nat} (h : laneRegion pa = none) : storageAddr pa = pa := by
  unfold storageAddr
  rw [h]

/-- The storage address lies in the lane region of its address. -/
theorem laneRegion_storageAddr (pa : Nat) : laneRegion (storageAddr pa) = laneRegion pa := by
  cases h : laneRegion pa with
  | none => rw [storageAddr_none h, h]
  | some x =>
    obtain ⟨lane, base, w⟩ := x
    obtain ⟨hw, _, _, _, hq⟩ := laneRegion_some h
    rw [storageAddr_some h]
    have := laneLine_lt w lane ((pa - base) / 64)
    exact hq _ (by omega) (by omega)

/-- No two bytes share a place (R116). -/
theorem storageAddr_inj {pa qa : Nat} (h : storageAddr pa = storageAddr qa) : pa = qa := by
  have hr : laneRegion pa = laneRegion qa := by rw [← laneRegion_storageAddr pa, h, laneRegion_storageAddr]
  cases hp : laneRegion pa with
  | none => rwa [storageAddr_none hp, storageAddr_none (hr ▸ hp)] at h
  | some x =>
    obtain ⟨lane, base, w⟩ := x
    have hq := hr ▸ hp
    obtain ⟨hw, _, h1, h2, _⟩ := laneRegion_some hp
    obtain ⟨_, _, h3, h4, _⟩ := laneRegion_some hq
    rw [storageAddr_some hp, storageAddr_some hq] at h
    have := laneLine_inj hw (x := (pa - base) / 64) (y := (qa - base) / 64) (lane := lane) (by omega) (by omega) (by omega)
    omega

/-- A word keeps its alignment. -/
theorem wordStorage_mod (pa : Nat) : wordStorage pa % 8 = 0 := by
  unfold wordStorage
  cases h : laneRegion (pa / 8 * 8) with
  | none => rw [storageAddr_none h]; omega
  | some x =>
    obtain ⟨lane, base, w⟩ := x
    obtain ⟨_, hb, hp, _, _⟩ := laneRegion_some h
    rw [storageAddr_some h]
    omega

theorem wordStorage_inj {pa qa : Nat} (h : wordStorage pa = wordStorage qa) : pa / 8 = qa / 8 := by
  have := storageAddr_inj h
  omega

theorem wordStorage_congr {pa qa : Nat} (h : pa / 8 = qa / 8) : wordStorage pa = wordStorage qa := by
  unfold wordStorage
  rw [h]

/-! ### Bytes of numbers -/

theorem leBytes_length (n x : Nat) : (leBytes n x).length = n := by
  induction n generalizing x with
  | zero => rfl
  | succ n ih => exact congrArg (· + 1) (ih _)

theorem leBytes_getD (n x i : Nat) (h : i < n) : ((leBytes n x).getD i 0) = BitVec.ofNat 8 (x >>> (8 * i)) := by
  induction n generalizing x i with
  | zero => omega
  | succ n ih =>
    cases i with
    | zero => simp [leBytes]
    | succ i =>
      show ((leBytes n (x / 256)).getD i 0) = _
      rw [ih _ _ (by omega)]
      congr 1
      rw [Nat.shiftRight_eq_div_pow, Nat.shiftRight_eq_div_pow, Nat.div_div_eq_div_mul, show 8 * (i + 1) = 8 + 8 * i by omega,
        Nat.pow_add]

theorem ofLe_leBytes (n x : Nat) : ofLe (leBytes n x) = x % 256 ^ n := by
  induction n generalizing x with
  | zero => simp [leBytes, ofLe, Nat.mod_one]
  | succ n ih =>
    simp only [leBytes, ofLe, ih, BitVec.toNat_ofNat]
    rw [show (2 : Nat) ^ 8 = 256 by rfl, Nat.pow_succ', Nat.mod_mul]

/-! ### Stored bytes -/

theorem State.stored_setStored (s : State) (a x : Nat) (b : Byte) : (s.setStored a b).stored x = if x = a then b else s.stored x :=
  sparseGet_set memDefault s.mem a x b

theorem State.setStoredList_stored (s : State) (a x : Nat) (bs : List Byte) :
    (s.setStoredList a bs).stored x = if a ≤ x ∧ x < a + bs.length then bs.getD (x - a) 0 else s.stored x := by
  induction bs generalizing s a with
  | nil => rw [if_neg (by simp only [List.length_nil]; omega)]; rfl
  | cons b bs ih =>
    unfold State.setStoredList
    rw [ih, State.stored_setStored]
    simp only [List.length_cons]
    by_cases h : x = a
    · subst h
      rw [if_neg (by omega), if_pos rfl, if_pos (by omega), Nat.sub_self]
      rfl
    · by_cases h1 : a + 1 ≤ x ∧ x < a + 1 + bs.length
      · rw [if_pos h1, if_pos (by omega), show x - a = (x - (a + 1)) + 1 by omega]
        rfl
      · rw [if_neg h1, if_neg h, if_neg (by omega)]

theorem State.setStoredList_ue (s : State) (a : Nat) (bs : List Byte) : (s.setStoredList a bs).ue = s.ue := by
  induction bs generalizing s a with
  | nil => rfl
  | cons b bs ih => exact ih _ _

@[simp] theorem State.writeWord_ue (s : State) (pa : Nat) (d : DWord) : (s.writeWord pa d).ue = s.ue := s.setStoredList_ue _ _

theorem State.writeWord_stored (s : State) (pa x : Nat) (d : DWord) :
    (s.writeWord pa d).stored x =
      if wordStorage pa ≤ x ∧ x < wordStorage pa + 8 then BitVec.ofNat 8 ((toStored pa d).toNat >>> (8 * (x - wordStorage pa)))
      else s.stored x := by
  unfold State.writeWord
  rw [State.setStoredList_stored, leBytes_length]
  split
  · rw [leBytes_getD _ _ _ (by omega)]
  · rfl

/-- Storing a word and reading it back gives the word (R115, R116). -/
theorem ofStored_toStored (pa : Nat) (d : DWord) : ofStored pa (toStored pa d) = d := by
  unfold ofStored toStored
  cases laneRegion pa with
  | none => rfl
  | some x =>
    obtain ⟨lane, _, _⟩ := x
    show ((d.rotateLeft (laneTheta lane) ^^^ laneMu lane) ^^^ laneMu lane).rotateRight (laneTheta lane) = d
    rw [BitVec.xor_assoc, BitVec.xor_self, BitVec.xor_zero]
    apply BitVec.eq_of_getLsbD_eq
    intro i hi
    have hk : laneTheta lane < 64 := by
      unfold laneTheta
      split
      · decide
      · split <;> decide
    generalize laneTheta lane = k at hk
    rw [BitVec.getLsbD_rotateRight, BitVec.getLsbD_rotateLeft, Nat.mod_eq_of_lt hk]
    by_cases h : i < 64 - k
    · have h1 : ¬ k + i < k := by omega
      have h2 : k + i < 64 := by omega
      simp [h, h1, h2]
    · have h1 : i - (64 - k) < k := by omega
      have h2 : 64 - k + (i - (64 - k)) = i := by omega
      simp [h, hi, h1, h2, Nat.mod_eq_of_lt hk]

/-! ### Words and bytes -/

/-- A word is free of an uncorrectable error. -/
theorem State.hasUe_congr (s : State) {pa qa : Nat} (h : pa / 8 = qa / 8) : s.hasUe pa = s.hasUe qa := by
  unfold State.hasUe
  rw [wordStorage_congr h]

theorem laneRegion_word (pa : Nat) : laneRegion (pa / 8 * 8) = laneRegion pa := by
  cases h : laneRegion pa with
  | some x =>
    obtain ⟨lane, base, w⟩ := x
    obtain ⟨_, hb, hp, hq, hr⟩ := laneRegion_some h
    exact hr _ (by omega) (by omega)
  | none =>
    cases h' : laneRegion (pa / 8 * 8) with
    | none => rfl
    | some x =>
      obtain ⟨lane, base, w⟩ := x
      obtain ⟨hw, hb, hp, hq, hr⟩ := laneRegion_some h'
      rw [hr pa (by omega) (by omega)] at h
      cases h

theorem ofStored_congr {pa qa : Nat} (h : pa / 8 = qa / 8) (d : DWord) : ofStored pa d = ofStored qa d := by
  unfold ofStored
  rw [← laneRegion_word pa, ← laneRegion_word qa, h]

theorem State.readWord_congr (s : State) {pa qa : Nat} (h : pa / 8 = qa / 8) : s.readWord pa = s.readWord qa := by
  unfold State.readWord
  rw [wordStorage_congr h]
  simp only [ofStored_congr h]

theorem ofLe_map_range (n x : Nat) : ofLe ((List.range n).map fun i => BitVec.ofNat 8 (x >>> (8 * i))) = x % 256 ^ n := by
  rw [← ofLe_leBytes]
  congr 1
  apply List.ext_getElem
  · simp [leBytes_length]
  · intro i h1 h2
    have := leBytes_getD n x i (by simpa [leBytes_length] using h2)
    simp only [List.getD_eq_getElem?_getD, List.getElem?_eq_getElem h2, Option.getD_some] at this
    simp [this]

/-- A read after a write to the same word, where the word holds no error (R115). -/
theorem State.readWord_writeWord (s : State) {pa qa : Nat} (d : DWord) (h : qa / 8 = pa / 8) (hu : s.hasUe pa = false) :
    (s.writeWord pa d).readWord qa = d := by
  rw [State.readWord_congr _ h]
  unfold State.hasUe at hu
  unfold State.readWord
  rw [State.writeWord_ue]
  cases e : s.ue.lookup (wordStorage pa) with
  | some k => rw [e] at hu; cases hu
  | none =>
    dsimp only
    have : (List.range 8).map (fun i => (s.writeWord pa d).stored (wordStorage pa + i)) =
        (List.range 8).map fun i => BitVec.ofNat 8 ((toStored pa d).toNat >>> (8 * i)) := by
      apply List.map_congr_left
      intro i hi
      have := List.mem_range.1 hi
      rw [State.writeWord_stored, if_pos (by omega), Nat.add_sub_cancel_left]
    rw [this, ofLe_map_range, Nat.mod_eq_of_lt (by have := (toStored pa d).isLt; omega), BitVec.ofNat_toNat,
      BitVec.setWidth_eq, ofStored_toStored]

/-- A write leaves every other word alone. -/
theorem State.readWord_writeWord_ne (s : State) {pa qa : Nat} (d : DWord) (h : qa / 8 ≠ pa / 8) :
    (s.writeWord pa d).readWord qa = s.readWord qa := by
  have hne : wordStorage qa ≠ wordStorage pa := fun e => h (wordStorage_inj e)
  have := wordStorage_mod pa
  have := wordStorage_mod qa
  unfold State.readWord
  rw [State.writeWord_ue]
  cases s.ue.lookup (wordStorage qa) with
  | some k => rfl
  | none =>
    dsimp only
    have : (List.range 8).map (fun i => (s.writeWord pa d).stored (wordStorage qa + i)) =
        (List.range 8).map fun i => s.stored (wordStorage qa + i) := by
      apply List.map_congr_left
      intro i hi
      have := List.mem_range.1 hi
      rw [State.writeWord_stored, if_neg (by omega)]
    rw [this]

theorem State.readByte_congr {s t : State} {a : Nat} (h : t.readWord a = s.readWord a) : t.readByte a = s.readByte a := by
  unfold State.readByte
  rw [h]

theorem put64_byte (i : Nat) (b : Byte) (x : DWord) (j : Nat) (hi : i < 8) (hj : j < 8) :
    BitVec.ofNat 8 ((put64 (8 * i) 8 b.toNat x).toNat >>> (8 * j)) = if j = i then b else BitVec.ofNat 8 (x.toNat >>> (8 * j)) := by
  apply BitVec.eq_of_getLsbD_eq
  intro n hn
  have e1 : 8 * j + n < 64 := by omega
  simp only [put64, BitVec.getLsbD_ofNat, hn, decide_true, Bool.true_and, Nat.testBit_shiftRight, BitVec.testBit_toNat]
  simp only [BitVec.getLsbD_or, BitVec.getLsbD_and, BitVec.getLsbD_not, BitVec.getLsbD_ofNat, Nat.testBit_shiftLeft,
    Nat.testBit_mod_two_pow, Nat.testBit_two_pow_sub_one, e1, decide_true, Bool.true_and, BitVec.testBit_toNat]
  by_cases hji : j = i
  · subst hji
    simp [hn]
  · rw [if_neg hji]
    have e2 : (BitVec.ofNat 8 (x.toNat >>> (8 * j))).getLsbD n = x.getLsbD (8 * j + n) := by
      rw [BitVec.getLsbD_ofNat, Nat.testBit_shiftRight, BitVec.testBit_toNat]
      simp [hn]
    rw [e2]
    by_cases h1 : 8 * i ≤ 8 * j + n
    · have h2 : ¬ (8 * j + n - 8 * i < 8) := by omega
      simp [h1, h2]
    · simp [h1]

theorem State.writeByte_hasUe (s : State) (pa qa : Nat) (b : Byte) : (s.writeByte pa b).hasUe qa = s.hasUe qa := by
  unfold State.hasUe State.writeByte
  rw [State.writeWord_ue]

/-- The bytes of a word after one of them is written. -/
theorem State.readByte_writeByte (s : State) (pa qa : Nat) (b : Byte) (hu : s.hasUe pa = false) :
    (s.writeByte pa b).readByte qa = if qa = pa then b else s.readByte qa := by
  by_cases h : qa / 8 = pa / 8
  · unfold State.readByte State.writeByte
    rw [State.readWord_writeWord s _ h hu, put64_byte _ _ _ _ (by omega) (by omega), State.readWord_congr s h]
    by_cases e : qa = pa
    · rw [if_pos e, if_pos (by rw [e])]
    · rw [if_neg e, if_neg (by omega)]
  · rw [if_neg (by intro e; exact h (by rw [e])), State.readByte_congr (s := s) (by unfold State.writeByte; exact s.readWord_writeWord_ne _ h)]

/-- The bytes of memory after a run of bytes within one word is written (R115). -/
theorem State.readByte_writeBytes (s : State) (pa qa : Nat) (bs : List Byte) (hl : pa % 8 + bs.length ≤ 8)
    (hu : s.hasUe pa = false) :
    (s.writeBytes pa bs).readByte qa = if pa ≤ qa ∧ qa < pa + bs.length then bs.getD (qa - pa) 0 else s.readByte qa := by
  induction bs generalizing s pa with
  | nil => rw [if_neg (by simp only [List.length_nil]; omega)]; rfl
  | cons b bs ih =>
    simp only [List.length_cons] at hl ⊢
    unfold State.writeBytes
    cases bs with
    | nil =>
      show (s.writeByte pa b).readByte qa = _
      rw [State.readByte_writeByte s _ _ _ hu]
      by_cases h : qa = pa
      · subst h; rw [if_pos rfl, if_pos (by simp only [List.length_nil]; omega), Nat.sub_self]; rfl
      · rw [if_neg h, if_neg (by simp only [List.length_nil]; omega)]
    | cons c bs =>
      have hl' := hl
      simp only [List.length_cons] at hl'
      have h8 : (pa + 1) / 8 = pa / 8 := by omega
      rw [ih _ _ (by omega) (by rw [State.writeByte_hasUe, State.hasUe_congr s h8, hu]), State.readByte_writeByte s _ _ _ hu]
      by_cases h : qa = pa
      · subst h
        rw [if_neg (by omega), if_pos rfl, if_pos (by omega), Nat.sub_self]
        rfl
      · by_cases h1 : pa + 1 ≤ qa ∧ qa < pa + 1 + (c :: bs).length
        · rw [if_pos h1, if_pos (by omega), show qa - pa = (qa - (pa + 1)) + 1 by omega]
          rfl
        · rw [if_neg h1, if_neg h, if_neg (by omega)]

theorem State.healUe_hasUe (s : State) (pa : Nat) : (s.healUe pa).hasUe pa = false := by
  show ((s.ue.filter fun a => a.1 != wordStorage pa).lookup (wordStorage pa)).isSome = false
  rw [lookup_filter_self]
  rfl

theorem State.healUe_readByte (s : State) (pa qa : Nat) (h : qa / 8 ≠ pa / 8) : (s.healUe pa).readByte qa = s.readByte qa := by
  apply State.readByte_congr
  unfold State.readWord
  show (match (s.ue.filter fun a => a.1 != wordStorage pa).lookup (wordStorage qa) with | some k => _ | none => _) = _
  rw [lookup_filter_ne _ _ _ fun e => h (wordStorage_inj e)]
  rfl

/-- The bytes of memory after a part of a word is written, or a whole one, whose code is good again (R114, R115). -/
theorem State.readByte_writePart (s : State) (pa qa : Nat) (bs : List Byte) (hl : pa % 8 + bs.length ≤ 8)
    (hu : bs.length = 8 ∨ s.hasUe pa = false) :
    (s.writePart pa bs).readByte qa = if pa ≤ qa ∧ qa < pa + bs.length then bs.getD (qa - pa) 0 else s.readByte qa := by
  unfold State.writePart
  split
  · rename_i h8
    rw [State.readByte_writeBytes _ _ _ _ hl (s.healUe_hasUe pa)]
    split
    · rfl
    · exact s.healUe_readByte pa qa (by omega)
  · rename_i h8
    have hf : s.hasUe pa = false := hu.resolve_left h8
    rw [if_neg (by rw [hf]; decide), State.readByte_writeBytes _ _ _ _ hl hf]

end Sys2Proof.Machine
end

