-- ==== Sys2Proof/Laws/Registers.lean ====
section
/-!
SUPPORT. What the operations on registers do: reading a register after a write, the fields of a register, counters, and
which registers recording an event leaves alone.
-/

namespace Sys2Proof.Machine

set_option Elab.async false

/-! ### Whole registers -/

theorem State.reg_setReg (s : State) (a x : Nat) (v : Word) : (s.setReg a v).reg x = if x = a then v else s.reg x := by
  unfold State.reg State.setReg
  exact sparseGet_set resetOf s.regs a x v

@[simp] theorem State.reg_setReg_self (s : State) (a : Nat) (v : Word) : (s.setReg a v).reg a = v := by
  rw [State.reg_setReg, if_pos rfl]

theorem State.reg_setReg_ne (s : State) {a x : Nat} (v : Word) (h : x ≠ a) : (s.setReg a v).reg x = s.reg x := by
  rw [State.reg_setReg, if_neg h]

/-- Equal register files read alike. -/
theorem State.reg_congr {s t : State} (h : t.regs = s.regs) (x : Nat) : t.reg x = s.reg x := by
  unfold State.reg
  rw [h]

/-! ### Fields -/

theorem Field.mask_getLsbD (f : Field) (i : Nat) (hi : i < 32) :
    f.mask.getLsbD i = (decide (f.lo ≤ i) && decide (i - f.lo < f.len)) := by
  unfold Field.mask
  rw [BitVec.getLsbD_ofNat, Nat.testBit_shiftLeft, Nat.testBit_two_pow_sub_one]
  simp [hi]

/-- Bit i of a field's value is bit lo + i of the register. -/
theorem Field.get_testBit (f : Field) (x : Word) (i : Nat) :
    (f.get x).testBit i = (decide (i < f.len) && x.getLsbD (f.lo + i)) := by
  unfold Field.get bitsAt
  rw [Nat.testBit_mod_two_pow, Nat.testBit_shiftRight]
  rfl

theorem Field.put_getLsbD (f : Field) (v : Nat) (x : Word) (i : Nat) (hi : i < 32) :
    (f.put v x).getLsbD i =
      if f.lo ≤ i ∧ i - f.lo < f.len then v.testBit (i - f.lo) else x.getLsbD i := by
  unfold Field.put
  simp only [BitVec.getLsbD_or, BitVec.getLsbD_and, BitVec.getLsbD_not, BitVec.getLsbD_ofNat, Nat.testBit_shiftLeft,
    Nat.testBit_mod_two_pow, Field.mask_getLsbD f i hi, hi]
  by_cases h1 : f.lo ≤ i <;> by_cases h2 : i - f.lo < f.len <;> simp [h1, h2]

/-- A field that has been given a value holds that value. -/
theorem Field.get_put_self (f : Field) (v : Nat) (x : Word) (h : f.lo + f.len ≤ 32) : f.get (f.put v x) = v % 2 ^ f.len := by
  apply Nat.eq_of_testBit_eq
  intro i
  rw [Field.get_testBit, Nat.testBit_mod_two_pow]
  by_cases hi : i < f.len
  · rw [Field.put_getLsbD f v x _ (by omega), if_pos ⟨by omega, by omega⟩, Nat.add_sub_cancel_left]
  · simp [hi]

/-- Two fields share no bit. -/
abbrev Field.apart (f g : Field) : Prop := f.lo + f.len ≤ g.lo ∨ g.lo + g.len ≤ f.lo

/-- Another field of the register keeps its value. -/
theorem Field.get_put_apart (f g : Field) (v : Nat) (x : Word) (h : f.apart g) (hg : g.lo + g.len ≤ 32) :
    g.get (f.put v x) = g.get x := by
  apply Nat.eq_of_testBit_eq
  intro i
  rw [Field.get_testBit, Field.get_testBit]
  by_cases hi : i < g.len
  · rw [Field.put_getLsbD f v x _ (by omega), if_neg]
    omega
  · simp [hi]

theorem Field.get_lt (f : Field) (x : Word) : f.get x < 2 ^ f.len := Nat.mod_lt _ (Nat.two_pow_pos _)

section Fields
variable (s : State) (a x : Nat) (f g : Field) (v : Nat) (w : Word)

theorem State.reg_putFld : (s.putFld a f v).reg x = if x = a then f.put v (s.reg a) else s.reg x := by
  unfold State.putFld
  exact s.reg_setReg a x _

theorem State.reg_putFld_ne (h : x ≠ a) : (s.putFld a f v).reg x = s.reg x := by
  rw [State.reg_putFld, if_neg h]

theorem State.fld_setReg_ne (h : x ≠ a) : (s.setReg a w).fld x g = s.fld x g := by
  unfold State.fld
  rw [s.reg_setReg_ne w h]

theorem State.fld_putFld_self (h : f.lo + f.len ≤ 32) : (s.putFld a f v).fld a f = v % 2 ^ f.len := by
  unfold State.fld
  rw [State.reg_putFld, if_pos rfl, Field.get_put_self f v _ h]

theorem State.fld_putFld_ne (h : x ≠ a) : (s.putFld a f v).fld x g = s.fld x g := by
  unfold State.fld
  rw [s.reg_putFld_ne a x f v h]

theorem State.fld_putFld_apart (h : f.apart g) (hg : g.lo + g.len ≤ 32) : (s.putFld a f v).fld x g = s.fld x g := by
  unfold State.fld
  rw [State.reg_putFld]
  split
  · rename_i e
    rw [e, Field.get_put_apart f g v _ h hg]
  · rfl

theorem State.fld_lt : s.fld a f < 2 ^ f.len := f.get_lt _

end Fields

/-! ### Counters (R45) -/

theorem State.reg_bump_ne (s : State) {a x : Nat} (h : x ≠ a) : (s.bump a).reg x = s.reg x :=
  s.reg_putFld_ne a x _ _ h

theorem State.fld_bump_self (s : State) (a : Nat) :
    (s.bump a).fld a CNT_COUNT = min (s.fld a CNT_COUNT + 1) 0x7FFFFFFF := by
  unfold State.bump State.bumpBy
  rw [State.fld_putFld_self _ _ _ _ (by decide)]
  exact Nat.mod_eq_of_lt (Nat.lt_of_le_of_lt (Nat.min_le_right _ _) (by decide))

/-- Counting an event leaves the rest of the counter register alone (R45). -/
theorem State.fld_bump_lost (s : State) (a : Nat) : (s.bump a).fld a CNT_LOST = s.fld a CNT_LOST :=
  s.fld_putFld_apart a a _ _ _ (by decide) (by decide)

/-! ### Events -/

/-- A register that recording an event does not touch: outside the recorder's block, and not the trial time (R464, R481). -/
def quiet (x : Nat) : Prop := x / 0x10000 ≠ 0x31 ∧ x ≠ UPD_TRIAL

section Events
variable {s t : State} {x : Nat}

theorem State.reg_setBucket (b : Bucket) : (s.setBucket b).reg x = s.reg x := rfl

theorem quiet_ne {x a : Nat} (h : quiet x) (ha : a / 0x10000 = 0x31) : x ≠ a := by
  intro e
  exact h.1 (e ▸ ha)

theorem State.reg_storeRecord (e : RawEvent) (n : Nat) (h : quiet x) : (s.storeRecord e n).1.reg x = s.reg x := by
  have h31 : ∀ (t : State) {a : Nat} (f : Field) (v : Nat), a / 0x10000 = 0x31 → (t.putFld a f v).reg x = t.reg x :=
    fun t a f v ha => t.reg_putFld_ne a x f v (quiet_ne h ha)
  unfold State.storeRecord
  split
  · show ((s.bump EVR_BUFLOST).flag EVR_STATUS EVR_STATUS_LOST).reg x = s.reg x
    rw [State.flag, h31 _ _ _ (by decide), State.reg_bump_ne _ (quiet_ne h (by decide))]
  · dsimp only
    have hn : ∀ (t : State) (n : Nat), (t.setEvrNext n).reg x = t.reg x := by
      intro t n
      rw [State.setEvrNext, h31 _ _ _ (by decide), State.reg_setReg_ne _ _ (quiet_ne h (by decide))]
    have hf : ∀ (c : Prop) [Decidable c] (t : State), (if c then t.startFlush else t).reg x = t.reg x := by
      intro c _ t
      split
      · exact h31 _ _ _ (by decide)
      · rfl
    rw [hf, h31 _ _ _ (by decide), hn]
    rfl

theorem State.reg_rateAndStore (e : RawEvent) (h : quiet x) : (s.rateAndStore e).reg x = s.reg x := by
  unfold State.rateAndStore
  dsimp only
  split
  · split <;>
    · rename_i t he
      show t.reg x = s.reg x
      have := State.reg_storeRecord (s := s) e (s.bucketOf e.source e.code).suppressed h
      rw [he] at this
      exact this
  · rw [State.reg_bump_ne _ (quiet_ne h (by decide))]
    rfl

/-- What an iteration leaves alone. -/
theorem State.reg_forEach {α : Type} (l : List α) (f : α → State → State) (hf : ∀ a t, (f a t).reg x = t.reg x) :
    (s.forEach l f).reg x = s.reg x := by
  unfold State.forEach
  induction l generalizing s with
  | nil => rfl
  | cons a l ih => exact (ih (s := f a s)).trans (hf a s)

/-- Recording an event leaves every quiet register alone. -/
theorem State.reg_raise (e : RawEvent) (h : quiet x) : (s.raise e).reg x = s.reg x := by
  unfold State.raise
  split
  · rfl
  · unfold State.deliver
    dsimp only
    have : ∀ t : State, (t.forEach ((s.overridesFor e.source e.code).filter fun k => !s.overrideConsistent k) fun k t =>
        (t.flag EVR_STATUS EVR_STATUS_CFG_SKEW).rateAndStore
          { source := 0x31, code := 1, severity := sevWarning, safety := false, params := [k] }).reg x = t.reg x := by
      intro t
      apply State.reg_forEach
      intro k t
      rw [State.reg_rateAndStore _ h, State.flag, State.reg_putFld_ne _ _ _ _ _ (quiet_ne h (by decide))]
    split
    · show (State.setReg _ UPD_TRIAL 0).reg x = s.reg x
      rw [State.reg_setReg_ne _ _ h.2, State.reg_rateAndStore _ h, this]
    · rw [State.reg_rateAndStore _ h, this]

variable (src code sev : Nat) (ps : List Nat) (safety : Bool)

theorem State.reg_event (h : quiet x) : (s.event src code sev ps safety).reg x = s.reg x := State.reg_raise _ h
theorem State.reg_evGroup (g : Nat) (h : quiet x) : (s.evGroup src g).reg x = s.reg x := State.reg_raise _ h
theorem State.reg_evAccess (a i : Nat) (h : quiet x) : (s.evAccess src a i).reg x = s.reg x := State.reg_raise _ h
theorem State.reg_evUncorrectable (a : Nat) (h : quiet x) : (s.evUncorrectable src a).reg x = s.reg x := State.reg_raise _ h
theorem State.reg_evRefused (o r : Nat) (h : quiet x) : (s.evRefused src o r).reg x = s.reg x := State.reg_raise _ h
theorem State.reg_evState (i o n : Nat) (h : quiet x) : (s.evState src i o n).reg x = s.reg x := State.reg_raise _ h
theorem State.reg_evLimit (i m l : Nat) (h : quiet x) : (s.evLimit src i m l).reg x = s.reg x := State.reg_raise _ h

theorem State.reg_irq (line : Nat) : (s.irq line).reg x = s.reg x := State.reg_congr (State.irq_regs s line) x

theorem State.reg_copyItem (k key : Nat) : (s.copyItem k key).reg x = s.reg x := State.reg_congr (State.copyItem_regs s k key) x

end Events

/-! ### Lines (R167) -/

/-- Raising a line reaches every core that has it enabled, and lines 0 and 1 every core; nothing else of a core changes but
that a gated core runs again. -/
theorem State.raiseLine_core (s : State) (line : Nat) (c d : Fin 12) :
    (s.raiseLine line c).cores[d] =
      if d = c then { s.cores[c] with
        lines := s.cores[c].lines ||| BitVec.ofNat 12 (2 ^ line),
        run := if s.cores[c].run = .gated then .running else s.cores[c].run } else s.cores[d] := by
  unfold State.raiseLine
  rw [State.modCore_cores]
  simp only [Fin.getElem_fin, Vector.getElem_set]
  by_cases h : d = c
  · subst h; simp
  · rw [if_neg (fun e => h (Fin.ext e.symm)), if_neg h]

end Sys2Proof.Machine
end

