-- ==== Sys2Proof/Laws/Helin.lean ====
section
/-!
SUPPORT. What the parts of an instruction's path leave alone: translating an address, the memory checks, the fetch, and
retirement.
-/

namespace Sys2Proof.Machine

set_option Elab.async false

/-! ### Cores -/

@[simp] theorem State.setCore_self (s : State) (c : Fin 12) (k : Core) : (s.setCore c k).cores[c] = k := by
  show (s.cores.set c.val k c.isLt)[c.val] = k
  simp

theorem State.setCore_ne (s : State) (c d : Fin 12) (k : Core) (h : d ≠ c) : (s.setCore c k).cores[d] = s.cores[d] := by
  show (s.cores.set c.val k c.isLt)[d.val] = s.cores[d.val]
  rw [Vector.getElem_set_ne]
  intro e
  exact h (Fin.ext e.symm)

@[simp] theorem State.modCore_self (s : State) (c : Fin 12) (g : Core → Core) : (s.modCore c g).cores[c] = g s.cores[c] :=
  s.setCore_self c _

theorem State.modCore_ne (s : State) (c d : Fin 12) (g : Core → Core) (h : d ≠ c) : (s.modCore c g).cores[d] = s.cores[d] :=
  s.setCore_ne c d _ h

@[simp] theorem Core.geth_zero (k : Core) : k.geth 0 = 0 := rfl

theorem Core.geth_seth (k : Core) (r q : BitVec 5) (v : DWord) :
    (k.seth r v).geth q = if q = r then (if r = 0 then 0 else v) else k.geth q := by
  unfold Core.seth Core.geth
  by_cases hr : r = 0
  · subst hr
    simp only [if_true]
    split <;> rfl
  · by_cases hq : q = r
    · subst hq
      simp only [hr, if_false, if_true, Vector.getElem_set_self]
    · simp only [hr, hq, if_false]
      split
      · rfl
      · rw [Vector.getElem_set_ne]
        intro e
        exact hq (BitVec.eq_of_toNat_eq e.symm)

theorem wroteH_seth (k : Core) (r : BitVec 5) (v : DWord) : WroteH k (k.seth r v) r v := by
  refine ⟨?_, fun q hq => ?_⟩
  · rw [Core.geth_seth, if_pos rfl]
  · rw [Core.geth_seth, if_neg hq]

@[simp] theorem Core.getf_seth (k : Core) (r q : BitVec 5) (v : DWord) : (k.seth r v).getf q = k.getf q := by
  unfold Core.seth
  split <;> rfl

@[simp] theorem Core.geth_setf (k : Core) (r q : BitVec 5) (v : DWord) : (k.setf r v).geth q = k.geth q := rfl

theorem Core.getf_setf (k : Core) (r q : BitVec 5) (v : DWord) : (k.setf r v).getf q = if q = r then v else k.getf q := by
  unfold Core.setf Core.getf
  by_cases hq : q = r
  · subst hq
    simp
  · rw [if_neg hq]
    show (k.f.set r.toNat v r.isLt)[q.toNat] = _
    rw [Vector.getElem_set_ne]
    intro e
    exact hq (BitVec.eq_of_toNat_eq e.symm)

theorem wroteF_setf (k : Core) (r : BitVec 5) (v : DWord) : WroteF k (k.setf r v) r v :=
  ⟨by rw [Core.getf_setf, if_pos rfl], fun q hq => by rw [Core.getf_setf, if_neg hq]⟩

theorem SameRest.refl (k : Core) : SameRest k k := rfl

theorem sameRest_seth (k : Core) (r : BitVec 5) (v : DWord) : SameRest k (k.seth r v) := by
  unfold Core.seth SameRest
  split <;> rfl

theorem sameRest_setf (k : Core) (r : BitVec 5) (v : DWord) : SameRest k (k.setf r v) := rfl

theorem SameRest.trans {a b c : Core} (h : SameRest a b) (k : SameRest b c) : SameRest a c := by
  unfold SameRest at *
  rw [← k] at h
  exact h

/-! ### What an access to find an address leaves alone -/

/-- Memory, and the cores but for the translation cache of the one that acts. -/
structure Looks (s t : State) (c : Fin 12) : Prop where
  mem : t.mem = s.mem
  ue : t.ue = s.ue
  core : { t.cores[c] with tlb := s.cores[c].tlb } = s.cores[c]
  others : ∀ d, d ≠ c → t.cores[d] = s.cores[d]

theorem Looks.refl (s : State) (c : Fin 12) : Looks s s c := ⟨rfl, rfl, rfl, fun _ _ => rfl⟩

theorem Looks.trans {a b d : State} {c : Fin 12} (h : Looks a b c) (k : Looks b d c) : Looks a d c := by
  refine ⟨k.mem.trans h.mem, k.ue.trans h.ue, ?_, fun e he => (k.others e he).trans (h.others e he)⟩
  have h1 := h.core
  rw [← k.core] at h1
  exact h1

/-- A state whose memory and cores are unchanged. -/
theorem Looks.of_eq {s t : State} {c : Fin 12} (hm : t.mem = s.mem) (hu : t.ue = s.ue) (hc : t.cores = s.cores) : Looks s t c :=
  ⟨hm, hu, by rw [hc], fun d _ => by rw [hc]⟩

theorem Looks.of_keeps {s t : State} {m : Nat} (c : Fin 12) (h : Keeps m s t) (h1 : m.testBit 3 = false) (h2 : m.testBit 4 = false)
    (h3 : m.testBit 5 = false) : Looks s t c := .of_eq (h.parts .mem h1) (h.parts .ue h2) (h.parts .cores h3)

theorem Looks.geth {s t : State} {c : Fin 12} (h : Looks s t c) (r : BitVec 5) : t.cores[c].geth r = s.cores[c].geth r := by
  rw [← h.core]
  rfl

theorem Looks.getf {s t : State} {c : Fin 12} (h : Looks s t c) (r : BitVec 5) : t.cores[c].getf r = s.cores[c].getf r := by
  rw [← h.core]
  rfl

theorem Looks.sameRest {s t : State} {c : Fin 12} (h : Looks s t c) : SameRest s.cores[c] t.cores[c] := by
  unfold SameRest
  generalize hk : t.cores[c] = k
  have h1 := h.core
  rw [hk] at h1
  rw [← h1]

theorem Looks.sameMemory {s t : State} {c : Fin 12} (h : Looks s t c) : SameMemory s t := by
  intro a
  unfold State.readByte State.readWord State.stored
  rw [h.mem, h.ue]

theorem State.walked_looks (s : State) (w : Walk) (va i : Nat) (c : Fin 12) : Looks s (s.walked w va i).1 c := by
  unfold State.walked
  split
  · exact .refl _ _
  · exact .refl _ _
  · exact .of_keeps c (State.evAccess_keeps _ _ _ (Nat.or_self _) (Keeps.refl _ s)) rfl rfl rfl
  · exact .of_keeps c (State.reportUe_keeps _ (Nat.or_self _) (Keeps.refl _ s)) rfl rfl rfl

theorem State.coreWalk_looks (s : State) (c : Fin 12) (va : Nat) : Looks s (s.coreWalk c va).1 c := by
  unfold State.coreWalk
  dsimp only
  split
  · refine Looks.trans ?_ (State.walked_looks _ _ _ _ _)
    refine ⟨rfl, rfl, ?_, fun d hd => ?_⟩
    · simp only [State.tickFree_cores, State.modCore_self]
    · simp only [State.tickFree_cores]
      exact s.modCore_ne c d _ hd
  · exact State.walked_looks _ _ _ _ _

/-- Translating an address. -/
theorem State.translate_looks (s : State) (c : Fin 12) (va : DWord) : Looks s (s.translate c va).1 c := by
  have hf : Looks s s.tickFree c := .of_eq rfl rfl rfl
  unfold State.translate
  dsimp only
  repeat' split
  all_goals first
    | exact .refl _ _
    | exact hf
    | exact s.coreWalk_looks c _
    | exact hf.trans (State.coreWalk_looks _ c _)

/-- The check of the address of an access. -/
theorem State.dataAddr_looks (s : State) (c : Fin 12) (kind : AccessKind) (va : DWord) (size : Nat) (lwsw : Bool) :
    Looks s (s.dataAddr c kind va size lwsw).1 c := by
  have h := s.translate_looks c va
  have he (t : State) (a b d : Nat) : Looks t (t.evAccess a b d) c :=
    .of_keeps c (State.evAccess_keeps _ _ _ (Nat.or_self _) (Keeps.refl _ t)) rfl rfl rfl
  unfold State.dataAddr
  dsimp only
  split <;> rename_i e <;> rw [e] at h
  · exact h
  · exact h
  · split
    · unfold State.regsAccess
      split
      · exact h
      · exact h.trans (he _ _ _ _)
    · split
      · exact h
      · split <;> exact h

theorem State.countCe_looks (s : State) (pa : Nat) (c : Fin 12) : Looks s (s.countCe pa) c :=
  .of_keeps c (State.countCe_keeps _ (Nat.or_self _) (Keeps.refl _ s)) rfl rfl rfl

/-- What the codes find at an access that is no machine check; the word then holds no error. -/
theorem State.eccCheck_looks {s t : State} {pa : Nat} {ecc : Ecc} (c : Fin 12) (h : s.eccCheck pa ecc = (t, false)) :
    Looks s t c ∧ (regionOf pa ≠ .bootRom → regionOf pa ≠ .none → t.hasUe pa = false) := by
  have ue : ∀ {u : State}, (if u.hasUe pa then (u.reportUe pa, true) else (u, false)) = (t, false) →
      u = t ∧ t.hasUe pa = false := by
    intro u e
    split at e
    · cases e
    · rename_i hu
      cases e
      exact ⟨rfl, by simpa using hu⟩
  have hu0 : ∀ (u : State), Looks s u c → (if u.hasUe pa then (u.reportUe pa, true) else (u, false)) = (t, false) →
      Looks s t c ∧ (regionOf pa ≠ .bootRom → regionOf pa ≠ .none → t.hasUe pa = false) := by
    intro u hl e
    obtain ⟨rfl, h2⟩ := ue e
    exact ⟨hl, fun _ _ => h2⟩
  have hl2 : Looks s (s.reportL2Ue pa) c := .of_keeps c (State.reportL2Ue_keeps _ (Nat.or_self _) (Keeps.refl _ s)) rfl rfl rfl
  have hb : Looks s (s.bump MMU_L2_CE) c := .of_eq rfl rfl rfl
  unfold State.eccCheck at h
  dsimp only at h
  split at h
  · exact hu0 _ (s.countCe_looks pa c) h
  · split at h
    · rename_i hr
      cases h
      exact ⟨.refl _ _, fun h1 h2 => (hr.elim h1 h2).elim⟩
    · obtain ⟨rfl, h2⟩ := ue h
      exfalso
      unfold State.hasUe State.markUe at h2
      have : ∀ (m : List (Nat × Nat)) (k v : Nat), ((insertAsc k v m).lookup k).isSome = true := by
        intro m k v
        induction m with
        | nil => simp [insertAsc]
        | cons e m ih =>
          obtain ⟨j, w⟩ := e
          unfold insertAsc
          split
          · rename_i e; subst e; simp
          · split
            · simp
            · rename_i h3 _
              rw [lookup_cons_ne _ _ _ _ h3]
              exact ih
      rw [this] at h2
      cases h2
  · refine hu0 _ ?_ h
    split
    · exact hb
    · exact .refl _ _
  · refine hu0 _ ?_ h
    split
    · exact hl2
    · exact .refl _ _
  · split at h
    · cases h
    · exact hu0 _ (.refl _ _) h
  · exact hu0 _ (.refl _ _) h

/-- The checks at an access of a core. -/
theorem State.memCheck_looks {s t : State} {c : Fin 12} {pa : Nat} {l1 : Parity} {ecc : Ecc} (h : s.memCheck c pa l1 ecc = (t, false)) :
    Looks s t c ∧ (regionOf pa ≠ .bootRom → regionOf pa ≠ .none → t.hasUe pa = false) := by
  unfold State.memCheck at h
  split at h
  · exact State.eccCheck_looks c h
  · split at h
    · exact State.eccCheck_looks c h
    · obtain ⟨h1, h2⟩ := State.eccCheck_looks c h
      exact ⟨Looks.trans (b := s.bump (LANE_L1ERR c.val)) (.of_eq rfl rfl rfl) h1, h2⟩
    · cases h

/-- The checks at an access leave every core alone. -/
theorem State.memCheck_cores (s : State) (c : Fin 12) (pa : Nat) (l1 : Parity) (ecc : Ecc) :
    (s.memCheck c pa l1 ecc).1.cores = s.cores :=
  (State.memCheck_keeps c pa l1 ecc (Nat.or_self _) (Keeps.refl _ s)).parts .cores (by decide)

/-- A fetch that delivers its instruction. -/
theorem State.fetch_looks {s u : State} {x : Site} (h : s.fetch x = (u, .ok)) : Looks s u x.core := by
  have ht := s.translate_looks x.core s.cores[x.core].pc
  unfold State.fetch at h
  dsimp only at h
  split at h
  · cases h
  · split at h <;> rename_i e <;> rw [e] at ht
    · cases h
    · cases h
    · split at h
      · cases h
      · split at h
        · cases h
        · rename_i e2
          cases h
          exact ht.trans (State.memCheck_looks e2).1

/-! ### Addresses -/

theorem leafAddr_mod (level leaf va : Nat) : leafAddr level leaf va % 8 = va % 8 ∨ leafAddr level leaf va % 8 = 0 := by
  unfold leafAddr pageBits
  by_cases h : level ≤ 4
  · left
    obtain ⟨k, hk⟩ : ∃ k, 39 - 9 * level = 3 + k := ⟨39 - 9 * level - 3, by omega⟩
    rw [hk, Nat.pow_add]
    have : va % (2 ^ 3 * 2 ^ k) % 8 = va % 8 := Nat.mod_mod_of_dvd _ (Nat.dvd_mul_right _ _)
    omega
  · right
    have : 39 - 9 * level = 0 := by omega
    rw [this]
    omega

/-- A translation keeps the place within a word, or answers the start of one. -/
theorem State.translate_mod {s t : State} {c : Fin 12} {va : DWord} {pa leaf : Nat} (h : s.translate c va = (t, .page pa leaf)) :
    pa % 8 = va.toNat % 8 ∨ pa % 8 = 0 := by
  have hw : ∀ (s : State) (w : Walk) (i : Nat), s.walked w va.toNat i = (t, .page pa leaf) →
      pa % 8 = va.toNat % 8 ∨ pa % 8 = 0 := by
    intro s w i e
    unfold State.walked at e
    split at e
    · cases e; exact leafAddr_mod ..
    · cases e
    · cases e
    · cases e
  unfold State.translate at h
  dsimp only at h
  split at h
  · split at h
    · cases h; exact .inl rfl
    · cases h
  · split at h
    · cases h
    · split at h
      · exact hw _ _ _ h
      · split at h
        · cases h; exact leafAddr_mod ..
        · exact hw _ _ _ h

/-- An address of memory that an access is allowed at: its alignment, and its region. -/
theorem State.dataAddr_at {s t : State} {c : Fin 12} {kind : AccessKind} {va : DWord} {n pa : Nat} {lwsw : Bool}
    (h : s.dataAddr c kind va n lwsw = (t, .at pa)) (hr : regionOf pa ≠ .regs) (hn : n = 1 ∨ n = 2 ∨ n = 4 ∨ n = 8) :
    pa % n = 0 ∧ ∃ atK, regionTakes kind atK (regionOf pa) = true := by
  unfold State.dataAddr at h
  dsimp only at h
  split at h
  · cases h
  · cases h
  · rename_i e
    have hm := State.translate_mod e
    split at h
    · rename_i hr2
      unfold State.regsAccess at h
      split at h
      · cases h; exact absurd hr2 hr
      · cases h
    · split at h
      · cases h
      · split at h
        · rename_i ha hp
          cases h
          unfold permitted at hp
          rw [Bool.and_eq_true, Bool.and_eq_true] at hp
          refine ⟨?_, _, hp.1.2⟩
          have : va.toNat % n = 0 := by simpa using ha
          obtain rfl | rfl | rfl | rfl := hn <;> omega
        · cases h

/-! ### Retirement -/

/-- A word that spells an instruction has the effect of the instruction. -/
theorem State.fetchedBody_spelled (u : State) {x : Site} (body : State → HRes)
    (h : (x.word.all fun w => (decodeHelin x w).isSome) = true) : u.fetchedBody x body = body u := by
  unfold State.fetchedBody
  cases hw : x.word with
  | none => rfl
  | some w =>
    rw [hw] at h
    have hs : (decodeHelin x w).isSome = true := h
    dsimp only
    rw [← Option.not_isSome, hs]
    rfl

/-- A fetched instruction that completes retires. -/
theorem State.helin_done {s u t : State} {x : Site} {body : State → HRes} (h : Fetches s x u) (hb : body u = .done t) :
    s.helin x body = t.retire x.core (s.cores[x.core].pc + 4) := by
  unfold State.helin
  rw [if_neg (by rw [h.1]; decide), h.2.1]
  dsimp only
  rw [State.fetchedBody_spelled u body h.2.2, hb]

theorem State.helin_jump {s u t : State} {x : Site} {body : State → HRes} {a : DWord} (h : Fetches s x u) (hb : body u = .jump t a) :
    s.helin x body = t.retire x.core a := by
  unfold State.helin
  rw [if_neg (by rw [h.1]; decide), h.2.1]
  dsimp only
  rw [State.fetchedBody_spelled u body h.2.2, hb]

theorem State.helin_trap {s u t : State} {x : Site} {body : State → HRes} {code : Nat} {a : DWord} (h : Fetches s x u)
    (hb : body u = .trap t code a) : s.helin x body = t.syncTrap x.core code a s.cores[x.core].pc := by
  unfold State.helin
  rw [if_neg (by rw [h.1]; decide), h.2.1]
  dsimp only
  rw [State.fetchedBody_spelled u body h.2.2, hb]

@[simp] theorem State.retire_core (t : State) (c : Fin 12) (next : DWord) :
    (t.retire c next).cores[c] = t.cores[c].retire next (Config.cycles t.free) := by
  unfold State.retire
  simp only [State.tickFree_cores, State.modCore_self]

theorem State.retire_ne (t : State) (c d : Fin 12) (next : DWord) (h : d ≠ c) : (t.retire c next).cores[d] = t.cores[d] := by
  unfold State.retire
  simp only [State.tickFree_cores]
  exact t.modCore_ne c d _ h

/-- What retirement leaves, for a core that changed only in what an instruction may change. -/
theorem retired_of {s u t : State} {c : Fin 12} {next : DWord} (h : Looks s u c) (hi : t.cores[c].instret = u.cores[c].instret)
    (ho : ∀ d, d ≠ c → t.cores[d] = u.cores[d]) : Retired s (t.retire c next) c next := by
  refine ⟨?_, ?_, fun d hd => ?_⟩
  · rw [State.retire_core]
    rfl
  · rw [State.retire_core]
    show t.cores[c].instret + 1 = _
    rw [hi, ← h.core]
  · rw [State.retire_ne _ _ _ _ hd, ho d hd, h.others d hd]

@[simp] theorem Core.retire_geth (k : Core) (a : DWord) (n : Nat) (r : BitVec 5) : (k.retire a n).geth r = k.geth r := rfl
@[simp] theorem Core.retire_getf (k : Core) (a : DWord) (n : Nat) (r : BitVec 5) : (k.retire a n).getf r = k.getf r := rfl
theorem Core.retire_rest (k : Core) (a : DWord) (n : Nat) : SameRest k (k.retire a n) := rfl
@[simp] theorem State.retire_mem (t : State) (c : Fin 12) (a : DWord) : (t.retire c a).mem = t.mem := rfl
@[simp] theorem State.retire_ue (t : State) (c : Fin 12) (a : DWord) : (t.retire c a).ue = t.ue := rfl
theorem State.retire_readByte (t : State) (c : Fin 12) (a : DWord) (x : Nat) : (t.retire c a).readByte x = t.readByte x := rfl

/-- Retirement changes the core and the free values alone. -/
theorem State.retire_agree (t : State) (c : Fin 12) (a : DWord) : AgreeBut [.cores, .free] t (t.retire c a) := by
  intro p hp
  cases p <;> first | rfl | exact absurd (by simp) hp

theorem AgreeBut.trans {l : List Part} {a b c : State} (h : AgreeBut l a b) (k : AgreeBut l b c) : AgreeBut l a c :=
  fun p hp => p.agree_trans (h p hp) (k p hp)

theorem State.modCore_agree (t : State) (c : Fin 12) (g : Core → Core) : AgreeBut [.cores, .free] t (t.modCore c g) := by
  intro p hp
  cases p <;> first | rfl | exact absurd (by simp) hp

theorem State.modCore_id (u : State) (c : Fin 12) : u.modCore c id = u := by
  show u.setCore c u.cores[c] = u
  unfold State.setCore
  have : u.cores.set c.val u.cores[c] c.isLt = u.cores := Vector.set_getElem_self _
  rw [this]

/-- An instruction that changes its core alone: what stands after it retires. -/
theorem retired_core {s u t : State} {x : Site} {g : Core → Core} {a : DWord} (h : Fetches s x u)
    (hi : ∀ k, (g k).instret = k.instret) (ht : t = (u.modCore x.core g).retire x.core a) :
    Retired s t x.core a ∧ (∀ r, t.cores[x.core].geth r = (g u.cores[x.core]).geth r) ∧
      (∀ r, t.cores[x.core].getf r = (g u.cores[x.core]).getf r) ∧ SameRest (g u.cores[x.core]) t.cores[x.core] ∧
      SameMemory s t ∧ AgreeBut [.cores, .free] u t ∧ t.cores[x.core].tlb = (g u.cores[x.core]).tlb := by
  subst ht
  have hl := State.fetch_looks h.2.1
  refine ⟨retired_of hl ?_ ?_, ?_, ?_, ?_, hl.sameMemory, ?_, ?_⟩
  · rw [State.modCore_self, hi]
  · exact fun d hd => State.modCore_ne _ _ _ _ hd
  · intro r
    rw [State.retire_core, State.modCore_self]
    rfl
  · intro r
    rw [State.retire_core, State.modCore_self]
    rfl
  · rw [State.retire_core, State.modCore_self]
    exact Core.retire_rest _ _ _
  · exact AgreeBut.trans (State.modCore_agree _ _ _) (State.retire_agree _ _ _)
  · rw [State.retire_core, State.modCore_self]
    rfl

/-! ### Stores -/

@[simp] theorem Core.geth_foldStore (k : Core) (own : Bool) (a n v : Nat) (r : BitVec 5) : (k.foldStore own a n v).geth r = k.geth r := by
  unfold Core.foldStore
  split <;> rfl

@[simp] theorem Core.getf_foldStore (k : Core) (own : Bool) (a n v : Nat) (r : BitVec 5) : (k.foldStore own a n v).getf r = k.getf r := by
  unfold Core.foldStore
  split <;> rfl

@[simp] theorem Core.foldStore_instret (k : Core) (own : Bool) (a n v : Nat) : (k.foldStore own a n v).instret = k.instret := by
  unfold Core.foldStore
  split <;> rfl

/-- Folding a store looks at nothing that most instructions may change. -/
theorem sameRest_foldStore {j k : Core} (own : Bool) (a n v : Nat) (h : SameRest j k) : SameRest (j.foldStore own a n v) (k.foldStore own a n v) := by
  unfold SameRest at h
  rw [← h]
  unfold SameRest Core.foldStore
  have e1 : ∀ (f : Vector DWord 32) (p q r : DWord) (l : List TlbEntry) (g : Vector DWord 32),
      Core.isOpen { k with h := f, f := g, pc := p, corecyc := q, instret := r, tlb := l } = k.isOpen := fun _ _ _ _ _ _ => rfl
  have e2 : ∀ (f : Vector DWord 32) (p q r : DWord) (l : List TlbEntry) (g : Vector DWord 32),
      Core.atK { k with h := f, f := g, pc := p, corecyc := q, instret := r, tlb := l } = k.atK := fun _ _ _ _ _ _ => rfl
  simp only [e1, e2]
  split <;> rfl

theorem State.noteLine_agree (s : State) (c : Fin 12) (pa : Nat) : AgreeBut [.cpl] s (s.noteLine c pa) := by
  intro p hp
  refine (State.noteLine_keeps c pa (Nat.or_self _) (Keeps.refl _ s)).parts p ?_
  cases p <;> first | rfl | exact absurd (by simp) hp

theorem State.writePart_cores (s : State) (pa : Nat) (bs : List Byte) : (s.writePart pa bs).cores = s.cores :=
  (State.writePart_keeps pa bs (Nat.or_self _) (Keeps.refl _ s)).parts .cores (by decide)

theorem State.writeBytes_agree (s : State) (pa : Nat) (bs : List Byte) : AgreeBut [.mem, .ue] s (s.writeBytes pa bs) := by
  intro p hp
  refine (State.writeBytes_keeps pa bs (Nat.or_self _) (Keeps.refl _ s)).parts p ?_
  cases p <;> first | rfl | exact absurd (by simp) hp

theorem State.writePart_agree (s : State) (pa : Nat) (bs : List Byte) (hu : bs.length = 8 ∨ s.hasUe pa = false) :
    AgreeBut [.mem, .ue] s (s.writePart pa bs) := by
  unfold State.writePart
  split
  · refine AgreeBut.trans ?_ (State.writeBytes_agree _ _ _)
    intro p hp
    cases p <;> first | rfl | exact absurd (by simp) hp
  · rename_i h8
    rw [if_neg (by rw [hu.resolve_left h8]; decide)]
    exact State.writeBytes_agree _ _ _

/-- The bytes of memory after a store of a number within one word. -/
theorem stored_writePart {s t : State} {pa n v : Nat} (hl : pa % 8 + n ≤ 8) (hu : n = 8 ∨ s.hasUe pa = false)
    (hm : t.mem = (s.writePart pa (leBytes n v)).mem) (he : t.ue = (s.writePart pa (leBytes n v)).ue) : Stored s t pa n v := by
  have hr : ∀ a, t.readByte a = (s.writePart pa (leBytes n v)).readByte a := by
    intro a
    unfold State.readByte State.readWord State.stored
    rw [hm, he]
  have key := fun a => State.readByte_writePart s pa a (leBytes n v) (by rw [leBytes_length]; exact hl) (by rw [leBytes_length]; exact hu)
  rw [leBytes_length] at key
  refine ⟨fun i hi => ?_, fun a ha => ?_⟩
  · rw [hr, key, if_pos (by omega), Nat.add_sub_cancel_left, leBytes_getD _ _ _ hi]
  · rw [hr, key, if_neg (by omega)]

theorem Stored.of_same {s u t : State} {pa n v : Nat} (h : Stored u t pa n v) (hs : SameMemory s u) : Stored s t pa n v :=
  ⟨h.1, fun a ha => (h.2 a ha).trans (hs a)⟩

/-! ### Traps -/

theorem State.trap_core (s : State) (c : Fin 12) (code : Nat) (tval tpc : DWord) (off : Nat) (h : s.cores[c].td = false) :
    s.takeTrap c code tval tpc off = s.modCore c fun k => k.trapEntry (BitVec.ofNat 64 code) tval tpc off := by
  unfold State.takeTrap
  rw [if_neg (by rw [h]; decide)]

/-- Reporting a task fault changes of the cores only sr.CKSTATE of the core. -/
theorem State.reportFault_core (s : State) (c : Fin 12) (cause tval : DWord) (call : Option (Nat × Nat)) :
    (s.reportFault c cause tval call).cores = (s.modCore c fun k => { k with ckstate := 0 }).cores := by
  have h1 : ((s.sendRecord c (s.faultRecord c cause tval call)).leaveCycle c).cores = s.cores := by
    unfold State.leaveCycle
    dsimp only
    split
    · rfl
    · exact (State.setOpenOn_keeps _ _ (Nat.or_self _) (Keeps.refl _ (s.sendRecord c (s.faultRecord c cause tval call)))).parts .cores rfl
  show ((State.modCore _ c _).cores) = _
  unfold State.modCore State.setCore
  dsimp only
  simp only [h1]

/-- A synchronous trap where TD is 0. -/
theorem entered_of {s u : State} {c : Fin 12} (code : Nat) (tval tpc : DWord)
    (hk : { u.cores[c] with tlb := s.cores[c].tlb } = s.cores[c]) (hother : ∀ d, d ≠ c → u.cores[d] = s.cores[d])
    (htd : s.cores[c].td = false) :
    Entered s (u.syncTrap c code tval tpc) c code tval tpc 0 0 := by
  have main : ∀ v : State, (v.cores = u.cores ∨ v.cores = (u.modCore c fun k => { k with ckstate := 0 }).cores) →
      Entered s (v.takeTrap c code tval tpc 0) c code tval tpc 0 0 := by
    intro v hv
    have hc : ∃ ck, v.cores[c] = { u.cores[c] with ckstate := ck } := by
      cases hv with
      | inl hv => exact ⟨u.cores[c].ckstate, by simp only [hv]⟩
      | inr hv => exact ⟨0, by simp only [hv, State.modCore_self]⟩
    have ho : ∀ d, d ≠ c → v.cores[d] = s.cores[d] := by
      intro d hd
      cases hv with
      | inl hv => simp only [hv]; exact hother d hd
      | inr hv => simp only [hv]; rw [State.modCore_ne _ _ _ _ hd]; exact hother d hd
    obtain ⟨ck, hc⟩ := hc
    have ht : v.cores[c].td = false := by
      rw [hc, ← htd, ← hk]
      rfl
    rw [State.trap_core _ _ _ _ _ _ ht]
    constructor
    all_goals first
      | (rw [State.modCore_self]; rfl)
      | (rw [State.modCore_self, hc, ← hk]; rfl)
      | (rw [State.modCore_self, hc, ← hk]; simp [Core.trapEntry]; done)
      | (intro r; rw [State.modCore_self, hc, ← hk]; rfl)
      | (intro d hd; rw [State.modCore_ne _ _ _ _ hd]; exact ho d hd)
  unfold State.syncTrap
  dsimp only
  split
  · exact main _ (.inr (State.reportFault_core _ _ _ _ _))
  · exact main _ (.inl rfl)

end Sys2Proof.Machine
end

