-- ==== Sys2Proof/Laws/Image.lean ====
section
/-!
SUPPORT. Laws of cells: the checks of what an access to cells reads, and a cell within one word.
-/

namespace Sys2Proof.Machine

set_option Elab.async false

/-- A run of bytes within one word is one part of a word. -/
theorem State.writeRun_word (s : State) (pa : Nat) (bs : List Byte) (h1 : 1 ≤ bs.length) (hl : pa % 8 + bs.length ≤ 8) :
    s.writeRun pa bs = s.writePart pa bs := by
  unfold State.writeRun State.forEach
  dsimp only
  have e1 : (pa + bs.length + 7) / 8 - pa / 8 = 1 := by omega
  have e2 : max pa (pa / 8 * 8 + 8 * 0) = pa := by omega
  have e3 : min (pa + bs.length) (pa / 8 * 8 + 8 * 0 + 8) - pa = bs.length := by omega
  rw [e1]
  show s.writePart (max pa (pa / 8 * 8 + 8 * 0)) _ = _
  rw [e2, Nat.sub_self, e3, List.drop_zero, List.take_length]

/-- A word of a range without errors has none. -/
theorem State.rangeUe_false {s : State} {pa n a : Nat} (h : s.rangeUe pa n = false) (h1 : pa ≤ a) (h2 : a < pa + n) :
    s.hasUe a = false := by
  unfold State.rangeUe at h
  rw [List.any_eq_false] at h
  have := h (a / 8 - pa / 8) (List.mem_range.2 (by omega))
  rw [show pa / 8 * 8 + 8 * (a / 8 - pa / 8) = a / 8 * 8 by omega] at this
  rw [s.hasUe_congr (qa := a / 8 * 8) (by omega)]
  simpa using this

/-- The check of what an access to cells reads, where it is no machine check. -/
theorem State.cellCheck_looks {s t : State} {x : Site} {pa n : Nat} (c : Fin 12) (h : s.cellCheck x pa n = (t, false)) :
    Looks s t c ∧ t.rangeUe pa n = false := by
  unfold State.cellCheck at h
  split at h
  · cases h
  · rename_i e
    split at h
    · cases h
    · rename_i hr
      cases h
      exact ⟨(State.eccCheck_looks c e).1, by simpa using hr⟩

/-- The size of a cell. -/
theorem cellSize_cases (analog : Bool) : cellSize analog = if analog then 8 else 1 := rfl

/-- A cell written within one word. -/
theorem State.putCell_word (s : State) (analog : Bool) (pa : Nat) (p : Point) (h : analog = true → pa % 8 = 0) :
    s.putCell analog pa p = s.writePart pa (leBytes (cellSize analog) (cellOfPoint analog p)) := by
  unfold State.putCell
  apply State.writeRun_word
  · rw [leBytes_length]
    cases analog <;> decide
  · rw [leBytes_length]
    cases analog with
    | false => show pa % 8 + 1 ≤ 8; omega
    | true => show pa % 8 + 8 ≤ 8; have := h rfl; omega

end Sys2Proof.Machine
end

