-- ==== Sys2Proof/Machine/Envelope.lean ====
section
/-!
DEFINITION. The safety envelope (R340 to R346): the message, its CRC, what a producer sends and what a consumer decides. On the
module both roles are routines that the Workbench links into SAFE tasks (R342): no command of its own runs them, they are
instructions of a task, and here stands what these instructions compute.
-/

namespace Sys2Proof.Machine

/-- A safety message without its CRC (R340). -/
structure Envelope where
  cid : Word
  seq : Word
  ptime : Word
  run : Bool
  failsafe : Bool
  data : List Word
  deriving DecidableEq, Repr

/-- CTL: N, RUN and FAILSAFE. -/
def Envelope.ctl (m : Envelope) : Nat := m.data.length % 128 + 128 * bit m.run + 256 * bit m.failsafe

/-- The bytes of words in memory order. -/
def wordBytes (ws : List Word) : List Byte := ws.flatMap fun w => leBytes 4 w.toNat

/-- The envelope CRC (R341): polynomial 0xF4ACFB13, reflected input and output, initial value and final XOR all ones. -/
def envelopeCrc (bs : List Byte) : Nat :=
  revBits 32 (crcMsb 32 0xF4ACFB13 0xFFFFFFFF (bs.map fun b => BitVec.ofNat 8 (revBits 8 b.toNat))) ^^^ 0xFFFFFFFF

/-- Words 0 to N + 3. -/
def Envelope.body (m : Envelope) : List Word := [m.cid, m.seq, m.ptime, BitVec.ofNat 32 m.ctl] ++ m.data

/-- A message as it travels: N + 5 words. -/
def Envelope.words (m : Envelope) : List Word := m.body ++ [BitVec.ofNat 32 (envelopeCrc (wordBytes m.body))]

/-- A producer with new data advances SEQ and dates the message by the release; a repetition is the old message (R343). -/
def Envelope.produce (m : Envelope) (ftime : Nat) (run failsafe : Bool) (data : List Word) : Envelope :=
  { m with seq := m.seq + 1, ptime := BitVec.ofNat 32 (ftime / 1000), run := run, failsafe := failsafe, data := data }

/-- What a SAFE task stores of a connection (R342): AGEMAX in µs, T_WD in ns. -/
structure EnvConnection where
  cid : Word
  n : Nat
  twd : Nat
  ageMax : Nat
  safeData : List Word
  deriving DecidableEq, Repr

/-- The states of a consumer (R345). -/
inductive EnvMode where
  | wait
  | run
  | failed
  deriving DecidableEq, Repr

/-- What a consumer keeps of a connection. -/
structure EnvConsumer where
  mode : EnvMode
  seqLast : Word
  /-- FTIME_fresh: sr.FTIME in ns of the release that last found a fresh message. -/
  fresh : Nat
  /-- What the last fresh message hands over. -/
  data : List Word
  /-- The finding before was a CRC discard. -/
  crcBefore : Bool
  envCrc : Nat
  envCid : Nat
  envAge : Nat
  envSeq : Nat
  deriving DecidableEq, Repr

/-- A consumer at its task's start (R345). -/
def EnvConsumer.start : EnvConsumer :=
  { mode := .wait, seqLast := 0, fresh := 0, data := [], crcBefore := false, envCrc := 0, envCid := 0, envAge := 0, envSeq := 0 }

/-- A fresh message: its data, or with FAILSAFE the connection's safe data (R345). -/
def EnvConsumer.takeFresh (k : EnvConsumer) (c : EnvConnection) (ftime : Nat) (seq : Word) (failsafe : Bool) (data : List Word) :
    EnvConsumer :=
  { k with mode := .run, seqLast := seq, fresh := ftime, data := if failsafe then c.safeData else data }

/-- The rows of R344: the words of the message in the task's snapshot, each with its quality tag, at a release. Any finding but a
CRC failure ends a run of consecutive CRC discards (DESIGN CHOICE, log entry 149). -/
def EnvConsumer.judge (k : EnvConsumer) (c : EnvConnection) (ftime : Nat) (ws : List (Word × Nat)) : EnvConsumer :=
  let w (i : Nat) : Word := (ws.getD i (0, 0)).1
  let body := (ws.take (c.n + 4)).map (·.1)
  let quiet := { k with crcBefore := false }
  if ws.any fun x => x.2 != 0 then quiet
  else if (w (c.n + 4)).toNat ≠ envelopeCrc (wordBytes body) then
    { k with envCrc := k.envCrc + 1, crcBefore := true, mode := if k.crcBefore then .failed else k.mode }
  else if w 0 ≠ c.cid ∨ (w 3).toNat % 128 ≠ c.n then { quiet with envCid := k.envCid + 1, mode := .failed }
  else if c.ageMax < (BitVec.ofNat 32 (ftime / 1000) - w 2).toNat then { quiet with envAge := k.envAge + 1 }
  else
    let d := (w 1 - k.seqLast).toNat
    let take := quiet.takeFresh c ftime (w 1) ((w 3).getLsbD 8) (body.drop 4)
    match k.mode with
    | .run => if d = 0 then quiet else if d ≤ 255 then take else { quiet with envSeq := k.envSeq + 1, mode := .failed }
    | .wait => if (w 3).getLsbD 7 then take else quiet
    | .failed => quiet

/-- A release of the consumer: the rows, then the time expectation (R344). -/
def EnvConsumer.release (k : EnvConsumer) (c : EnvConnection) (ftime : Nat) (ws : List (Word × Nat)) : EnvConsumer :=
  let k := k.judge c ftime ws
  if k.mode = .run ∧ c.twd < ftime - k.fresh then { k with mode := .failed } else k

/-- What the consumer hands its program (R345). -/
def EnvConsumer.value (k : EnvConsumer) (c : EnvConnection) : List Word := if k.mode = .run then k.data else c.safeData

/-- The program acknowledges a failure (R345). -/
def EnvConsumer.acknowledge (k : EnvConsumer) : EnvConsumer := if k.mode = .failed then { k with mode := .wait, crcBefore := false } else k

/-- The least T_WD and AGEMAX of a connection, in µs: periods in frames, the frame period and the transport delay (R346). -/
def envelopeLimits (pp pc tframe delay : Nat) : Nat × Nat := ((pp + pc) * tframe, 1000 + delay + (pc - 1) * tframe)

end Sys2Proof.Machine
end

