-- ==== Sys2Proof/WellFormed.lean ====
section
/-!
DEFINITION. Well-formed commands: the limits that the manual sets to what a command can carry and that the operand types do
not say. The meanings are total and do not ask for well-formedness.
-/

namespace Sys2Proof

/-- A LAP datagram ends in 12 bytes of MAC, and its payload holds at most 1,424 (R297). -/
def LapRequest.wellFormed (r : LapRequest) : Bool := decide (r.payload.length ≤ 1424) && r.mac.length == 12

/-- A slice lies in the points of its kind and in the output or snapshot areas of a lane (R117, R120). -/
def Machine.Slice.wellFormed (x : Machine.Slice) : Bool :=
  decide (1 ≤ x.count) && decide (x.start + x.count ≤ if x.analog then 16384 else 131072) && decide (x.area < 0x80000)

/-- A task of a program: one of the 64 tasks, with at most 32 slices (R120) and a level-1 table in each lane (R135). -/
def Machine.TaskProg.wellFormed (n : Nat) (t : Machine.TaskProg) : Bool :=
  decide (n < 64) && decide (t.slices.length ≤ 32) && t.slices.all Machine.Slice.wellFormed && t.ptbase.length == 3

/-- A program names each task once and a mode for each triad (R204). -/
def Machine.Program.wellFormed (p : Machine.Program) : Bool :=
  p.tasks.all (fun t => t.2.wellFormed t.1) && (p.tasks.map (·.1)).Nodup && p.modes.length == 4

/-- Entries of a migration table (R221). -/
def Machine.Migration.wellFormed (m : Machine.Migration) : Bool := decide (m.task < 64) && decide (m.op ≤ 2) && decide (m.space ≤ 1)

/-- A change package (R221, R222). -/
def Machine.Package.wellFormed (p : Machine.Package) : Bool :=
  p.program.wellFormed && p.forward.all Machine.Migration.wellFormed && p.reverse.all Machine.Migration.wellFormed

/-- One reading for each of the 16 inputs (R359). -/
def DioSample.wellFormed (x : DioSample) : Bool := x.adc.length == 16

/-- A packet of the copy engine holds at most 4,096 bytes: its data pieces fit (R387). -/
def Machine.PairItem.wellFormed : Machine.PairItem → Bool
  | .image _ d => decide (d.length ≤ 4096)
  | .voted _ _ d => decide (d.length ≤ 4096)
  | .line _ _ d => d.length == 64
  | .journal _ d => d.length % 64 == 0 && decide (d.length ≤ 320)
  | .mailbox c ws => decide (c < 32) && ws.length == 16
  | _ => true

/-- Memory findings that an access can meet: only the write of an atomic meets a write fault (R80). -/
def Site.wellFormed (x : Site) (atomic : Bool) : Bool := x.fetchEcc != .writeFault && (atomic || x.dataEcc != .writeFault)

/-- The site of a Helin instruction. -/
def Instr.site : Instr → Option Site
  | .addi x _ _ _ | .andi x _ _ _ | .ori x _ _ _ | .lui x _ _ _ | .op x _ _ _ _ | .load x _ _ _ _ | .store x _ _ _ _
  | .fload x _ _ _ _ | .fstore x _ _ _ _ | .branch x _ _ _ _ | .jal x _ | .jalr x _ _ _ | .fp x _ _ _ _ | .atom x _ _ _ _
  | .tret x _ _ | .wait x _ _ | .brk x _ _ | .fence x _ _ | .ifence x _ _ | .mfsr x _ _ | .mtsr x _ _ | .pld x _ _ _
  | .pst x _ _ _ | .ald x _ _ _ | .aldu x _ _ _ | .ast x _ _ _ | .aldf x _ _ _ | .astf x _ _ _ | .pldx x _ _ _
  | .pstx x _ _ _ | .aldx x _ _ _ | .astx x _ _ _ | .pldb x _ _ _ | .ptgb x _ _ _ | .ptor x _ _ _ | .pstb x _ _ _
  | .pcpy x _ _ _ | .acpy x _ _ _ | .ton x _ _ _ | .tof x _ _ _ | .tp x _ _ _ | .edgr x _ _ _ | .edgf x _ _ _
  | .edgb x _ _ _ | .ckpt x _ _ | .tcallTfault x _ _ | .tcallTevent x _ => some x
  | _ => none

/-- Whether an instruction is an atomic (R79). -/
def Instr.isAtomic : Instr → Bool
  | .atom _ _ _ _ _ => true
  | _ => false

/-- The LAP request of a command. -/
def Instr.request : Instr → Option LapRequest
  | .hello r | .keyx r _ | .lapClose r | .keepalive r | .lapRead r _ | .lapWrite r _ | .failget r | .failack r | .job r
  | .mbxpostPost r | .mbxpostStatus r | .mbxpostDone r | .mbxpostWithdraw r | .subscribe r | .notifyack r | .unknownSession _ r
  | .commandMode r | .commandWarmrst r | .commandColdrst r | .commandPurge r | .commandForceset r | .commandForcerel r
  | .commandForcestart r | .commandChgload r _ _ | .commandChgswitch r | .commandChgdiscard r | .commandChgcommit r
  | .commandChgrollback r | .commandTaskrestart r | .commandConfirm r | .commandState r | .pkgdata r | .lapReservedOp _ r => some r
  | _ => none

/-- What else a command carries. -/
def Instr.contentOk : Instr → Bool
  | .commandChgload _ p _ => p.wellFormed
  | .codePageReload _ d _ => d.length == 4096
  | .diSample x => x.wellFormed
  | .tpOverload _ mA => decide (100 < mA)
  | .eventRaise _ _ _ _ ps => decide (ps.length ≤ 6)
  | .dataPacket p items => decide (p.pseq < 0x10000) && items.all Machine.PairItem.wellFormed
  | .recoveryBlock o d _ => o % 1024 == 0 && d.length == 1024
  | .stationDrop _ id => 1 ≤ id.toNat && id.toNat ≤ 254
  | .moduleReset c => 3 ≤ c.toNat
  | .stagedStartStep f => f.program.wellFormed || f.program == { tasks := [], modes := [], hostCells := [], image := [] }
  | _ => true

/-- A command is well formed. -/
def Instr.wellFormed (i : Instr) : Bool :=
  i.site.all (fun x => x.wellFormed i.isAtomic) && i.request.all LapRequest.wellFormed && i.contentOk

end Sys2Proof
end

