-- ==== Sys2Proof/Tests/Slice0.lean ====
section
/-!
SUPPORT. Tests on fixed values: the manual's worked examples, ill-formed commands that WellFormed refuses, and, for each
statement with premises, states and operands that meet them.
-/

namespace Sys2Proof.Tests

set_option Elab.async false

open Sys2Proof Sys2Proof.Machine

/-! ### Ill-formed commands (WellFormed.lean) -/

def request (pl : List Byte) : LapRequest :=
  { via := 4, peer := 7, sid := 5, dcnt := 1, reqid := 9, seq := 0, ver := 1, flags := 0, rcpt := 0, fcnt := 0, status := 0,
    plen := BitVec.ofNat 16 pl.length, payload := pl, mac := List.replicate 12 0 }

def aSlice : Slice := { start := 0, count := 1, analog := false, output := false, area := 0 }

def aTask : TaskProg :=
  { slices := [], code := 0, isliceAddr := 0, entry := 0, ptbase := [0, 0, 0], votedCopy := 0, laneData := [], retained := [],
    init := [], layoutId := 0, layoutAt := 0, pages := [], kCode := false, maps := [], group := (0, 0, 0) }

def aProgram : Program := { tasks := [(0, aTask)], modes := [(0, 0), (0, 0), (0, 0), (0, 0)], hostCells := [], image := [] }

def aPackage : Package := { program := aProgram, forward := [], reverse := [], digest := 0, safe := false, version := 0 }

theorem test_wf_request : (request (List.replicate 1425 0)).wellFormed = false ∧
    LapRequest.wellFormed { request [] with mac := [] } = false := by decide +kernel
theorem test_wf_slice : aSlice.wellFormed = true ∧ Slice.wellFormed { aSlice with count := 0 } = false ∧
    Slice.wellFormed { aSlice with start := 131072 } = false ∧ Slice.wellFormed { aSlice with analog := true, start := 16384 } = false ∧
    Slice.wellFormed { aSlice with area := 0x80000 } = false := by decide
theorem test_wf_task : aTask.wellFormed 63 = true ∧ aTask.wellFormed 64 = false ∧
    TaskProg.wellFormed 0 { aTask with slices := List.replicate 33 aSlice } = false ∧
    TaskProg.wellFormed 0 { aTask with slices := [{ aSlice with count := 0 }] } = false ∧
    TaskProg.wellFormed 0 { aTask with ptbase := [] } = false := by decide +kernel
theorem test_wf_program : aProgram.wellFormed = true ∧ Program.wellFormed { aProgram with tasks := [(0, aTask), (0, aTask)] } = false ∧
    Program.wellFormed { aProgram with tasks := [(64, aTask)] } = false ∧
    Program.wellFormed { aProgram with modes := [] } = false := by decide +kernel
theorem test_wf_migration :
    Migration.wellFormed { op := 3, task := 0, space := 0, src := 0, dst := 0, len := 0 } = false ∧
    Migration.wellFormed { op := 0, task := 64, space := 0, src := 0, dst := 0, len := 0 } = false ∧
    Migration.wellFormed { op := 0, task := 0, space := 2, src := 0, dst := 0, len := 0 } = false := by decide
theorem test_wf_package : aPackage.wellFormed = true ∧
    Package.wellFormed { aPackage with forward := [{ op := 3, task := 0, space := 0, src := 0, dst := 0, len := 0 }] } = false ∧
    Package.wellFormed { aPackage with reverse := [{ op := 3, task := 0, space := 0, src := 0, dst := 0, len := 0 }] } = false ∧
    Package.wellFormed { aPackage with program := Program.empty } = false := by decide +kernel
theorem test_wf_sample :
    DioSample.wellFormed { adc := [], back := 0, excess := 0, settled := 0, since := 0 } = false := by decide
theorem test_wf_item : PairItem.wellFormed (.image 0 (List.replicate 4097 0)) = false ∧
    PairItem.wellFormed (.voted 0 0 (List.replicate 4097 0)) = false ∧ PairItem.wellFormed (.line true 0 []) = false ∧
    PairItem.wellFormed (.journal 0 [0]) = false ∧ PairItem.wellFormed (.journal 0 (List.replicate 384 0)) = false ∧
    PairItem.wellFormed (.mailbox 32 (List.replicate 16 0)) = false ∧ PairItem.wellFormed (.mailbox 0 []) = false := by decide +kernel
theorem test_wf_site : Site.wellFormed { core := 0, dataEcc := .writeFault } false = false ∧
    Site.wellFormed { core := 0, dataEcc := .writeFault } true = true ∧
    Site.wellFormed { core := 0, fetchEcc := .writeFault } true = false := by decide
theorem test_wf_command : (Instr.addi { core := 0, dataEcc := .writeFault } 0 0 0).wellFormed = false ∧
    (Instr.keepalive (request (List.replicate 1425 0))).wellFormed = false ∧
    (Instr.commandChgload (request []) { aPackage with program := Program.empty } 0).wellFormed = false ∧
    (Instr.codePageReload 0 [] true).wellFormed = false ∧ (Instr.tpOverload 0 100).wellFormed = false ∧
    (Instr.eventRaise 0 0 0 false (List.replicate 7 0)).wellFormed = false ∧
    (Instr.recoveryBlock 1 (List.replicate 1024 0) true).wellFormed = false ∧ (Instr.recoveryBlock 0 [] true).wellFormed = false ∧
    (Instr.stationDrop 0 0).wellFormed = false ∧ (Instr.stationDrop 0 255).wellFormed = false ∧
    (Instr.moduleReset 2).wellFormed = false ∧ Instr.tick.wellFormed = true := by decide +kernel

/-! ### Encodings: instruction words as the manual computes them (03_helin_base.md, 04_helin_control.md) -/

theorem test_word_lui : encI 5 5 0 0x2468 = 0x29402468 := by decide
theorem test_word_ori : encI 4 5 5 0x5678 = 0x214A5678 := by decide
theorem test_word_blt : encI (18 + condIndex .lt) 6 7 0x1FFFC = 0xA18FFFFC := by decide
theorem test_word_pst : encI 27 5 6 0x11170 = 0xD94D1170 := by decide
theorem test_word_ast : encPan 7 8 2 300 = 0xE1D0812C := by decide
theorem test_word_ckpt : encS 9 0 0x100 = 0xF2400100 := by decide

/-! ### Worked examples of the manual -/

/-- 03_helin_base.md: building a 32-bit constant. -/
theorem test_constant : luiValue 0x2468 ||| zext17 0x5678 = 0x12345678 ∧ luiValue 0x10000 = 0xFFFFFFFF80000000 := by decide
/-- 03_helin_base.md: the loop of R75. -/
theorem test_branch : (0x1000001010 : DWord) + branchDisp 0x1FFFC = 0x1000001000 := by decide
/-- R74: corners of the division. -/
theorem test_divide : opEval 0x014 0x8000000000000000 (-1) 0 = .value 0x8000000000000000 ∧
    opEval 0x036 0x80000000 0xFFFFFFFF 0 = .value 0 ∧ opEval 0x016 (-7) 2 0 = .value (-1) := by decide
/-- R82 and R81: 1.0 / 3.0 rounds to nearest even and is inexact; 0 / 0 is the default NaN. -/
theorem test_fdiv : fpEval 0x0C0 0 0x3F800000 0x40400000 0 0 0 = .toF 0x3EAAAAAB flagNX ∧
    fpEval 0x0C0 0 0 0 0 0 0 = .toF 0x7FC00000 flagNV := by decide +kernel
/-- 05_memory_dma.md: one retained variable in three lanes. -/
theorem test_storage : [0x20001A40, 0x20101A40, 0x20201A40].map storageAddr = [0x20001A40, 0x201E5BC0, 0x202F1500] ∧
    toStored 0x20101A40 0x4E2 = 0xFFFFFFFF63BFFFFF ∧ toStored 0x20201A40 0x4E2 = 0x5572455555555555 ∧
    ofStored 0x20201A40 (0x5572455555555555 ^^^ 0x20) = 67110114 := by decide
/-- R118: cells of digital point 70,000 and analog word 300. -/
theorem test_cells : cellAddr 0 false 70000 = 0x11170 ∧ cellAddr 0 true 300 = 0x20960 := by decide
/-- R197: the check value of the CRC-32, and the timing set after reset. -/
theorem test_crc : crc32 ("123456789".toUTF8.toList.map fun b => b.toBitVec) = 0xCBF43926 ∧ timingCrc 50 0 = VerifiedSet.reset.crc := by
  decide +kernel
/-- 02_register_conventions.md and 24_register_map.md: aliases. -/
theorem test_alias : [0x20010, 0x23410, 0x20E08, 0x2FFFC, 0x128090].map aliasOf =
    [some ANX_TCRC, some ANX_TCRC, some ANX_CFG, some (ANX_EPOCH 63), some (SOP_SCHEDID 2)] := by decide +kernel
/-- 04_helin_control.md: an on-delay timer across a slew and a skipped release. -/
theorem test_ton :
    let step (r : Timer × Bool) (d : Nat) : Timer × Bool := tonStep r.1 true d
    let r0 := tonStep { acc := 0, run := false, pin := false, pt := 5000000 } true 1000050
    let r1 := step r0 1000050
    let r3 := step r1 2000100
    let r4 := step r3 1000050
    let r5 := step r4 1000050
    [r0, r1, r3, r4, r5].map (fun r => (r.1.acc, r.2)) =
      [(0, false), (1000050, false), (3000150, false), (4000200, false), (5000000, true)] := by decide
/-- 04_helin_control.md: the carriage counter, from a cleared state word. -/
theorem test_edges :
    let run := [(0, 0), (1, 0), (1, 0), (0, 5), (0, 5), (1, 0), (0, 0), (1, 0)].foldl (fun (r : Nat × List DWord) (p : Nat × Nat) =>
      let e := edgeStep (fun prev v => !prev && v) r.1 (BitVec.ofNat 64 (p.1 + p.2 * 2 ^ 32))
      (e.1.getD r.1, r.2 ++ [e.2])) (0, [])
    run.2 = [4, 1, 0, 2, 2, 0, 0, 1] := by decide
/-- 06_tasks_frame.md: sr.FELAPSED of the slew example, c = -50 ns per frame. -/
theorem test_felapsed :
    let s := (State.reset.setReg TIME_CTICKL 0xFFCE0000).setReg TIME_CTICKH 0xFFFFFFFF
    let t := s.modTask 0 fun k => { k with first := false, prevFtime := 1000000 }
    (t.elapsed 0 2000000).1 = 1000050 := by decide +kernel
/-- 20_bellows.md: the operating point of triad T2. -/
theorem test_point : (State.reset.putFld BLW_OPCAP BLW_OPCAP_EFF 2 |>.putFld (BLW_OPTAB 0) BLW_OPTAB_FREQ 600
    |>.putFld FRM_ACTIVE FRM_ACTIVE_ACTPERIOD 1000).pointFits 380000 0 = true := by decide +kernel
/-- 12_bridge_lap.md: a weighing cell and a host setpoint. -/
theorem test_signals :
    let s := { State.reset with smap := [(8000, 0x1A000401), (8001, 0x10019010), (8002, 0x10000005), (8003, 0x10800064)] }
    let g := s.signal 2000
    (g.toHost 0xFB2F00C8 0).1 = 0xFFFFF45A ∧ ({ g with rnd := 2 }.toHost 0xFB2F00C8 0).1 = BitVec.ofInt 32 (-2983) ∧
    (let h := { g with lsb := 0, sgn := false, hfmt := 1 }
     h.toField 1000 = some 0x168 ∧ h.toField 0xFFFFFF9C = none ∧ h.toField 0 = none) := by decide +kernel

/-! ### Witnesses: Helin instructions -/

/-- A pair with a known second component. -/
theorem pair_of {α β : Type} {p : α × β} {b : β} (h : p.2 = b) : p = (p.1, b) := Prod.ext rfl h

def site : Site := { core := 0 }

/-- Core A0 runs at K from DRAM, with these registers and no translation. -/
def kState (f : Core → Core) : State := State.reset.modCore 0 fun k => f { k with run := .running, pc := 0x1000000000 }

/-- Core A0 runs at T: code in the gigabyte at 0x10_0000_0000, data in the one above. -/
def tState (f : Core → Core) : State :=
  ((kState fun k => f { k with status := 2, xlate := 1, ptbase := 0x1000004000 }).writeLe 0x1000004200 8 0x1000000037).writeLe
    0x1000004208 8 0x104000002F

/-- The state after the fetch. -/
def fetched (s : State) : State := (s.fetch site).1

theorem fetches_of {s : State} (h : s.cores[site.core].run = .running ∧ (s.fetch site).2 = .ok) : Fetches s site (fetched s) :=
  ⟨h.1, pair_of h.2, rfl⟩

/-- h1 the most negative number, h2 -1, h3 that of 32 bits, h4 a data address, h5 a register, h6 nothing, h7 misaligned. -/
def regsOf (k : Core) : Core :=
  [(1, 0x8000000000000000), (2, -1), (3, 0x80000000), (4, 0x1040000000), (5, 0x40000000), (6, 0x2000000000), (7, 0x1040000001),
    (8, 64), (9, 65)].foldl (fun (k : Core) (e : BitVec 5 × DWord) => k.seth e.1 e.2) k

def sK : State := kState regsOf
def sT : State := tState regsOf

theorem witness_fetch_k : Fetches sK site (fetched sK) ∧ sK.cores[site.core].atK = true ∧ sK.cores[site.core].td = false :=
  ⟨fetches_of (by decide +kernel), by decide +kernel⟩
theorem witness_fetch_t : Fetches sT site (fetched sT) ∧ sT.cores[site.core].atK = false ∧ sT.cores[site.core].td = false :=
  ⟨fetches_of (by decide +kernel), by decide +kernel⟩

/-- O6: zero divisors, and the two quotients that do not fit. -/
theorem witness_divide : let k := sK.cores[site.core]
    k.geth 0 = 0 ∧ k.geth 1 = 0x8000000000000000 ∧ k.geth 2 = -1 ∧ (k.geth 3).setWidth 32 = (0x80000000 : Word) ∧
      (k.geth 2).setWidth 32 = (-1 : Word) ∧ opEval 0x000 (k.geth 1) (k.geth 2) 2 = .value 0x7FFFFFFFFFFFFFFF := by decide +kernel
/-- O7 and O9: an aligned and a misaligned target. -/
theorem witness_jalr : let k := sK.cores[site.core]
    (k.geth 0 + sext17 0x1FFFC).toNat % 4 = 0 ∧ (k.geth 4 + sext17 0x1FFFF).toNat % 4 ≠ 0 := by decide +kernel
/-- O8: state registers at both levels; the bounds of an ASID; a slice table that can be read. -/
theorem witness_state_registers : let k := sK.cores[site.core]; let t := sT.cores[site.core]
    k.readSr site.core 0x000 = some 1 ∧ t.readSr site.core 0x106 = some 0 ∧ srReadableAtT 0x106 = true ∧
      (k.writeSr 0x041 (k.geth 8)).isSome = true ∧ (k.geth 8).toNat % 256 < 65 ∧ (t.writeSr 0x010 (t.geth 8)).isSome = true ∧
      (k.writeSr 0x043 (k.geth 8)).isSome = true ∧
      ((fetched sK).readSlices 33 (k.geth 4 &&& 0xFFFFFFFFF0).toNat).isSome = true := by decide +kernel
/-- O9: each trap. -/
theorem witness_traps : let k := sK.cores[site.core]; let t := sT.cores[site.core]
    opEval 0x00F (k.geth 1) (k.geth 2) 2 = .illegal ∧ opEval 0x014 (k.geth 1) (k.geth 0) 0 = .divideByZero ∧
      opEval 0x040 (k.geth 1) (k.geth 2) 2 = .overflow ∧ k.readSr site.core 0x3FF = none ∧
      t.readSr site.core 0x000 = some 2 ∧ srReadableAtT 0x000 = false ∧ (k.writeSr 0x007 (k.geth 8)) = none ∧
      65 ≤ (k.geth 9).toNat % 256 := by decide +kernel
/-- O10: a line pending at K with IE, at T, and not taken at K without IE. -/
theorem witness_interrupt : let l (k : Core) : Core := { k with lines := 0x800 }
    let k := (kState fun k => l { k with status := 3 }).cores[site.core]; let t := (tState l).cores[site.core]
    (k.run = .running ∧ k.lines.getLsbD 11 = true ∧ k.ie = true) ∧ (t.run = .running ∧ t.lines.getLsbD 11 = true ∧ t.atK = false) ∧
      (kState l).cores[site.core].atK = true ∧ (kState l).cores[site.core].ie = false := by decide +kernel

/-- What a data access at h[ra] finds, after the fetch. -/
def dataAt (s : State) (kind : AccessKind) (ra : BitVec 5) (n : Nat) (lwsw : Bool) : State × Found :=
  (fetched s).dataAddr 0 kind (s.cores[site.core].effAddr ra 0) n lwsw

/-- O11 to O13: an address that memory takes, and a register. -/
theorem witness_access : (∃ w v, dataAt sK .load 4 8 false = (w, .at 0x1040000000) ∧ regionOf 0x1040000000 ≠ .regs ∧
      w.memCheck 0 0x1040000000 site.dataL1 site.dataEcc = (v, false)) ∧
    (∃ w v, dataAt sT .store 4 1 false = (w, .at 0x1040000000) ∧
      w.memCheck 0 0x1040000000 site.dataL1 site.dataEcc = (v, false)) ∧
    (∃ w v, dataAt sK .atomic 4 4 false = (w, .at 0x1040000000) ∧ w.memCheck 0 0x1040000000 site.dataL1 site.dataEcc = (v, false)) ∧
    (∃ w q, dataAt sK .load 5 4 true = (w, .at 0x40000000) ∧ regionOf 0x40000000 = .regs ∧ w.busRead 0 = some q) ∧
    ∃ w w', dataAt sK .store 5 4 true = (w, .at 0x40000000) ∧ w.busWrite (.core 0) 0 0 false = some w' :=
  ⟨⟨_, _, pair_of (by decide +kernel), by decide, pair_of (by decide +kernel)⟩,
    ⟨_, _, pair_of (by decide +kernel), pair_of (by decide +kernel)⟩, ⟨_, _, pair_of (by decide +kernel), pair_of (by decide +kernel)⟩,
    ⟨_, _, pair_of (by decide +kernel), by decide, (Option.some_get (by decide +kernel)).symm⟩,
    ⟨_, _, pair_of (by decide +kernel), (Option.some_get (by decide +kernel)).symm⟩⟩

/-- O14: an address outside every region, a misaligned one, a page that does not allow a store, and a machine check. -/
theorem witness_refused : (dataAt sK .load 6 8 false).2 = .trap 0x07 ∧ (dataAt sK .store 7 8 false).2 = .trap 0x09 ∧
    (dataAt sT .store 0 8 false).2 = .trap 0x06 ∧ (dataAt sK .atomic 6 4 false).2 = .trap 0x08 ∧ (dataAt sK .load 4 8 false).2 = .at 0x1040000000 ∧
    ((dataAt sK .load 4 8 false).1.memCheck 0 0x1040000000 .ok .uncorrectable).2 = true ∧
    (dataAt sK .store 4 4 false).2 = .at 0x1040000000 := by decide +kernel

/-- O15: a core that does not run, a fetch that is refused, and one that delivers a word of a major that no instruction has. -/
theorem witness_fetch : decodeHelin { core := 0, word := some 0 } 0 = none ∧ (sK.fetch { core := 0, word := some 0 }).2 = .ok ∧
    State.reset.cores[site.core].run ≠ .running ∧
    ((kState fun k => { k with pc := 2 }).fetch site).2 = .trap 0x04 ∧ ((tState fun k => { k with pc := 0 }).fetch site).2 = .trap 0x02 := by
  decide +kernel

/-- O16: results in either file, a raised flag with its enable, a reserved function, and dynamic rounding in reserved modes. -/
theorem witness_floating : let k := (kState fun k => { k with fcsr := 0x17E0 }).cores[site.core]
    let e (func : BitVec 12) (rb : BitVec 5) := fpEval func rb (k.getf 1) (k.getf 2) (k.getf 3) (k.geth 1) (bitsAt k.fcsr.toNat 10 3)
    e 0x000 2 = .toF 0 0 ∧ k.fpTraps 0 = false ∧ e 0x380 0 = .toH 0 0 ∧ e 0x0C0 2 = .toF 0x7FC00000 flagNV ∧ k.fpTraps flagNV = true ∧
      e 0x280 2 = .toH 1 0 ∧ e 0xFFF 2 = .illegal ∧ fpTakesRm (bitsAt 0x01C 6 6) = true ∧ bitsAt 0x01C 2 3 = 7 ∧
      bitsAt k.fcsr.toNat 10 3 = 5 ∧ bitsAt 0x1FFF 10 3 = 7 ∧ e 0x01C 2 = .illegal := by decide +kernel

/-- Core A0 in an open cycle, with a slice of each kind in each area. -/
def openCore (k : Core) : Core :=
  { k with ckstate := 1,
           slices := some [{ start := 100, count := 64, analog := false, output := false, area := 0 },
                           { start := 300, count := 16, analog := true, output := false, area := 0x1000 },
                           { start := 69888, count := 256, analog := false, output := true, area := 0x2000 },
                           { start := 320, count := 16, analog := true, output := true, area := 0x3000 }] }

/-- h1 index 100, h2 index 335 of a word, h3 index 70,143, h10 and h11 ranges of the inputs, h12 one with a tag, h13 and h14
destinations of copies. -/
def sOpen : State := kState fun k => openCore <|
  [(1, 100), (2, 335), (3, 70143), (4, 1040), (10, 0x4000000064), (11, 0x100000012C), (12, 0x54000011100), (13, 69888),
    (14, 320)].foldl (fun (k : Core) (e : BitVec 5 × DWord) => k.seth e.1 e.2) k

theorem witness_fetch_open : Fetches sOpen site (fetched sOpen) ∧ sOpen.cores[site.core].isOpen = true ∧
    sOpen.cores[site.core].td = false := ⟨fetches_of (by decide +kernel), by decide +kernel⟩

def picks (analog : Bool) (i n : Nat) (store : Bool) : Option Nat :=
  match sOpen.cores[site.core].pick 0 analog i n store with
  | .at pa => some pa
  | .trap _ _ => none

/-- O17 and O18: the first and the last point of a slice of each kind, by index and by register. -/
theorem witness_points : picks false 100 1 false = some 0x10180000 ∧ picks false 163 1 false = some 0x1018003F ∧
    picks true 300 1 false = some 0x10181000 ∧ picks false 70143 1 true = some 0x101820FF ∧
    picks true 335 1 true = some 0x10183078 ∧ 0x10183078 % 8 = 0 ∧
    ((fetched sOpen).cellCheck site 0x10180000 1).2 = false ∧ ((fetched sOpen).cellCheck site 0x10181000 8).2 = false ∧
    ((fetched sOpen).cellCheck site 0x101820FF 1).2 = false ∧
    indexOf false (sOpen.cores[site.core].geth 1) = some 100 ∧ indexOf true (sOpen.cores[site.core].geth 2) = some 335 ∧
    indexOf false (sOpen.cores[site.core].geth 3) = some 70143 := by decide +kernel
/-- O19: ranges of 64 points, of 16 words, with a tag, and the destinations of copies. -/
theorem witness_ranges : let k := sOpen.cores[site.core]
    descOf false false (k.geth 10) = some (100, 64, 0) ∧ descOf true false (k.geth 11) = some (300, 16, 0) ∧
    descOf false true (k.geth 12) = some (69888, 64, 5) ∧
    picks false 100 64 false = some 0x10180000 ∧ picks true 300 16 false = some 0x10181000 ∧ picks false 69888 64 true = some 0x10182000 ∧
    ((fetched sOpen).cellCheck site 0x10180000 64).2 = false ∧ ((fetched sOpen).cellCheck site 0x10181000 128).2 = false ∧
    ((fetched sOpen).cellCheck site 0x10182000 64).2 = false ∧ (fetched sOpen).rangeUe 0x10182000 64 = false ∧
    indexOf false (k.geth 13) = some 69888 ∧ indexOf true (k.geth 14) = some 320 ∧
    k.pickSlice 0 true 320 16 true true = .at 0x10183000 := by decide +kernel
/-- O20: a record of 16 bytes and a state word, in a first cycle and in a later one, suppressed and not. -/
theorem witness_records : ((fetched sK).recordAddr 0 0x1040000000 16).2 = .at 0x1040000000 ∧
    (((fetched sK).recordAddr 0 0x1040000000 16).1.memCheck 0 0x1040000000 .ok .clean).2 = false ∧
    ((fetched sK).recordAddr 0 0x1040000000 4).2 = .at 0x1040000000 ∧
    (((fetched sK).recordAddr 0 0x1040000000 4).1.memCheck 0 0x1040000000 .ok .clean).2 = false ∧
    (fetched sK).rangeUe 0x1040000000 16 = false := by decide +kernel
/-- O21: no cycle is open. -/
theorem witness_closed : sK.cores[site.core].isOpen = false := by decide +kernel

/-! ### Effects of Helin instructions -/

/-- The state after a command. -/
def after (c : Instr) (s : State) : State :=
  match exec c s with
  | .next t => t
  | _ => s

/-- R76: LB sign-extends a byte that SB stored (h1 = 0x80...00, low byte of h3 shifted is 0x80). -/
theorem test_load_store : let s := kState fun k => (regsOf k).seth 10 0x1F0
    (after (.load site .byte 11 4 0) (after (.store site .byte 10 4 0) s)).cores[site.core].geth 11 = 0xFFFFFFFFFFFFFFF0 := by
  decide +kernel
/-- R79: AMOADD.W gives the old word, sign-extended, and stores the sum. -/
theorem test_atomic : let s := after (.store site .word 3 4 0) sK
    let t := after (.atom site 0x003 10 4 2) s
    t.cores[site.core].geth 10 = 0xFFFFFFFF80000000 ∧ t.readLe 0x1040000000 4 = 0x7FFFFFFF := by decide +kernel
/-- R75: JAL links and jumps; a branch that is not taken goes on. -/
theorem test_jump : let t := after (.jal site 0x7FFFFFF) sK
    t.cores[site.core].pc = 0xFFFFFFFFC ∧ t.cores[site.core].geth 1 = 0x1000000004 ∧
    (after (.branch site .lt 2 0 0x1FFFC) sK).cores[site.core].pc = 0xFFFFFFFF0 ∧
    (after (.branch site .ge 2 0 0x1FFFC) sK).cores[site.core].pc = 0x1000000004 := by decide +kernel
/-- R70: BRK enters the vector at K with the cause of a breakpoint. -/
theorem test_break : let t := (after (.brk site 0 0) (tState fun k => { k with tvec := 0x80000000 })).cores[site.core]
    t.pc = 0x80000000 ∧ t.tcause = 0x0D ∧ t.tpc = 0x1000000000 ∧ t.tstatus = 2 ∧ t.status = 5 := by decide +kernel
/-- R105 and R93: PST and PLD of one point. -/
theorem test_point_round : let t := after (.pst site 10 4 70143) sOpen
    t.readByte 0x101820FF = (BitVec.ofNat 8 (cellOfPoint false { value := 0, tag := 0 })) ∧
    (after (.ald site 5 6 300) sOpen).cores[site.core].geth 6 = 0 := by decide +kernel
/-- R106: an element of the signature of a store. -/
theorem test_element : sigElement 70000 4 1 = [0x70, 0x11, 1, 0, 0, 0, 0, 0, 4, 1, 0, 0, 0, 0, 0, 0, 0] := by decide
/-- R107: CKPT closes the cycle and enters K with cause 0x14. -/
theorem test_checkpoint : let t := after (.ckpt site 9 0) sOpen
    t.cores[site.core].isOpen = false ∧ t.cores[site.core].tcause = 0x14 ∧ t.anvils.flight.length = 1 := by decide +kernel

/-! ### Witnesses and effects: frame, tasks, Anvils and lanes -/

/-- The tick generator runs. -/
def sRun : State := after .frmStart State.reset

/-- O22: the generator stands after reset, and runs once started; PERIOD 1,000 µs gives the first tick 100 µs later or more. -/
theorem witness_run : State.reset.fld FRM_CTRL FRM_CTRL_RUN = 0 ∧ sRun.fld FRM_CTRL FRM_CTRL_RUN = 1 ∧ sRun.tFrame = 1000 ∧
    sRun.frame.nextTick = 1 := by decide +kernel

/-- O23, with 07_lanes_anvil.md: the failed strike test of frame 4,001 has p = 161 and o = 2. -/
theorem test_strike : let t := (State.reset.strikeTest 4001 true false).1
    sRun.frame.inClose = false ∧ t.fld ANX_STRIKE ANX_STRIKE_POS = 161 ∧ t.fld ANX_STRIKE ANX_STRIKE_LANE = 2 ∧
      t.fld ANY_STATUS ANX_STATUS_STRIKEFAIL = 1 := by decide +kernel

/-- A cycle on the voted placement of triad T0. -/
def aCycle : Cycle :=
  { locked := { ftime := 0, felapsed := 0, firstcycle := 0, frelease := 0, fperiod := 0, pepoch := 0, tstate := 0 }, frame := 1,
    place := 0, policy := polSubstitute, deadline := 450, prio := 0, safe := false, openOn := [], entered := [], copied := false,
    published := false, late := false, carried := false, hold := [], head := false }

/-- A program with task 63, whose cycle this is. -/
def withCycle (cy : Cycle) : State :=
  { sRun with program := { aProgram with tasks := [(63, aTask)] } }.modTask 63 fun k => { k with cycle := some cy }

/-- O24: a copy that waits, and the four deadlines. -/
theorem witness_copies : (withCycle aCycle).copyQueue = [63] ∧ State.reset.copyQueue = [] ∧
    ((withCycle aCycle).taskProg 63).isSome = true ∧
    ((after (.snapshotCopyComplete 12000) (withCycle aCycle)).task 63).cycle.map (·.copied) = some true ∧
    (after (.snapshotCopyComplete 12000) (withCycle aCycle)).fld FRM_SNAPEND FRM_SNAPEND_SNAPEND = 12000 := by decide +kernel
theorem test_deadlines : let d (cy : Cycle) := ((after (.deadline 63) (withCycle cy)).task 63).cycle
    (d { aCycle with published := true }).map (·.late) = some true ∧ (d { aCycle with policy := polHoldOne }).map (·.carried) = some true ∧
      d aCycle = none ∧ d { aCycle with carried := true } = none ∧ sRun.frameCount ≠ 1 ∧
      (after (.deadline 63) (withCycle aCycle)).fld FRM_OVRCNT CNT_COUNT = 1 := by decide +kernel

/-- A record of a lane for task 63. -/
def aRecord (lane : Nat) : Record :=
  { task := 63, fault := false, lane := lane, epoch := 0, release := 1, sig := 0, cause := 0, tval := 0, image := [1],
    crc := 0, okX := true, okY := true, onTime := true, call := none }

/-- The vote that lanes A and B have decided. -/
def aVote : Vote :=
  { release := 1, place := 0, records := [aRecord 0, aRecord 1], decided := [0, 1], published := true, judged := false, frame := 0,
    carried := false }

/-- Lanes A and B have decided the vote of task 63; core C0 has this record under way. -/
def decided (r : Record) : State :=
  let s := sRun.modTask 63 fun k =>
    { k with vote := some aVote,
             relRing := k.relRing.set 1 1 }
  { s with anvils := { s.anvils with flight := [(8, r)] } }

/-- O25: a vote that waits for lane C alone, and records that differ or are stale. -/
theorem witness_decided : let s := decided { aRecord 2 with image := [2] }
    (s.task 63).vote = some aVote ∧ (∀ y, ((aRecord 0).seen y).same ((aRecord 1).seen y) = true) ∧ s.voters 0 = [0, 1, 2] ∧
      (∀ m < 64, (m ≠ 63 → (s.task m).vote = none) ∧ (s.task m).oldVote = none) ∧
      (∀ k < 3, s.laneState k = lsAvailable) ∧ s.anvils.named = none ∧ s.fld ANX_STATUS ANX_STATUS_CMPFAULT = 0 ∧
      (s.task 63).cycle.elim (s.task 63).place (·.place) = 0 ∧ placeVoted 0 = true ∧ (s.task 63).lastRelease = 1 ∧
      (s.task 63).closedRelease = 0 ∧ s.openEpoch 63 = 0 ∧ s.frame.inClose = false ∧ (aRecord 0).bytes ≠ Record.bytes { aRecord 2 with image := [2] } ∧
      (aRecord 2).crc ≠ (aRecord 2).checksum := by
  decide +kernel
theorem test_stale : let t := after (.taskFaultReport 8 true true) (decided { aRecord 2 with fault := true, epoch := 9 })
    t.fld ANX_STALE_CNT CNT_COUNT = 1 ∧ t.fld ANY_STATUS ANX_STATUS_STALE = 1 ∧ t.laneState 2 = lsAvailable := by decide +kernel

/-- Lane C in a state. -/
def laneC (v : Nat) : State := sRun.putFld (LANE_LSTATE 2) LANE_LSTATE_STATE v

/-- O26: every state of a lane, and copies that can start and end. -/
theorem witness_lane_states : (laneC lsFenced).laneState 2 = lsFenced ∧ (laneC lsQuench).laneState 2 = lsQuench ∧
    (after (.quenchTestStart 2) (laneC lsFenced)).laneState 2 = lsQuench ∧
    (after (.quenchTestEnd 2 false) (laneC lsQuench)).laneState 2 = lsOut ∧
    (after (.quenchTestEnd 2 true) (laneC lsQuench)).laneState 2 = lsRejoin ∧
    (after (.quenchTestEnd 2 true) ((laneC lsQuench).modLane 2 fun k => { k with commanded := true })).laneState 2 = lsAvailable ∧
    (after (.quenchTestEnd 2 true) ((laneC lsQuench).modLane 2 fun k => { k with passes := [0, 0, 0] })).laneState 2 = lsOut := by
  decide +kernel
theorem witness_state_copies :
    let s := (laneC lsRejoin).modLane 2 fun k => { k with toCopy := [0, 3] }
    let t := after (.rejoinCopyStart (.rejoin 2)) s
    let p := ((sRun.modTask 63 fun k => { k with placeCopy := 1 }).modTriad 3 fun k => { k with joining := some 2 })
    s.copyRuns = false ∧ s.laneState 2 = lsRejoin ∧ s.nextCopy 2 = some 0 ∧ s.triadCarries 0 = false ∧ s.voters 0 ≠ [] ∧ (t.lane 2).copying = some 0 ∧
      t.copyRuns = true ∧ (t.copyTasks (t.voters 0) [2] (t.votedOn 0)).2 = true ∧
      ((after (.rejoinCopyEnd (.rejoin 2)) t).lane 2).copiedNow = [0] ∧
      (p.triad 3).joining = some 2 ∧ (p.triad 3).joinCopied = false ∧ p.taskCarries 63 = false ∧ p.copyRuns = false ∧ p.triadCarries 3 = false ∧
      (after (.rejoinCopyStart (.join 3)) p).fld (LANE_TRIAD 3) LANE_TRIAD_STATE = 2 ∧ (p.task 63).placeCopy = 1 ∧
      ((after (.rejoinCopyEnd (.place 63)) (after (.rejoinCopyStart (.place 63)) p)).task 63).placeCopy = 3 := by decide +kernel

/-- O27: requests that are taken and refused. -/
theorem witness_requests :
    let mayRestart := (sRun.putFld SYS_MODE SYS_MODE_EFF effRun).putFld (FRM_TSTAT 63) FRM_TSTAT_STOPPED 1
    mayRestart.restartPermitted 63 = true ∧ sRun.restartPermitted 63 = false ∧
    (after (.taskRestart 63) mayRestart).fld (FRM_TSTAT 63) FRM_TSTAT_RESTART = 1 ∧
    sRun.fld (FRM_TSTAT 63) FRM_TSTAT_STOPPED = 0 ∧ sRun.modeRefusal 3 modeFree 0 = 0 ∧ sRun.modeRefusal 3 3 0 = 3 ∧
    (after (.modeRequest 3 2 0) sRun).fld (LANE_TRIAD 3) LANE_TRIAD_STATE = 1 ∧
    (after (.modeRequest 3 3 0) sRun).fld (LANE_MODE 3) LANE_MODE_REFUSED = 3 ∧
    (after (.epochReset 63) sRun).frame.epochResets = [63] := by decide +kernel
theorem witness_commanded_quench :
    let free := [0, 1, 2, 3].foldl (fun (s : State) m => s.putFld (LANE_TRIAD m) LANE_TRIAD_MODE modeFree) sRun
    (∀ m < 4, free.triadMode m = modeFree) ∧ free.laneState 2 = lsAvailable ∧ free.otherRejoins 2 = false ∧
      (∀ n < 64, (free.task n).vote = none ∧ (free.task n).oldVote = none) ∧
      (after (.commandedQuench 2) sRun).fld (LANE_LSTATE 2) LANE_LSTATE_CAUSE = 6 := by decide +kernel

/-! ### Witnesses and effects: DMA and memory upkeep -/

/-- Context 3 maps the first two gigabytes of DRAM; a descriptor at 0x10_0000_1000 moves 1,024 elements of 8 bytes. -/
def sDma : State :=
  let s := (State.reset.putFld (MMU_CTX_BASE 3) MMU_CTX_BASE_EN 1).putFld (MMU_CTX_BASE 3) MMU_CTX_BASE_PPN 0x1000004
  let s := (s.putFld (DMA_CH_DESC 3) DMA_CH_DESC_ADDR 0x80).putFld (DMA_CH_DESCH 3) DMA_CH_DESCH_ADDRH 0x10
  ((((((s.writeLe 0x1000004200 8 0x100000000F).writeLe 0x1000004208 8 0x104000000F).writeLe 0x1000001000 8 0x1000002000).writeLe 0x1000001008 8 0x1040000000).writeLe
    0x1000001010 4 1024).writeLe 0x1000001014 4 3).writeLe 0x1000002000 8 0x1122334455667788

/-- O28: a start, an element, a stop and an end. -/
theorem witness_dma_start : sDma.fld (DMA_CH_CMD 3) DMA_CH_CMD_START = 0 ∧
    (let r := ((sDma.flag (DMA_CH_CMD 3) DMA_CH_CMD_START).putFld (DMA_CH_STATE 3) DMA_CH_STATE_STATE 1).ctxTranslate 3 0x1000001000
     r.2 = .page 0x1000001000 0x100000000F ∧ ctxPermits .load 0x1000001000 0x100000000F = true ∧ regionOf 0x1000001000 ≠ .regs ∧
      r.1.rangeUe 0x1000001000 32 = false ∧ (r.1.descAt 0x1000001000 0x1000001000).malformed = false ∧
      ((r.1.writeLe 0x1000001014 4 5).descAt 0x1000001000 0x1000001000).malformed = true) := by decide +kernel
def aDesc : Desc := { addr := 0x1000001000, src := 0x1000002000, dst := 0x1040000000, count := 1024, ctl := 3, next := 0 }
def sMoves (d : Desc) : State := (sDma.setDesc 3 (some d)).flag (DMA_CH_CMD 3) DMA_CH_CMD_START
theorem witness_dma_element :
    let s := sMoves aDesc
    let u := s.dmaSide 3 0x1000002000 8 .load 3 5
    let w := u.1.dmaSide 3 0x1040000000 8 .store 4 6
    s.desc 3 = some aDesc ∧ aDesc.size = some 8 ∧ u.2 = .inl 0x1000002000 ∧ w.2 = .inl 0x1040000000 ∧
      regionOf 0x1000002000 ≠ .regs ∧ regionOf 0x1040000000 ≠ .regs ∧ (w.1.dmaCheck 0x1000002000 8 .clean).2 = false ∧
      0x1040000000 % 8 = 0 ∧ ((after (.dmaElement 3 { ecc := .clean }) s).desc 3).map (·.count) = some 1023 ∧
      (sMoves { aDesc with src := 0x2000000000 }).dmaSide 3 0x2000000000 8 .load 3 5 =
        ((sMoves { aDesc with src := 0x2000000000 }), .inr 3) ∧
      State.reset.desc 3 = none ∧ (sMoves { aDesc with count := 0 }).desc 3 = some { aDesc with count := 0 } ∧
      aDesc.ctl.testBit 5 = false := by decide +kernel

/-- O29: an address of each region. -/
theorem witness_regions : [0x10000000, 0x103FFFFF, 0x20000000, 0x203FFFFF, 0x80000000, 0x8FFFFFFF, 0x1000000000, 0x11FFFFFFFF, 0].map regionOf =
    [.image, .image, .mram, .mram, .flash, .flash, .dram, .dram, .bootRom] := by decide
theorem test_scrub : (after (.scrubStep 0x20000000 .corrected) State.reset).fld MMU_MRAM_CE CNT_COUNT = 1 := by decide +kernel
def badPage : State := State.reset.modTask 63 fun k => { k with badPages := [0x1000000] }
theorem witness_pages : (∀ n < 64, 0x1000000 ∉ (State.reset.task n).badPages) ∧ 0x1000000 ∈ (badPage.task 63).badPages ∧
    (List.replicate 4096 (0 : Byte)).length = 4096 := by decide +kernel

/-! ### Witnesses and effects: modes, restarts, change, commands -/

/-- O30: each code of the key; MODECFG with the key at PROG and elsewhere; what can wait; a change that waits for its tick. -/
theorem test_key : let k (c : BitVec 2) := after (.keyPositionStable c) State.reset
    (k 3).keyPos = keyProg ∧ (k 0).keyPos ≠ keyProg ∧ (k 2).fld SYS_KEY SYS_KEY_INVALID = 1 ∧
      (after (.modecfgWrite (.core 11) 0xFFFFFFFF) (k 3)).reg SYS_MODECFG = 0x1B ∧
      (after (.modecfgWrite (.core 11) 0xFFFFFFFF) (k 0)).reg SYS_MODECFG = 0 := by decide +kernel
def waits (w : Waiting) : State :=
  let s := State.reset.setChg chgArmed
  { s with modes := { s.modes with waiting := [(15, 5, w)], restart := none }, update := { s.update with waiting := some .apply } }
theorem witness_waits : (waits .switch).waitingOf 15 = some (5, .switch) ∧ (waits .switch).chg = chgArmed ∧
    (after (.confirmTimeout 15) (waits .switch)).chg = chgLoaded ∧ (waits .switch).waitingOf 0 = none ∧
    (waits .switch).update.waiting = some .apply ∧ (after (.confirmTimeout 16) (waits .switch)).update.waiting = none := by decide +kernel
def changing (st deferrals : Nat) (p : Package) : State :=
  let s := sRun.setChg st
  { s with change := { s.change with package := some p, deferrals := deferrals } }
theorem witness_change : let p : Package := { aPackage with program := { aProgram with tasks := [(63, aTask)] } }
    let s := changing chgPending 999 p
    s.chg = chgPending ∧ s.changeTarget = some (p.program, p.forward) ∧ s.switchReady (affectedTasks s.program p.program) = true ∧
      (after (.changeSwitchCheck true) s).change.copied = true ∧
      (let b := s.modTask 63 fun k => { k with cycle := some { aCycle with carried := true } }
       b.switchReady (affectedTasks b.program p.program) = false ∧ (after (.changeSwitchCheck true) b).chg = chgLoaded) := by decide +kernel
theorem witness_restart : let s := { State.reset with modes := { State.reset.modes with restartBegun := true } }
    let s := s.putFld BLW_STAGE BLW_STAGE_STAGE 9
    s.modes.restart = some .warm ∧ s.standby = false ∧ s.modes.restartDone = false ∧ 9 ≤ s.fld BLW_STAGE BLW_STAGE_STAGE := by
  decide +kernel

/-- A session key, and a request with its MAC under that key. -/
def aKey : List Byte := (List.range 32).map (BitVec.ofNat 8)
def signed (op : Nat) (r : LapRequest) : LapRequest :=
  { r with mac := lapMac aKey (lapHeader r.ver.toNat op r.flags.toNat r.sid.toNat r.dcnt.toNat r.reqid.toNat r.seq.toNat r.rcpt.toNat
      r.fcnt.toNat r.status.toNat r.plen.toNat ++ r.payload) }

/-- Channel 2 has an open session on port M0 and may command; mode PROG, key at PROG, no restart. -/
def sLap : State :=
  let s := ((State.reset.flag BRG_CTRL BRG_CTRL_EN).flag BRG_CTRL BRG_CTRL_M0EN).putFld (BRG_CH_STATE 2) BRG_CH_STATE_SSTATE 2
  let s := ((s.setBit BRG_CMDEN 2).putFld SYS_MODE SYS_MODE_EFF effProg).putFld SYS_KEY SYS_KEY_POS keyProg
  { s.modLap 2 fun c => { c with sid := 5, key := aKey } with modes := { s.modes with restart := none } }

theorem witness_admitted (op : Nat) (pl : List Byte) (hl : pl.length ≤ 1424) : Admitted sLap 2 op (signed op (request pl)) :=
  have h : sLap.portOn 4 = true ∧ sLap.lapPort 4 = true ∧ sLap.isSet BRG_CTRL BRG_CTRL_EN = true ∧ sLap.openChannel 5 = some 2 ∧
      (sLap.lap 2).rxCount < 1 := by decide +kernel
  have k : (sLap.lap 2).key = aKey := by decide +kernel
  { port := h.1, accepted := h.2.1, enabled := h.2.2.1, session := h.2.2.2.1, length := hl, fresh := h.2.2.2.2
    mac := by rw [k]; exact beq_self_eq_true (signed op (request pl)).mac
    header := by
      have : pl.length % 65536 = pl.length := Nat.mod_eq_of_lt (by omega)
      simp [lapHeaderOk, signed, request, this] }

def command (code : Byte) (args : List Byte) : LapRequest :=
  signed 0x40 (request ([code, 0, BitVec.ofNat 8 args.length, 0] ++ args))

/-- O31 to O33: a command that the module decides. -/
theorem witness_decides (code : Byte) (args : List Byte) (h : args.length < 256) : Decides sLap 2 (command code args) where
  admitted := witness_admitted _ _ (by simp; omega)
  active := by decide +kernel
  form := ⟨rfl, by simp [command, signed, request],
    by simp [command, signed, request, field, ofLe, Nat.mod_eq_of_lt h], by simp [command, signed, request]; omega⟩
  fresh := (by decide +kernel : ((sLap.lap 2).answered.find? fun a => a.1 == 9) = none)
  permitted := by decide +kernel

/-- O31: a repetition, and a channel without the right to command. -/
theorem witness_repeats : let s := sLap.modLap 2 fun c => { c with answered := [(9, [0x30, 0, 0, 0])] }
    ((s.lap 2).answered.find? fun a => a.1 == (command 0x30 []).reqid.toNat) = some (9, [0x30, 0, 0, 0]) ∧
      (sLap.clrBit BRG_CMDEN 2).isSet BRG_CMDEN ⟨2, 1⟩ = false ∧ ¬ CommandForm (signed 0x40 (request [])) ∧
      ((after (.commandState (command 0x30 [])) sLap).lap 2).answered.length = 1 := by
  refine ⟨by decide +kernel, by decide +kernel, fun h => absurd h.2.1 (by decide), by decide +kernel⟩

/-- O32: the conditions under which a command is allowed. -/
theorem witness_commands : sLap.modes.restart = none ∧ sLap.eff = effProg ∧ sLap.keyPos = keyProg ∧ sLap.fld SYS_MODE SYS_MODE_HOLD ≠ 1 ∧
    (sLap.putFld SYS_MODE SYS_MODE_HOLD 1).fld SYS_MODE SYS_MODE_HOLD = 1 ∧ (sLap.putFld SYS_MODE SYS_MODE_EFF effStop).eff = effStop ∧
    (sLap.putFld SYS_MODE SYS_MODE_EFF effRun).eff = effRun ∧
    (parseForces [99, 0, 4, 0, 1, 0, 0, 0]).map (fun fs => fs.map (·.index)) = some [99] ∧
    (∀ f ∈ (parseForces [99, 0, 4, 0, 1, 0, 0, 0]).getD [], sLap.safePoint f.analog f.index = false ∧ f.index < kindPoints f.analog) ∧
    parsePoints [99, 0, 4, 0] = some [(false, true, 99)] ∧
    (after (.commandForceset (command 5 [99, 0, 4, 0, 1, 0, 0, 0])) sLap).modes.forces.length = 1 := by decide +kernel
theorem test_mode : (after (.commandMode (command 1 [0])) sLap).fld SYS_MODE SYS_MODE_REMOTE = 0 ∧
    (after (.commandMode (command 1 [3])) sLap).fld SYS_MODE SYS_MODE_REMOTE = 2 := by decide +kernel
theorem test_purge : (after (.commandPurge (command 4 [])) sLap).modes.restart = none ∧
    ((after (.commandPurge (command 4 [])) sLap).waitingOf 2).isSome = true ∧
    (after (.commandColdrst (command 3 [])) sLap).modes.restart = some .cold := by decide +kernel
/-- O33: an image of 0x4000000 bytes; each state of a change. -/
theorem witness_changes : sLap.chg = chgNone ∧ (sLap.setChg chgLoaded).chg = chgLoaded ∧ (sLap.setChg chgSwitched).chg = chgSwitched ∧
    field [0, 0, 0, 4] 0 4 = 0x4000000 ∧
    ({ sLap with change := { sLap.change with package := some { aPackage with safe := true } } } : State).changeSafe = true ∧
    sLap.changeSafe = false := by decide +kernel
/-- A package with the output slices `xs` and `ys` in tasks 0 and 1. -/
def twoTasks (xs ys : List Slice) : Package :=
  { aPackage with program := { aProgram with tasks := [(0, { aTask with slices := xs }), (1, { aTask with slices := ys })] } }
theorem witness_loads : (sLap.received 2 (command 0x10 [0, 0, 0, 4])).loadFails aPackage = none ∧
    (let x : Slice := { aSlice with output := true, start := 0, count := 4, area := 0 }
     let y : Slice := { x with area := 4096 }
     sLap.loadFails (twoTasks [x] [{ y with start := 4 }]) = none ∧ sLap.loadFails (twoTasks [x] [{ y with start := 3 }]) = some 1 ∧
       sLap.loadFails (twoTasks [x] [{ y with start := 4, area := 0 }]) = some 2) := by decide +kernel
/-- An enabled SAFE task on triad 0: with SUBSTITUTE, with no deadline, with HOLD_ONE (R152, R155). -/
def oneTask (cfg deadline : Word) : Package :=
  { aPackage with program := { aProgram with tasks := [(0, { aTask with group := (0, cfg, deadline) })] } }
theorem test_loads : sLap.loadFails (oneTask 0x0B000000 100) = none ∧ sLap.loadFails (oneTask 0x0B000000 0) = some 3 ∧
    sLap.loadFails (oneTask 0x09000000 100) = some 4 ∧
    (after (.commandChgload (command 0x10 [0, 0, 0, 4]) (oneTask 0x09000000 100) 0) sLap).change.package = none := by decide +kernel
theorem test_change : (after (.commandChgload (command 0x10 [0, 0, 0, 4]) aPackage 0) sLap).chg = chgLoaded ∧
    (after (.commandChgload (command 0x10 [0, 0, 0, 4]) aPackage 1) sLap).chg = chgNone ∧
    (after (.commandChgswitch (command 0x11 [])) (sLap.setChg chgLoaded)).chg = chgPending := by decide +kernel
/-- The bridge's context maps the image memory to itself, for reads and writes. -/
def mapped (s : State) : State :=
  ((s.flag (MMU_CTX_BASE bridgeCtx) MMU_CTX_BASE_EN).putFld (MMU_CTX_BASE bridgeCtx) MMU_CTX_BASE_PPN 0x1000004).writeLe 0x1000004000 8 0x8F
theorem witness_package : (mapped sLap).isSet (MMU_CTX_BASE bridgeCtx) MMU_CTX_BASE_EN = true ∧ let r := request ([0, 4, 0, 0, 0, 0, 0, 0] ++ List.replicate 1024 7)
    r.seq = 0 ∧ 9 ≤ r.payload.length ∧ (r.payload.drop 8).length ≤ 1024 ∧ field r.payload 4 4 = 0 ∧ field r.payload 0 4 % 1024 = 0 ∧
      1024 + 1024 ≤ stagingSize := by decide +kernel
theorem test_package : sparseGet (fun _ => 0) (after (.pkgdata (signed 0x41 (request [0, 4, 0, 0, 0, 0, 0, 0, 7]))) (mapped sLap)).change.staging 1024 = 7 := by
  decide +kernel

/-! ### Witnesses and effects: rings -/

/-- Ring 5 in RUN; station 1 is in the consist, at position 50 × 8 ns, with the IN slot 1 and one block of 8 points. -/
def sRing : State :=
  let s := (sRun.putFld (SOP_STATE 5) SOP_STATE_RSTATE ringRun).flag (SOP_CTRL 5) SOP_CTRL_EN
  let s := ((s.flag (SOP_CON_W0 5 1) SOP_CON_W0_EN).putFld (SOP_CON_W0 5 1) SOP_CON_W0_TYPE 7).putFld (SOP_CON_W3 5 1) SOP_CON_W3_SETUPMAX 100
  let s := ((s.putFld (SOP_CON_W3 5 1) SOP_CON_W3_WDMAX 9).flag (SOP_PNOM 5 1) SOP_PNOM_VALID).putFld (SOP_PNOM 5 1) SOP_PNOM_PNOM 50
  let s := (s.flag (SOP_LOOP 5) SOP_LOOP_VALID).putFld (SOP_LOOP 5) SOP_LOOP_C 1000
  s.modRing 5 fun k => { k with nslot := 4, slots :=
    [{ index := 1, typ := slIn, owner := 1, dst := 0, start := 2000, len := 100, ok := true, gotE := false, gotW := false, payload := none,
       respE := none, respW := none,
       blocks := [{ index := 0, ok := true, station := 1, output := false, analog := false, start := 8, count := 8, payoff := 0,
                    policy := 0 }] }] }

/-- O34: a ring that is off, one that listens, and rounds of a cold start. -/
theorem test_ring_starts : let on := after (.ringEnable 5) (State.reset.putFld BLW_STAGE ⟨13, 1⟩ 1)
    State.reset.fld (SOP_CTRL 5) SOP_CTRL_EN = 0 ∧ on.ringState 5 = ringListen ∧
      (after (.ringEnable 5) State.reset).ringState 5 = ringOff ∧ (after (.listenTimeout 5) on).ringState 5 = ringColdstart ∧
      sRing.fld (SOP_CTRL 5) SOP_CTRL_EN ≠ 0 ∧ (after (.ringDisable 5) sRing).ringState 5 = ringOff := by decide +kernel
def sCold (f : Ring → Ring) : State := (State.reset.putFld (SOP_STATE 5) SOP_STATE_RSTATE ringColdstart).modRing 5 f
theorem witness_rounds : let s := sCold fun k => { k with roundAt := some (0, 0), retE := some (1000 * unit8), retW := some (1001 * unit8) }
    s.ringState 5 = ringColdstart ∧ s.ringSends 5 = true ∧ (sCold id).ringState 5 = ringColdstart ∧ ((sCold id).ring 5).roundAt = none ∧
      ((sCold fun k => { k with roundAt := some (0, 0), foreign := true }).ring 5).foreign = true ∧
      (s.putFld (SOP_STATE 5) SOP_STATE_CLEAN 2).fld (SOP_STATE 5) SOP_STATE_CLEAN = 2 ∧ s.heardZero 5 = false ∧
      (s.ring 5).garbled = false ∧ (s.ring 5).foreign = false ∧ (s.ring 5).starting = none ∧
      ((sCold fun k => { k with roundAt := some (0, 0), garbled := true }).ring 5).garbled = true ∧
      (after (.coldstartRound 5 0) (sCold fun k => { k with roundAt := some (0, 0), garbled := true })).ringState 5 = ringListen := by decide +kernel

/-- A frame of a sender, as the ring carries it. -/
def aFrame (typ src slot : Nat) : List Byte := frameBytes typ 5 true src 0 slot 0 0 [0xA5, 0, 0, 0, 0, 0]

/-- O35: slots to start, frames in and out of windows of their sender, of another sender, of a stranger; the returned SYNC. -/
theorem witness_slots : sRing.ringState 5 = ringRun ∧ (sRing.ring 5).nslot = 4 ∧
    (sRing.ring 5).slots.any (fun u => u.index == 1) = true ∧ (sRing.ring 5).slots.any (fun u => u.index == 0) = false ∧
    sRing.gUse 5 < 2 * ((10 ^ 9 : Int).natAbs : Int) ∧ ¬ sRing.gUse 5 < 2 * ((0 : Int).natAbs : Int) ∧ sRing.ringSends 5 = true ∧
    (after (.ringSlotStart 5 0 (10 ^ 9) 0) sRing).ringState 5 = ringHalt := by decide +kernel
theorem witness_frames : headerValid 5 (aFrame 2 1 1) = true ∧ headerValid 5 [] = false ∧ headerValid 5 (aFrame 2 9 1) = true ∧
    headerValid 5 (aFrame 4 1 1) = true ∧
    sRing.stampIn 11 (2950 * unit8) - sRing.grid sRing.frameCount = 2950 * unit8 ∧
    ((sRing.ring 5).slots.find? fun u => sRing.inWindow 5 u true (2950 * unit8)).map (·.index) = some 1 ∧
    ((sRing.ring 5).slots.find? fun u => sRing.inWindow 5 u true 0) = none ∧
    sRing.inConsist 5 1 = true ∧ sRing.inConsist 5 9 = false ∧
    (ringHeader (aFrame 2 1 1)).src = 1 ∧ (ringHeader (aFrame 4 1 1)).typ = slMrsp ∧
    (((sRing.ring 5).slots.find? fun u => sRing.inWindow 5 u true (2950 * unit8)).bind fun u => sRing.slotSender 5 u) = some 1 := by
  decide +kernel
theorem test_frames : (after (.ringFrameReceived 5 true (2950 * unit8) (aFrame 2 9 1)) sRing).fld (SOP_STRCNT 5) CNT_COUNT = 1 ∧
    (after (.ringFrameReceived 5 true (2950 * unit8) []) sRing).fld (SOP_HDRERR 5) CNT_COUNT = 1 := by decide +kernel
theorem witness_sync : let s := sRing.modRing 5 fun k => { k with syncE := some (1000 * unit8), syncW := some (1002 * unit8) }
    s.standby = false ∧ s.fld (SOP_BREAK 5) SOP_BREAK_VALID = 0 ∧ (s.ring 5).broken = false ∧ s.loopSample 5 = some 1001 ∧
      sRing.loopSample 5 = none ∧ (after (.syncReturn 5) s).fld (SOP_LOOP 5) SOP_LOOP_C = 1001 := by decide +kernel

/-- A packet that port nW's queue has handed over. -/
def queued (f : List Byte) (s : State) : State :=
  s.modQueue (.ring 5 true) fun k =>
    { k with handed := [0], banks := k.banks.set 0 { packets := [{ data := f, size := f.length, start := 2950 * unit8, good := some true }],
                                                     used := 0, closed := true } }
theorem witness_in_frame : let s := queued (aFrame 2 1 1) sRing
    (s.headPacket (.ring 5 true)).2.map (·.data) = some (aFrame 2 1 1) ∧ (ringHeader (aFrame 2 1 1)).typ = slIn ∧
      (ringHeader (aFrame 2 1 1)).fcnt = s.fcnt ∧ s.ue = [] ∧
      ((s.ring 5).slots.find? fun u => u.index == 1 && u.owner == 1 && u.ok).map (fun u => (u.payload, (u.blocks.filter (·.ok)).length)) =
        some (none, 1) ∧
      (ringHeader (aFrame 4 1 1)).typ ≠ slIn ∧
      ((after (.inFrame 5 true) s).point (bankBase 0) false 8).value = 1 ∧ ((after (.inFrame 5 true) s).point (bankBase 0) false 9).value = 0 := by
  decide +kernel

/-- A response of station 1 in the MRSP slot 1. -/
def answer (payload : List Byte) : State :=
  let s := sRing.modRing 5 fun k => { k with slots := k.slots.map fun u => { u with typ := slMrsp, owner := 255 } }
  queued (frameBytes slMrsp 5 true 1 0 1 0 0 payload) s
def identity : List Byte := leBytes 2 7 ++ [0, 0, 0, 0, 0, 0, 75, 0, 100, 0, 9, 0, 50, 0]
def copyE (s : State) : State :=
  s.modRing 5 fun k => { k with slots := k.slots.map fun u => { u with respE := some (2050 * unit8, [1, 0, 0, 0, 0, 0, 0, 0] ++ identity) } }

/-- O36: an answer of each kind, of a station that is integrated and in the consist. -/
theorem witness_answers : let s := copyE (answer ([1, 0, 0, 0, 0, 0, 0, 0] ++ identity))
    let v := (s.takeAnswer 5 true slMrsp (some 1)).1
    (s.takeAnswer 5 true slMrsp (some 1)).2.map (fun a => a.1.src) = some 1 ∧ (s.takeAnswer 5 true slClaim none).2.isNone = true ∧
      (s.takeAnswer 5 true slMrsp (some 3)).2.isNone = true ∧ v.sta 5 1 = staAbsent ∧ v.inConsist 5 1 = true ∧
      (((v.ring 5).slots.find? fun u => u.index == 1).bind (·.respE)).isSome = true := by decide +kernel
theorem witness_acknowledged : let s := (answer [3, 0, 9, 0]).setSta 5 1 staLoading
    (s.takeAnswer 5 true slMrsp (some 3)).2.map (fun a => a.1.src) = some 1 ∧ (s.takeAnswer 5 true slMrsp (some 3)).1.sta 5 1 = staLoading ∧
      ((answer [4, 0, 0, 0]).takeAnswer 5 true slMrsp (some 4)).2.isSome = true ∧
      ((answer [8, 0, 0, 0]).takeAnswer 5 true slMrsp (some 8)).2.isSome = true ∧
      (after (.schedAck 5 true) s).sta 5 1 = staRejected ∧ (after (.schedAck 5 true) s).fld (SOP_STA 5 1) SOP_STA_REASON = 9 := by
  decide +kernel

/-- Station 1 has this work at its stream, sent in frame 0 with SEQ 4. -/
def working (w : RemWork) (s : State) : State :=
  (s.modStream 3 5 1 fun x => { x with work := [w], out := some (4, 0, 1) }).modLap 3 fun c =>
    { c with fetches := [{ ring := 5, station := 1, addr := 6, sideEffect := true, result := none, abandoned := false }] }

/-- O37: answers to the three kinds of work, with RESULT 0 and 3, and a command without an answer. -/
theorem witness_bridge : let w := working (.write 6 0 16 1 none); let r := working (.read 6 1); let e := working (.events 0)
    let stream (s : State) (cmd : Nat) := ((s.takeAnswer 5 true slMrsp (some cmd)).1.answeredStream 5 1 cmd 4).map (·.channel)
    stream (w (answer [0x20, 4, 3, 0])) 0x20 = some 3 ∧ stream (r (answer [0x21, 4, 0, 1, 0, 0, 0, 0, 9, 0, 0, 0])) 0x21 = some 3 ∧
      stream (e (answer [0x22, 4, 0, 0])) 0x22 = some 3 ∧ ((w sRing).lap 3).failures = [] ∧
      ((w sRing).stream 3 5 1).out = some (4, 0, 1) ∧ (w sRing).frameCount < 0 + max 4 ((w sRing).fld BRG_FARTO BRG_FARTO_FARTO) ∧
      (let late := (w sRing).setReg FRM_FCOUNTL 100000
       0 + max 4 (late.fld BRG_FARTO BRG_FARTO_FARTO) ≤ late.frameCount) ∧ (sRing.stream 3 5 1).out = none ∧
      ((after (.preadResponse 5 true) (r (answer [0x21, 4, 0, 1, 0, 0, 0, 0, 9, 0, 0, 0]))).lap 3).fetches.map (·.result) = [some (some 9)] := by
  decide +kernel
theorem test_failure : let t := after (.pwriteResponse 5 true) (working (.write 6 0 16 1 none) (answer [0x20, 4, 9, 0]))
    (t.lap 3).failures.map (·.code) = [3] ∧ (t.stream 3 5 1).fenced = true := by decide +kernel

/-- O38: each fault of a ring, and its absence. -/
theorem witness_breaks : let b := sRing.modRing 5 fun k => { k with missed := 1, ones := 16 }
    let h := (sRing.flag (SOP_BREAK 5) SOP_BREAK_VALID).modRing 5 fun k => { k with intact := 16 }
    let d := (sRing.setSta 5 1 staActive).modStation 5 1 fun k => { k with miss := 1023 }
    sRing.ringState 5 = ringRun ∧ sRing.standby = false ∧ b.fld (SOP_BREAK 5) SOP_BREAK_VALID = 0 ∧ 1 ≤ (b.ring 5).missed ∧
      b.syncBoth 5 = false ∧ (after (.breakDeclare 5) b).fld (SOP_BREAK 5) SOP_BREAK_VALID = 1 ∧
      h.fld (SOP_BREAK 5) SOP_BREAK_VALID ≠ 0 ∧ 16 ≤ (h.ring 5).intact ∧ (after (.breakHeal 5) h).fld (SOP_BREAK 5) SOP_BREAK_VALID = 0 ∧
      16 ≤ (b.ring 5).ones ∧ (b.ring 5).onesRaised = false ∧ ((after (.onecopyPattern 5) b).ring 5).onesRaised = true ∧
      d.sta 5 1 = staActive ∧ max 1 (d.fld (SOP_DROPCFG 5) SOP_DROPCFG_FRAMES) ≤ (d.station 5 1).miss ∧
      sRing.sta 5 1 ≠ staActive := by decide +kernel

/-! ### Witnesses and effects: queues, time, PTP, mailboxes -/

/-- O39, with 13_queues.md: a packet ends below THRESH, the tail time-out hands its bank over, and the bank is drained. -/
def qBridge : State := State.reset.putFld (queueCfg (.bridge 2)) SOP_QE_CFG_THRESH 0
def qFilling : State := after (.queuePacketEnd (.bridge 2) 72 .good) qBridge
def qOut : State := after (.queueTailTimeout (.bridge 2)) qFilling
theorem witness_queues : qBridge.openPacket (.bridge 2) = none ∧ qBridge.fillingBank (.bridge 2) = none ∧
    qBridge.bankState (.bridge 2) (qBridge.queue (.bridge 2)).next = bankEmpty ∧
    qBridge.fld (queueCfg (.bridge 2)) SOP_QE_CFG_THRESH = 0 ∧ qBridge.openPacket (.ring 3 true) = none ∧
    qFilling.fillingBank (.bridge 2) = some 0 ∧
    (((qFilling.queue (.bridge 2)).banks[0]).packets.any fun p => p.good.isSome) = true ∧
    (let u := qBridge.setBank (.bridge 2) 0 bankFilling
     u.fillingBank (.bridge 2) = some 0 ∧ (((u.queue (.bridge 2)).banks[0]).packets.any fun p => p.good.isSome) = false) ∧
    (qBridge.queue (.bridge 2)).handed = [] := by decide +kernel
theorem test_queues : qOut.bankState (.bridge 2) 0 = bankReady ∧ qOut.fld (queueTout (.bridge 2)) CNT_COUNT = 1 ∧
    (qOut.queue (.bridge 2)).handed = [0] ∧
    (after (.queueBankDrained (.bridge 2)) qOut).fillingBank (.bridge 2) = none := by decide +kernel
theorem witness_drained : let s := qOut.modQueue (.bridge 2) fun k => k.modBank 0 fun x => { x with closed := true }
    (s.queue (.bridge 2)).handed = 0 :: [] ∧ ((s.queue (.bridge 2)).banks[0]).closed = true ∧ (s.queue (.bridge 2)).waiting = [] ∧
      (after (.queueBankDrained (.bridge 2)) s).bankState (.bridge 2) 0 = bankEmpty := by decide +kernel

/-- O40, with 11_time.md: the commanded step of −3,200 ns is accepted in frame 4,005 and acts at tick 4,008. -/
def commanded (v : Int) : State := (sRun.setReg FRM_FCOUNTL 4005).setReg TIME_STEPV (BitVec.ofInt 32 v)
def announced : State := after .stepCommand (commanded (-3200))
theorem witness_steps : (commanded (-3200)).fld TIME_STEPCMD TIME_STEPCMD_GO = 0 ∧ (commanded (-3200)).frame.close = 100 ∧
    announced.time.step = some (-3200, 4008) ∧ announced.fld TIME_STEPCMD TIME_STEPCMD_GO ≠ 0 ∧
    (after .stepCommand (commanded (-250000))).fld TIME_STATUS TIME_STATUS_STEPPEND = 1 ∧
    (after .stepCommand (commanded (-250001))).fld TIME_STATUS TIME_STATUS_STEPREF = 1 ∧
    (after .stepCommand (commanded 50000)).fld TIME_STATUS TIME_STATUS_STEPPEND = 1 ∧
    (after .stepCommand (commanded 50001)).fld TIME_STATUS TIME_STATUS_STEPREF = 1 ∧
    (after .stepCommand (commanded 0)).fld TIME_STATUS TIME_STATUS_STEPREF = 1 ∧
    announced.frameCount < 4008 ∧ sRun.time.step = none := by decide +kernel
theorem test_step_acts : let s := (announced.setReg FRM_FCOUNTL 4008).modTime fun k => { k with clock := 10000 * 65536 }
    4008 ≤ s.frameCount ∧ (after .stepAct s).time.clock = 6800 * 65536 ∧ (after .stepAct s).time.corr = -3200 * 65536 ∧
      (let u := ((after .stepCommand (commanded 3200)).setReg FRM_FCOUNTL 4008).modTime fun k => { k with clock := 998000 * 65536 }
       u.time.step = some (3200, 4008) ∧ u.fld FRM_CTRL FRM_CTRL_RUN ≠ 0 ∧ u.grid u.frame.nextTick ≤ (998000 + 3200) * 65536) ∧
      (6800 * 65536) < s.grid s.frame.nextTick := by decide +kernel
theorem test_source_loss : let t := after .ptpSourceLoss (sRun.setTimeState tsLocked)
    t.timeState = tsHoldover ∧ t.fld TIME_STATUS TIME_STATUS_LOCKLOSS = 1 ∧
      (∀ p < 4, (sRun.ptpPort p).masters = []) ∧
      (after .ptpSourceLoss (sRun.setTimeState tsAcquiring)).timeState = tsFree := by decide +kernel

/-- O41: backbone port 1 is up, runs PTP and follows this master. -/
def aMaster : PtpMaster :=
  { identity := 0x1122334455667788, priority1 := 128, clockClass := 6, accuracy := 0x21, variance := 0, priority2 := 128, stepsRemoved := 0,
    sender := 0x1122334455667788, senderPort := 1, utcOffset := 37 }
def sPtp (r : PtpRole) (best : Option PtpMaster) : State :=
  let s := (State.reset.flag (BKB_CTRL 1) BKB_CTRL_EN).putFld TIME_PTPCFG TIME_PTPCFG_MODE 3
  ((s.putFld TIME_PTPCFG TIME_PTPCFG_PORTEN 2).putFld TIME_CTRL TIME_CTRL_SRC 1).modPort 1 fun k =>
    { k with role := r, masters := (best.map fun m => (m, 2)).toList, pathDelay := 500 * 65536 }
theorem witness_ptp : let s := sPtp .slave (some aMaster)
    s.portOn (1 : Fin 4) = true ∧ State.reset.portOn (1 : Fin 4) = false ∧ s.ptpPorts = [1] ∧ s.slavePort = some 1 ∧ s.ptpDomain = 0 ∧
      s.parent = some aMaster ∧ s.time.stepped = false ∧ (s.modTime fun k => { k with stepped := true }).parent = some aMaster ∧
      s.fld TIME_CTRL TIME_CTRL_SRC ≠ 0 ∧ (s.putFld TIME_CTRL TIME_CTRL_SRC 0).fld TIME_CTRL TIME_CTRL_SRC = 0 ∧ s.peerToPeer 1 = false ∧
      (s.ptpPort 1).role = .slave ∧ ((sPtp .master none).ptpPort 1).role = .master ∧ ((sPtp .listening none).ptpPort 1).masters = [] ∧
      (let d := ((sPtp .master none).putFld TIME_PTPCFG TIME_PTPCFG_P2P 2).modPort 1 fun k => { k with asked := some 7 }
       d.peerToPeer 1 = true ∧ (d.ptpPort 1).asked = some 7) := by decide +kernel

/-- A Sync of the parent, sent at 1,000 ns and arrived at 1,700 ns over a path of 500 ns, shows an offset of 200 ns. -/
theorem test_offset : (after (.ptpSync 1 0 0x1122334455667788 1 (1000 * 65536) (1700 * 65536)) (sPtp .slave (some aMaster))).reg TIME_OFFS =
    200 := by decide +kernel

/-- O42, with 19_mailboxes.md: channel 6 from core 2 to core A3, in each state. -/
def sMbx (st : Nat) : State :=
  (((State.reset.flag (MBX_BIND 6) MBX_BIND_EN).putFld (MBX_BIND 6) MBX_BIND_RECEIVER 3).putFld (MBX_BIND 6) MBX_BIND_SENDER 2).putFld
    (MBX_CH_STAT 6) MBX_CH_STAT_STATE st
theorem witness_mailbox : let s := sMbx mbxEmpty
    s.standby = false ∧ identityOf (.core 2) = some (s.mbxSender 6) ∧ identityOf (.core 3) = some (s.mbxReceiver 6) ∧ s.mbxEnabled 6 = true ∧
      s.mbxState 6 = mbxEmpty ∧ (sMbx mbxPosted).mbxState 6 = mbxPosted ∧ (sMbx mbxTaken).mbxState 6 = mbxTaken ∧
      (sMbx mbxAcked).mbxState 6 = mbxAcked ∧ (sMbx mbxAcked).mbxEnabled 6 = true ∧
      (12 : BitVec 4).toNat ≤ 12 ∧ 12 < (13 : BitVec 4).toNat ∧ identityOf (.core 2) ≠ some (s.mbxReceiver 6) ∧
      (State.reset.mbxReceiver 6, ((sMbx mbxEmpty).putFld (MBX_BIND 6) MBX_BIND_EN 0).mbxEnabled 6) = (255, false) ∧
      isCoreId (identityOf (.core 2)) = true ∧ isCoreId (identityOf (.dma 0)) = false ∧ identityOf (.lap 2) = some 0x12 ∧
      State.standby (let r := State.reset.putFld CPL_STATE CPL_STATE_PSTATE 1
                     { r with cpl := { r.cpl with member := true } }) = true := by decide +kernel
theorem test_redelivery : let s := after (.mbxEprst (.core 0) 8) (after (.mbxTake (.core 3) 6) (after (.mbxPost (.core 2) 6 3 0x41) (sMbx mbxEmpty)))
    s.mbxState 6 = mbxPosted ∧ s.fld (MBX_CH_HDR 6) MBX_CH_HDR_REDELIVERED = 1 ∧ s.fld (MBX_CH_HDR 6) MBX_CH_HDR_LEN = 3 := by decide +kernel

/-! ### Witnesses and effects: the bridge -/

theorem admitted_of {s : State} (op : Nat) (pl : List Byte) (h : s.portOn 4 = true ∧ s.lapPort 4 = true ∧
    s.isSet BRG_CTRL BRG_CTRL_EN = true ∧ s.openChannel 5 = some 2 ∧ (s.lap 2).rxCount < 1 ∧ (s.lap 2).key = aKey ∧ pl.length ≤ 1424) :
    Admitted s 2 op (signed op (request pl)) where
  port := h.1
  accepted := h.2.1
  enabled := h.2.2.1
  session := h.2.2.2.1
  length := h.2.2.2.2.2.2
  mac := by rw [h.2.2.2.2.2.1]; exact beq_self_eq_true (signed op (request pl)).mac
  fresh := h.2.2.2.2.1
  header := by
    have : pl.length % 65536 = pl.length := Nat.mod_eq_of_lt (by omega)
    simp [lapHeaderOk, signed, request, this]

/-- O43: each check that a request may fail. -/
theorem witness_checks : let r := request []; let off := sLap.clrBit BRG_CTRL 0
    State.reset.portOn (1 : Fin 5).val = false ∧ sLap.portOn r.via.val = true ∧ sLap.lapPort r.via = true ∧
      (sLap.putFld BRG_CTRL BRG_CTRL_M0EN 0).lapPort r.via = false ∧ (sLap.putFld BRG_CTRL BRG_CTRL_EN 0).isSet BRG_CTRL BRG_CTRL_EN = false ∧
      (sLap.putFld BRG_CTRL BRG_CTRL_EN 0).lapPort r.via = true ∧ off.lapPort r.via = off.lapPort r.via ∧
      sLap.openChannel 6 = none ∧ sLap.halfChannel 6 = none ∧ sLap.bridge.unknown = [] ∧
      lapMacOk r 4 aKey = false ∧ (sLap.lap 2).key = aKey ∧ lapHeaderOk { r with plen := 1 } = false ∧
      (State.lapAccepts sLap (request (List.replicate 1425 0))) = false ∧ sLap.lapAccepts r = true ∧
      sLap.openChannel r.sid.toNat = some 2 ∧ (sLap.lap 2).rxCount < r.dcnt.toNat ∧ sLap.standby = false ∧
      ((0 : BitVec 64).toNat ≤ (sLap.lap 2).rxCount) := by decide +kernel
theorem test_checks : let r := request []; let unknown : LapRequest := { r with sid := 6 }
    (after (.keepalive r) sLap).fld BRG_MACERR CNT_COUNT = 1 ∧
      (after (.keepalive (signed 4 { r with dcnt := 0 })) sLap).fld BRG_REPLAY CNT_COUNT = 1 ∧
      (after (.keepalive unknown) sLap).bridge.unknown = [(7, sLap.time.clock)] ∧
      (after (.keepalive unknown) (after (.keepalive unknown) sLap)).fld BRG_MALF CNT_COUNT = 2 := by decide +kernel

/-- O44: a HELLO for channel 2, and a half-open session. -/
def hello : LapRequest := { request (2 :: List.replicate 83 0) with sid := 0, dcnt := 0 }
def sHalf : State := sLap.modLap 2 fun c => { c with half := some { sid := 9, peer := 7, via := 4, txCount := 1, key := aKey, transcript := [] } }
theorem witness_hello : lapHeaderOk hello = true ∧ hello.payload.length = 84 ∧ field hello.payload 1 3 = 0 ∧ field hello.payload 0 1 < 16 ∧
    field (16 :: List.replicate 83 (0 : Byte)) 0 1 = 16 ∧
    sHalf.halfChannel 9 = some (2, { sid := 9, peer := 7, via := 4, txCount := 1, key := aKey, transcript := [] }) ∧ sHalf.sessionState 2 = 2 ∧
    (sHalf.lap 2).half.isSome = true ∧ (sLap.lap 2).half = none ∧ sLap.sessionState 1 ≠ 2 ∧
    (request (List.replicate 64 0)).payload.length = 64 ∧ (0x70 : BitVec 8).toNat ∉ lapOps := by decide +kernel
theorem test_sessions : let r : LapRequest := signed 2 { request (List.replicate 64 0) with sid := 9 }
    (after (.keyx r true) sHalf).openChannel 9 = some 2 ∧ (after (.keyx r false) sHalf).halfChannel 9 = none ∧
      (after (.lapClose (signed 3 (request []))) sLap).sessionState 2 = 0 ∧ (after (.sessionTimeout 2) sLap).sessionState 2 = 0 ∧
      (after (.halfOpenTimeout 2) sHalf).halfChannel 9 = none := by decide +kernel

/-- A signal map entry. -/
def withSignal (i : Nat) (w : List Word) (s : State) : State :=
  { s with smap := (List.range 4).map fun k => (4 * i + k, w.getD k 0) }

/-- 12_bridge_lap.md: entry 2,000 maps a weighing cell, entry 2,001 a host setpoint. -/
def sCell : State := withSignal 2000 [0x1A000401, 0x10019010, 0x10000005, 0x10800064] (mapped sLap)
def sSetpoint : State :=
  { withSignal 2001 [0x1A8005DC, 0x10002010, 0x10000005, 0x10800064] (mapped sLap) with program := { aProgram with hostCells := [(true, 1500, 1)] } }
theorem test_to_host : ((sCell.signal 2000).toHost 0xFB2F00C8 0) = (0xFFFFF45A, 0) ∧
    ({ sCell.signal 2000 with rnd := 2 } : Signal).toHost 0xFB2F00C8 0 = (BitVec.ofInt 32 (-2983), 0) := by decide +kernel
theorem test_to_field : (sSetpoint.signal 2001).toField 1000 = some 0x168 ∧ (sSetpoint.signal 2001).toField 0xFFFFFF9C = none ∧
    (sSetpoint.signal 2001).toField 0 = none ∧ (⟨0, 16⟩ : Field).put 0x168 0x12340000 = 0x12340168 := by decide +kernel

/-- O45: entries that are enabled, disabled, torn, write-only, remote. -/
theorem witness_reads :
    Admitted sCell 2 0x10 (signed 0x10 (request [0xD0, 7])) ∧ field (request [0xD0, 7]).payload 0 2 = 2000 ∧ sCell.signalEnabled 2000 = true ∧
      sCell.signalGood 2000 = true ∧ (sCell.signal 2000).dir ≠ 1 ∧ (sCell.signal 2000).kind ≠ kindRem ∧ sCell.signalEnabled 0 = false ∧
      (withSignal 0 [0x1A000401, 0x20019010, 0x10000005, 0x10800064] sLap).signalGood 0 = false ∧
      ((withSignal 0 [0x1A800401, 0x10019010, 0x10000005, 0x10800064] sLap).signal 0).dir = 1 ∧
      (withSignal 0 [0x1A800401, 0x10019010, 0x10000005, 0x10800064] sLap).signalGood 0 = true ∧
      (let r := withSignal 0 [0x1C000401, 0x12938020, 0x10000001, 0x10000000] sLap
       (r.signal 0).kind = kindRem ∧ r.signalGood 0 = true ∧ r.sta 1 41 ≠ staActive ∧ r.bridge.orphans = [] ∧
         (r.setSta 1 41 staActive).sta 1 41 = staActive) ∧
      (match ((sCell.received 2 (request [0xD0, 7])).bridgePoint (bankBase (sCell.frameCount + 1)) true 1025).2 with
       | some (some _) => true
       | _ => false) = true ∧
      ((sLap.received 2 (request [0xD0, 7])).bridgePoint (bankBase (sCell.frameCount + 1)) true 1025).2 = none :=
  ⟨admitted_of _ _ (by decide +kernel), by decide +kernel⟩
theorem test_read : (match (after (.lapRead (signed 0x10 (request [0xD0, 7])) []) (sCell.putPoint (bankBase 1) true 1025 { value := 0xFB2F00C8, tag := 0 })).outbox with
    | .lap _ _ d :: _ => d.payload
    | _ => []) = [0x5A, 0xF4, 0xFF, 0xFF, 0, 0, 0, 0] := by decide +kernel

/-- O46: a PLAIN and a COMMITTED item. -/
def item (cls : Byte) (i w : Nat) : LapRequest := signed 0x11 <| request ([cls, 0, 0, 0] ++ leBytes 4 i ++ leBytes 4 w)
theorem witness_writes :
    Admitted sSetpoint 2 0x11 (item 0 2001 1000) ∧ (item 0 2001 1000).payload.length = 12 ∧ field (item 1 2001 1000).payload 0 1 = 1 ∧
      sSetpoint.signalEnabled 2001 = true ∧ sSetpoint.signalGood 2001 = true ∧ (sSetpoint.signal 2001).dir ≠ 0 ∧
      (sSetpoint.signal 2001).cmt = false ∧ sSetpoint.isHostCell true 1500 = true ∧ sSetpoint.bridge.writes < 1024 ∧
      sSetpoint.standby = false ∧ sSetpoint.isSet WAY_STATUS WAY_STATUS_REPLAY = false ∧ sSetpoint.quietFrame = false ∧
      (let x := (sSetpoint.received 2 (item 0 2001 1000)).bridgePoint (bankBase sSetpoint.frameCount) true 1500
       x.2 = some (some { value := 0, tag := 0 }) ∧ (x.1.unitAddr bridgeCtx .store (cellAddr (bankBase sSetpoint.frameCount) true 1500)).2 =
         some (cellAddr (bankBase sSetpoint.frameCount) true 1500)) ∧
      sSetpoint.wayNext 2 = 0 ∧ ((sSetpoint.received 2 (item 1 2001 1000)).journalItem wayWrite 2 0 2001 1000 [] false).isSome = true ∧
      (let r := withSignal 0 [0x1D000401, 0x12938020, 0x10000001, 0x10000000] sLap
       (r.signal 0).kind = kindRem ∧ r.signalGood 0 = true ∧ (r.signal 0).dir ≠ 0 ∧ r.isFenced 2 1 41 = false ∧
         (r.modStream 2 1 41 fun x => { x with fenced := true }).isFenced 2 1 41 = true) :=
  ⟨admitted_of _ _ (by decide +kernel), by decide +kernel⟩
theorem test_write_plain : ((after (.lapWrite (item 0 2001 1000) []) (sSetpoint.putPoint (bankBase 0) true 1500 { value := 0x12340000, tag := 1 })).point
    (bankBase 0) true 1500) = { value := 0x12340168, tag := 0 } := by decide +kernel
theorem test_write_committed : let t := after (.lapWrite (item 1 2001 1000) []) sSetpoint
    t.wayNext 2 = 1 ∧ t.bridge.entries.map (fun e => (e.kind, e.key, e.key2)) = [(wayWrite, 2001, 1000)] ∧
      (after (.lapWrite (signed 0x11 { item 1 2001 1000 with dcnt := 2 }) []) t).fld WAY_DUPCNT CNT_COUNT = 1 := by decide +kernel

/-- O47: queue 3 has 2 slots of 6 words; channel 6 belongs to LAP channel 2. -/
def sJobs : State :=
  let s := (sLap.flag (WAY_JQ_W0 3) WAY_JQ_W0_EN).putFld (WAY_JQ_W0 3) WAY_JQ_W0_NSLOT 2
  let s := ((s.putFld (WAY_JQ_W0 3) WAY_JQ_W0_SW 6).putFld (WAY_JQ_W1 3) WAY_JQ_W1_CONS 100).flag (MBX_BIND 6) MBX_BIND_EN
  (s.putFld (MBX_BIND 6) MBX_BIND_SENDER 0x12).putFld (MBX_BIND 6) MBX_BIND_RECEIVER 3
def aJob (n : Nat) : LapRequest := signed 0x20 <| request ([3, 1, 0, 0] ++ leBytes 2 n ++ [0, 0] ++ List.replicate (4 * n) 9)
def aMessage : LapRequest := signed 0x21 <| request [0, 6, 0, 0, 0x41, 0, 1, 0, 1, 2, 3, 4]
theorem witness_jobs :
    Admitted sJobs 2 0x20 (aJob 3) ∧ sJobs.standby = false ∧ sJobs.jqGood 3 = true ∧ sJobs.jqGood 4 = false ∧ sJobs.jqWords 3 = 6 ∧
      (aJob 3).payload.length = 8 + 4 * field (aJob 3).payload 4 2 ∧ field (aJob 3).payload 0 1 = 3 ∧ field (aJob 3).payload 1 1 = 1 ∧
      (aJob 4).payload.length = 8 + 4 * 4 ∧ (aJob 3).seq.toNat = sJobs.wayNext 2 ∧
      ((sJobs.received 2 (aJob 3)).journalItem wayJob 2 0 (sJobs.queueNext 3) 3 []).isSome = true ∧
      aMessage.payload.length = 8 + 4 * field aMessage.payload 6 1 ∧ sJobs.mbxOfLap 2 6 = true ∧ sJobs.mbxOfLap 2 7 = false ∧
      sJobs.mbxState 6 = mbxEmpty ∧ (sJobs.putFld (MBX_CH_STAT 6) MBX_CH_STAT_STATE mbxAcked).mbxState 6 = mbxAcked ∧
      sJobs.isSet WAY_STATUS WAY_STATUS_REPLAY = false ∧ sJobs.quietFrame = false :=
  ⟨admitted_of _ _ (by decide +kernel), by decide +kernel⟩
theorem test_jobs : ((after (.job (aJob 3)) sJobs).bridge.entries.map fun e => (e.kind, e.key2)) = [(wayJob, 3)] ∧
    (after (.job (aJob 4)) sJobs).wayNext 2 = 0 ∧ (after (.mbxpostPost aMessage) sJobs).wayNext 2 = 1 := by decide +kernel

/-- O48: a failure of station 41 on ring 1, an unacknowledged NOTIFY, a fetch. -/
def sFails : State :=
  (sLap.modLap 2 fun c => { c with
    failures := [{ ring := 1, station := 41, code := 3, fseq := 500, discards := 2, lastDisc := 502 }]
    notes := [{ reqid := 1, ring := 1, station := 41, kind := 0, records := [], fcnt := 6, sends := 16 },
              { reqid := 2, ring := 1, station := 41, kind := 0, records := [], fcnt := 6, sends := 17 }]
    fetches := [{ ring := 1, station := 41, addr := 6, sideEffect := true, result := some (some 9), abandoned := false }] }).modStream
    2 1 41 fun x => { x with fenced := true }
def failack : List Byte := [1, 41, 0, 0] ++ leBytes 4 500
theorem witness_failures :
    Admitted sFails 2 0x13 (signed 0x13 (request failack)) ∧ failack.length = 8 ∧ field failack 4 4 = 500 ∧ (sFails.lap 2).failures.length = 1 ∧
      sFails.isFenced 2 1 41 = true ∧ ((sFails.lap 2).notes.find? fun x => x.reqid == 1).map (·.sends) = some 16 ∧
      ((sFails.lap 2).notes.find? fun x => x.reqid == 2).map (·.sends) = some 17 ∧ ((sFails.lap 2).notes.find? fun x => x.reqid == 3) = none ∧
      (request (List.replicate 192 0)).payload.length = 192 ∧ sFails.portOn (sFails.lap 2).via = sFails.portOn 0 :=
  ⟨admitted_of _ _ (by decide +kernel), by decide +kernel⟩
theorem test_failures : (after (.failack (signed 0x13 (request failack))) sFails).isFenced 2 1 41 = false ∧
    (after (.notifyRetry 2 2) sFails).fld BRG_NOTIFYDROP CNT_COUNT = 1 ∧
    (after (.fetchAbandon 2 1 41 6) sFails).bridge.orphans.length = 1 ∧
    (after (.orphanExpire 2 1 41 6) (after (.fetchAbandon 2 1 41 6) sFails)).bridge.orphans = [] ∧
    ((after (.subscribe (signed 0x30 (request (List.replicate 192 0xFF)))) sLap).lap 2).subs.length = 6 * 254 := by decide +kernel

/-- O49: port 1 is up; backbone channel 4 carries 6 words each way. -/
def sSafe : State :=
  let s := (((((mapped sLap).putFld FRM_ACTIVE FRM_ACTIVE_ACTPERIOD 1000).flag (BKB_CTRL 1) BKB_CTRL_EN).flag (SAF_BCH_W0 4) SAF_BCH_W0_EN).putFld (SAF_BCH_W0 4) SAF_BCH_W0_INCOUNT 6).putFld (SAF_BCH_W0 4)
    SAF_BCH_W0_PORT 1
  ((s.putFld (SAF_BCH_W1 4) SAF_BCH_W1_OUTCOUNT 6).putFld (SAF_BCH_W1 4) SAF_BCH_W1_INSTART 40).setReg (SAF_BCH_PEER 4) 77
def aDatagram : List Byte := [1, 4, 6, 0, 0, 0, 0, 0] ++ List.replicate 24 7
theorem witness_backbone : sSafe.portOn (1 : Fin 5).val = true ∧ State.reset.portOn (1 : Fin 5).val = false ∧ sSafe.bchEnabled 4 = true ∧
    sSafe.bchRule 4 = true ∧ sSafe.bchPort 4 = 1 ∧ sSafe.bchIn 4 = 6 ∧ sSafe.bchOut 4 = 6 ∧ aDatagram.length = 32 ∧
    field aDatagram 2 2 = 6 ∧ field aDatagram 0 1 = 1 ∧ sSafe.bridge.line < wayLines ∧ sSafe.bchEnabled 5 = false ∧
    sSafe.isSet (BKB_STATUS 1) BKB_STATUS_LINK = false ∧ (sSafe.flag (BKB_STATUS 1) BKB_STATUS_LINK).isSet (BKB_STATUS 1) BKB_STATUS_LINK = true ∧
    bitAt (((sSafe.setReg BLW_STAGE 0xFFFFFFFF)).fld BLW_STAGE BLW_STAGE_BKBOK) 1 = true ∧ sSafe.ue = [] := by decide +kernel
theorem witness_safety_words :
    (∀ i < 6, (((sSafe.bump (BKB_RXPKT 1)).putWords (bankBase sSafe.frameCount) 40 0 ((payloadWords (aDatagram.drop 8)).take i)).unitAddr
      bridgeCtx .store (cellAddr (bankBase sSafe.frameCount) true (40 + i))).2 = some (cellAddr (bankBase sSafe.frameCount) true (40 + i))) ∧
    (∀ i < 6, sSafe.hasUe (cellAddr pubBase true i) = false ∧
      ((sSafe.bridgeWords 0 i).1.unitAddr bridgeCtx .load (cellAddr pubBase true i)).2 = some (cellAddr pubBase true i)) ∧
    sSafe.bchOutStart 4 = 0 ∧ sSafe.bchInStart 4 = 40 ∧ sSafe.standby = false ∧
    ((sSafe.clrBit (MMU_CTX_BASE bridgeCtx) 31).bridgeWords 0 6).2 = none := by decide +kernel
theorem test_safety_datagram : (after (.safetyDatagram 1 78 aDatagram) sSafe).fld SAF_BBDROP CNT_COUNT = 1 ∧
    (after (.arpRequest 4 7 0xA9FE603D) sSafe).outbox.length = 1 ∧ (after (.arpRequest 1 7 5) sSafe).outbox = [] := by decide +kernel

/-! ### Witnesses and effects: the register port, redundant pairs -/

/-- O50: addresses of each kind; 24_register_map.md: a stray write changes SOP2_SCHEDID. -/
theorem witness_register_writes : (0x20001 : BitVec 24).toNat % 4 ≠ 0 ∧ aliasOf 0x600000 = none ∧ aliasOf 0x128090 = some 0x120010 ∧
    aliasOf 0x20010 = some 0x20010 ∧ (rowOf 0x20010).isSome = true ∧ (0x20010 : Nat) ∉ [SYS_MODECFG, ANX_EPRST, ANY_EPRST, WAY_CMD] := by
  decide +kernel
/-- O50: a core that runs a task of a voted placement and one at K, both outside a cycle; a DMA channel with work; a counter, whose
LOST is set. -/
theorem witness_access_faults : sT.cores[site.core].atK = false ∧ placeVoted sT.tasks[sT.cores[site.core].taskid.toNat % 64].place = true ∧
    sT.cores[site.core].isOpen = false ∧ sT.cores[site.core].td = false ∧ sK.cores[site.core].atK = true ∧
    ((sMoves aDesc).dma.ch[3]).isSome = true ∧
    (∃ r, rowOf ANX_MISCNT = some r ∧ r.rw ≠ 0 ∧ r.w1c.testBit 31 = true) ∧ aliasOf ANX_MISCNT = some ANX_MISCNT ∧
    ((after (.registerWrite ⟨.bellows, true⟩ (BitVec.ofNat 24 ANX_MISCNT) 5) State.reset).reg ANX_MISCNT) = 0x80000005 := by
  refine ⟨by decide +kernel, by decide +kernel, by decide +kernel, by decide +kernel, by decide +kernel, by decide +kernel,
    ⟨_, rfl, by decide, by decide⟩, by decide +kernel, by decide +kernel⟩
theorem test_stray_write : (after (.registerWrite ⟨.core 2, false⟩ 0x128090 1) State.reset).reg 0x120010 = 1 ∧
    (after (.registerWrite ⟨.core 2, false⟩ 0x128091 1) State.reset).reg 0x120010 = 0 ∧
    (after .wayPurge State.reset).fld WAY_CMD WAY_CMD_PURGE = 1 := by decide +kernel

/-- A member of a pair in a pair state: pair epoch 9, rings 3 and 5 dual-homed, all links of the coupler usable. -/
def sPair (role pstate : Nat) : State :=
  let s := (sRun.putFld CPL_STATE CPL_STATE_PSTATE pstate).putFld CPL_STATE CPL_STATE_PEPOCH 9
  let s := (s.putFld CPL_STATE CPL_STATE_PARTNER (if pstate = 0 then 2 else 0)).putFld BLW_STAGE BLW_STAGE_CPLOK 15
  { s with cpl := { s.cpl with member := true, paired := true, peer := 0, strike := true,
                               cfg := CPL_CFG_DHRINGS.put 0x28 (CPL_CFG_ROLE.put role (CPL_CFG_EN.put 1 0)) } }
def linked (s : State) : State := s.putFld CPL_STATE CPL_STATE_LINKS 0xF

/-- O51: a member's link that is down, up, paused; a module that sends records. -/
theorem witness_links : State.reset.cpl.member = false ∧ (sPair 0 0).cpl.member = true ∧
    bitAt ((sPair 0 0).fld CPL_STATE CPL_STATE_LINKS) 3 = false ∧ bitAt ((sPair 0 0).fld BLW_STAGE BLW_STAGE_CPLOK) 3 = true ∧
    bitAt ((linked (sPair 0 0)).fld CPL_STATE CPL_STATE_LINKS) 3 = true ∧ (linked (sPair 0 0)).sendsRecords = true ∧
    (linked (sPair 0 0)).usableLinks = [0, 1, 2, 3] ∧ (sPair 0 0).usableLinks = [] ∧ (sPair 0 2).sendsRecords = false ∧
    ((sPair 0 0).putFld CPL_STATE CPL_STATE_LINKS 8).upLinks = [3] ∧ (sPair 0 2).pstate = psReady := by decide +kernel
theorem test_links : let t := after (.couplerLinkDown 3) ((sPair 0 0).putFld CPL_STATE CPL_STATE_LINKS 8)
    t.partner = psIsolated ∧ t.fld CPL_HBLOSS CNT_COUNT = 1 ∧ (after (.pauseWord 3) (linked (sPair 0 0))).usableLinks = [0, 1, 2] ∧
      ((sRing.ring 5).guard < (10 ^ 6 : Int).natAbs) ∧ sRing.ringState 5 = ringRun := by decide +kernel

/-- A packet of the pair. -/
def packet (frame pseq : Nat) : PairHead := { link := 0, ok := true, pepoch := 9, fcnt := BitVec.ofNat 32 frame, pseq := pseq }
/-- A record of frame 7 that is closed and not complete. -/
def recorded (pstate frame : Nat) : State :=
  (sPair 0 pstate).modCpl fun k => { k with
    records := [{ frame := frame, count := 1, bytes := 64, lines := [] }]
    sent := [(0, { frame := frame, pseq := 0, item := .purge })] }
/-- O52: packets of the right and of another epoch, records that lack a packet and that are complete, late records. -/
theorem witness_pair_records : (packet 7 0).pepoch.toNat = (sPair 0 2).pairEpoch ∧ ({ packet 7 0 with pepoch := 8 } : PairHead).pepoch.toNat ≠ (sPair 0 2).pairEpoch ∧
    (sPair 0 1).pstate = psSyncing ∧ copiedReg (SOP_CON_W0 5 1) = true ∧ (sPair 0 2).missingPackets 7 1 = [0] ∧
    (sPair 0 2).missingPackets 7 0 = [] ∧ (sPair 0 1).offsetGood = true ∧ (sPair 0 1).isSet LANE_STATUS LANE_STATUS_SAFEFAIL = false ∧
    ((recorded 0 7).cpl.records.find? fun x => x.frame == 7).map (·.bytes) = some 64 ∧ (sPair 0 2).cpl.complete = [] ∧
    ((sPair 0 2).modCpl fun k => { k with complete := [8, 7] }).nextRecord = some 7 ∧
    2 ≤ (BitVec.ofNat 32 (((sPair 0 2).setReg FRM_FCOUNTL 9).frameCount) - BitVec.ofNat 32 7).toNat ∧
    ¬ 2 ≤ (BitVec.ofNat 32 (((sPair 0 2).setReg FRM_FCOUNTL 8).frameCount) - BitVec.ofNat 32 7).toNat := by decide +kernel
theorem test_pair_records : let t := after (.dataPacket (packet 7 0) [.purge]) (sPair 0 2)
    t.cpl.staged.length = 1 ∧ t.missingPackets 7 1 = [] ∧ (after (.marker (packet 7 0) 1 false) t).cpl.complete = [7] ∧
      (after (.dataPacket { packet 7 0 with ok := false } []) (sPair 0 2)).fld CPL_PKTERR CNT_COUNT = 1 ∧
      (after .recordLate ((recorded 0 7).setReg FRM_FCOUNTL 9)).cpl.fullDue = true ∧
      (after .recordLate ((recorded 0 7).setReg FRM_FCOUNTL 8)).cpl.fullDue = (recorded 0 7).cpl.fullDue ∧
      (after (.couplerAck (packet 7 0) [] true) (recorded 0 7)).cpl.records = [] := by decide +kernel

/-- The partner's capability word: the other role, the same rings; its versions are what the module's limits allow. -/
def aCap (compat : Nat) : CapWord :=
  { compat := BitVec.ofNat 32 compat, alternate := true, dhrings := 0x28, version := 0, lowest := 0, highest := 0xFFFFFFFF, program := [], config := [],
    formats := [] }
/-- O53: each pair state, a switch that is due, the soak, a lost partner. -/
theorem witness_switches : (sPair 0 2).capCheck (aCap 0x12345) = 1 ∧ (sPair 0 3).pstate = psIsolated ∧ (sPair 0 3).cpl.contact = false ∧
    (sPair 0 3).cpl.peer = psActive ∧ (sPair 1 0).alternate = true ∧ (sPair 1 0).partner = psReady ∧ (sPair 0 0).alternate = false ∧
    (let l := (sPair 0 2).modCpl fun k => { k with lost := true }
     l.cpl.lost = true ∧ l.switchDue = true ∧ l.cpl.complete = [] ∧ l.pstate = psReady) ∧
    (let k := (sPair 0 2).modCpl fun k => { k with soak := 10 * 1000000000 }
     k.partner = psActive ∧ k.cpl.asked = 0 ∧ k.cpl.switchAt = none ∧
       clampNat 10 3600 ((k.putFld CPL_SOAK CPL_SOAK_SOAK 0).fld CPL_SOAK CPL_SOAK_SOAK) * 1000000000 = k.cpl.soak) ∧
    (let h := (sPair 0 0).modCpl fun k => { k with switchAt := some (1, true), quiet := 8 }
     1 ≤ h.frame.nextTick ∧ h.quietFrame = true ∧ h.quietRecordDone = true) ∧
    (sPair 0 2).standby = true ∧ (sPair 0 2).laneState 1 ≠ lsOut ∧
    (sPair 0 0).isSet CPL_COMMAND CPL_COMMAND_SWITCH = false ∧ (sPair 0 0).dualHomed 3 = true := by decide +kernel
/-- A capability word that the module accepts, where its version limits accept any version at all. -/
theorem witness_cap (h : Config.partnerLowest.toNat ≤ Config.partnerHighest.toNat) :
    (sPair 0 3).capCheck { aCap 1 with
      version := Config.partnerLowest, formats := State.reset.update.formats, program := (sPair 0 3).ownProgramDigest,
      config := (sPair 0 3).ownConfigDigest } = 0 := by
  have e : (sPair 0 3).fld SYS_COMPAT SYS_COMPAT_COMPAT = 1 ∧ (sPair 0 3).alternate = false ∧ (sPair 0 3).activeVersion 1 = 0 ∧
      CPL_CFG_DHRINGS.get (sPair 0 3).cpl.cfg = 0x28 ∧ (sPair 0 3).update.formats = State.reset.update.formats := by decide +kernel
  simp [State.capCheck, aCap, within, e, h]
theorem test_takeover_request : let t := after (.takeoverRequest (packet 0 0) .takeover) (sPair 0 2)
    t.cpl.switchAt = some ((sPair 0 2).frame.nextTick, false) ∧ t.cpl.lost = true ∧
      (after (.takeoverRequest (packet 0 0) .takeover) (sPair 0 1)).cpl.lost = false ∧
      ((after (.takeoverRequest (packet 0 0) .handBack) (sPair 1 0)).cpl.switchAt).isSome = true := by decide +kernel
theorem test_scan : (after (.temperScan 1 true) (sPair 0 2)).cpl.scanning = some (1, 1) ∧ (after (.temperScan 1 false) (sPair 0 2)).laneState 1 = lsOut ∧
    (after .stepDown ((sPair 1 0).modRing 3 fun k => { k with rivals := 2 })).cpl.stepDownDue = true := by decide +kernel

/-! ### Witnesses and effects: inputs, outputs, loops -/

/-- FG1 is on; DI5 has the resistor diagnostic and FILT 20, its contact open. -/
def sDio : State :=
  let s := ((sRun.flag (DIO_DICFG 5) DIO_DICFG_EN).putFld (DIO_DICFG 5) DIO_DICFG_FILT 20)
  { s with dio := { s.dio with fg1 := true, startPending := false, startDone := true } }
def sample (nA : Int) : DioSample := { adc := List.replicate 16 nA, back := 0, excess := 0, settled := 0, since := 0 }
/-- Two samples below 0.35 mA. -/
def twice (s : State) : State := s.modDi 5 fun k => { k with row := 0, rowCount := 2 }

/-- O54: inputs that are enabled and disabled, fault rows, a third sample, outputs that agree and that do not. -/
theorem witness_inputs : sDio.dio.fg1 = true ∧ State.reset.dio.fg1 = false ∧ (sDio.diCfgNow 5).en = true ∧ (sDio.diCfgNow 4).en = false ∧
    sDio.dio.run = none ∧ currentRow (sDio.effCurrent 5 349999) = 0 ∧ currentRow (sDio.effCurrent 5 350000) = 1 ∧
    currentRow (sDio.effCurrent 5 600000) = 2 ∧ currentRow (sDio.effCurrent 5 1500000) = 3 ∧ currentRow (sDio.effCurrent 5 2000000) = 4 ∧
    currentRow (sDio.effCurrent 5 15000000) = 4 ∧ currentRow (sDio.effCurrent 5 15000001) = 5 ∧ faultRow false 1 = true ∧
    faultRow true 1 = false ∧ faultRow true 5 = true ∧ faultRow false 2 = false ∧ ((twice sDio).di 5).row = 0 ∧
    ((twice sDio).di 5).rowCount = 2 ∧ sDio.doLatched 3 = false ∧ sDio.isSet DIO_STATUS DIO_STATUS_FG1OFF = false ∧
    sDio.dio.srcOff.getLsbD 1 = false ∧ (sDio.diCfgNow 5).src = 0 ∧ sDio.bellows.restarting = false ∧ sDio.doCmd 3 = false := by decide +kernel

theorem test_inputs : let s := (sDio.flag (DIO_DICFG 5) DIO_DICFG_DIAG).modDi 5 fun k => { k with count := 18 }
    (after (.diSample (sample 2000000)) s).filtered 5 = false ∧
      (after (.diSample (sample 2000000)) (after (.diSample (sample 2000000)) s)).filtered 5 = true ∧
      (after (.diSample (sample 350000)) s).diLatched 5 = false ∧
      ((after (.faultAbsentTimeout 5) (s.putBit DIO_DILATCH 0 5 true)).di 5).ready = true := by decide +kernel
theorem test_outputs : (after .testTestIssue sDio).dio.run.isSome = true ∧ (after .testRunEnd (after .testTestIssue sDio)).dio.run = none ∧
    (after (.testRunStart .startup) sDio).dio.run = none ∧
    (after (.diSample { sample 1100000 with excess := 8 }) (sDio.setDoCmd 3 true)).doLatched 3 = true ∧
    (after (.diSample { sample 1100000 with excess := 8 }) sDio).doLatched 3 = false ∧
    (after (.doLoadMeasure 3 2) sDio).fld DIO_STATUS DIO_STATUS_LOADW = 1 ∧
    (after (.tpOverload 0 120) sDio).diLatched 5 = true ∧ (after (.tpOverload 1 120) sDio).diLatched 5 = false ∧ (after (.tpOverload 0 120) sDio).dio.srcOff = 1 ∧
    (after .fg1Loss sDio).fld DIO_STATUS DIO_STATUS_FG1OFF = 1 := by decide +kernel

/-- AO2 in source mode, driven at 20 mA by an owned point. -/
def sLoop : State :=
  let s := sRun.modLoop 2 fun k => { k with openRun := 9, backRun := 9, wireRun := 9 }
  let s := s.modLoop 2 fun k => { k with cfg := LOOP_CFG_NE43.put 1 (LOOP_CFG_EN.put 1 0), powered := true, drive := 20000000, connected := true }
  { s with loop := { s.loop with fg2 := true },
           program := { aProgram with tasks := [(0, { aTask with slices := [{ aSlice with analog := true, output := true }] })] } }
def measure (nA : Nat) (mV : Int) (limited : Bool) : LoopMeasure :=
  { current := nA, volts := mV, supply := 26000, limited := limited, settled := true }

/-- O55: an open loop, a miswired one, one that cannot deliver (16_current_loops.md), one that differs. -/
theorem witness_loops : LOOP_CFG_EN.get (sLoop.loopCh 2).cfg = 1 ∧ LOOP_CFG_EN.get (sLoop.loopCh 1).cfg = 0 ∧ sLoop.loop.fg2 = true ∧
    sLoop.isSet LOOP_STATUS LOOP_STATUS_FG2OFF = false ∧ openSample (measure 99999 6001 false) 20000000 = true ∧
    openSample (measure 100000 6001 false) 20000000 = false ∧ wireSample (measure 0 26501 false) false = true ∧
    wireSample (measure 0 26500 false) false = false ∧ wireSample (measure 0 (-501) false) true = true ∧
    nonCompliant (measure 17140000 24000 true) 20000000 = true ∧ nonCompliant (measure 19976000 24000 true) 20000000 = false ∧
    backSample (measure 19799999 5000 false) 20000000 = true ∧ sLoop.loopRow 2 = 7 ∧ sLoop.loopCause 2 = 0 ∧
    (sLoop.loopCh 2).openRun = 9 ∧ loopRowFault 4 = true ∧ (sLoop.loopCh 2).thermal = false := by decide +kernel
theorem test_loops : (after (.loopSample 2 (measure 17140000 24000 true)) sLoop).bitOf LOOP_COMPLIANCE 0 2 = true ∧
    (after (.complianceTimeout 2) (after (.loopSample 2 (measure 17140000 24000 true)) sLoop)).loopCause 2 = 1 ∧
    (after (.loopSample 2 (measure 0 25000 false)) sLoop).loopCause 2 = 2 ∧
    (after (.loopSample 2 (measure 0 27000 false)) sLoop).loopCause 2 = 3 ∧
    (after (.loopSample 2 (measure 19799999 5000 false)) sLoop).loopCause 2 = 5 ∧
    ((after (.loopThermal 2 true) sLoop).loopCh 2).drive = 3500000 ∧
    ((after (.complianceTimeout 2) (after (.loopSample 2 (measure 17140000 24000 true)) sLoop)).loopCh 2).drive = 3500000 ∧
    ((after (.loopModeSettled 2) (sLoop.modLoop 2 fun k => { k with value := 24000000 })).loopCh 2).drive = 20500000 := by decide +kernel

/-! ### Witnesses and effects: Bellows, the recorder, updates, identity -/

def finding (good : BitVec 6) : StageFinding :=
  { good := good, verified := 0x3FF, sigOk := true, copyOk := true, program := aProgram, config := ⟨[], [], []⟩ }
def stage (n : Nat) : State := State.reset.setStage n

/-- O56: each stage, what defers a reset, the watchdog, a Bellows restart. -/
theorem witness_starts : State.reset.stageAllowed = true ∧ State.reset.startStage = 0 ∧ (stage 8).startStage = 8 ∧ (stage 8).stageAllowed = true ∧
    (stage 10).startStage = 10 ∧ (State.reset.flag BLW_WDTIME BLW_WDTIME_EN).isSet BLW_WDTIME BLW_WDTIME_EN = true ∧
    (State.reset.flag BLW_STATUS BLW_STATUS_PFAIL).isSet BLW_STATUS BLW_STATUS_PFAIL = true ∧
    ({ State.reset with update := { State.reset.update with recovery := true } } : State).stageAllowed = false ∧
    (after .bellowsWatchdogExpiry State.reset).bellows.restarting = true ∧ State.reset.bellows.restarting = false ∧
    (State.reset.boot (finding 1)).2 = true ∧ (State.reset.boot { finding 1 with verified := 0 }).2 = false ∧
    alwaysOn (EVR_RLIM_W0 0) = true := by decide +kernel
theorem test_starts : (after (.stagedStartStep (finding 1)) State.reset).startStage = 1 ∧
    (after (.stagedStartStep (finding 0)) State.reset).startStage = 15 ∧
    (after (.stagedStartStep (finding 0x2A)) (stage 5)).fld BLW_STAGE BLW_STAGE_RINGOK = 0x2A ∧
    (after (.laneRelease 3) (stage 8)).laneState 1 = lsAvailable ∧ (after (.laneRelease 3) (stage 8)).laneState 2 = lsOut ∧
    (after (.laneRelease 4) (stage 8)).startStage = 15 ∧ ((after (.laneRelease 3) (stage 8)).cores[0]).run = .running := by decide +kernel
/-- R503: indicators after reset, with a warning, in a failed start, in HOLD, and held in a Bellows restart. -/
theorem test_lamps : let w := State.reset.flag BLW_STATUS BLW_STATUS_PFAIL
    State.reset.lamps.pwr = .green ∧ w.lamps.pwr = .greenFlash ∧ State.reset.lamps.stage = .off ∧ (stage 15).lamps.stage = .redFlash ∧
      (State.reset.putFld SYS_MODE SYS_MODE_EFF effProg).runLamp = .greenFlash ∧ (State.reset.putFld SYS_MODE SYS_MODE_HOLD 1).runLamp = .off ∧
      State.reset.lamps.pair = .off ∧
      ((after .bellowsWatchdogExpiry State.reset).flag BLW_STATUS BLW_STATUS_PFAIL).lamps.pwr = .green := by decide +kernel
theorem test_watchdog : let s := after .runtimeWatchdogEnable State.reset
    (after (.runtimeWatchdogKey 0xA5) s).bellows.second = true ∧
      (after (.runtimeWatchdogKey 0x5A) s).fld SYS_RSTCAUSE SYS_RSTCAUSE_CAUSE = 5 ∧
      (after (.runtimeWatchdogKey 0x5A) (after (.runtimeWatchdogKey 0xA5) s)).bellows.second = false ∧
      (after (.moduleReset 6) s).fld SYS_RSTCAUSE SYS_RSTCAUSE_PREV = 1 := by decide +kernel

/-- O57: a rail out of its range, temperatures that are ordinary and critical. -/
def temps (t : BitVec 12) : Vector (BitVec 12) 8 := .replicate 8 t
theorem witness_supplies : State.reset.railGood 5 0 = false ∧ (stage 10).laneState 0 ≠ lsFenced ∧
    (¬ ∃ i : Fin 8, ∃ k ∈ (tempLevels i).2.2.1, k ≤ (temps 20)[i].toInt) ∧ (∃ i : Fin 8, ∃ k ∈ (tempLevels i).2.2.1, k ≤ (temps 2000)[i].toInt) ∧
    (State.reset.reg BLW_OPTIMEH).toNat < 256 := by decide +kernel
theorem test_supplies : (after (.powerFailWarning 7) State.reset).fld BLW_PFCNT CNT_COUNT = 1 ∧
    (after (.powerFailWarning 7) State.reset).reg BLW_ETOTL = 7 ∧
    (after (.railFault 5 0) State.reset).fld SYS_RSTCAUSE SYS_RSTCAUSE_CAUSE = 3 ∧
    (after (.tempSample (temps 2000)) State.reset).fld SYS_RSTCAUSE SYS_RSTCAUSE_CAUSE = 4 ∧
    (after (.holdtest 199) State.reset).fld BLW_STATUS BLW_STATUS_HOLDLOW = 1 ∧
    (after (.holdtest 200) State.reset).fld BLW_STATUS BLW_STATUS_HOLDLOW = 0 := by decide +kernel

/-- O58, with 21_event_recorder.md: SOP3 reports code 0x0101; the ninth event finds no token. -/
def raise : Instr := .eventRaise 0x13 0x0101 1 false [7]
def raised (n : Nat) : State := (List.range n).foldl (fun s _ => after raise s) State.reset
theorem witness_recorder : (State.reset.bucketOf 0x13 0x0101).tokens = 8000 ∧ ((raised 8).bucketOf 0x13 0x0101).tokens = 0 ∧
    ((raised 7).bucketOf 0x13 0x0101).tokens = 1000 ∧ State.reset.overridesFor 0x13 0x0101 = [] ∧ State.reset.recorder.buffer = [] ∧
    (after .evrFlush (raised 1)).isSet EVR_STATUS EVR_STATUS_FLUSHING = true ∧ (raised 1).recorder.clearWaits = false ∧
    (raised 1).bellows.deferred = none ∧ 4 ≤ State.reset.recorder.erasedAhead ∧
    ({ State.reset.recorder with retired := 266 } : Recorder).erasedAhead < 4 ∧
    (raised 1).evrNext = State.reset.evrNext + 1 ∧ ((raised 1).findRecord State.reset.evrNext).isSome = true ∧
    sLap.eff = effProg ∧ sLap.keyPos = keyProg := by decide +kernel
theorem test_recorder : (raised 9).recorder.buffer.length = 8 ∧ (raised 9).fld EVR_SUPPTOT CNT_COUNT = 1 ∧
    ((after .tokenCredit (raised 8)).bucketOf 0x13 0x0101).tokens = 4 ∧
    (after (.flushComplete 0) (after .evrFlush (raised 2))).recorder.log.length = 2 ∧
    (after .evrClear sLap).recorder.buffer.length = 1 := by decide +kernel

/-- O59: the siding, a trial, a challenge that is answered, key slots. -/
def sUpd (siding : Nat) (w : Option UpdWait) : State :=
  let s := (sLap.putFld UPD_SIDING UPD_SIDING_STATE siding).setReg UPD_LEN 0x100
  { s with update := { s.update with waiting := w } }
theorem witness_updates : (sUpd sdEmpty none).siding = sdEmpty ∧ (sUpd sdEmpty none).update.writing = none ∧
    ((sUpd sdEmpty none).reg UPD_OFF).toNat + ((sUpd sdEmpty none).reg UPD_LEN).toNat ≤ 0x4000000 ∧ (sUpd sdPending none).siding = sdPending ∧
    (sUpd sdArmed (some .apply)).update.waiting = some .apply ∧ (sUpd sdArmed (some .apply)).siding = sdArmed ∧
    (sUpd sdArmed (some .apply)).reg UPD_RESP = (sUpd sdArmed (some .apply)).reg UPD_CHAL ∧
    ((sUpd sdArmed (some .apply)).setReg UPD_CHAL 1).reg UPD_RESP ≠ 1 ∧
    (sUpd sdEmpty none).cpl.member = false ∧ (sUpd sdEmpty none).chg = chgNone ∧ (∀ c < 5, (sUpd sdEmpty none).inTrial c = false) ∧
    ((sUpd sdEmpty none).putFld (UPD_COMP_STATE 0) UPD_COMP_STATE_B0 bkTrial).inTrial 0 = true ∧
    (sUpd sdEmpty none).fld (SEC_PKEY 1) SEC_PKEY_SLOT = 0 ∧ (sUpd sdEmpty none).isSet SEC_CMD SEC_CMD_ATTEST = false ∧
    (after .attest (sUpd sdEmpty none)).update.attest.isSome = true := by decide +kernel
theorem test_updates : (after .sidingWrite (sUpd sdEmpty none)).siding = sdLoaded ∧
    (after .sidingWrite (sUpd sdPending none)).update.writing = none ∧
    (after (.apply false true) (sUpd sdArmed (some .apply))).siding = sdPending := by decide +kernel
theorem test_recovery : let s := after .updRecover (sUpd sdEmpty (some .recover))
    s.update.recovery = true ∧ s.startStage = 0 ∧ (after .recoveryAnnounce s).outbox.length = s.outbox.length + 1 := by decide +kernel

/-- O60 holds of the reset state itself: it is canonical and idle. -/
theorem test_reset : State.reset.canonical = true ∧ State.reset.pending = [] ∧ State.reset.fld SYS_RSTCAUSE SYS_RSTCAUSE_CAUSE = 1 := by
  decide +kernel

/-! ### SM3 and its MAC (GB/T 32905), the safety envelope (R340 to R345) -/

/-- The digest of the standard's first example, "abc". -/
theorem test_sm3 : sm3 [0x61, 0x62, 0x63] =
    beBytes 0x66C7F0F4 ++ beBytes 0x62EEEDD9 ++ beBytes 0xD1F2D46B ++ beBytes 0xDC10E4E2 ++ beBytes 0x4167C487 ++ beBytes 0x5CF2F7A2
      ++ beBytes 0x297DA02B ++ beBytes 0x8F4BA8E0 := by decide +kernel

/-- A MAC worked out by hand with another implementation of the two standards: key bytes 0 to 31, message "abc". -/
theorem test_hmac : (hmacSm3 (List.range 32) [0x61, 0x62, 0x63]).take 8 = [0xA8, 0xF9, 0x5C, 0xF2, 0x6F, 0x20, 0x49, 0x57] := by
  decide +kernel

/-- The check value that the polynomial's catalogue gives for "123456789". -/
theorem test_envelope_crc : envelopeCrc ([0x31, 0x32, 0x33, 0x34, 0x35, 0x36, 0x37, 0x38, 0x39].map (BitVec.ofNat 8)) = 0x1697D06A := by
  decide +kernel

def aConnection : EnvConnection := { cid := 7, n := 1, twd := 5000000, ageMax := 3000, safeData := [0] }
def envMessage (seq : Nat) (run : Bool) : Envelope :=
  { cid := 7, seq := BitVec.ofNat 32 seq, ptime := 100, run := run, failsafe := false, data := [42] }
def received (m : Envelope) : List (Word × Nat) := m.words.map fun w => (w, 0)
def hears (k : EnvConsumer) (m : Envelope) : EnvConsumer := k.release aConnection 200000 (received m)

/-- Rows 8, 9, 5, 6, 7 and 2 of R344. -/
theorem test_envelope :
    (hears .start (envMessage 3 true)).value aConnection = [42] ∧ (hears .start (envMessage 3 false)).mode = .wait ∧
    hears (hears .start (envMessage 3 true)) (envMessage 3 true) = hears .start (envMessage 3 true) ∧
    (hears (hears .start (envMessage 3 true)) (envMessage 258 true)).seqLast = 258 ∧
    (hears (hears .start (envMessage 3 true)) (envMessage 2 true)).mode = .failed ∧
    (hears (hears .start (envMessage 3 true)) (envMessage 2 true)).envSeq = 1 ∧
    let bad := (received (envMessage 4 true)).map fun w => (w.1 + 1, w.2)
    let k := (hears .start (envMessage 3 true)).release aConnection 200000 bad
    k.mode = .run ∧ k.envCrc = 1 ∧ (k.release aConnection 200000 bad).mode = .failed := by decide +kernel

end Sys2Proof.Tests
end

section
/-!
PROOFS. The Helin base instructions (03_helin_base.md): how a fetched instruction that completes or traps leaves its core, the
results of the integer instructions (O6), and those of the floating-point operations (O16).
-/

namespace Sys2Proof.Machine

/-! ### What a fetched instruction leaves -/

/-- After an access, the core that acts differs in its translation cache alone. -/
theorem Looks.core_eq {s u : State} {c : Fin 12} (h : Looks s u c) : u.cores[c] = { s.cores[c] with tlb := u.cores[c].tlb } := by
  rw [← h.core]

theorem Looks.td {s u : State} {c : Fin 12} (h : Looks s u c) : u.cores[c].td = s.cores[c].td := by
  rw [h.core_eq]
  rfl

theorem Looks.fcsr {s u : State} {c : Fin 12} (h : Looks s u c) : u.cores[c].fcsr = s.cores[c].fcsr := by
  rw [h.core_eq]

@[simp] theorem Core.instret_seth (k : Core) (r : BitVec 5) (v : DWord) : (k.seth r v).instret = k.instret := by
  unfold Core.seth
  split <;> rfl

/-- Two changes of one core are one change. -/
theorem State.modCore_modCore (s : State) (c : Fin 12) (f g : Core → Core) :
    (s.modCore c f).modCore c g = s.modCore c fun k => g (f k) := by
  unfold State.modCore State.setCore
  simp

theorem State.takeTrap_fcsr (s : State) (c : Fin 12) (code : Nat) (tval tpc : DWord) (off : Nat) (htd : s.cores[c].td = false) :
    (s.takeTrap c code tval tpc off).cores[c].fcsr = s.cores[c].fcsr := by
  simp only [State.trap_core _ _ _ _ _ _ htd, State.modCore_self]
  rfl

/-- Where TD is 0, a synchronous trap leaves sr.FCSR alone, also where it is a task fault. -/
theorem State.syncTrap_fcsr (s : State) (c : Fin 12) (code : Nat) (tval tpc : DWord) (htd : s.cores[c].td = false) :
    (s.syncTrap c code tval tpc).cores[c].fcsr = s.cores[c].fcsr := by
  have hf : (s.reportFault c (BitVec.ofNat 64 code) tval none).cores[c] = { s.cores[c] with ckstate := 0 } := by
    simp only [State.reportFault_core, State.modCore_self]
  unfold State.syncTrap
  dsimp only
  split
  · rw [State.takeTrap_fcsr _ _ _ _ _ _ (by rw [hf]; exact htd), hf]
  · exact State.takeTrap_fcsr _ _ _ _ _ _ htd

/-- A fetched instruction without effect on the state traps where TD is 0: R70, and sr.FCSR stays. -/
theorem trapped_of_body {s u : State} {x : Site} {c : Instr} {body : State → HRes} {code : Nat} {tval : DWord} (h : Fetches s x u)
    (htd : s.cores[x.core].td = false) (hc : exec c s = .next (s.helin x body)) (hb : body u = .trap u code tval) :
    ∃ t, exec c s = .next t ∧ Trapped s t x.core code tval ∧ t.cores[x.core].fcsr = s.cores[x.core].fcsr := by
  have hl := State.fetch_looks h.2.1
  refine ⟨_, hc, ?_⟩
  rw [State.helin_trap h hb]
  exact ⟨entered_of code tval _ hl.core hl.others htd, (State.syncTrap_fcsr _ _ _ _ _ (hl.td.trans htd)).trans hl.fcsr⟩

/-! ### Integer instructions (R73, R74) -/

/-- A command retires, writes a general register, and changes nothing else. -/
def RetiresInto (s u : State) (x : Site) (c : Instr) (rd : BitVec 5) (v : DWord) : Prop :=
  ∃ t, exec c s = .next t ∧ Retired s t x.core (s.cores[x.core].pc + 4) ∧ WroteH s.cores[x.core] t.cores[x.core] rd v ∧
    (∀ r, t.cores[x.core].getf r = s.cores[x.core].getf r) ∧ SameRest s.cores[x.core] t.cores[x.core] ∧ SameMemory s t ∧
    AgreeBut [.cores, .free] u t

/-- A fetched instruction whose effect is the write of a general register. -/
theorem retiresInto_of_body {s u : State} {x : Site} {c : Instr} {body : State → HRes} {rd : BitVec 5} {f : Core → DWord} {v : DWord}
    (h : Fetches s x u) (hc : exec c s = .next (s.helin x body)) (hb : body u = u.onCore x fun k => k.seth rd (f k))
    (hv : f u.cores[x.core] = v) : RetiresInto s u x c rd v := by
  have hl := State.fetch_looks h.2.1
  refine ⟨_, hc, ?_⟩
  rw [State.helin_done h hb]
  obtain ⟨hret, hh, hf, hrest, hmem, hagree, -⟩ :=
    retired_core (g := fun k => k.seth rd (f k)) (a := s.cores[x.core].pc + 4) h (fun k => Core.instret_seth k rd _) rfl
  rw [hv] at hh hf hrest
  obtain ⟨hrd, hother⟩ := wroteH_seth u.cores[x.core] rd v
  refine ⟨hret, ⟨(hh rd).trans hrd, fun r hr => ?_⟩, fun r => ?_, ?_, hmem, hagree⟩
  · rw [hh, hother r hr, hl.geth]
  · rw [hf, Core.getf_seth, hl.getf]
  · exact (hl.sameRest.trans (sameRest_seth _ rd v)).trans hrest

/-- An OP whose operation gives a value. -/
theorem op_retiresInto {s u : State} {x : Site} (h : Fetches s x u) {func : BitVec 12} {ra rb : BitVec 5} (rd : BitVec 5) {v : DWord}
    (hv : opEval func (s.cores[x.core].geth ra) (s.cores[x.core].geth rb) rb = .value v) :
    RetiresInto s u x (.op x func rd ra rb) rd v := by
  have hl := State.fetch_looks h.2.1
  exact retiresInto_of_body (f := fun _ => v) h rfl (by simp only [hl.geth, hv]) rfl

/-- An OP whose operation divides by zero. -/
theorem op_traps_divideByZero {s u : State} {x : Site} (h : Fetches s x u) (htd : s.cores[x.core].td = false) {func : BitVec 12}
    {ra rb : BitVec 5} (rd : BitVec 5) (hv : opEval func (s.cores[x.core].geth ra) (s.cores[x.core].geth rb) rb = .divideByZero) :
    ∃ t, exec (.op x func rd ra rb) s = .next t ∧ Trapped s t x.core 0x0A (wordTval (encA 1 rd ra rb func)) := by
  have hl := State.fetch_looks h.2.1
  obtain ⟨t, hexec, htrap, -⟩ := trapped_of_body (code := 0x0A) (tval := wordTval (encA 1 rd ra rb func))
    (c := .op x func rd ra rb) h htd rfl (by simp only [hl.geth, hv])
  exact ⟨t, hexec, htrap⟩

theorem divRes_zero {w : Nat} (sx : BitVec w → DWord) (signed rem : Bool) (a : BitVec w) :
    divRes sx signed rem a 0 = .divideByZero := if_pos rfl

theorem opEval_divisions (a b : DWord) (rb : BitVec 5) :
    opEval 0x014 a b rb = divRes id true false a b ∧ opEval 0x015 a b rb = divRes id false false a b ∧
    opEval 0x016 a b rb = divRes id true true a b ∧ opEval 0x017 a b rb = divRes id false true a b := ⟨rfl, rfl, rfl, rfl⟩

theorem opEval_divisions32 (a b : DWord) (rb : BitVec 5) :
    opEval 0x034 a b rb = divRes sx32 true false (lo32 a) (lo32 b) ∧
    opEval 0x035 a b rb = divRes sx32 false false (lo32 a) (lo32 b) ∧
    opEval 0x036 a b rb = divRes sx32 true true (lo32 a) (lo32 b) ∧
    opEval 0x037 a b rb = divRes sx32 false true (lo32 a) (lo32 b) := ⟨rfl, rfl, rfl, rfl⟩

/-- Every division of R74 answers a zero divisor so. -/
theorem opEval_zero_divisor {func : BitVec 12} (a : DWord) {b : DWord} (rb : BitVec 5)
    (h : (func ∈ [0x014, 0x015, 0x016, 0x017] ∧ b = 0) ∨ (func ∈ [0x034, 0x035, 0x036, 0x037] ∧ lo32 b = 0)) :
    opEval func a b rb = .divideByZero := by
  simp only [List.mem_cons, List.not_mem_nil, or_false] at h
  obtain ⟨hf, hb⟩ | ⟨hf, hb⟩ := h
  · obtain rfl | rfl | rfl | rfl := hf <;> simp only [opEval_divisions, hb, divRes_zero]
  · obtain rfl | rfl | rfl | rfl := hf <;> simp only [opEval_divisions32, hb, divRes_zero]

/-- The one signed quotient of 64 bits that does not fit, and its remainder. -/
theorem opEval_div_wraps (rb : BitVec 5) :
    opEval 0x014 0x8000000000000000 (-1) rb = .value 0x8000000000000000 ∧ opEval 0x016 0x8000000000000000 (-1) rb = .value 0 := by
  simp only [opEval_divisions]
  decide

/-- The one signed quotient of 32 bits that does not fit, and its remainder. -/
theorem opEval_div32_wraps {a b : DWord} (rb : BitVec 5) (ha : lo32 a = 0x80000000) (hb : lo32 b = -1) :
    opEval 0x034 a b rb = .value (sx32 (lo32 a)) ∧ opEval 0x036 a b rb = .value 0 := by
  simp only [opEval_divisions32, ha, hb]
  decide

/-- Settles O6: each value is what the effect writes on the core that the fetch leaves, and R74's cases are values or traps of
`opEval`. -/
theorem integerResults : Obligations.IntegerResults := by
  unfold Obligations.IntegerResults
  intro s u x h k into rd ra rb
  have hg : u.cores[x.core].geth ra = k.geth ra := (State.fetch_looks h.2.1).geth ra
  refine ⟨fun imm => ?addi, fun imm => ?andi, fun imm => ?ori, fun imm => ?lui, fun func v => op_retiresInto h rd,
    fun htd func hz => op_traps_divideByZero h htd rd (opEval_zero_divisor _ rb hz), fun ha hb => ?div64, fun ha hb => ?div32,
    op_retiresInto h rd rfl, op_retiresInto h rd rfl, op_retiresInto h rd rfl, op_retiresInto h rd rfl, op_retiresInto h rd rfl,
    op_retiresInto h rd rfl⟩
  case addi => exact retiresInto_of_body (f := fun k => k.geth ra + sext17 imm) h rfl rfl (by rw [hg])
  case andi => exact retiresInto_of_body (f := fun k => k.geth ra &&& zext17 imm) h rfl rfl (by rw [hg])
  case ori => exact retiresInto_of_body (f := fun k => k.geth ra ||| zext17 imm) h rfl rfl (by rw [hg])
  case lui => exact retiresInto_of_body (f := fun _ => luiValue imm) h rfl rfl rfl
  case div64 =>
    obtain ⟨hdiv, hrem⟩ := opEval_div_wraps rb
    rw [← ha, ← hb] at hdiv hrem
    exact ⟨op_retiresInto h rd hdiv, op_retiresInto h rd hrem⟩
  case div32 =>
    obtain ⟨hdiv, hrem⟩ := opEval_div32_wraps rb ha hb
    exact ⟨op_retiresInto h rd hdiv, op_retiresInto h rd hrem⟩

/-! ### Floating-point operations (R81 to R83) -/

@[simp] theorem Core.geth_raiseFlags (k : Core) (flags : Nat) (r : BitVec 5) : (k.raiseFlags flags).geth r = k.geth r := rfl
@[simp] theorem Core.getf_raiseFlags (k : Core) (flags : Nat) (r : BitVec 5) : (k.raiseFlags flags).getf r = k.getf r := rfl

theorem sameRest_raiseFlags {j k : Core} (flags : Nat) (h : SameRest j k) : SameRest (j.raiseFlags flags) (k.raiseFlags flags) := by
  unfold SameRest at h
  rw [← h]
  rfl

/-- What an FP instruction answers on a core. -/
def Core.fpAnswer (k : Core) (func : BitVec 12) (rd ra rb : BitVec 5) : FpRes :=
  fpEval func rb (k.getf ra) (k.getf rb) (k.getf rd) (k.geth ra) (bitsAt k.fcsr.toNat 10 3)

theorem Looks.fpAnswer {s u : State} {c : Fin 12} (h : Looks s u c) (func : BitVec 12) (rd ra rb : BitVec 5) :
    u.cores[c].fpAnswer func rd ra rb = s.cores[c].fpAnswer func rd ra rb := by
  unfold Core.fpAnswer
  simp only [h.getf, h.geth, h.fcsr]

theorem Looks.fpTraps {s u : State} {c : Fin 12} (h : Looks s u c) (flags : Nat) :
    u.cores[c].fpTraps flags = s.cores[c].fpTraps flags := by
  unfold Core.fpTraps
  rw [h.fcsr]

/-- What an FP instruction with an answer ends in: its flags are raised, and it traps or changes its core by `g` (R83). -/
def State.fpFinish (s : State) (x : Site) (w : DWord) (flags : Nat) (g : Core → Core) : HRes :=
  let t := s.modCore x.core fun k => k.raiseFlags flags
  if s.cores[x.core].fpTraps flags then .trap t 0x0C w else t.onCore x g

/-- The effect of an FP instruction (`exec_fp`). -/
def State.fpEffect (s : State) (x : Site) (func : BitVec 12) (rd ra rb : BitVec 5) : HRes :=
  let w := wordTval (encA 24 rd ra rb func)
  match s.cores[x.core].fpAnswer func rd ra rb with
  | .illegal => .trap s 0x00 w
  | .toF bits flags => s.fpFinish x w flags fun k => k.setf rd (BitVec.ofNat 64 bits)
  | .toH v flags => s.fpFinish x w flags fun k => k.seth rd v

theorem exec_fp (x : Site) (func : BitVec 12) (rd ra rb : BitVec 5) (s : State) :
    exec (.fp x func rd ra rb) s = .next (s.helin x fun s => s.fpEffect x func rd ra rb) := rfl

/-- A command retires with flags raised, keeps what `keep` says of its core's registers, and changes nothing else. -/
def RetiresRaising (s u : State) (x : Site) (c : Instr) (flags : Nat) (keep : Core → Prop) : Prop :=
  ∃ t, exec c s = .next t ∧ Retired s t x.core (s.cores[x.core].pc + 4) ∧ keep t.cores[x.core] ∧
    SameRest (s.cores[x.core].raiseFlags flags) t.cores[x.core] ∧ SameMemory s t ∧ AgreeBut [.cores, .free] u t

section Answers

variable {s u : State} {x : Site} {func : BitVec 12} {rd ra rb : BitVec 5} {flags : Nat}

/-- An FP instruction whose flags trap nothing retires, with the flags raised and its core changed by `g`. -/
theorem fp_retires {g : Core → Core} (h : Fetches s x u) (hn : s.cores[x.core].fpTraps flags = false)
    (hb : u.fpEffect x func rd ra rb = u.fpFinish x (wordTval (encA 24 rd ra rb func)) flags g)
    (hi : ∀ k, (g k).instret = k.instret) (hg : ∀ k, SameRest k (g k)) :
    RetiresRaising s u x (.fp x func rd ra rb) flags fun k' =>
      (∀ r, k'.geth r = (g (u.cores[x.core].raiseFlags flags)).geth r) ∧
      ∀ r, k'.getf r = (g (u.cores[x.core].raiseFlags flags)).getf r := by
  have hl := State.fetch_looks h.2.1
  have hdone : u.fpEffect x func rd ra rb = .done (u.modCore x.core fun k => g (k.raiseFlags flags)) := by
    rw [hb, ← State.modCore_modCore]
    exact if_neg (by rw [hl.fpTraps, hn]; decide)
  refine ⟨_, exec_fp x func rd ra rb s, ?_⟩
  rw [State.helin_done h hdone]
  obtain ⟨hret, hh, hf, hrest, hmem, hagree, -⟩ :=
    retired_core (g := fun k => g (k.raiseFlags flags)) (a := s.cores[x.core].pc + 4) h (fun k => hi _) rfl
  exact ⟨hret, ⟨hh, hf⟩, ((sameRest_raiseFlags flags hl.sameRest).trans (hg _)).trans hrest, hmem, hagree⟩

/-- An answer for a floating-point register. -/
theorem fp_retires_toF {bits : Nat} (h : Fetches s x u) (hn : s.cores[x.core].fpTraps flags = false)
    (he : s.cores[x.core].fpAnswer func rd ra rb = .toF bits flags) :
    RetiresRaising s u x (.fp x func rd ra rb) flags fun k' =>
      WroteF s.cores[x.core] k' rd (BitVec.ofNat 64 bits) ∧ ∀ r, k'.geth r = s.cores[x.core].geth r := by
  have hl := State.fetch_looks h.2.1
  obtain ⟨t, hexec, hret, ⟨hh, hf⟩, hframe⟩ := fp_retires (g := fun k => k.setf rd (BitVec.ofNat 64 bits)) h hn
    (by unfold State.fpEffect; rw [hl.fpAnswer, he]) (fun _ => rfl) fun k => sameRest_setf k rd _
  obtain ⟨hrd, hother⟩ := wroteF_setf (u.cores[x.core].raiseFlags flags) rd (BitVec.ofNat 64 bits)
  refine ⟨t, hexec, hret, ⟨⟨(hf rd).trans hrd, fun r hr => ?_⟩, fun r => ?_⟩, hframe⟩
  · rw [hf, hother r hr, Core.getf_raiseFlags, hl.getf]
  · rw [hh, Core.geth_setf, Core.geth_raiseFlags, hl.geth]

/-- An answer for a general register. -/
theorem fp_retires_toH {v : DWord} (h : Fetches s x u) (hn : s.cores[x.core].fpTraps flags = false)
    (he : s.cores[x.core].fpAnswer func rd ra rb = .toH v flags) :
    RetiresRaising s u x (.fp x func rd ra rb) flags fun k' =>
      WroteH s.cores[x.core] k' rd v ∧ ∀ r, k'.getf r = s.cores[x.core].getf r := by
  have hl := State.fetch_looks h.2.1
  obtain ⟨t, hexec, hret, ⟨hh, hf⟩, hframe⟩ := fp_retires (g := fun k => k.seth rd v) h hn
    (by unfold State.fpEffect; rw [hl.fpAnswer, he]) (fun k => Core.instret_seth k rd v) fun k => sameRest_seth k rd v
  obtain ⟨hrd, hother⟩ := wroteH_seth (u.cores[x.core].raiseFlags flags) rd v
  refine ⟨t, hexec, hret, ⟨⟨(hh rd).trans hrd, fun r hr => ?_⟩, fun r => ?_⟩, hframe⟩
  · rw [hh, hother r hr, Core.geth_raiseFlags, hl.geth]
  · rw [hf, Core.getf_seth, Core.getf_raiseFlags, hl.getf]

end Answers

/-- A trap sees nothing of the flags raised before it. -/
theorem Entered.of_raiseFlags {s t : State} {c : Fin 12} {code off n flags : Nat} {tval tpc : DWord}
    (h : Entered (s.modCore c fun k => k.raiseFlags flags) t c code tval tpc off n) : Entered s t c code tval tpc off n :=
  have hk : (s.modCore c fun k => k.raiseFlags flags).cores[c] = s.cores[c].raiseFlags flags := s.modCore_self c _
  { h with
    tstatus := by rw [h.tstatus, hk]; rfl
    pc := by rw [h.pc, hk]; rfl
    instret := by rw [h.instret, hk]; rfl
    h := fun r => by rw [h.h, hk, Core.geth_raiseFlags]
    f := fun r => by rw [h.f, hk, Core.getf_raiseFlags]
    others := fun d hd => by rw [h.others d hd, State.modCore_ne _ _ _ _ hd] }

/-- Raising flags changes a core that an access has left, and the core before it, alike. -/
theorem Looks.raiseFlags_core {s u : State} {c : Fin 12} (h : Looks s u c) (flags : Nat) :
    { u.cores[c].raiseFlags flags with tlb := (s.cores[c].raiseFlags flags).tlb } = s.cores[c].raiseFlags flags := by
  rw [h.core_eq]
  rfl

/-- A raised flag whose enable is set: the flags stay raised, the register is not written, and the instruction traps (R83). -/
theorem fp_traps_flags {s u : State} {x : Site} {func : BitVec 12} {rd ra rb : BitVec 5} {flags : Nat} {g : Core → Core}
    (h : Fetches s x u) (htd : s.cores[x.core].td = false) (ht : s.cores[x.core].fpTraps flags = true)
    (hb : u.fpEffect x func rd ra rb = u.fpFinish x (wordTval (encA 24 rd ra rb func)) flags g) :
    ∃ t, exec (.fp x func rd ra rb) s = .next t ∧ Trapped s t x.core 0x0C (wordTval (encA 24 rd ra rb func)) ∧
      t.cores[x.core].fcsr = s.cores[x.core].fcsr ||| BitVec.ofNat 64 (flags % 32) := by
  have hl := State.fetch_looks h.2.1
  have htrap : u.fpEffect x func rd ra rb =
      .trap (u.modCore x.core fun k => k.raiseFlags flags) 0x0C (wordTval (encA 24 rd ra rb func)) := by
    rw [hb]
    exact if_pos (hl.fpTraps flags ▸ ht)
  refine ⟨_, exec_fp x func rd ra rb s, ?_⟩
  rw [State.helin_trap h htrap]
  refine ⟨Entered.of_raiseFlags (flags := flags) (entered_of _ _ _ ?_ (fun d hd => ?_) ?_), ?_⟩
  · rw [State.modCore_self, State.modCore_self]
    exact hl.raiseFlags_core flags
  · rw [State.modCore_ne _ _ _ _ hd, State.modCore_ne _ _ _ _ hd, hl.others d hd]
  · rw [State.modCore_self]
    exact htd
  · rw [State.syncTrap_fcsr _ _ _ _ _ (by rw [State.modCore_self]; exact hl.td.trans htd), State.modCore_self, ← hl.fcsr]
    rfl

/-- An FP instruction without meaning traps and raises no flag. -/
theorem fp_traps_illegal {s u : State} {x : Site} {func : BitVec 12} {rd ra rb : BitVec 5} (h : Fetches s x u)
    (htd : s.cores[x.core].td = false) (he : s.cores[x.core].fpAnswer func rd ra rb = .illegal) :
    ∃ t, exec (.fp x func rd ra rb) s = .next t ∧ Trapped s t x.core 0x00 (wordTval (encA 24 rd ra rb func)) ∧
      t.cores[x.core].fcsr = s.cores[x.core].fcsr :=
  trapped_of_body h htd (exec_fp x func rd ra rb s) <| by
    unfold State.fpEffect
    rw [(State.fetch_looks h.2.1).fpAnswer, he]

/-- Dynamic rounding has no mode in effect while sr.FCSR.RM holds a reserved one (R83). -/
theorem effectiveRm_dynamic_reserved {m : Nat} (hm : m ∈ [5, 6, 7]) : effectiveRm 7 m = none := by
  simp only [List.mem_cons, List.not_mem_nil, or_false] at hm
  obtain rfl | rfl | rfl := hm <;> rfl

/-- An operation that takes a rounding mode has no meaning where none is in effect. -/
theorem fpEval_illegal_of_rm {func : BitVec 12} {m : Nat} (rb : BitVec 5) (fa fb fd ha : DWord)
    (ht : fpTakesRm (bitsAt func.toNat 6 6) = true) (hrm : effectiveRm (bitsAt func.toNat 2 3) m = none) :
    fpEval func rb fa fb fd ha m = .illegal := by
  unfold fpEval
  simp only [ht, hrm, if_true]
  split <;> rfl

/-- Settles O16: an answer either retires with its flags raised or traps on one of them, and no answer is an illegal
instruction, which a reserved dynamic rounding mode is too. -/
theorem floatingPoint : Obligations.FloatingPoint := by
  unfold Obligations.FloatingPoint
  intro s u x func rd ra rb flags h k e runs
  have hl := State.fetch_looks h.2.1
  have hu : u.cores[x.core].fpAnswer func rd ra rb = e := hl.fpAnswer func rd ra rb
  refine ⟨fun hn => ⟨fun bits he => fp_retires_toF h hn he, fun v he => fp_retires_toH h hn he⟩,
    fun htd => ⟨fun ht he => ?flags, fun hrm hdyn hres => fp_traps_illegal h htd ?dynamic, fun he => fp_traps_illegal h htd he⟩⟩
  case flags =>
    obtain ⟨bits, he⟩ | ⟨v, he⟩ := he
    · exact fp_traps_flags (g := fun k => k.setf rd (BitVec.ofNat 64 bits)) h htd ht (by unfold State.fpEffect; rw [hu, he])
    · exact fp_traps_flags (g := fun k => k.seth rd v) h htd ht (by unfold State.fpEffect; rw [hu, he])
  case dynamic =>
    exact fpEval_illegal_of_rm rb _ _ _ _ hrm (by rw [hdyn]; exact effectiveRm_dynamic_reserved hres)

end Sys2Proof.Machine
end
